-- ==== Sys2Proof/Word.lean ====
section
/-!
DEFINITION. The words of the machine (00 R7, 13 R423): registers are 32 bits wide, packets are bytes.
-/

namespace Sys2Proof

/-- A register's value. -/
abbrev Word := BitVec 32

/-- A byte of a packet or of a serial memory device. -/
abbrev Byte := BitVec 8

end Sys2Proof
end

