-- ==== Sys2Proof/Syntax.lean ====
section
/-!
DEFINITION. The commands of the block: one constructor of `Instr` for each row of spec/opcode_table.json,
and the operand types.  The table gives no bits, so the operands are what the row's rule needs:
a packet (11 R358), a register value, or what the hardware measured when the event came.
-/

namespace Sys2Proof

/-- The three planes (01 R18). -/
inductive Plane | ctrl | data | mgmt
  deriving DecidableEq, Repr

/-- The two control sides (01 R15). -/
inductive Side | a | b
  deriving DecidableEq, Repr

/-- The header of a complete packet, with the port it came in on, its identifier's class, destination and
source, and the frame-end stamp in µs (11 R358, R362, R363, 12 R409, R412). -/
structure Hdr where
  port : Fin 6
  cls : Fin 8
  dest : Byte
  src : Byte
  major : Fin 16
  sid : Byte
  seq : BitVec 16
  tgt : Byte
  endUs : Nat
  deriving DecidableEq, Repr

/-- A complete packet: its header and its payload (11 R358 to R361). -/
structure Pkt extends Hdr where
  body : List Byte
  deriving DecidableEq, Repr

/-- One frame as it ends on a bus (12 R406, R409). `ext` extended format, `fd` CAN FD, `rtr` remote frame;
`early` is a frame that was on the bus when the controllers started (09 R311). -/
structure Frame where
  port : Fin 6
  id : BitVec 29
  ext : Bool
  fd : Bool
  rtr : Bool
  brs : Bool
  early : Bool
  data : List Byte
  endUs : Nat
  deriving DecidableEq, Repr

/-- An event register: of the module pages, or of an axis page, by number (13 R440). -/
inductive EvReg
  | mod (i : Fin 16)
  | axis (n : Fin 48) (i : Fin 6)
  deriving DecidableEq, Repr

/-- SUP-A and SUP-B (10 R339). -/
inductive Input | a | b
  deriving DecidableEq, Repr

/-- A trip source that a cell's trip input sees (03 R95): the comparator of a role, high or low, the link
comparator, or TRIP_EXT. -/
inductive TripSrc
  | comp (role : Fin 4) (high : Bool)
  | link
  | ext
  deriving DecidableEq, Repr

/-- A window comparator: of a role of a cell, or of the link (03 R91, R94). -/
inductive CompId
  | leg (n : Fin 48) (role : Fin 4)
  | link
  deriving DecidableEq, Repr

/-- The straps as they stand (09 R316). -/
structure Straps where
  mstr : Bool
  alt : Bool
  bench : Bool
  deriving DecidableEq, Repr

/-- What rises at power-up, in mV (09 R314), with the straps and lines as they stand. -/
structure PowerIn where
  supA : Nat
  supB : Nat
  aux : Nat
  straps : Straps
  stoA : Bool
  stoB : Bool
  ext : Bool
  deriving DecidableEq, Repr

/-- What the eight devices of a port answer to the identification read, 3 bytes each, the first received uppermost (16 R488). -/
abbrev Idents : Type := Vector (BitVec 24) 8

/-- The end of the boot sequence: which sides completed their load and their tests (09 R315), and the devices of their ports. -/
structure ReadyIn where
  aOk : Bool
  bOk : Bool
  ids : Vector Idents 2
  deriving DecidableEq, Repr

/-- A gate edge of a leg (02 R45, R46): whether turn-on, the current that it switches in mA, and t_sw in 0.1 ns where the
switch node completed its transition. -/
structure Edge where
  leg : Fin 5
  on : Bool
  mA : Int
  tsw : Option Nat
  deriving DecidableEq, Repr

/-- One conversion of a slice (08 R260): the slice's own code, or that of the spare which replaces it, and the code of the spare that
stands in at its input (08 R283, R284). -/
structure Conv where
  own : BitVec 12
  spare : BitVec 12
  deriving DecidableEq, Repr

/-- A single sample (08 R267, R268): the instants, in 1/8 counts of the 400 MHz time base, of its request and of the start of its
conversion, and the conversion. -/
structure SingleIn where
  reqAt8 : Nat
  at8 : Nat
  conv : Conv
  deriving DecidableEq, Repr

/-- An open edge (10 R337): the leg, whether its high side switches, and the leg current in mA. -/
structure OpenIn where
  leg : Fin 5
  high : Bool
  mA : Int
  deriving DecidableEq, Repr

/-- The clock of a cell returns (03 R90): the cell and the 25 MHz cycle. -/
structure ClockIn where
  cell : Fin 48
  cyc : Nat
  deriving DecidableEq, Repr

/-- What a cell measures at a period boundary (03 R73): the instant in 1/8 counts of the module's 400 MHz time base (03 R79) and
in 25 MHz cycles, the link voltage in mV, the leg-shunt current of each role in mA, the terminal voltage that the L3 divider reads in
mV (02 R34), the gate edges of the elapsed period, the codes of the conversions that fell due since the last boundary, by
slice and in their order (08 R262 to R269), and the roles whose commands a hardware fault makes overlap (03 R84). -/
structure BoundaryIn where
  at8 : Nat
  cyc : Nat
  vLink : Nat
  role : Vector Int 4
  star : Int
  edges : List Edge
  conv0 : List Conv
  conv1 : List Conv
  ilFault : BitVec 4
  deriving DecidableEq, Repr

/-- What ends DRAIN (02 R63): the cell, the last codes of the four role leg shunts, and whether 5 ms have passed. -/
structure DrainIn where
  cell : Fin 48
  codes : Vector (BitVec 12) 4
  expired : Bool
  deriving DecidableEq, Repr

/-- The AUXB reading of an axis in LOCAL_SPEED (05 R173): the voltage in mV and its 12-bit code; of the edges, the last high time and period and
the time since the last edge, in 25 MHz cycles; and the frequency in Hz. -/
structure LsIn where
  mV : Int
  code : BitVec 12
  high : Nat
  period : Nat
  idle : Nat
  freq : Nat
  deriving DecidableEq, Repr

/-- A Hall code as the filter sees it (05 R144): the levels of H1 to H3, and for how many consecutive cycles the code has stood. -/
structure HallIn where
  h1 : Bool
  h2 : Bool
  h3 : Bool
  stood : Nat
  deriving DecidableEq, Repr

/-- What is measured at a motion tick: AUXB readings (05 R173), the supply power in mW (07 R245), and the axes whose
junction temperature completed a full cycle of 20 K (10 R350). -/
structure TickIn where
  aux : List (Fin 48 × LsIn)
  supply : Int
  thermal : List (Fin 48)
  deriving DecidableEq, Repr

/-- A conversion of an integrating converter (08 R274): its channel, raw result, the reading that the raw result stands for under the nominal
calibration set, in the unit of its register (08 R289, R294), and the µs of the 400 MHz time base at which it began. -/
structure IcIn where
  ch : Fin 32
  raw : Int
  eng : Int
  startUs : Nat
  deriving DecidableEq, Repr

/-- A slice: of an axis, or a spare (08 R260). -/
inductive SliceId
  | axis (n : Fin 48) (s : Fin 2)
  | spare (i : Fin 8)
  deriving DecidableEq, Repr

/-- The mean codes of the three reference points of a calibration, in 1/16 LSB (08 R282): 0, +30 A and −30 A. -/
structure CalMeas where
  zero : Int
  pos : Int
  neg : Int
  deriving DecidableEq, Repr

/-- The results of a graze slice (10 R348): the item, its axis, whether every part of it passed, the masks and
values the item reports, and with item 10 the devices of the side's port (16 R488). -/
structure GrazeRes where
  item : Fin 11
  axis : Option (Fin 48)
  done : Bool
  sw : BitVec 10
  iso : BitVec 4
  tap : BitVec 4
  legs : BitVec 5
  slices : BitVec 2
  didt : Vector Nat 5
  value : Nat
  esr : Nat
  ok : Bool
  store : Fin 2
  corr : Nat
  uncorr : Nat
  ids : Idents
  deriving DecidableEq, Repr

/-- The result of a leg check (02 R66): legs, isolators and taps that pass. -/
structure LegCheck where
  legs : BitVec 5
  iso : BitVec 4
  tap : BitVec 4
  deriving DecidableEq, Repr

/-- How a winding measurement ends (08 R280): the mean voltages of the pair's two terminals over T_INT, as their node dividers give them
under the nominal calibration set, in µV, and for each slice the mean codes of itself (or its substitute) and of its stand-in, in 1/16 LSB;
or no current, or aborted. -/
inductive RwOut
  | done (node : Vector Int 2) (code : Vector (Nat × Nat) 2)
  | notReached
  | aborted
  deriving DecidableEq, Repr

/-- The wake sources (09 R309). -/
inductive WakeSrc
  | bus (port : Fin 6)
  | fomin (port : Fin 4)
  | sto
  | ext
  | timer
  | supply
  | cartridge
  | sck0
  deriving DecidableEq, Repr

/-- What the observation of a turning rotor finds (05 R169): rest, or speed in ac per tick and angle. -/
structure CatchIn where
  rest : Bool
  speed : Int
  theta : Nat
  deriving DecidableEq, Repr

/-- An edge on AUXA (04 R136): its time in 200 MHz cycles, whether it rises, and AUXB where it is stable. -/
structure StepIn where
  at200 : Nat
  rising : Bool
  dir : Option Bool
  deriving DecidableEq, Repr

/-- One module as a stack forms or grows (15 R463 to R466). -/
structure ModInfo where
  serial : Nat
  mstr : Bool
  alt : Bool
  linkMax : Nat
  ready : Bool
  deriving DecidableEq, Repr

/-- The stack as the master gives it to a module that joins (15 R465): the version in use, the alternate's position, and
the modules by position. -/
structure StackInfo where
  lver : Nat
  altPos : Option Nat
  mods : List (Nat × ModInfo)
  deriving DecidableEq, Repr

/-- A module's summary for a swath (15 R477): the module's position, U and G by block, the number of undecided
candidates, its logic draw in W and its input voltages in mV (0 below 33 V). -/
structure Summary where
  pos : Nat
  u : List Nat
  g : List Nat
  c : Nat
  pBase : Nat
  vA : Nat
  vB : Nat
  deriving DecidableEq, Repr

/-- A master position of another module as frame 1 carries it (15 R474). -/
structure RemotePos where
  addr : Byte
  axis : Fin 48
  src : Fin 3
  pos : Int
  deriving DecidableEq, Repr

/-- The shares that frame 7 carries (15 R478): the share and the credit of each block. -/
structure ShareIn where
  pos : Nat
  share : List Nat
  credit : List Nat
  deriving DecidableEq, Repr

/-- What the master publishes in frame 0 (15 R468, R469, R475): `base` is the SEQ of the `OPEN_SESSION` or the base of the claim. -/
structure Frame0 where
  sid : Byte
  owner : Byte
  open_ : Bool
  orphan : Bool
  tmo : Nat
  keyCrc : BitVec 32
  base : BitVec 16
  l : Vector (BitVec 16) 3
  budget : List Word
  margin : Byte
  deriving DecidableEq, Repr

/-- A cascade frame as this module sees it (15 R460): its number in the swath, the modules heard, those at which a ring
wraps and those out of alignment, and what its parts carry.  `swath` is the master's swath number, `ofs` the swath offset
measured at frame 0, ns, and `asks` the positions of this module that followers of the stack name (R474).  `frame0` stands in frame 0, and in another
frame that carries a change of the session (R469); `replies`, `inners` and `events` are all that the frame carries for this
module (R470, R471). -/
structure CascIn where
  num : Fin 8
  swath : Nat
  ofs : Int
  errA : Nat
  errB : Nat
  heard : List Byte
  wraps : List Byte
  noSync : List Byte
  asks : List (Fin 48 × Fin 3)
  frame0 : Option Frame0
  remote : List RemotePos
  summaries : List Summary
  shares : List ShareIn
  replies : List (Byte × List Byte)
  inners : List (List Byte)
  events : List (Byte × List Byte)
  stopAll : Option Byte
  deriving DecidableEq, Repr

/-- How a read frame goes (16 R482, R485, R501): whether the device has been removed, so that the frame completes against pull-ups, and
how many bits of data came before its strobe was lost. -/
structure SmIn where
  gone : Bool
  dqsLost : Option Nat
  deriving DecidableEq, Repr

/-- A poll of a port's device (16 R490): the side and the data byte. -/
structure PollIn where
  side : Side
  status : Byte
  deriving DecidableEq, Repr

/-- The module is awake (09 R310, R321): the cycles that the slow clock counted in nap, and the 25 MHz cycle at which the trip filters start. -/
structure WakeIn where
  slow : Nat
  cyc : Nat
  deriving DecidableEq, Repr

/-- One constructor for each row of the table of commands and events. -/
inductive Instr
  -- packets of the session layer (11)
  | hello (p : Pkt)
  | openSession (p : Pkt)
  | closeSession (p : Pkt)
  | takeoverGrant (p : Pkt)
  | takeoverClaim (p : Pkt)
  | heartbeat (p : Pkt)
  | identify (p : Pkt)
  | moduleReset (p : Pkt)
  | axisReset (p : Pkt)
  -- register packets (13)
  | regRd (p : Pkt)
  | regWr (p : Pkt)
  | regRdBlk (p : Pkt)
  | regWrBlk (p : Pkt)
  | mbxRd (p : Pkt)
  -- configuration packets (11 R386)
  | axisConfig (p : Pkt)
  | motorModel (p : Pkt)
  | zoneTableSpeed (p : Pkt)
  | zoneTableForce (p : Pkt)
  | zoneTableCorrection (p : Pkt)
  -- motion packets (06, 11 R387 to R392)
  | moveAbs (p : Pkt)
  | moveRel (p : Pkt)
  | moveVel (p : Pkt)
  | moveVelHome (p : Pkt)
  | moveGroup (p : Pkt)
  | hold (p : Pkt)
  | fallow (p : Pkt)
  | brake (p : Pkt)
  | followStep (p : Pkt)
  | gear (p : Pkt)
  | localSpeed (p : Pkt)
  | camLoad (p : Pkt)
  | camEngage (p : Pkt)
  | camDisengage (p : Pkt)
  | stop (p : Pkt)
  | qstop (p : Pkt)
  | stopAll (p : Pkt)
  -- planner packets (07)
  | budgetSet (p : Pkt)
  | reserveSet (p : Pkt)
  | ledgerRead (p : Pkt)
  | planQuery (p : Pkt)
  -- data and management packets (11 R394 to R397)
  | streamStart (p : Pkt)
  | streamStop (p : Pkt)
  | logRead (p : Pkt)
  | grazeCtrl (p : Pkt)
  | calSelf (p : Pkt)
  | calWrite (p : Pkt)
  | calRead (p : Pkt)
  | fwLoadBegin (p : Pkt)
  | fwLoadData (p : Pkt)
  | fwLoadEnd (p : Pkt)
  | fwSwap (p : Pkt)
  | sideSwitch (p : Pkt)
  | cascadeEnum (p : Pkt)
  | cascadeRoute (p : Pkt)
  -- register writes and reads with a row of their own
  | modUnlock (h : Hdr) (upper : BitVec 16)
  | mbxSelWrite (h : Hdr) (id : Word)
  | mbxCaptureDone (pl : Plane)
  | loadAll (h : Hdr) (sel : BitVec 16)
  | tripClr (h : Hdr) (n : Fin 48)
  | slcSingleReq (h : Hdr) (n : Fin 48) (req : BitVec 2) (dsrc : Bool)
  | singleSampleTaken (n : Fin 48) (s : Fin 2) (x : SingleIn)
  | slcDataRead (h : Hdr) (n : Fin 48) (s : Fin 2)
  | icDataRead (h : Hdr) (i : Fin 8)
  | evtWriteBack (h : Hdr) (e : EvReg) (v : Word)
  | rwReqGo (h : Hdr) (axis : BitVec 6) (pair : BitVec 2) (iTest : BitVec 16)
  | rwMeasureDone (o : RwOut)
  | ic7Arm (h : Hdr) (cfg : BitVec 26)
  | sideRetry (h : Hdr) (v : BitVec 3)
  | ctrClrMod (h : Hdr)
  | ctrClrAxes (h : Hdr) (axis : BitVec 6)
  | mbTimingWrite (h : Hdr) (i : Fin 6) (v : Word)
  | mbFilterWrite (h : Hdr) (i : Fin 6) (j : Fin 16) (b : Bool) (v : Word)
  -- power, resets and pins
  | powerUp (x : PowerIn)
  | moduleReady (x : ReadyIn)
  | nrst (low : Bool)
  | resetSequence (straps : Straps)
  | logicPowerLoss
  | holdUpExpiry
  | nvStoreWrite (n : Fin 48)
  | stoAssert (a b : Bool)
  | stoRelease
  | stoDiscordance
  | tripExtChange (high : Bool) (cyc : Nat) (seen : Bool)
  | supplyOvBlock (i : Input) (mV : Nat)
  | supplyReverseBlock (i : Input) (mV : Nat)
  | cartridgeChange (k : Fin 2) (pres rdy : Bool)
  | reserveEnter
  | reserveExit
  -- the cell (02, 03)
  | periodBoundary (n : Fin 48) (x : BoundaryIn)
  | i2tClamp (n : Fin 48)
  | didtDetect (n : Fin 48) (leg : Fin 5)
  | bootUvEvent (n : Fin 48) (leg : Fin 5)
  | openEdge (n : Fin 48) (x : OpenIn)
  | substIsoOpenDone (n : Fin 48)
  | substTapCloseDone (n : Fin 48)
  | substConfirmTimeout (n : Fin 48)
  | drainEnd (x : DrainIn)
  | legCheckDone (n : Fin 48) (x : LegCheck)
  | preTrip (n : Fin 48) (src : TripSrc) (cyc : Nat) (seen : Bool)
  | tripConfirm (n : Fin 48) (src : TripSrc) (cyc : Nat)
  | debugHalt
  | debugRelease
  -- motion and drives (04 to 06)
  | motionTick (x : TickIn)
  | stall (n : Fin 48)
  | stallHoldExpiry (n : Fin 48)
  | restCeilingExpiry (n : Fin 48)
  | obstacle (n : Fin 48)
  | homeFound (n : Fin 48)
  | homeTimeout (n : Fin 48)
  | stepEdge (n : Fin 48) (x : StepIn)
  | hallEdge (n : Fin 48) (x : HallIn) (cyc : Nat)
  | sensorSupplyOverload (n : Fin 48)
  | testPulses (n : Fin 48) (peaks : Vector Int 12)
  | initAngleDone (n : Fin 48)
  | bemfHandover (n : Fin 48)
  | sensorlessGripEnd (n : Fin 48)
  | lockedRotor (n : Fin 48)
  | lockedBrakeEnd (n : Fin 48)
  | rotorAtRest (n : Fin 48)
  | catchObserveDone (n : Fin 48) (x : CatchIn)
  | catchFail (n : Fin 48)
  | lsSignalLoss (n : Fin 48)
  | moveStart (n : Fin 48)
  | queueStart (n : Fin 48)
  | masterLost (n : Fin 48)
  | camAtEngage (n : Fin 48)
  | camAtDisengage (n : Fin 48)
  | camEccError (t : Fin 64)
  -- swath, planner and power (07)
  | swathStart
  | supervisionTimeout (n : Fin 48)
  | stateExchange
  | sideSwitchAct
  | streamCapture (k : Fin 4)
  | chopperOn (mV : Nat)
  | chopperOff (mV : Nat)
  | chopFault
  | shortBrake82V
  | linkWindowTrip (high : Bool) (cyc : Nat) (seen : Bool)
  | icConversionDone (i : Fin 8) (x : IcIn)
  | napLedgerUpdate (xs : List IcIn)
  -- calibration (08)
  | bgCalItemStart (spare : Fin 8)
  | sliceCalDone (id : SliceId) (x : CalMeas)
  | calSelfDone
  | calWriteDone
  -- graze and lifetime (10)
  | grazeSlice (x : GrazeRes)
  | grazeYield
  | grazePassLate
  | lifeSave
  -- clocks and sides (09, 10)
  | sck1Trim
  | sck0Fail
  | xtalFail (s : Side) (noEdge : Bool)
  | stbyPllUnlock
  | missingClockEdge
  | localClkSelect
  | localClkReturn
  | sideTakeover
  | unprotectedFailure
  | sideRejoin
  | fwRevert
  -- session timers (10, 11)
  | sessionExpiry (us : Nat)
  | orphanHoldExpiry
  | grantExpiry (us : Nat)
  | claimLockoutEnd (us : Nat)
  -- nap (09)
  | napEnter
  | napWake (srcs : List WakeSrc)
  | wakeReady (x : WakeIn)
  -- bus (12)
  | frameRx (f : Frame)
  | reassemblyTimeout (port : Fin 6) (src : Byte) (us : Nat)
  | frameTx (port : Fin 6) (won : Bool)
  | busOff (port : Fin 6)
  | busOffEnd (port : Fin 6)
  | loadWindowEnd (port : Fin 6) (busy : Nat)
  | heldPacketRelease (port : Fin 6)
  -- cascade (15)
  | hopLost (up : Bool)
  | hopRestored (up : Bool)
  | stackForm (ms : List ModInfo) (self : Nat)
  | cascadeFrame (x : CascIn)
  | moduleJoin (x : ModInfo) (stack : Option StackInfo)
  | moduleLeave (addr : Byte)
  | altTakeover
  | masterSilent
  -- serial memory and log (16)
  | smWindowRead (s : Side) (off : Nat) (fetch : Bool) (x : SmIn)
  | smWindowWrite (s : Side) (off : Nat) (v : Byte)
  | smPageFlush (s : Side) (idle : Nat)
  | smBusyRetry (s : Side)
  | smPollDone (x : PollIn)
  | smPollTimeout (s : Side)
  | camSlotWrite (s : Side) (t : Fin 64)
  | logEntryWrite (s : Side) (ok : Bool)
  -- the rest of the table
  | bootstrapCharged (n : Fin 48) (leg : Fin 5)
  | comparatorInside (k : CompId) (cyc : Nat)
  | cellClockLoss (n : Fin 48)
  | cellClockReturn (x : ClockIn)
  | supplyReturn (i : Input) (mV : Nat)
  | aux24Change (mV : Nat)
  | stbyPllLock
  | calStale (n : Fin 48) (k : Fin 2)
  | stoLineRise (a : Bool)
  deriving DecidableEq, Repr

end Sys2Proof
end

