-- ==== Sys2Proof/Config.lean ====
section
/-!
DEFINITION. What the spec leaves open: functions without a body, so that nothing can be proved of the value
(notes/assumptions/1.md), and the constants that an implementation fixes.
-/

namespace Sys2Proof.Config

/-- Free values: the k-th draw of a value that the spec leaves open (`fresh` counts the draws). -/
opaque freeNat : Nat → Nat
/-- A free truth value of the k-th draw. -/
opaque freeBool : Nat → Bool
/-- A free number of the k-th draw. -/
opaque freeRat : Nat → Rat

/-- Of the two 16-bit values about a sine that lies near their middle, the one that entry j of the quarter-sine table is (04 R116: "to 16-bit accuracy"). -/
opaque quarterErr : Nat → Fin 2
/-- The same of entry j of the commutation table (05 R152: "to 16-bit accuracy"). -/
opaque sineErr : Nat → Fin 2
/-- The last place, of 2^-40, of a sine, a square root or an arc tangent (04 R120, R129, 05 R151, R159, R161), by the function and its
arguments: the spec states no rounding. -/
opaque lastPlace : Nat → Rat → Rat → Fin 3
/-- The direction of a vector of length 0, degrees (04 R120, 05 R159, R161): the spec states none. -/
opaque noDirection : Rat

/-- The asymmetry of a direction whose two peaks sum to 0 (05 R159): the spec states none. -/
opaque asymZero : Nat → Rat

/-- The power that the chopper takes where `CHOP_R` holds 0 (07 R243): the spec states none. -/
opaque chopZero : Rat

/-- A module's share, in mJ, of a stack's reserve (15 R475), by the reserve in J and its own `E_RES_REQ` in mJ. -/
opaque reserveShare : Nat → Int → Rat

/-- The full scale of an integrating channel in the unit of its register (08 R289: an offset is a part of it): the spec states none. -/
opaque fullScale : Nat → Rat

/-- π where the spec computes with it and states no constant (04 R112, R119; 05 R149): a DESIGN CHOICE. -/
def pi : Rat := 3141592653589793 / 1000000000000000

/-- Register `MOD.ID` (14 R449): the variant and revision are the part's own (DESIGN CHOICE). -/
def modId : Nat := 0x48750101

/-- The serial number is the part's own (DESIGN CHOICE). -/
def serial : Nat := 1

end Sys2Proof.Config
end

