-- ==== Sys2Proof/Machine/RegMap.lean ====
section
/-!
DEFINITION. The register map: every implemented register of the module and of an axis page, with its
address, reset value, access masks and writing plane (13 R423 to R425, 14 R448 to R457, and the field
tables of each chapter), and a descriptor for every named field.  Bits of no mask are RSV (00 R8).
-/

namespace Sys2Proof.Machine

/-- A register field: the register's place in its map, the lowest bit and the width. -/
structure Fld where
  reg : Nat
  lo : Nat
  w : Nat
  deriving DecidableEq, Repr

/-- A flag of an event register (13 R440): the event register's number and the bit. -/
structure Flag where
  ev : Nat
  bit : Nat
  deriving DecidableEq, Repr

/-- The same field of the k-th register after this one (arrays of registers). -/
def Fld.skip (f : Fld) (k : Nat) : Fld := { f with reg := f.reg + k }

/-- The k-th field of this width after this one, in the same register. -/
def Fld.nth (f : Fld) (k : Nat) : Fld := { f with lo := f.lo + k * f.w }

/-- The same flag of the k-th event register after this one. -/
def Flag.skip (f : Flag) (k : Nat) : Flag := { f with ev := f.ev + k }


/-- One implemented register: its address (within the page for an axis register), its reset value and its
access masks (00 R8); bits in no mask are RSV. -/
structure RegDef where
  addr : Nat
  reset : Nat
  rw : Nat := 0
  rb : Nat := 0
  rk : Nat := 0
  rc : Nat := 0
  wo : Nat := 0
  ro : Nat := 0
  writer : Plane := .ctrl
  deriving DecidableEq, Repr

/-- The RSV bits of a register: those of no mask (00 R8, 13 R439). -/
def RegDef.rsv (d : RegDef) : Word :=
  let m := fun (n : Nat) => BitVec.ofNat 32 n
  ~~~(m d.rw ||| m d.rb ||| m d.rk ||| m d.rc ||| m d.wo ||| m d.ro)

/-- RSV bits as a write leaves them: on a bench they take it (13 R439). -/
def RegDef.putRsv (d : RegDef) (bench : Bool) (w v : Word) : Word := if bench then (w &&& ~~~d.rsv) ||| (v &&& d.rsv) else w

/-! ### The axis page (14 R456) -/

def axDefs0 : List RegDef := [
  { addr := 0x0, reset := 0x0, rw := 0x0, rb := 0x0, rk := 0x0, rc := 0x0, wo := 0x0, ro := 0x3F03 },
  { addr := 0x4, reset := 0x201F, rw := 0x0, rb := 0x0, rk := 0x0, rc := 0x0, wo := 0x0, ro := 0xBFFF },
  { addr := 0x10, reset := 0x0, rw := 0x0, rb := 0x0, rk := 0x0, rc := 0x0, wo := 0x0, ro := 0x1FFFF },
  { addr := 0x20, reset := 0x1, rw := 0x0, rb := 0x0, rk := 0x0, rc := 0x0, wo := 0x0, ro := 0x7 },
  { addr := 0x100, reset := 0x80, rw := 0x0, rb := 0xFF, rk := 0x0, rc := 0x0, wo := 0x0, ro := 0x0 },
  { addr := 0x104, reset := 0xFA0, rw := 0x0, rb := 0xFFFF, rk := 0x0, rc := 0x0, wo := 0x0, ro := 0x0 },
  { addr := 0x108, reset := 0x1008, rw := 0x0, rb := 0xFFFF, rk := 0x0, rc := 0x0, wo := 0x0, ro := 0x0 },
  { addr := 0x110, reset := 0x3E80, rw := 0x0, rb := 0x7FFFF, rk := 0x0, rc := 0x0, wo := 0x0, ro := 0x0 },
  { addr := 0x114, reset := 0x3E80, rw := 0x0, rb := 0x7FFFF, rk := 0x0, rc := 0x0, wo := 0x0, ro := 0x0 },
  { addr := 0x118, reset := 0x3E80, rw := 0x0, rb := 0x7FFFF, rk := 0x0, rc := 0x0, wo := 0x0, ro := 0x0 },
  { addr := 0x11C, reset := 0x3E80, rw := 0x0, rb := 0x7FFFF, rk := 0x0, rc := 0x0, wo := 0x0, ro := 0x0 },
  { addr := 0x120, reset := 0x0, rw := 0x0, rb := 0x7FFFF, rk := 0x0, rc := 0x0, wo := 0x0, ro := 0x0 },
  { addr := 0x124, reset := 0x0, rw := 0x0, rb := 0x7FFFF, rk := 0x0, rc := 0x0, wo := 0x0, ro := 0x0 },
  { addr := 0x128, reset := 0x0, rw := 0x0, rb := 0x7FFFF, rk := 0x0, rc := 0x0, wo := 0x0, ro := 0x0 },
  { addr := 0x12C, reset := 0x0, rw := 0x0, rb := 0x7FFFF, rk := 0x0, rc := 0x0, wo := 0x0, ro := 0x0 },
  { addr := 0x140, reset := 0x0, rw := 0x0, rb := 0x0, rk := 0x0, rc := 0x0, wo := 0x0, ro := 0xFFFFF },
  { addr := 0x200, reset := 0x10C200, rw := 0x0, rb := 0x3FFF01, rk := 0x0, rc := 0x0, wo := 0x0, ro := 0x0 },
  { addr := 0x204, reset := 0x404F5F, rw := 0x0, rb := 0x3FFFFFF, rk := 0x0, rc := 0x0, wo := 0x0, ro := 0x0 },
  { addr := 0x208, reset := 0x403F6F, rw := 0x0, rb := 0x3FFFFFF, rk := 0x0, rc := 0x0, wo := 0x0, ro := 0x0 },
  { addr := 0x20C, reset := 0x55555, rw := 0x0, rb := 0x0, rk := 0x0, rc := 0x0, wo := 0x0, ro := 0xFFFFF },
  { addr := 0x210, reset := 0x66666, rw := 0x0, rb := 0x0, rk := 0x0, rc := 0x0, wo := 0x0, ro := 0xFFFFF },
  { addr := 0x300, reset := 0x13C17, rw := 0x0, rb := 0x1FF7F, rk := 0x0, rc := 0x0, wo := 0x0, ro := 0x0 },
  { addr := 0x304, reset := 0xE000, rw := 0x0, rb := 0x0, rk := 0x0, rc := 0x0, wo := 0x0, ro := 0x1FFFFFFF },
  { addr := 0x308, reset := 0x0, rw := 0x0, rb := 0x0, rk := 0x0, rc := 0xFF0000FF, wo := 0x0, ro := 0x0 }]

def axDefs1 : List RegDef := [
  { addr := 0x310, reset := 0x3080A, rw := 0x0, rb := 0x3FFFF, rk := 0x0, rc := 0x0, wo := 0x0, ro := 0x0 },
  { addr := 0x314, reset := 0xFF00, rw := 0x0, rb := 0x0, rk := 0x0, rc := 0x0, wo := 0x0, ro := 0xFFFF },
  { addr := 0x318, reset := 0x0, rw := 0x0, rb := 0x0, rk := 0x0, rc := 0xFF00001F, wo := 0x0, ro := 0x0 },
  { addr := 0x31C, reset := 0x0, rw := 0x0, rb := 0x0, rk := 0x0, rc := 0x0, wo := 0x1, ro := 0x0 },
  { addr := 0x320, reset := 0x4F0040, rw := 0x0, rb := 0xFFFFFF, rk := 0x0, rc := 0x0, wo := 0x0, ro := 0x0 },
  { addr := 0x324, reset := 0x4F0040, rw := 0x0, rb := 0xFFFFFF, rk := 0x0, rc := 0x0, wo := 0x0, ro := 0x0 },
  { addr := 0x328, reset := 0x4F0040, rw := 0x0, rb := 0xFFFFFF, rk := 0x0, rc := 0x0, wo := 0x0, ro := 0x0 },
  { addr := 0x32C, reset := 0x4F0040, rw := 0x0, rb := 0xFFFFFF, rk := 0x0, rc := 0x0, wo := 0x0, ro := 0x0 },
  { addr := 0x400, reset := 0x3228, rw := 0xFF3F, rb := 0x0, rk := 0x0, rc := 0x0, wo := 0x0, ro := 0x0 },
  { addr := 0x404, reset := 0x7D0012C, rw := 0xFFFFFFFF, rb := 0x0, rk := 0x0, rc := 0x0, wo := 0x0, ro := 0x0 },
  { addr := 0x408, reset := 0x1F401F4, rw := 0xFFFFFFFF, rb := 0x0, rk := 0x0, rc := 0x0, wo := 0x0, ro := 0x0 },
  { addr := 0x40C, reset := 0x3203, rw := 0xFF03, rb := 0x0, rk := 0x0, rc := 0x0, wo := 0x0, ro := 0x0 },
  { addr := 0x410, reset := 0x0, rw := 0xFFFFFFFF, rb := 0x0, rk := 0x0, rc := 0x0, wo := 0x0, ro := 0x0 },
  { addr := 0x414, reset := 0x219502D, rw := 0xFFFFFFF, rb := 0x0, rk := 0x0, rc := 0x0, wo := 0x0, ro := 0x0 },
  { addr := 0x418, reset := 0x1000014, rw := 0xFFFFFFFF, rb := 0x0, rk := 0x0, rc := 0x0, wo := 0x0, ro := 0x0 },
  { addr := 0x41C, reset := 0x502, rw := 0xFF07, rb := 0x0, rk := 0x0, rc := 0x0, wo := 0x0, ro := 0x0 },
  { addr := 0x420, reset := 0xA03E8, rw := 0xFFFFFFFF, rb := 0x0, rk := 0x0, rc := 0x0, wo := 0x0, ro := 0x0 },
  { addr := 0x424, reset := 0x0, rw := 0xFFFFFFFF, rb := 0x0, rk := 0x0, rc := 0x0, wo := 0x0, ro := 0x0 },
  { addr := 0x428, reset := 0x8, rw := 0x3F, rb := 0x0, rk := 0x0, rc := 0x0, wo := 0x0, ro := 0x0 },
  { addr := 0x440, reset := 0x4000000, rw := 0x0, rb := 0x0, rk := 0x0, rc := 0x0, wo := 0x0, ro := 0xFFFFFFFF },
  { addr := 0x444, reset := 0x0, rw := 0x0, rb := 0x0, rk := 0x0, rc := 0x0, wo := 0x0, ro := 0xFFFFFFFF },
  { addr := 0x448, reset := 0x0, rw := 0x0, rb := 0x0, rk := 0x0, rc := 0x0, wo := 0x0, ro := 0xFFFFFFFF },
  { addr := 0x44C, reset := 0x0, rw := 0x0, rb := 0x0, rk := 0x0, rc := 0xFF0001FF, wo := 0x0, ro := 0x0 },
  { addr := 0x480, reset := 0x503050, rw := 0x0, rb := 0xFFFF3FFF, rk := 0x0, rc := 0x0, wo := 0x0, ro := 0x0 }]

def axDefs2 : List RegDef := [
  { addr := 0x484, reset := 0x503050, rw := 0x0, rb := 0xFFFF3FFF, rk := 0x0, rc := 0x0, wo := 0x0, ro := 0x0 },
  { addr := 0x488, reset := 0x0, rw := 0x0, rb := 0xFFFFFFFF, rk := 0x0, rc := 0x0, wo := 0x0, ro := 0x0 },
  { addr := 0x48C, reset := 0x0, rw := 0x1, rb := 0x0, rk := 0x0, rc := 0x0, wo := 0x6, ro := 0x0 },
  { addr := 0x490, reset := 0x0, rw := 0x0, rb := 0x0, rk := 0x0, rc := 0x0, wo := 0x0, ro := 0xFFFFFFFF },
  { addr := 0x494, reset := 0x0, rw := 0x0, rb := 0x0, rk := 0x0, rc := 0x0, wo := 0x0, ro := 0xFFFFFFFF },
  { addr := 0x498, reset := 0x0, rw := 0x0, rb := 0x0, rk := 0x0, rc := 0x0, wo := 0x0, ro := 0xFF7FFF },
  { addr := 0x4A0, reset := 0xF0008000, rw := 0x0, rb := 0x0, rk := 0x0, rc := 0x0, wo := 0x0, ro := 0xFFFFFFFF },
  { addr := 0x4A4, reset := 0xF0008000, rw := 0x0, rb := 0x0, rk := 0x0, rc := 0x0, wo := 0x0, ro := 0xFFFFFFFF },
  { addr := 0x4A8, reset := 0x0, rw := 0x0, rb := 0x0, rk := 0x0, rc := 0xFF00001F, wo := 0x0, ro := 0x0 },
  { addr := 0x500, reset := 0x321804, rw := 0xFF1FFF, rb := 0x0, rk := 0x0, rc := 0x0, wo := 0x0, ro := 0x0 },
  { addr := 0x504, reset := 0x190000, rw := 0xFFFFFF, rb := 0x0, rk := 0x0, rc := 0x0, wo := 0x0, ro := 0x0 },
  { addr := 0x508, reset := 0xBB807D0, rw := 0xFFFFFFFF, rb := 0x0, rk := 0x0, rc := 0x0, wo := 0x0, ro := 0x0 },
  { addr := 0x50C, reset := 0x0, rw := 0xFFFFFFFF, rb := 0x0, rk := 0x0, rc := 0x0, wo := 0x0, ro := 0x0 },
  { addr := 0x510, reset := 0x178, rw := 0x0, rb := 0x1FF, rk := 0x0, rc := 0x0, wo := 0x0, ro := 0x0 },
  { addr := 0x514, reset := 0x400012C, rw := 0xFFFFFFFF, rb := 0x0, rk := 0x0, rc := 0x0, wo := 0x0, ro := 0x0 },
  { addr := 0x518, reset := 0x3E80032, rw := 0xFFFFFFFF, rb := 0x0, rk := 0x0, rc := 0x0, wo := 0x0, ro := 0x0 },
  { addr := 0x51C, reset := 0x8140A14, rw := 0xFFFFFFFF, rb := 0x0, rk := 0x0, rc := 0x0, wo := 0x0, ro := 0x0 },
  { addr := 0x520, reset := 0x400100, rw := 0xFFFFFFFF, rb := 0x0, rk := 0x0, rc := 0x0, wo := 0x0, ro := 0x0 },
  { addr := 0x524, reset := 0x20000100, rw := 0xFFFFFFFF, rb := 0x0, rk := 0x0, rc := 0x0, wo := 0x0, ro := 0x0 },
  { addr := 0x528, reset := 0x1F40032, rw := 0xFFFF00FF, rb := 0x0, rk := 0x0, rc := 0x0, wo := 0x0, ro := 0x0 },
  { addr := 0x52C, reset := 0x502, rw := 0xFF07, rb := 0x0, rk := 0x0, rc := 0x0, wo := 0x0, ro := 0x0 },
  { addr := 0x530, reset := 0xA03E8, rw := 0xFFFFFFFF, rb := 0x0, rk := 0x0, rc := 0x0, wo := 0x0, ro := 0x0 },
  { addr := 0x534, reset := 0x0, rw := 0xFFFFFFFF, rb := 0x0, rk := 0x0, rc := 0x0, wo := 0x0, ro := 0x0 },
  { addr := 0x538, reset := 0x27101400, rw := 0xFFFFFF07, rb := 0x0, rk := 0x0, rc := 0x0, wo := 0x0, ro := 0x0 }]

def axDefs3 : List RegDef := [
  { addr := 0x53C, reset := 0x10000, rw := 0xFFFFFFFF, rb := 0x0, rk := 0x0, rc := 0x0, wo := 0x0, ro := 0x0 },
  { addr := 0x540, reset := 0x0, rw := 0xFFFFFFFF, rb := 0x0, rk := 0x0, rc := 0x0, wo := 0x0, ro := 0x0 },
  { addr := 0x544, reset := 0x0, rw := 0xFFFFFFFF, rb := 0x0, rk := 0x0, rc := 0x0, wo := 0x0, ro := 0x0 },
  { addr := 0x548, reset := 0x0, rw := 0xFFFFFFFF, rb := 0x0, rk := 0x0, rc := 0x0, wo := 0x0, ro := 0x0 },
  { addr := 0x54C, reset := 0x0, rw := 0xFFFFFFFF, rb := 0x0, rk := 0x0, rc := 0x0, wo := 0x0, ro := 0x0 },
  { addr := 0x550, reset := 0x0, rw := 0xFFFFFFFF, rb := 0x0, rk := 0x0, rc := 0x0, wo := 0x0, ro := 0x0 },
  { addr := 0x554, reset := 0x0, rw := 0xFFFFFFFF, rb := 0x0, rk := 0x0, rc := 0x0, wo := 0x0, ro := 0x0 },
  { addr := 0x558, reset := 0x0, rw := 0xFFFFFFFF, rb := 0x0, rk := 0x0, rc := 0x0, wo := 0x0, ro := 0x0 },
  { addr := 0x55C, reset := 0x0, rw := 0xFFFFFFFF, rb := 0x0, rk := 0x0, rc := 0x0, wo := 0x0, ro := 0x0 },
  { addr := 0x560, reset := 0x0, rw := 0xFFFFFFFF, rb := 0x0, rk := 0x0, rc := 0x0, wo := 0x0, ro := 0x0 },
  { addr := 0x564, reset := 0x0, rw := 0xFFFFFFFF, rb := 0x0, rk := 0x0, rc := 0x0, wo := 0x0, ro := 0x0 },
  { addr := 0x568, reset := 0x0, rw := 0xFFFFFFFF, rb := 0x0, rk := 0x0, rc := 0x0, wo := 0x0, ro := 0x0 },
  { addr := 0x56C, reset := 0x0, rw := 0xFFFFFFFF, rb := 0x0, rk := 0x0, rc := 0x0, wo := 0x0, ro := 0x0 },
  { addr := 0x570, reset := 0x0, rw := 0xFFFFFFFF, rb := 0x0, rk := 0x0, rc := 0x0, wo := 0x0, ro := 0x0 },
  { addr := 0x574, reset := 0x0, rw := 0xFFFFFFFF, rb := 0x0, rk := 0x0, rc := 0x0, wo := 0x0, ro := 0x0 },
  { addr := 0x578, reset := 0x0, rw := 0xFFFFFFFF, rb := 0x0, rk := 0x0, rc := 0x0, wo := 0x0, ro := 0x0 },
  { addr := 0x57C, reset := 0x0, rw := 0xFFFFFFFF, rb := 0x0, rk := 0x0, rc := 0x0, wo := 0x0, ro := 0x0 },
  { addr := 0x580, reset := 0x8, rw := 0x3F, rb := 0x0, rk := 0x0, rc := 0x0, wo := 0x0, ro := 0x0 },
  { addr := 0x5C0, reset := 0x5F, rw := 0x0, rb := 0x0, rk := 0x0, rc := 0x0, wo := 0x0, ro := 0x3FFFF },
  { addr := 0x5C4, reset := 0x0, rw := 0x0, rb := 0x0, rk := 0x0, rc := 0x0, wo := 0x0, ro := 0xFFFFFFFF },
  { addr := 0x5C8, reset := 0x0, rw := 0x0, rb := 0x0, rk := 0x0, rc := 0xFF01FFFF, wo := 0x0, ro := 0x0 },
  { addr := 0x5CC, reset := 0x0, rw := 0x0, rb := 0x0, rk := 0x0, rc := 0x0, wo := 0x0, ro := 0xFFFF0FFF },
  { addr := 0x5D0, reset := 0x0, rw := 0x0, rb := 0x0, rk := 0x0, rc := 0x0, wo := 0x0, ro := 0xFFFF },
  { addr := 0x600, reset := 0x0, rw := 0x3FF, rb := 0x0, rk := 0x0, rc := 0x0, wo := 0x0, ro := 0x0 }]

def axDefs4 : List RegDef := [
  { addr := 0x604, reset := 0x1000000, rw := 0xFFFFFFFF, rb := 0x0, rk := 0x0, rc := 0x0, wo := 0x0, ro := 0x0 },
  { addr := 0x608, reset := 0x100000, rw := 0xFFFFFFFF, rb := 0x0, rk := 0x0, rc := 0x0, wo := 0x0, ro := 0x0 },
  { addr := 0x60C, reset := 0x100000, rw := 0xFFFFFFFF, rb := 0x0, rk := 0x0, rc := 0x0, wo := 0x0, ro := 0x0 },
  { addr := 0x610, reset := 0x4000, rw := 0xFFFFFFFF, rb := 0x0, rk := 0x0, rc := 0x0, wo := 0x0, ro := 0x0 },
  { addr := 0x614, reset := 0x400000, rw := 0xFFFFFFFF, rb := 0x0, rk := 0x0, rc := 0x0, wo := 0x0, ro := 0x0 },
  { addr := 0x618, reset := 0x0, rw := 0xFFFFFFFF, rb := 0x0, rk := 0x0, rc := 0x0, wo := 0x0, ro := 0x0 },
  { addr := 0x640, reset := 0xFF000F, rw := 0x0, rb := 0x0, rk := 0x0, rc := 0x0, wo := 0x0, ro := 0xFFFFFF },
  { addr := 0x644, reset := 0x0, rw := 0x0, rb := 0x0, rk := 0x0, rc := 0x0, wo := 0x0, ro := 0xFFFFFFFF },
  { addr := 0x648, reset := 0x0, rw := 0x0, rb := 0x0, rk := 0x0, rc := 0x0, wo := 0x0, ro := 0xFFFFFFFF },
  { addr := 0x64C, reset := 0x0, rw := 0x0, rb := 0x0, rk := 0x0, rc := 0xFF000FFF, wo := 0x0, ro := 0x0 },
  { addr := 0x680, reset := 0x14FFFF, rw := 0xFFFFFF, rb := 0x0, rk := 0x0, rc := 0x0, wo := 0x0, ro := 0x0 },
  { addr := 0x700, reset := 0x0, rw := 0x0, rb := 0x0, rk := 0x0, rc := 0x0, wo := 0x0, ro := 0xF, writer := .mgmt },
  { addr := 0x704, reset := 0x0, rw := 0x0, rb := 0x0, rk := 0x0, rc := 0x0, wo := 0x0, ro := 0xFFFFFFFF, writer := .mgmt },
  { addr := 0x708, reset := 0x0, rw := 0x0, rb := 0x0, rk := 0x0, rc := 0x0, wo := 0x0, ro := 0xFFFF, writer := .mgmt },
  { addr := 0x800, reset := 0x0, rw := 0x0, rb := 0x0, rk := 0x0, rc := 0x0, wo := 0x0, ro := 0xFFFFFFF, writer := .mgmt },
  { addr := 0x804, reset := 0xFFFF, rw := 0x0, rb := 0x0, rk := 0x0, rc := 0x0, wo := 0x0, ro := 0x1FFFFF, writer := .mgmt },
  { addr := 0x808, reset := 0x0, rw := 0x0, rb := 0x0, rk := 0x0, rc := 0x0, wo := 0x0, ro := 0xFFFFFFFF, writer := .mgmt },
  { addr := 0x80C, reset := 0x0, rw := 0x0, rb := 0x0, rk := 0x0, rc := 0x0, wo := 0x0, ro := 0xFFFFFFFF, writer := .mgmt },
  { addr := 0x810, reset := 0x0, rw := 0x0, rb := 0x0, rk := 0x0, rc := 0x0, wo := 0x0, ro := 0xFFFF, writer := .mgmt },
  { addr := 0x820, reset := 0x0, rw := 0x0, rb := 0x0, rk := 0x0, rc := 0x0, wo := 0x0, ro := 0xFFFFFFFF, writer := .mgmt },
  { addr := 0x824, reset := 0x0, rw := 0x0, rb := 0x0, rk := 0x0, rc := 0x0, wo := 0x0, ro := 0xFFFFFFFF, writer := .mgmt },
  { addr := 0x828, reset := 0x0, rw := 0x0, rb := 0x0, rk := 0x0, rc := 0x0, wo := 0x0, ro := 0xFFFFFFFF, writer := .mgmt },
  { addr := 0x82C, reset := 0x0, rw := 0x0, rb := 0x0, rk := 0x0, rc := 0x0, wo := 0x0, ro := 0xFFFFFFFF, writer := .mgmt },
  { addr := 0x900, reset := 0x0, rw := 0x0, rb := 0x0, rk := 0x0, rc := 0x0, wo := 0x0, ro := 0xFFFFFFFF, writer := .mgmt }]

def axDefs5 : List RegDef := [
  { addr := 0x904, reset := 0x0, rw := 0x0, rb := 0x0, rk := 0x0, rc := 0x0, wo := 0x0, ro := 0xFFFFFFFF, writer := .mgmt },
  { addr := 0x908, reset := 0x0, rw := 0x0, rb := 0x0, rk := 0x0, rc := 0x0, wo := 0x0, ro := 0xFFFFFF, writer := .mgmt },
  { addr := 0x90C, reset := 0x0, rw := 0x0, rb := 0x0, rk := 0x0, rc := 0x0, wo := 0x0, ro := 0xFFFFFFFF, writer := .mgmt },
  { addr := 0x910, reset := 0x0, rw := 0x0, rb := 0x0, rk := 0x0, rc := 0x0, wo := 0x0, ro := 0xFFFF, writer := .mgmt },
  { addr := 0x914, reset := 0x0, rw := 0x0, rb := 0x0, rk := 0x0, rc := 0x0, wo := 0x0, ro := 0xFFFFFFFF, writer := .mgmt },
  { addr := 0x918, reset := 0x0, rw := 0x0, rb := 0x0, rk := 0x0, rc := 0x0, wo := 0x0, ro := 0xFFFFFFFF, writer := .mgmt },
  { addr := 0x91C, reset := 0x0, rw := 0x0, rb := 0x0, rk := 0x0, rc := 0x0, wo := 0x0, ro := 0xFFFFFFFF, writer := .mgmt },
  { addr := 0x920, reset := 0x0, rw := 0x0, rb := 0x0, rk := 0x0, rc := 0x0, wo := 0x0, ro := 0xFFFFFFFF, writer := .mgmt },
  { addr := 0x924, reset := 0x0, rw := 0x0, rb := 0x0, rk := 0x0, rc := 0x0, wo := 0x0, ro := 0xFFFFFFFF, writer := .mgmt },
  { addr := 0x928, reset := 0x0, rw := 0x0, rb := 0x0, rk := 0x0, rc := 0x0, wo := 0x0, ro := 0xFFFFFFFF, writer := .mgmt },
  { addr := 0x92C, reset := 0x0, rw := 0x0, rb := 0x0, rk := 0x0, rc := 0x0, wo := 0x0, ro := 0xFFFFFFFF, writer := .mgmt }]

/-- The registers of an axis page in address order (14 R456); writing plane by offset (01 R23). -/
def axDefs : List RegDef := axDefs0 ++ axDefs1 ++ axDefs2 ++ axDefs3 ++ axDefs4 ++ axDefs5

namespace AX

def AX_CFG.MOTOR : Fld := ⟨0, 0, 2⟩
def AX_CFG.AXIS : Fld := ⟨0, 8, 6⟩
def AX_STAT.MODE : Fld := ⟨1, 0, 4⟩
def AX_STAT.POS_UNC : Fld := ⟨1, 4, 1⟩
def AX_STAT.TRIP : Fld := ⟨1, 5, 1⟩
def AX_STAT.PRE : Fld := ⟨1, 6, 1⟩
def AX_STAT.LOST : Fld := ⟨1, 7, 1⟩
def AX_STAT.SPARE_USED : Fld := ⟨1, 8, 1⟩
def AX_STAT.SPARE_BAD : Fld := ⟨1, 9, 1⟩
def AX_STAT.SLC_FAIL : Fld := ⟨1, 10, 1⟩
def AX_STAT.PLANNED : Fld := ⟨1, 11, 1⟩
def AX_STAT.ORPHAN : Fld := ⟨1, 12, 1⟩
def AX_STAT.SESS_RST : Fld := ⟨1, 13, 1⟩
def AX_STAT.HALL_FAIL : Fld := ⟨1, 15, 1⟩
def AX_SUPV.AGE : Fld := ⟨2, 0, 16⟩
def AX_SUPV.HELD : Fld := ⟨2, 16, 1⟩
def RST_STAT.SESS_RST : Fld := ⟨3, 0, 1⟩
def RST_STAT.CARRIED : Fld := ⟨3, 1, 1⟩
def RST_STAT.ORPHAN : Fld := ⟨3, 2, 1⟩
def PWM_CTRL.DIRECT : Fld := ⟨4, 0, 1⟩
def PWM_CTRL.OUT_EN : Fld := ⟨4, 1, 1⟩
def PWM_CTRL.INDEP : Fld := ⟨4, 2, 4⟩
def PWM_CTRL.HALT_MODE : Fld := ⟨4, 6, 1⟩
def PWM_CTRL.STAG_EN : Fld := ⟨4, 7, 1⟩
def PWM_PER.PER : Fld := ⟨5, 0, 16⟩
def PWM_DT.DT : Fld := ⟨6, 0, 8⟩
def PWM_DT.MINP : Fld := ⟨6, 8, 8⟩
def PWM_CMP0.CMP : Fld := ⟨7, 0, 19⟩
def PWM_CMPL0.CMPL : Fld := ⟨11, 0, 19⟩
def PWM_STAT.CNT : Fld := ⟨15, 0, 16⟩
def PWM_STAT.DOWN : Fld := ⟨15, 16, 1⟩
def PWM_STAT.FILL : Fld := ⟨15, 17, 1⟩
def PWM_STAT.PEND : Fld := ⟨15, 18, 1⟩
def PWM_STAT.DIRECT_ACT : Fld := ⟨15, 19, 1⟩
def GD_CTRL.MODE : Fld := ⟨16, 0, 1⟩
def GD_CTRL.S_MIN : Fld := ⟨16, 8, 4⟩
def GD_CTRL.S_MAX : Fld := ⟨16, 12, 4⟩
def GD_CTRL.T_TARGET : Fld := ⟨16, 16, 6⟩
def GD_ON.S_PRE : Fld := ⟨17, 0, 4⟩
def GD_ON.S_SLOPE : Fld := ⟨17, 4, 4⟩
def GD_ON.S_HOLD : Fld := ⟨17, 8, 4⟩
def GD_ON.T_PRE : Fld := ⟨17, 12, 6⟩
def GD_ON.T_SLOPE : Fld := ⟨17, 18, 8⟩
def GD_OFF.S_PRE : Fld := ⟨18, 0, 4⟩
def GD_OFF.S_SLOPE : Fld := ⟨18, 4, 4⟩
def GD_OFF.S_HOLD : Fld := ⟨18, 8, 4⟩
def GD_OFF.T_PRE : Fld := ⟨18, 12, 6⟩
def GD_OFF.T_SLOPE : Fld := ⟨18, 18, 8⟩
def GD_CODE_ON.L0 : Fld := ⟨19, 0, 4⟩
def GD_CODE_ON.L1 : Fld := ⟨19, 4, 4⟩
def GD_CODE_ON.L2 : Fld := ⟨19, 8, 4⟩
def GD_CODE_ON.L3 : Fld := ⟨19, 12, 4⟩
def GD_CODE_ON.L4 : Fld := ⟨19, 16, 4⟩
def GD_CODE_OFF.L0 : Fld := ⟨20, 0, 4⟩
def GD_CODE_OFF.L1 : Fld := ⟨20, 4, 4⟩
def GD_CODE_OFF.L2 : Fld := ⟨20, 8, 4⟩
def GD_CODE_OFF.L3 : Fld := ⟨20, 12, 4⟩
def GD_CODE_OFF.L4 : Fld := ⟨20, 16, 4⟩
def SC_CFG.SC_THR : Fld := ⟨21, 0, 4⟩
def SC_CFG.SC_RETRY : Fld := ⟨21, 4, 3⟩
def SC_CFG.T_S1 : Fld := ⟨21, 8, 8⟩
def SC_CFG.SPARE_EN : Fld := ⟨21, 16, 1⟩
def LEG_STAT.FAIL : Fld := ⟨22, 0, 5⟩
def LEG_STAT.ISO : Fld := ⟨22, 5, 4⟩
def LEG_STAT.TAP : Fld := ⟨22, 9, 4⟩
def LEG_STAT.SUB_ROLE : Fld := ⟨22, 13, 3⟩
def LEG_STAT.SPARE_USED : Fld := ⟨22, 16, 1⟩
def LEG_STAT.SPARE_BAD : Fld := ⟨22, 17, 1⟩
def LEG_STAT.LOST : Fld := ⟨22, 18, 1⟩
def LEG_STAT.SUBST_BUSY : Fld := ⟨22, 19, 1⟩
def LEG_STAT.FAULT_RUN : Fld := ⟨22, 20, 3⟩
def LEG_STAT.HOLD : Fld := ⟨22, 23, 1⟩
def LEG_STAT.BOOT_OK : Fld := ⟨22, 24, 5⟩
def LEG_EVT.SC : Flag := ⟨0, 0⟩
def LEG_EVT.RETRY_OK : Flag := ⟨0, 1⟩
def LEG_EVT.SUBST : Flag := ⟨0, 2⟩
def LEG_EVT.SPARE_BAD : Flag := ⟨0, 3⟩
def LEG_EVT.AXIS_LOST : Flag := ⟨0, 4⟩
def LEG_EVT.BOOT_UV : Flag := ⟨0, 5⟩
def LEG_EVT.GD_LIMIT : Flag := ⟨0, 6⟩
def LEG_EVT.ISO_FAULT : Flag := ⟨0, 7⟩
def LEG_EVT.SEQ : Fld := ⟨23, 24, 8⟩
def TRIP_CFG.TRIP_FLT : Fld := ⟨24, 0, 8⟩
def TRIP_CFG.TRIP_CHAT : Fld := ⟨24, 8, 8⟩
def TRIP_CFG.EXT_EN : Fld := ⟨24, 16, 1⟩
def TRIP_CFG.COMP_EN : Fld := ⟨24, 17, 1⟩
def TRIP_STAT.PRE : Fld := ⟨25, 0, 1⟩
def TRIP_STAT.LATCH : Fld := ⟨25, 1, 1⟩
def TRIP_STAT.FILT : Fld := ⟨25, 2, 1⟩
def TRIP_STAT.SRC_COMP : Fld := ⟨25, 3, 1⟩
def TRIP_STAT.SRC_LINK : Fld := ⟨25, 4, 1⟩
def TRIP_STAT.SRC_DIDT : Fld := ⟨25, 5, 1⟩
def TRIP_STAT.SRC_EXT : Fld := ⟨25, 6, 1⟩
def TRIP_STAT.SRC_CHAT : Fld := ⟨25, 7, 1⟩
def TRIP_STAT.CMP_HI : Fld := ⟨25, 8, 4⟩
def TRIP_STAT.CMP_LO : Fld := ⟨25, 12, 4⟩
def TRIP_EVT.PRE : Flag := ⟨1, 0⟩
def TRIP_EVT.CONF : Flag := ⟨1, 1⟩
def TRIP_EVT.CHAT : Flag := ⟨1, 2⟩
def TRIP_EVT.INTLK : Flag := ⟨1, 3⟩
def TRIP_EVT.CLR_IGN : Flag := ⟨1, 4⟩
def TRIP_EVT.SEQ : Fld := ⟨26, 24, 8⟩
def TRIP_CLR.CLR : Fld := ⟨27, 0, 1⟩
def CMP_WIN0.LOW : Fld := ⟨28, 0, 10⟩
def CMP_WIN0.HIGH : Fld := ⟨28, 10, 10⟩
def CMP_WIN0.HYST : Fld := ⟨28, 20, 4⟩
def ST_CFG.MSTEP_RES : Fld := ⟨32, 0, 4⟩
def ST_CFG.CORR_EN : Fld := ⟨32, 4, 1⟩
def ST_CFG.ADAPT_EN : Fld := ⟨32, 5, 1⟩
def ST_CFG.POLE_PAIRS : Fld := ⟨32, 8, 8⟩
def I_LIM0.I_MIN : Fld := ⟨33, 0, 16⟩
def I_LIM0.I_MAX : Fld := ⟨33, 16, 16⟩
def I_LIM1.I_HOLD : Fld := ⟨34, 0, 16⟩
def I_LIM1.I_RATE : Fld := ⟨34, 16, 16⟩
def CUR_CTRL.AUTO : Fld := ⟨35, 0, 1⟩
def CUR_CTRL.FF_EN : Fld := ⟨35, 1, 1⟩
def CUR_CTRL.BW : Fld := ⟨35, 8, 8⟩
def CUR_GAIN.KP : Fld := ⟨36, 0, 16⟩
def CUR_GAIN.KI : Fld := ⟨36, 16, 16⟩
def LA_CFG.LA_TARGET : Fld := ⟨37, 0, 8⟩
def LA_CFG.STALL_ANG : Fld := ⟨37, 8, 8⟩
def LA_CFG.STALL_N : Fld := ⟨37, 16, 8⟩
def LA_CFG.LA_TAU : Fld := ⟨37, 24, 4⟩
def LA_GAIN.ADAPT_GAIN : Fld := ⟨38, 0, 16⟩
def LA_GAIN.V_EST : Fld := ⟨38, 16, 16⟩
def OBST_CFG.OBST_EN : Fld := ⟨39, 0, 1⟩
def OBST_CFG.OBST_ACT : Fld := ⟨39, 1, 2⟩
def OBST_CFG.OBST_N : Fld := ⟨39, 8, 8⟩
def HOME_CFG.HOME_TQ : Fld := ⟨40, 0, 16⟩
def HOME_CFG.HOME_N : Fld := ⟨40, 16, 8⟩
def HOME_CFG.HOME_TMO : Fld := ⟨40, 24, 8⟩
def HOME_OFS.HOME_OFS : Fld := ⟨41, 0, 32⟩
def STEP_CFG.STEP_RES : Fld := ⟨42, 0, 4⟩
def STEP_CFG.EDGE : Fld := ⟨42, 4, 1⟩
def STEP_CFG.DIR_INV : Fld := ⟨42, 5, 1⟩
def ST_STAT.I_AMP : Fld := ⟨43, 0, 16⟩
def ST_STAT.LA : Fld := ⟨43, 16, 8⟩
def ST_STAT.LA_VALID : Fld := ⟨43, 24, 1⟩
def ST_STAT.STALLED : Fld := ⟨43, 25, 1⟩
def ST_STAT.POS_UNC : Fld := ⟨43, 26, 1⟩
def ST_STAT.OBST : Fld := ⟨43, 27, 1⟩
def ST_STAT.I2T_CLAMP : Fld := ⟨43, 28, 1⟩
def ST_STAT.V_SAT : Fld := ⟨43, 29, 1⟩
def ST_STAT.HOMED : Fld := ⟨43, 30, 1⟩
def ST_STAT.HOMING : Fld := ⟨43, 31, 1⟩
def ST_FORCE.F_EST : Fld := ⟨44, 0, 32⟩
def I2T_STAT.ACC_A : Fld := ⟨45, 0, 16⟩
def I2T_STAT.ACC_B : Fld := ⟨45, 16, 16⟩
def ST_EVT.STALL : Flag := ⟨2, 0⟩
def ST_EVT.POS_UNC : Flag := ⟨2, 1⟩
def ST_EVT.OBST : Flag := ⟨2, 2⟩
def ST_EVT.HOME_DONE : Flag := ⟨2, 3⟩
def ST_EVT.HOME_FAIL : Flag := ⟨2, 4⟩
def ST_EVT.I2T : Flag := ⟨2, 5⟩
def ST_EVT.STEP_LOST : Flag := ⟨2, 6⟩
def ST_EVT.STEP_OVR : Flag := ⟨2, 7⟩
def ST_EVT.V_SAT : Flag := ⟨2, 8⟩
def ST_EVT.SEQ : Fld := ⟨46, 24, 8⟩
def SLC_TRIG0.DELAY : Fld := ⟨47, 0, 12⟩
def SLC_TRIG0.EVT : Fld := ⟨47, 12, 2⟩
def SLC_TRIG0.EVT_CNT : Fld := ⟨47, 16, 16⟩
def SLC_DIAG.DELAY : Fld := ⟨49, 0, 12⟩
def SLC_DIAG.EVT : Fld := ⟨49, 12, 2⟩
def SLC_DIAG.EN : Fld := ⟨49, 14, 1⟩
def SLC_DIAG.SLC : Fld := ⟨49, 15, 1⟩
def SLC_DIAG.EVT_CNT : Fld := ⟨49, 16, 16⟩
def SLC_CFG.DSRC : Fld := ⟨50, 0, 1⟩
def SLC_CFG.REQ : Fld := ⟨50, 1, 2⟩
def SLC_DATA0.I : Fld := ⟨51, 0, 18⟩
def SLC_DATA0.CODE : Fld := ⟨51, 18, 12⟩
def SLC_DATA0.OVR : Fld := ⟨51, 30, 1⟩
def SLC_DATA0.NEW : Fld := ⟨51, 31, 1⟩
def SLC_STAT.AWAKE0 : Fld := ⟨53, 0, 1⟩
def SLC_STAT.AWAKE1 : Fld := ⟨53, 1, 1⟩
def SLC_STAT.ILV : Fld := ⟨53, 2, 1⟩
def SLC_STAT.SUB : Fld := ⟨53, 3, 2⟩
def SLC_STAT.FAIL : Fld := ⟨53, 5, 2⟩
def SLC_STAT.STBY : Fld := ⟨53, 7, 2⟩
def SLC_STAT.SP0 : Fld := ⟨53, 9, 3⟩
def SLC_STAT.SP1 : Fld := ⟨53, 12, 3⟩
def SLC_STAT.LATE : Fld := ⟨53, 16, 8⟩
def SLC_FAC0.GAIN : Fld := ⟨54, 0, 16⟩
def SLC_FAC0.OFS : Fld := ⟨54, 16, 12⟩
def SLC_FAC0.AGE : Fld := ⟨54, 28, 4⟩
def SLC_EVT.LATE : Flag := ⟨3, 0⟩
def SLC_EVT.DROP : Flag := ⟨3, 1⟩
def SLC_EVT.SUBST : Flag := ⟨3, 2⟩
def SLC_EVT.FAIL : Flag := ⟨3, 3⟩
def SLC_EVT.MISMATCH : Flag := ⟨3, 4⟩
def SLC_EVT.SEQ : Fld := ⟨56, 24, 8⟩
def BL_CFG.POLE_PAIRS : Fld := ⟨57, 0, 8⟩
def BL_CFG.HALL_MODE : Fld := ⟨57, 8, 2⟩
def BL_CFG.HALL_DIR : Fld := ⟨57, 10, 1⟩
def BL_CFG.FF_EN : Fld := ⟨57, 11, 1⟩
def BL_CFG.AUTO : Fld := ⟨57, 12, 1⟩
def BL_CFG.BW : Fld := ⟨57, 16, 8⟩
def BL_HALL.HALL_OFS : Fld := ⟨58, 0, 16⟩
def BL_HALL.HALL_FLT : Fld := ⟨58, 16, 8⟩
def BL_ILIM.I_MAX : Fld := ⟨59, 0, 16⟩
def BL_ILIM.I_BRAKE : Fld := ⟨59, 16, 16⟩
def BL_GAIN.KP : Fld := ⟨60, 0, 16⟩
def BL_GAIN.KI : Fld := ⟨60, 16, 16⟩
def BL_SAMP.T_SAMP_MIN : Fld := ⟨61, 0, 8⟩
def BL_SAMP.SHIFT_EN : Fld := ⟨61, 8, 1⟩
def BL_PLOOP.KPP : Fld := ⟨62, 0, 16⟩
def BL_PLOOP.FERR_MAX : Fld := ⟨62, 16, 16⟩
def BL_VLOOP.KVP : Fld := ⟨63, 0, 16⟩
def BL_VLOOP.KVI : Fld := ⟨63, 16, 16⟩
def BL_START.TP_LEN : Fld := ⟨64, 0, 8⟩
def BL_START.TP_GAP : Fld := ⟨64, 8, 8⟩
def BL_START.TP_ASYM : Fld := ⟨64, 16, 8⟩
def BL_START.BEMF_N : Fld := ⟨64, 24, 8⟩
def BL_SPEED.V_BEMF : Fld := ⟨65, 0, 16⟩
def BL_SPEED.V_STOP : Fld := ⟨65, 16, 16⟩
def BL_CATCH.V_CATCH : Fld := ⟨66, 0, 16⟩
def BL_CATCH.V_CATCH_MAX : Fld := ⟨66, 16, 16⟩
def BL_LOCK.T_LOCK : Fld := ⟨67, 0, 8⟩
def BL_LOCK.LOCK_TQ : Fld := ⟨67, 16, 16⟩
def BL_OBST.OBST_EN : Fld := ⟨68, 0, 1⟩
def BL_OBST.OBST_ACT : Fld := ⟨68, 1, 2⟩
def BL_OBST.OBST_N : Fld := ⟨68, 8, 8⟩
def BL_HOME.HOME_TQ : Fld := ⟨69, 0, 16⟩
def BL_HOME.HOME_N : Fld := ⟨69, 16, 8⟩
def BL_HOME.HOME_TMO : Fld := ⟨69, 24, 8⟩
def BL_HOME_OFS.HOME_OFS : Fld := ⟨70, 0, 32⟩
def BL_LS.LS_SRC : Fld := ⟨71, 0, 2⟩
def BL_LS.LS_DIR : Fld := ⟨71, 2, 1⟩
def BL_LS.LS_DEAD : Fld := ⟨71, 8, 8⟩
def BL_LS.LS_FMAX : Fld := ⟨71, 16, 16⟩
def BL_LS_VMAX.LS_VMAX : Fld := ⟨72, 0, 32⟩
def BL_ADV0.SPD : Fld := ⟨73, 0, 16⟩
def BL_ADV0.ADV : Fld := ⟨73, 16, 16⟩
def BL_STEP.STEP_RES : Fld := ⟨89, 0, 4⟩
def BL_STEP.EDGE : Fld := ⟨89, 4, 1⟩
def BL_STEP.DIR_INV : Fld := ⟨89, 5, 1⟩
def BL_STAT.SECTOR : Fld := ⟨90, 0, 3⟩
def BL_STAT.POS_SRC : Fld := ⟨90, 3, 2⟩
def BL_STAT.HALL_FAIL : Fld := ⟨90, 5, 1⟩
def BL_STAT.POS_UNC : Fld := ⟨90, 6, 1⟩
def BL_STAT.LOCKED : Fld := ⟨90, 7, 1⟩
def BL_STAT.OBST : Fld := ⟨90, 8, 1⟩
def BL_STAT.BRAKE : Fld := ⟨90, 9, 1⟩
def BL_STAT.PARK : Fld := ⟨90, 10, 1⟩
def BL_STAT.CATCH : Fld := ⟨90, 11, 1⟩
def BL_STAT.INIT : Fld := ⟨90, 12, 1⟩
def BL_STAT.SHIFT : Fld := ⟨90, 13, 1⟩
def BL_STAT.V_SAT : Fld := ⟨90, 14, 1⟩
def BL_STAT.I2T_CLAMP : Fld := ⟨90, 15, 1⟩
def BL_STAT.HOMED : Fld := ⟨90, 16, 1⟩
def BL_STAT.HOMING : Fld := ⟨90, 17, 1⟩
def BL_FORCE.F_EST : Fld := ⟨91, 0, 32⟩
def BL_EVT.HALL_FAIL : Flag := ⟨4, 0⟩
def BL_EVT.HALL_SKIP : Flag := ⟨4, 1⟩
def BL_EVT.INIT_DONE : Flag := ⟨4, 2⟩
def BL_EVT.INIT_FAIL : Flag := ⟨4, 3⟩
def BL_EVT.LOCKED : Flag := ⟨4, 4⟩
def BL_EVT.OBST : Flag := ⟨4, 5⟩
def BL_EVT.HOME_DONE : Flag := ⟨4, 6⟩
def BL_EVT.HOME_FAIL : Flag := ⟨4, 7⟩
def BL_EVT.FERR : Flag := ⟨4, 8⟩
def BL_EVT.CATCH : Flag := ⟨4, 9⟩
def BL_EVT.CATCH_FAIL : Flag := ⟨4, 10⟩
def BL_EVT.LS_LOSS : Flag := ⟨4, 11⟩
def BL_EVT.V_SAT : Flag := ⟨4, 12⟩
def BL_EVT.POS_UNC : Flag := ⟨4, 13⟩
def BL_EVT.STEP_LOST : Flag := ⟨4, 14⟩
def BL_EVT.STEP_OVR : Flag := ⟨4, 15⟩
def BL_EVT.I2T : Flag := ⟨4, 16⟩
def BL_EVT.SEQ : Fld := ⟨92, 24, 8⟩
def BL_DIAG.INIT_ANGLE : Fld := ⟨93, 0, 12⟩
def BL_DIAG.I_AMP : Fld := ⟨93, 16, 16⟩
def BL_I2T.ACC_MAX : Fld := ⟨94, 0, 16⟩
def MOT_CFG.GRP : Fld := ⟨95, 0, 8⟩
def MOT_CFG.LIM_EN : Fld := ⟨95, 8, 1⟩
def MOT_CFG.MLOSS_ACT : Fld := ⟨95, 9, 1⟩
def MOT_VMAX.V_MAX : Fld := ⟨96, 0, 32⟩
def MOT_AMAX.A_MAX : Fld := ⟨97, 0, 32⟩
def MOT_DMAX.D_MAX : Fld := ⟨98, 0, 32⟩
def MOT_JERK.JERK : Fld := ⟨99, 0, 32⟩
def MOT_QSDEC.QS_DEC : Fld := ⟨100, 0, 32⟩
def MOT_QSJERK.QS_JERK : Fld := ⟨101, 0, 32⟩
def MOT_STAT.MODE : Fld := ⟨102, 0, 4⟩
def MOT_STAT.SEG : Fld := ⟨102, 4, 3⟩
def MOT_STAT.QUEUED : Fld := ⟨102, 7, 1⟩
def MOT_STAT.CAM_WAIT : Fld := ⟨102, 8, 1⟩
def MOT_STAT.GEAR_RAMP : Fld := ⟨102, 9, 1⟩
def MOT_STAT.DEPTH : Fld := ⟨102, 10, 2⟩
def MOT_STAT.GRP_ACT : Fld := ⟨102, 12, 1⟩
def MOT_STAT.GRP_ID : Fld := ⟨102, 13, 3⟩
def MOT_STAT.TABLE : Fld := ⟨102, 16, 8⟩
def MOT_VCMD.V_CMD : Fld := ⟨103, 0, 32⟩
def MOT_ACMD.A_CMD : Fld := ⟨104, 0, 32⟩
def MOT_EVT.MOVE_DONE : Flag := ⟨5, 0⟩
def MOT_EVT.STOP_DONE : Flag := ⟨5, 1⟩
def MOT_EVT.QUEUE_START : Flag := ⟨5, 2⟩
def MOT_EVT.GRP_DONE : Flag := ⟨5, 3⟩
def MOT_EVT.LIMIT : Flag := ⟨5, 4⟩
def MOT_EVT.FOLLOW_OVR : Flag := ⟨5, 5⟩
def MOT_EVT.MASTER_LOST : Flag := ⟨5, 6⟩
def MOT_EVT.CAM_ENGAGED : Flag := ⟨5, 7⟩
def MOT_EVT.CAM_END : Flag := ⟨5, 8⟩
def MOT_EVT.CAM_ECC : Flag := ⟨5, 9⟩
def MOT_EVT.ABANDONED : Flag := ⟨5, 10⟩
def MOT_EVT.CAM_REFUSED : Flag := ⟨5, 11⟩
def MOT_EVT.SEQ : Fld := ⟨105, 24, 8⟩
def PLAN_AX.T_LOAD : Fld := ⟨106, 0, 16⟩
def PLAN_AX.P_STAGE : Fld := ⟨106, 16, 8⟩
def LEDG_AX.SB_STOP : Fld := ⟨107, 0, 1⟩
def LEDG_AX.MODEL_DEV : Fld := ⟨107, 1, 1⟩
def LEDG_AX.PLANNED : Fld := ⟨107, 2, 1⟩
def LEDG_AX.UNLEARNED : Fld := ⟨107, 3, 1⟩
def LEDG_LAST.E_LAST : Fld := ⟨108, 0, 16⟩
def LEDG_LAST.E_PRED : Fld := ⟨108, 16, 16⟩
def LEDG_LEARN.E_LEARN : Fld := ⟨109, 0, 16⟩
def GZ_SW.SW_OK : Fld := ⟨110, 0, 10⟩
def GZ_SW.ISO_OK : Fld := ⟨110, 10, 4⟩
def GZ_SW.TAP_OK : Fld := ⟨110, 14, 4⟩
def GZ_SW.DIDT_OK : Fld := ⟨110, 18, 5⟩
def GZ_SW.CMP_OK : Fld := ⟨110, 23, 5⟩
def GZ_AGE.AGE : Fld := ⟨111, 0, 16⟩
def GZ_AGE.GATE_OK : Fld := ⟨111, 16, 5⟩
def GZ_DIDT01.L0 : Fld := ⟨112, 0, 16⟩
def GZ_DIDT01.L1 : Fld := ⟨112, 16, 16⟩
def GZ_DIDT23.L2 : Fld := ⟨113, 0, 16⟩
def GZ_DIDT23.L3 : Fld := ⟨113, 16, 16⟩
def GZ_DIDT4.L4 : Fld := ⟨114, 0, 16⟩
def LIFE_CYC.CYC : Fld := ⟨115, 0, 32⟩
def LIFE_E.E : Fld := ⟨116, 0, 32⟩
def LIFE_TC.TC : Fld := ⟨117, 0, 32⟩
def LIFE_H.H : Fld := ⟨118, 0, 32⟩
def SC_CNT01.L0 : Fld := ⟨119, 0, 16⟩
def SC_CNT01.L1 : Fld := ⟨119, 16, 16⟩
def SC_CNT23.L2 : Fld := ⟨120, 0, 16⟩
def SC_CNT23.L3 : Fld := ⟨120, 16, 16⟩
def SC_CNT4.L4 : Fld := ⟨121, 0, 16⟩
def SC_CNT4.SUBST_CNT : Fld := ⟨121, 16, 8⟩
def TRIP_CNT.INTLK_CNT : Fld := ⟨122, 0, 16⟩
def TRIP_CNT.PRE_CNT : Fld := ⟨122, 16, 16⟩
def CONF_CNT.CONF_CNT : Fld := ⟨123, 0, 16⟩
def STEP_CNT.STEP_LOST : Fld := ⟨124, 0, 16⟩
def STEP_CNT.STEP_OVR : Fld := ⟨124, 16, 16⟩
def ST_CNT.STALL_CNT : Fld := ⟨125, 0, 16⟩
def ST_CNT.OBST_CNT : Fld := ⟨125, 16, 16⟩
def BL_CNT0.HALL_ERR : Fld := ⟨126, 0, 16⟩
def BL_CNT0.SAMP_HOLD : Fld := ⟨126, 16, 16⟩
def BL_CNT1.LOCK_CNT : Fld := ⟨127, 0, 16⟩
def BL_CNT1.OBST_CNT : Fld := ⟨127, 16, 16⟩
def BL_CNT2.STEP_LOST : Fld := ⟨128, 0, 16⟩
def BL_CNT2.STEP_OVR : Fld := ⟨128, 16, 16⟩
def MOT_CNT.MOVES : Fld := ⟨129, 0, 16⟩
def MOT_CNT.STOPS : Fld := ⟨129, 16, 16⟩
def SLC_CNT.DROP_CNT : Fld := ⟨130, 0, 16⟩
def SLC_CNT.LATE_CNT : Fld := ⟨130, 16, 16⟩

end AX

/-- The event registers of an axis page, by number: their places in `axDefs`. -/
def axEvRegs : List Nat := [23, 26, 46, 56, 92, 105]

/-! ### The module pages (14 R448 to R455) -/

def modDefsA0 : List RegDef := [
  { addr := 0x0, reset := 0x48750101, rw := 0x0, rb := 0x0, rk := 0x0, rc := 0x0, wo := 0x0, ro := 0xFFFFFFFF, writer := .ctrl },
  { addr := 0x4, reset := 0x3212110, rw := 0x0, rb := 0x0, rk := 0x0, rc := 0x0, wo := 0x0, ro := 0xFFFFFFFF, writer := .ctrl },
  { addr := 0x10, reset := 0x640000, rw := 0xFFFF0001, rb := 0x0, rk := 0x2, rc := 0x0, wo := 0x0, ro := 0x0, writer := .ctrl },
  { addr := 0x14, reset := 0x0, rw := 0x0, rb := 0x0, rk := 0x0, rc := 0x0, wo := 0x0, ro := 0x7FFF, writer := .ctrl },
  { addr := 0x18, reset := 0x0, rw := 0x0, rb := 0x0, rk := 0x0, rc := 0x0, wo := 0x0, ro := 0xFFFFFFFF, writer := .ctrl },
  { addr := 0x1C, reset := 0x12C0000, rw := 0xFFFF0003, rb := 0x0, rk := 0x0, rc := 0x0, wo := 0x0, ro := 0x0, writer := .ctrl },
  { addr := 0x20, reset := 0x0, rw := 0x0, rb := 0x0, rk := 0x0, rc := 0xFF0001FF, wo := 0x0, ro := 0x0, writer := .ctrl },
  { addr := 0x24, reset := 0x0, rw := 0x0, rb := 0x0, rk := 0x0, rc := 0x0, wo := 0x0, ro := 0xFFFFFF, writer := .ctrl },
  { addr := 0x28, reset := 0x0, rw := 0x0, rb := 0x0, rk := 0x0, rc := 0x0, wo := 0x0, ro := 0x3FF, writer := .ctrl },
  { addr := 0x40, reset := 0x0, rw := 0xFFFFFFFF, rb := 0x0, rk := 0x0, rc := 0x0, wo := 0x0, ro := 0x0, writer := .ctrl },
  { addr := 0x44, reset := 0x0, rw := 0x8000FFFF, rb := 0x0, rk := 0x0, rc := 0x0, wo := 0x0, ro := 0x0, writer := .ctrl },
  { addr := 0x10000, reset := 0x0, rw := 0x0, rb := 0x0, rk := 0x0, rc := 0x0, wo := 0x0, ro := 0xFFFF77, writer := .mgmt },
  { addr := 0x10004, reset := 0x0, rw := 0x0, rb := 0x0, rk := 0x0, rc := 0xFF00007F, wo := 0x0, ro := 0x0, writer := .mgmt },
  { addr := 0x10008, reset := 0x4, rw := 0x4, rb := 0x0, rk := 0x0, rc := 0x0, wo := 0x3, ro := 0x0, writer := .mgmt },
  { addr := 0x10010, reset := 0x0, rw := 0x0, rb := 0x0, rk := 0x0, rc := 0x0, wo := 0x0, ro := 0xFF3FFFF, writer := .mgmt },
  { addr := 0x10014, reset := 0x0, rw := 0x0, rb := 0x0, rk := 0x0, rc := 0x0, wo := 0x0, ro := 0xFF3FFFF, writer := .mgmt },
  { addr := 0x10018, reset := 0x0, rw := 0x0, rb := 0x0, rk := 0x0, rc := 0x0, wo := 0x0, ro := 0xFFFFFFFF, writer := .mgmt },
  { addr := 0x20000, reset := 0x0, rw := 0x0, rb := 0x0, rk := 0x0, rc := 0x0, wo := 0x0, ro := 0x3F, writer := .mgmt },
  { addr := 0x20004, reset := 0x0, rw := 0x0, rb := 0x0, rk := 0x0, rc := 0xFF0000FF, wo := 0x0, ro := 0x0, writer := .mgmt },
  { addr := 0x20008, reset := 0x67F, rw := 0x77F, rb := 0x0, rk := 0x0, rc := 0x0, wo := 0x0, ro := 0x0, writer := .mgmt },
  { addr := 0x2000C, reset := 0x0, rw := 0xFFFFFFFF, rb := 0x0, rk := 0x0, rc := 0x0, wo := 0x0, ro := 0x0, writer := .mgmt },
  { addr := 0x20010, reset := 0x0, rw := 0x0, rb := 0x0, rk := 0x0, rc := 0x0, wo := 0x0, ro := 0xFFFFFF7F, writer := .mgmt },
  { addr := 0x20014, reset := 0x0, rw := 0x0, rb := 0x0, rk := 0x0, rc := 0x0, wo := 0x0, ro := 0xFFFFFFFF, writer := .mgmt },
  { addr := 0x20018, reset := 0x0, rw := 0x0, rb := 0x0, rk := 0x0, rc := 0x0, wo := 0x0, ro := 0xFFFFFFFF, writer := .mgmt }]

def modDefsA1 : List RegDef := [
  { addr := 0x30000, reset := 0x12C0, rw := 0xFFFFFFFF, rb := 0x0, rk := 0x0, rc := 0x0, wo := 0x0, ro := 0x0, writer := .ctrl },
  { addr := 0x30004, reset := 0x3E803E8, rw := 0xFFFFFFFF, rb := 0x0, rk := 0x0, rc := 0x0, wo := 0x0, ro := 0x0, writer := .ctrl },
  { addr := 0x30008, reset := 0xBE168, rw := 0xFFFFF, rb := 0x0, rk := 0x0, rc := 0x0, wo := 0x0, ro := 0x0, writer := .ctrl },
  { addr := 0x3000C, reset := 0x0, rw := 0xFFFFFFFF, rb := 0x0, rk := 0x0, rc := 0x0, wo := 0x0, ro := 0x0, writer := .ctrl },
  { addr := 0x30010, reset := 0x0, rw := 0xFFFF0003, rb := 0x0, rk := 0x0, rc := 0x0, wo := 0x0, ro := 0x0, writer := .ctrl },
  { addr := 0x30014, reset := 0x2BC03E8, rw := 0x3FFFFFF, rb := 0x0, rk := 0x0, rc := 0x0, wo := 0x0, ro := 0x0, writer := .ctrl },
  { addr := 0x30018, reset := 0x7D08064, rw := 0xFFFFFFFF, rb := 0x0, rk := 0x0, rc := 0x0, wo := 0x0, ro := 0x0, writer := .ctrl },
  { addr := 0x3001C, reset := 0x18, rw := 0xFF, rb := 0x0, rk := 0x0, rc := 0x0, wo := 0x0, ro := 0x0, writer := .ctrl },
  { addr := 0x30020, reset := 0x0, rw := 0xFFFFFFFF, rb := 0x0, rk := 0x0, rc := 0x0, wo := 0x0, ro := 0x0, writer := .ctrl },
  { addr := 0x30024, reset := 0x0, rw := 0xFFFFFFFF, rb := 0x0, rk := 0x0, rc := 0x0, wo := 0x0, ro := 0x0, writer := .ctrl },
  { addr := 0x30028, reset := 0x0, rw := 0xFFFFFFFF, rb := 0x0, rk := 0x0, rc := 0x0, wo := 0x0, ro := 0x0, writer := .ctrl },
  { addr := 0x3002C, reset := 0x1F4, rw := 0xFFFF, rb := 0x0, rk := 0x0, rc := 0x0, wo := 0x0, ro := 0x0, writer := .ctrl },
  { addr := 0x30040, reset := 0x4B0, rw := 0xFFFF, rb := 0x0, rk := 0x0, rc := 0x0, wo := 0x0, ro := 0x0, writer := .mgmt },
  { addr := 0x30044, reset := 0x2710, rw := 0xFFFF, rb := 0x0, rk := 0x0, rc := 0x0, wo := 0x0, ro := 0x0, writer := .mgmt },
  { addr := 0x30048, reset := 0x0, rw := 0x0, rb := 0x0, rk := 0x0, rc := 0x0, wo := 0xFF, ro := 0x0, writer := .mgmt },
  { addr := 0x30080, reset := 0x0, rw := 0x0, rb := 0x0, rk := 0x0, rc := 0x0, wo := 0x0, ro := 0x1FF, writer := .ctrl },
  { addr := 0x30084, reset := 0x0, rw := 0x0, rb := 0x0, rk := 0x0, rc := 0xFF0000FF, wo := 0x0, ro := 0x0, writer := .ctrl },
  { addr := 0x30088, reset := 0x0, rw := 0x0, rb := 0x0, rk := 0x0, rc := 0x0, wo := 0x0, ro := 0xFFFFFFFF, writer := .ctrl },
  { addr := 0x3008C, reset := 0x0, rw := 0x0, rb := 0x0, rk := 0x0, rc := 0x0, wo := 0x0, ro := 0xFFFFFFFF, writer := .ctrl },
  { addr := 0x30090, reset := 0x0, rw := 0x0, rb := 0x0, rk := 0x0, rc := 0x0, wo := 0x0, ro := 0xFFFFFFFF, writer := .ctrl },
  { addr := 0x30094, reset := 0x0, rw := 0x0, rb := 0x0, rk := 0x0, rc := 0x0, wo := 0x0, ro := 0xFFFFFFFF, writer := .ctrl },
  { addr := 0x30098, reset := 0x0, rw := 0x0, rb := 0x0, rk := 0x0, rc := 0x0, wo := 0x0, ro := 0xFFFFFFFF, writer := .ctrl },
  { addr := 0x40000, reset := 0x1F40, rw := 0x1FFFF, rb := 0x0, rk := 0x0, rc := 0x0, wo := 0x0, ro := 0x0, writer := .mgmt },
  { addr := 0x40004, reset := 0xFFFF, rw := 0xFFFFFFFF, rb := 0x0, rk := 0x0, rc := 0x0, wo := 0x0, ro := 0x0, writer := .mgmt }]

def modDefsA2 : List RegDef := [
  { addr := 0x40008, reset := 0x0, rw := 0x3FFFFFF, rb := 0x0, rk := 0x0, rc := 0x0, wo := 0x4000000, ro := 0x0, writer := .mgmt },
  { addr := 0x40010, reset := 0x3E800, rw := 0xFFFFFF, rb := 0x0, rk := 0x0, rc := 0x0, wo := 0x80000000, ro := 0x0, writer := .mgmt },
  { addr := 0x40014, reset := 0x0, rw := 0x0, rb := 0x0, rk := 0x0, rc := 0x0, wo := 0x0, ro := 0x7FFFFFF, writer := .mgmt },
  { addr := 0x40020, reset := 0x0, rw := 0x0, rb := 0x0, rk := 0x0, rc := 0x0, wo := 0x0, ro := 0x77777777, writer := .mgmt },
  { addr := 0x40024, reset := 0x0, rw := 0x0, rb := 0x0, rk := 0x0, rc := 0x0, wo := 0x0, ro := 0xFFFFFFFF, writer := .mgmt },
  { addr := 0x40028, reset := 0x0, rw := 0x0, rb := 0x0, rk := 0x0, rc := 0x0, wo := 0x0, ro := 0xFFFFFFFF, writer := .mgmt },
  { addr := 0x4002C, reset := 0x0, rw := 0x0, rb := 0x0, rk := 0x0, rc := 0x0, wo := 0x0, ro := 0xFFFF0F07, writer := .mgmt },
  { addr := 0x40030, reset := 0x0, rw := 0x0, rb := 0x0, rk := 0x0, rc := 0xFF00007F, wo := 0x0, ro := 0x0, writer := .mgmt },
  { addr := 0x40040, reset := 0xAD492C, rw := 0xFFFFFF, rb := 0x0, rk := 0x0, rc := 0x0, wo := 0x0, ro := 0x0, writer := .mgmt },
  { addr := 0x40080, reset := 0x0, rw := 0x0, rb := 0x0, rk := 0x0, rc := 0x0, wo := 0x0, ro := 0xC7FFFFFF, writer := .mgmt },
  { addr := 0x40084, reset := 0x0, rw := 0x0, rb := 0x0, rk := 0x0, rc := 0x0, wo := 0x0, ro := 0xC7FFFFFF, writer := .mgmt },
  { addr := 0x40088, reset := 0x0, rw := 0x0, rb := 0x0, rk := 0x0, rc := 0x0, wo := 0x0, ro := 0xC7FFFFFF, writer := .mgmt },
  { addr := 0x4008C, reset := 0x0, rw := 0x0, rb := 0x0, rk := 0x0, rc := 0x0, wo := 0x0, ro := 0xC7FFFFFF, writer := .mgmt },
  { addr := 0x40090, reset := 0x0, rw := 0x0, rb := 0x0, rk := 0x0, rc := 0x0, wo := 0x0, ro := 0xC7FFFFFF, writer := .mgmt },
  { addr := 0x40094, reset := 0x0, rw := 0x0, rb := 0x0, rk := 0x0, rc := 0x0, wo := 0x0, ro := 0xC7FFFFFF, writer := .mgmt },
  { addr := 0x40098, reset := 0x0, rw := 0x0, rb := 0x0, rk := 0x0, rc := 0x0, wo := 0x0, ro := 0xC7FFFFFF, writer := .mgmt },
  { addr := 0x4009C, reset := 0x0, rw := 0x0, rb := 0x0, rk := 0x0, rc := 0x0, wo := 0x0, ro := 0xC7FFFFFF, writer := .mgmt },
  { addr := 0x400A0, reset := 0x0, rw := 0x0, rb := 0x0, rk := 0x0, rc := 0x0, wo := 0x0, ro := 0xFFFF, writer := .mgmt },
  { addr := 0x400C0, reset := 0x0, rw := 0x0, rb := 0x0, rk := 0x0, rc := 0x0, wo := 0x0, ro := 0xFFFF, writer := .mgmt },
  { addr := 0x400C4, reset := 0x0, rw := 0x0, rb := 0x0, rk := 0x0, rc := 0x0, wo := 0x0, ro := 0xFFFFFFFF, writer := .mgmt },
  { addr := 0x400C8, reset := 0x0, rw := 0x0, rb := 0x0, rk := 0x0, rc := 0x0, wo := 0x0, ro := 0xFFFFFFFF, writer := .mgmt },
  { addr := 0x400CC, reset := 0x0, rw := 0x0, rb := 0x0, rk := 0x0, rc := 0x0, wo := 0x0, ro := 0xFFFFFFFF, writer := .mgmt },
  { addr := 0x400D0, reset := 0x0, rw := 0x0, rb := 0x0, rk := 0x0, rc := 0x0, wo := 0x0, ro := 0xFFFFFFFF, writer := .mgmt },
  { addr := 0x400D4, reset := 0x0, rw := 0x0, rb := 0x0, rk := 0x0, rc := 0x0, wo := 0x0, ro := 0xFFFFFFFF, writer := .mgmt }]

def modDefsA3 : List RegDef := [
  { addr := 0x400D8, reset := 0x0, rw := 0x0, rb := 0x0, rk := 0x0, rc := 0x0, wo := 0x0, ro := 0xFFFF, writer := .mgmt },
  { addr := 0x40100, reset := 0x0, rw := 0x0, rb := 0x0, rk := 0x0, rc := 0x0, wo := 0x0, ro := 0xFFFF, writer := .mgmt },
  { addr := 0x40104, reset := 0x0, rw := 0x0, rb := 0x0, rk := 0x0, rc := 0x0, wo := 0x0, ro := 0xFFFF, writer := .mgmt },
  { addr := 0x40108, reset := 0x0, rw := 0x0, rb := 0x0, rk := 0x0, rc := 0x0, wo := 0x0, ro := 0xFFFF, writer := .mgmt },
  { addr := 0x4010C, reset := 0x0, rw := 0x0, rb := 0x0, rk := 0x0, rc := 0x0, wo := 0x0, ro := 0xFFFF, writer := .mgmt },
  { addr := 0x40110, reset := 0x0, rw := 0x0, rb := 0x0, rk := 0x0, rc := 0x0, wo := 0x0, ro := 0xFFFF, writer := .mgmt },
  { addr := 0x40114, reset := 0x0, rw := 0x0, rb := 0x0, rk := 0x0, rc := 0x0, wo := 0x0, ro := 0xFFFF, writer := .mgmt },
  { addr := 0x40118, reset := 0x0, rw := 0x0, rb := 0x0, rk := 0x0, rc := 0x0, wo := 0x0, ro := 0xFFFF, writer := .mgmt },
  { addr := 0x4011C, reset := 0x0, rw := 0x0, rb := 0x0, rk := 0x0, rc := 0x0, wo := 0x0, ro := 0xFFFF, writer := .mgmt },
  { addr := 0x40120, reset := 0x0, rw := 0x0, rb := 0x0, rk := 0x0, rc := 0x0, wo := 0x0, ro := 0xFFFF, writer := .mgmt },
  { addr := 0x40124, reset := 0x0, rw := 0x0, rb := 0x0, rk := 0x0, rc := 0x0, wo := 0x0, ro := 0xFFFF, writer := .mgmt },
  { addr := 0x40128, reset := 0x0, rw := 0x0, rb := 0x0, rk := 0x0, rc := 0x0, wo := 0x0, ro := 0xFFFF, writer := .mgmt },
  { addr := 0x4012C, reset := 0x0, rw := 0x0, rb := 0x0, rk := 0x0, rc := 0x0, wo := 0x0, ro := 0xFFFF, writer := .mgmt },
  { addr := 0x40130, reset := 0x0, rw := 0x0, rb := 0x0, rk := 0x0, rc := 0x0, wo := 0x0, ro := 0xFFFF, writer := .mgmt },
  { addr := 0x40134, reset := 0x0, rw := 0x0, rb := 0x0, rk := 0x0, rc := 0x0, wo := 0x0, ro := 0xFFFF, writer := .mgmt },
  { addr := 0x40138, reset := 0x0, rw := 0x0, rb := 0x0, rk := 0x0, rc := 0x0, wo := 0x0, ro := 0xFFFF, writer := .mgmt },
  { addr := 0x4013C, reset := 0x0, rw := 0x0, rb := 0x0, rk := 0x0, rc := 0x0, wo := 0x0, ro := 0xFFFF, writer := .mgmt },
  { addr := 0x40140, reset := 0xF0008000, rw := 0x0, rb := 0x0, rk := 0x0, rc := 0x0, wo := 0x0, ro := 0xFFFFFFFF, writer := .mgmt },
  { addr := 0x40144, reset := 0xF0008000, rw := 0x0, rb := 0x0, rk := 0x0, rc := 0x0, wo := 0x0, ro := 0xFFFFFFFF, writer := .mgmt },
  { addr := 0x40148, reset := 0xF0008000, rw := 0x0, rb := 0x0, rk := 0x0, rc := 0x0, wo := 0x0, ro := 0xFFFFFFFF, writer := .mgmt },
  { addr := 0x4014C, reset := 0xF0008000, rw := 0x0, rb := 0x0, rk := 0x0, rc := 0x0, wo := 0x0, ro := 0xFFFFFFFF, writer := .mgmt },
  { addr := 0x40150, reset := 0xF0008000, rw := 0x0, rb := 0x0, rk := 0x0, rc := 0x0, wo := 0x0, ro := 0xFFFFFFFF, writer := .mgmt },
  { addr := 0x40154, reset := 0xF0008000, rw := 0x0, rb := 0x0, rk := 0x0, rc := 0x0, wo := 0x0, ro := 0xFFFFFFFF, writer := .mgmt },
  { addr := 0x40158, reset := 0xF0008000, rw := 0x0, rb := 0x0, rk := 0x0, rc := 0x0, wo := 0x0, ro := 0xFFFFFFFF, writer := .mgmt }]

def modDefsA4 : List RegDef := [
  { addr := 0x4015C, reset := 0xF0008000, rw := 0x0, rb := 0x0, rk := 0x0, rc := 0x0, wo := 0x0, ro := 0xFFFFFFFF, writer := .mgmt },
  { addr := 0x50000, reset := 0x0, rw := 0x0, rb := 0x0, rk := 0x0, rc := 0x0, wo := 0x0, ro := 0xFFFF0007, writer := .mgmt }]

/-- The control, status and counter registers of port i (12 R422). -/
def mbPortDefs (i : Nat) : List RegDef := [
  { addr := 0x60000 + 0x100 * i, reset := 0x4B500A, rw := 0x7F7F7F, rb := 0x0, rk := 0x0, rc := 0x0, wo := 0x0, ro := 0x0, writer := .mgmt },
  { addr := 0x60004 + 0x100 * i, reset := 0x3C46, rw := 0x7F7F, rb := 0x0, rk := 0x0, rc := 0x0, wo := 0x0, ro := 0x0, writer := .mgmt },
  { addr := 0x60008 + 0x100 * i, reset := 0x0, rw := 0x0, rb := 0x0, rk := 0x0, rc := 0x0, wo := 0x0, ro := 0xFFFF1FFF, writer := .mgmt },
  { addr := 0x6000C + 0x100 * i, reset := 0x0, rw := 0x0, rb := 0x0, rk := 0x0, rc := 0x0, wo := 0x0, ro := 0xFFFFFFFF, writer := .mgmt },
  { addr := 0x60010 + 0x100 * i, reset := 0x0, rw := 0x0, rb := 0x0, rk := 0x0, rc := 0x0, wo := 0x0, ro := 0xFFFFFFFF, writer := .mgmt },
  { addr := 0x60014 + 0x100 * i, reset := 0x0, rw := 0x0, rb := 0x0, rk := 0x0, rc := 0xFF00007F, wo := 0x0, ro := 0x0, writer := .mgmt }]

/-- The acceptance filter j of port i: F0 is fixed (12 R411, R422). -/
def mbFilterDefs (i j : Nat) : List RegDef :=
  let rst := if j = 0 then 0x0E01 else if j = 1 then 0x08D2 else if j = 2 then 0x0912 else 0
  [{ addr := 0x60040 + 0x100 * i + 8 * j, reset := rst,
     rw := if j = 0 then 0 else 0xFF0FFF, ro := if j = 0 then 0xFFFFFFFF else 0, writer := .mgmt },
   { addr := 0x60044 + 0x100 * i + 8 * j, reset := 0,
     rw := if j = 0 then 0 else 0xFFFF, ro := if j = 0 then 0xFFFFFFFF else 0, writer := .mgmt }]

/-- The registers of the six bus ports (12 R422): 38 for each port. -/
def mbDefs : List RegDef :=
  (List.range 6).flatMap fun i => mbPortDefs i ++ (List.range 16).flatMap (mbFilterDefs i)

def modDefsB0 : List RegDef := [
  { addr := 0x70000, reset := 0x400000, rw := 0x0, rb := 0x0, rk := 0x0, rc := 0x0, wo := 0x0, ro := 0xFFFFFF, writer := .mgmt },
  { addr := 0x70004, reset := 0x3, rw := 0x3, rb := 0x0, rk := 0x0, rc := 0x0, wo := 0x0, ro := 0x0, writer := .mgmt },
  { addr := 0x70008, reset := 0x0, rw := 0x0, rb := 0x0, rk := 0x0, rc := 0xFF0000FF, wo := 0x0, ro := 0x0, writer := .mgmt },
  { addr := 0x7000C, reset := 0x0, rw := 0x0, rb := 0x0, rk := 0x0, rc := 0x0, wo := 0x0, ro := 0xFFFF, writer := .mgmt },
  { addr := 0x70010, reset := 0x0, rw := 0x0, rb := 0x0, rk := 0x0, rc := 0x0, wo := 0x0, ro := 0xFFFFFFFF, writer := .mgmt },
  { addr := 0x70014, reset := 0x0, rw := 0x0, rb := 0x0, rk := 0x0, rc := 0x0, wo := 0x0, ro := 0xFFFFFFFF, writer := .mgmt },
  { addr := 0x80000, reset := 0x300, rw := 0xFF3F, rb := 0x0, rk := 0x0, rc := 0x0, wo := 0x0, ro := 0x0, writer := .mgmt },
  { addr := 0x80004, reset := 0x8050203, rw := 0x7FFFFFFF, rb := 0x0, rk := 0x0, rc := 0x0, wo := 0x0, ro := 0x0, writer := .mgmt },
  { addr := 0x80008, reset := 0x20FF0A04, rw := 0xFFFFFFFF, rb := 0x0, rk := 0x0, rc := 0x0, wo := 0x0, ro := 0x0, writer := .mgmt },
  { addr := 0x8000C, reset := 0x0, rw := 0x0, rb := 0x0, rk := 0x0, rc := 0x0, wo := 0x0, ro := 0xFFFFFF03, writer := .mgmt },
  { addr := 0x80010, reset := 0x0, rw := 0x0, rb := 0x0, rk := 0x0, rc := 0xFF00000F, wo := 0x0, ro := 0x0, writer := .mgmt },
  { addr := 0x80100, reset := 0x300, rw := 0xFF3F, rb := 0x0, rk := 0x0, rc := 0x0, wo := 0x0, ro := 0x0, writer := .mgmt },
  { addr := 0x80104, reset := 0x8050203, rw := 0x7FFFFFFF, rb := 0x0, rk := 0x0, rc := 0x0, wo := 0x0, ro := 0x0, writer := .mgmt },
  { addr := 0x80108, reset := 0x20FF0A04, rw := 0xFFFFFFFF, rb := 0x0, rk := 0x0, rc := 0x0, wo := 0x0, ro := 0x0, writer := .mgmt },
  { addr := 0x8010C, reset := 0x0, rw := 0x0, rb := 0x0, rk := 0x0, rc := 0x0, wo := 0x0, ro := 0xFFFFFF03, writer := .mgmt },
  { addr := 0x80110, reset := 0x0, rw := 0x0, rb := 0x0, rk := 0x0, rc := 0xFF00000F, wo := 0x0, ro := 0x0, writer := .mgmt },
  { addr := 0x90000, reset := 0x7FF01, rw := 0x7FF03, rb := 0x0, rk := 0x0, rc := 0x0, wo := 0x0, ro := 0x0, writer := .mgmt },
  { addr := 0x90004, reset := 0x3FF, rw := 0x0, rb := 0x0, rk := 0x0, rc := 0x0, wo := 0x0, ro := 0x7F07FF, writer := .mgmt },
  { addr := 0x90008, reset := 0x0, rw := 0x0, rb := 0x0, rk := 0x0, rc := 0xFF00007F, wo := 0x0, ro := 0x0, writer := .mgmt },
  { addr := 0x9000C, reset := 0xFFFF0000, rw := 0x0, rb := 0x0, rk := 0x0, rc := 0x0, wo := 0x0, ro := 0xFFFFFFFF, writer := .mgmt },
  { addr := 0x90010, reset := 0x0, rw := 0x0, rb := 0x0, rk := 0x0, rc := 0x0, wo := 0x0, ro := 0xFFFFFFFF, writer := .mgmt },
  { addr := 0x90014, reset := 0x0, rw := 0x0, rb := 0x0, rk := 0x0, rc := 0x0, wo := 0x0, ro := 0xFFFFFFFF, writer := .mgmt },
  { addr := 0x90018, reset := 0x0, rw := 0x0, rb := 0x0, rk := 0x0, rc := 0x0, wo := 0x0, ro := 0xFFFFFFFF, writer := .mgmt },
  { addr := 0x90020, reset := 0x0, rw := 0x0, rb := 0x0, rk := 0x0, rc := 0x0, wo := 0x0, ro := 0xFFFFFFFF, writer := .mgmt }]

def modDefsB1 : List RegDef := [
  { addr := 0xA0000, reset := 0xFF, rw := 0xFF, rb := 0x0, rk := 0x0, rc := 0x0, wo := 0x0, ro := 0x0, writer := .data },
  { addr := 0xA0004, reset := 0x0, rw := 0x1FF3F, rb := 0x0, rk := 0x0, rc := 0x0, wo := 0x0, ro := 0x0, writer := .data },
  { addr := 0xA0010, reset := 0x0, rw := 0x0, rb := 0x0, rk := 0x0, rc := 0x0, wo := 0x0, ro := 0xFFFFFFFF, writer := .data },
  { addr := 0xA0014, reset := 0x0, rw := 0x0, rb := 0x0, rk := 0x0, rc := 0x0, wo := 0x0, ro := 0xFFFFFFFF, writer := .data },
  { addr := 0xA0018, reset := 0x0, rw := 0x0, rb := 0x0, rk := 0x0, rc := 0x0, wo := 0x0, ro := 0xFF07, writer := .data },
  { addr := 0xA001C, reset := 0x0, rw := 0x0, rb := 0x0, rk := 0x0, rc := 0xFF000007, wo := 0x0, ro := 0x0, writer := .data }]

/-- The registers of the module pages in address order (14 R448 to R455), but for `MOD.UNLOCK` and the mailbox
(one instance for each plane, 01 R24) and the calibration store `CAL.SET` (08 R295). -/
def modDefs : List RegDef := modDefsA0 ++ modDefsA1 ++ modDefsA2 ++ modDefsA3 ++ modDefsA4 ++ mbDefs ++ modDefsB0 ++ modDefsB1

namespace MOD

def ID.VARIANT : Fld := ⟨0, 0, 8⟩
def ID.HW_REV : Fld := ⟨0, 8, 8⟩
def ID.PART : Fld := ⟨0, 16, 16⟩
def VER.PROTO_MIN : Fld := ⟨1, 0, 8⟩
def VER.PROTO_MAX : Fld := ⟨1, 8, 8⟩
def VER.LINK_MIN : Fld := ⟨1, 16, 4⟩
def VER.LINK_MAX : Fld := ⟨1, 20, 4⟩
def VER.ROM : Fld := ⟨1, 24, 8⟩
def CTRL.NAP_EN : Fld := ⟨2, 0, 1⟩
def CTRL.DBG_EN : Fld := ⟨2, 1, 1⟩
def CTRL.NAP_DLY : Fld := ⟨2, 16, 16⟩
def STATE.PHASE : Fld := ⟨3, 0, 4⟩
def STATE.ACT_SIDE : Fld := ⟨3, 4, 1⟩
def STATE.STBY_OK : Fld := ⟨3, 5, 1⟩
def STATE.OWNED : Fld := ⟨3, 6, 1⟩
def STATE.NAP_OK : Fld := ⟨3, 7, 1⟩
def STATE.NAP_WAIT : Fld := ⟨3, 8, 7⟩
def SESS.HB_TMO : Fld := ⟨4, 0, 16⟩
def SESS.SID : Fld := ⟨4, 16, 8⟩
def SESS.OWNER : Fld := ⟨4, 24, 8⟩
def ORPHAN.ACT : Fld := ⟨5, 0, 2⟩
def ORPHAN.HOLD_T : Fld := ⟨5, 16, 16⟩
def EVT.STO_DISC : Flag := ⟨0, 0⟩
def EVT.RSV_WR : Flag := ⟨0, 1⟩
def EVT.STO_CHG : Flag := ⟨0, 2⟩
def EVT.EXT_CHG : Flag := ⟨0, 3⟩
def EVT.SESS_OPEN : Flag := ⟨0, 4⟩
def EVT.SESS_EXP : Flag := ⟨0, 5⟩
def EVT.CLAIM : Flag := ⟨0, 6⟩
def EVT.CLAIM_FAIL : Flag := ⟨0, 7⟩
def EVT.READY : Flag := ⟨0, 8⟩
def EVT.SEQ : Fld := ⟨6, 24, 8⟩
def VIOL.CTRL : Fld := ⟨7, 0, 8⟩
def VIOL.DATA : Fld := ⟨7, 8, 8⟩
def VIOL.MGMT : Fld := ⟨7, 16, 8⟩
def IO.STO_A : Fld := ⟨8, 0, 1⟩
def IO.STO_B : Fld := ⟨8, 1, 1⟩
def IO.TRIP_EXT : Fld := ⟨8, 2, 1⟩
def IO.AUX24 : Fld := ⟨8, 3, 1⟩
def IO.STRAP_MSTR : Fld := ⟨8, 4, 1⟩
def IO.STRAP_ALT : Fld := ⟨8, 5, 1⟩
def IO.STRAP_BENCH : Fld := ⟨8, 6, 1⟩
def IO.GD_PWR : Fld := ⟨8, 7, 1⟩
def IO.OK_A : Fld := ⟨8, 8, 1⟩
def IO.OK_B : Fld := ⟨8, 9, 1⟩
def PWM_LOAD_LO.SEL : Fld := ⟨9, 0, 32⟩
def PWM_LOAD_HI.SEL : Fld := ⟨10, 0, 16⟩
def PWM_LOAD_HI.LOAD_ALL : Fld := ⟨10, 31, 1⟩

end MOD

namespace SIDE

def STAT.A_ST : Fld := ⟨11, 0, 3⟩
def STAT.B_ST : Fld := ⟨11, 4, 3⟩
def STAT.XVER : Fld := ⟨11, 8, 8⟩
def STAT.A_FAIL : Fld := ⟨11, 16, 4⟩
def STAT.B_FAIL : Fld := ⟨11, 20, 4⟩
def EVT.TAKEOVER : Flag := ⟨1, 0⟩
def EVT.REJOIN : Flag := ⟨1, 1⟩
def EVT.OUT : Flag := ⟨1, 2⟩
def EVT.FW_DONE : Flag := ⟨1, 3⟩
def EVT.FW_REVERT : Flag := ⟨1, 4⟩
def EVT.BANK_BAD : Flag := ⟨1, 5⟩
def EVT.UNPROT : Flag := ⟨1, 6⟩
def EVT.SEQ : Fld := ⟨12, 24, 8⟩
def CTRL.RETRY_A : Fld := ⟨13, 0, 1⟩
def CTRL.RETRY_B : Fld := ⟨13, 1, 1⟩
def CTRL.AUTO_REJOIN : Fld := ⟨13, 2, 1⟩
def FW_A.VER : Fld := ⟨14, 0, 16⟩
def FW_A.BANK : Fld := ⟨14, 16, 1⟩
def FW_A.NEXT : Fld := ⟨14, 17, 1⟩
def FW_A.XMIN : Fld := ⟨14, 20, 4⟩
def FW_A.XMAX : Fld := ⟨14, 24, 4⟩
def FW_B.VER : Fld := ⟨15, 0, 16⟩
def FW_B.BANK : Fld := ⟨15, 16, 1⟩
def FW_B.NEXT : Fld := ⟨15, 17, 1⟩
def FW_B.XMIN : Fld := ⟨15, 20, 4⟩
def FW_B.XMAX : Fld := ⟨15, 24, 4⟩
def SW_CNT.TAKE_CNT : Fld := ⟨16, 0, 16⟩
def SW_CNT.SWITCH_CNT : Fld := ⟨16, 16, 16⟩

end SIDE

namespace CLK

def STAT.SCK_SRC : Fld := ⟨17, 0, 1⟩
def STAT.SCK_DEG : Fld := ⟨17, 1, 1⟩
def STAT.FCK_A_OK : Fld := ⟨17, 2, 1⟩
def STAT.FCK_B_OK : Fld := ⟨17, 3, 1⟩
def STAT.STBY_LOCK : Fld := ⟨17, 4, 1⟩
def STAT.LOCAL_CLK : Fld := ⟨17, 5, 1⟩
def EVT.SCK_FAIL : Flag := ⟨2, 0⟩
def EVT.FCK_FAIL_A : Flag := ⟨2, 1⟩
def EVT.FCK_FAIL_B : Flag := ⟨2, 2⟩
def EVT.STBY_UNLOCK : Flag := ⟨2, 3⟩
def EVT.LOCAL_CLK : Flag := ⟨2, 4⟩
def EVT.WAKE : Flag := ⟨2, 5⟩
def EVT.WAKE_DROP : Flag := ⟨2, 6⟩
def EVT.NAP_ABORT : Flag := ⟨2, 7⟩
def EVT.SEQ : Fld := ⟨18, 24, 8⟩
def WAKE_CFG.BUS : Fld := ⟨19, 0, 6⟩
def WAKE_CFG.CASC : Fld := ⟨19, 6, 1⟩
def WAKE_CFG.TMR_EN : Fld := ⟨19, 8, 1⟩
def WAKE_CFG.SUP_EN : Fld := ⟨19, 9, 1⟩
def WAKE_CFG.ES_EN : Fld := ⟨19, 10, 1⟩
def NAP_TMR.CYC : Fld := ⟨20, 0, 32⟩
def WAKE_SRC.SRC : Fld := ⟨21, 0, 4⟩
def WAKE_SRC.PORT : Fld := ⟨21, 4, 3⟩
def WAKE_SRC.QUEUED : Fld := ⟨21, 8, 8⟩
def WAKE_SRC.WAKE_DROP : Fld := ⟨21, 16, 16⟩
def NAP_CNT.N : Fld := ⟨22, 0, 32⟩
def NAP_TIME.S : Fld := ⟨23, 0, 32⟩

end CLK

namespace LEDG

def BUD_PWR.P_IN_MAX : Fld := ⟨24, 0, 16⟩
def BUD_PWR.P_ES_MAX : Fld := ⟨24, 16, 16⟩
def BUD_IIN.I_IN_MAX_A : Fld := ⟨25, 0, 16⟩
def BUD_IIN.I_IN_MAX_B : Fld := ⟨25, 16, 16⟩
def BUD_LINK.V_LINK_LO : Fld := ⟨26, 0, 10⟩
def BUD_LINK.V_LINK_HI : Fld := ⟨26, 10, 10⟩
def BUD_RES.E_RES : Fld := ⟨27, 0, 32⟩
def BUD_RET.RET_A : Fld := ⟨28, 0, 1⟩
def BUD_RET.RET_B : Fld := ⟨28, 1, 1⟩
def BUD_RET.P_RET_MAX : Fld := ⟨28, 16, 16⟩
def ES_CFG.P_CHG_MAX : Fld := ⟨29, 0, 16⟩
def ES_CFG.V_ES_FULL : Fld := ⟨29, 16, 10⟩
def PLAN_CFG.STAG_STEP : Fld := ⟨30, 0, 10⟩
def PLAN_CFG.K_MIN : Fld := ⟨30, 10, 6⟩
def PLAN_CFG.D_MAX_DEF : Fld := ⟨30, 16, 16⟩
def RES_CFG.RES_MARGIN : Fld := ⟨31, 0, 8⟩
def RES_TAG0.TAG0 : Fld := ⟨32, 0, 2⟩
def RES_TAG1.TAG0 : Fld := ⟨33, 0, 2⟩
def RES_TAG2.TAG0 : Fld := ⟨34, 0, 2⟩
def BRK_CFG.P_BRK_MAX : Fld := ⟨35, 0, 16⟩
def LINK_C.C : Fld := ⟨36, 0, 16⟩
def CHOP_R.R_BRK : Fld := ⟨37, 0, 16⟩
def CTR_CLR.MOD : Fld := ⟨38, 0, 1⟩
def CTR_CLR.AXES : Fld := ⟨38, 1, 1⟩
def CTR_CLR.AXIS : Fld := ⟨38, 2, 6⟩
def STAT.RES_OP : Fld := ⟨39, 0, 1⟩
def STAT.CHOP_FAULT : Fld := ⟨39, 1, 1⟩
def STAT.CHOP_ON : Fld := ⟨39, 2, 1⟩
def STAT.SUP_A_OK : Fld := ⟨39, 3, 1⟩
def STAT.SUP_B_OK : Fld := ⟨39, 4, 1⟩
def STAT.ES0_OK : Fld := ⟨39, 5, 1⟩
def STAT.ES1_OK : Fld := ⟨39, 6, 1⟩
def STAT.RES_SHORT : Fld := ⟨39, 7, 1⟩
def STAT.PLAN_OVER : Fld := ⟨39, 8, 1⟩
def EVT.RES_ENTER : Flag := ⟨3, 0⟩
def EVT.RES_EXIT : Flag := ⟨3, 1⟩
def EVT.CHOP_FAULT : Flag := ⟨3, 2⟩
def EVT.SB82 : Flag := ⟨3, 3⟩
def EVT.OVER : Flag := ⟨3, 4⟩
def EVT.MODEL_DEV : Flag := ⟨3, 5⟩
def EVT.RES_SHORT : Flag := ⟨3, 6⟩
def EVT.WITHDRAWN : Flag := ⟨3, 7⟩
def EVT.SEQ : Fld := ⟨40, 24, 8⟩
def PLAN_CNT0.FORCE_CNT : Fld := ⟨41, 0, 16⟩
def PLAN_CNT0.REFUSE_CNT : Fld := ⟨41, 16, 16⟩
def PLAN_CNT1.DEFER_CNT : Fld := ⟨42, 0, 16⟩
def PLAN_CNT1.STRETCH_CNT : Fld := ⟨42, 16, 16⟩
def OVER_CNT.OVER_CNT : Fld := ⟨43, 0, 32⟩
def NOW.P_DEMAND : Fld := ⟨44, 0, 16⟩
def NOW.P_ALLOW : Fld := ⟨44, 16, 16⟩
def SWATH.SWATH_LO : Fld := ⟨45, 0, 32⟩

end LEDG

namespace MEAS

def IC_CFG.T_SEL : Fld := ⟨46, 0, 2⟩
def IC_CFG.T_PROG : Fld := ⟨46, 2, 15⟩
def IC6_CFG.EN : Fld := ⟨47, 0, 16⟩
def IC6_CFG.INTV : Fld := ⟨47, 16, 16⟩
def IC7_CFG.TRIG : Fld := ⟨48, 0, 2⟩
def IC7_CFG.AXIS : Fld := ⟨48, 2, 6⟩
def IC7_CFG.EVT : Fld := ⟨48, 8, 2⟩
def IC7_CFG.DELAY : Fld := ⟨48, 10, 16⟩
def IC7_CFG.ARM : Fld := ⟨48, 26, 1⟩
def RW_REQ.AXIS : Fld := ⟨49, 0, 6⟩
def RW_REQ.PAIR : Fld := ⟨49, 6, 2⟩
def RW_REQ.I_TEST : Fld := ⟨49, 8, 16⟩
def RW_REQ.GO : Fld := ⟨49, 31, 1⟩
def RW_RES.R : Fld := ⟨50, 0, 24⟩
def RW_RES.ST : Fld := ⟨50, 24, 3⟩
def SPARE.USE0 : Fld := ⟨51, 0, 2⟩
def SPARE.FAIL0 : Fld := ⟨51, 2, 1⟩
def SPARE.USE1 : Fld := ⟨51, 4, 2⟩
def SPARE.FAIL1 : Fld := ⟨51, 6, 1⟩
def SPARE.USE2 : Fld := ⟨51, 8, 2⟩
def SPARE.FAIL2 : Fld := ⟨51, 10, 1⟩
def SPARE.USE3 : Fld := ⟨51, 12, 2⟩
def SPARE.FAIL3 : Fld := ⟨51, 14, 1⟩
def SPARE.USE4 : Fld := ⟨51, 16, 2⟩
def SPARE.FAIL4 : Fld := ⟨51, 18, 1⟩
def SPARE.USE5 : Fld := ⟨51, 20, 2⟩
def SPARE.FAIL5 : Fld := ⟨51, 22, 1⟩
def SPARE.USE6 : Fld := ⟨51, 24, 2⟩
def SPARE.FAIL6 : Fld := ⟨51, 26, 1⟩
def SPARE.USE7 : Fld := ⟨51, 28, 2⟩
def SPARE.FAIL7 : Fld := ⟨51, 30, 1⟩
def SPARE_MAP0.MAP0 : Fld := ⟨52, 0, 8⟩
def SPARE_MAP0.MAP1 : Fld := ⟨52, 8, 8⟩
def SPARE_MAP0.MAP2 : Fld := ⟨52, 16, 8⟩
def SPARE_MAP0.MAP3 : Fld := ⟨52, 24, 8⟩
def SPARE_MAP1.MAP0 : Fld := ⟨53, 0, 8⟩
def SPARE_MAP1.MAP1 : Fld := ⟨53, 8, 8⟩
def SPARE_MAP1.MAP2 : Fld := ⟨53, 16, 8⟩
def SPARE_MAP1.MAP3 : Fld := ⟨53, 24, 8⟩
def CAL_STAT.BG_RUN : Fld := ⟨54, 0, 1⟩
def CAL_STAT.SELF_BUSY : Fld := ⟨54, 1, 1⟩
def CAL_STAT.STALE : Fld := ⟨54, 2, 1⟩
def CAL_STAT.FREE : Fld := ⟨54, 8, 4⟩
def CAL_STAT.STOP_AGE : Fld := ⟨54, 16, 16⟩
def EVT.BG_STOP : Flag := ⟨4, 0⟩
def EVT.BG_START : Flag := ⟨4, 1⟩
def EVT.STALE : Flag := ⟨4, 2⟩
def EVT.SPARE_FAIL : Flag := ⟨4, 3⟩
def EVT.NO_SPARE : Flag := ⟨4, 4⟩
def EVT.RW_DONE : Flag := ⟨4, 5⟩
def EVT.IC_DROP : Flag := ⟨4, 6⟩
def EVT.SEQ : Fld := ⟨55, 24, 8⟩
def LINK_WIN.LOW : Fld := ⟨56, 0, 10⟩
def LINK_WIN.HIGH : Fld := ⟨56, 10, 10⟩
def LINK_WIN.HYST : Fld := ⟨56, 20, 4⟩
def IC_DATA0.RAW : Fld := ⟨57, 0, 22⟩
def IC_DATA0.CH : Fld := ⟨57, 22, 5⟩
def IC_DATA0.OVR : Fld := ⟨57, 30, 1⟩
def IC_DATA0.NEW : Fld := ⟨57, 31, 1⟩
def IC_DROP.DROP_CNT : Fld := ⟨65, 0, 16⟩
def V_LINK.V : Fld := ⟨66, 0, 16⟩
def V_SUP.A : Fld := ⟨67, 0, 16⟩
def V_SUP.B : Fld := ⟨67, 16, 16⟩
def V_ES.ES0 : Fld := ⟨68, 0, 16⟩
def V_ES.ES1 : Fld := ⟨68, 16, 16⟩
def I_SUP.A : Fld := ⟨69, 0, 16⟩
def I_SUP.B : Fld := ⟨69, 16, 16⟩
def I_ES.ES0 : Fld := ⟨70, 0, 16⟩
def I_ES.ES1 : Fld := ⟨70, 16, 16⟩
def P_LOGIC.P : Fld := ⟨71, 0, 16⟩
def P_LOGIC.V_AUX : Fld := ⟨71, 16, 16⟩
def I_BRK.I : Fld := ⟨72, 0, 16⟩
def TEMP0.T : Fld := ⟨73, 0, 16⟩
def SPF0.GAIN : Fld := ⟨89, 0, 16⟩
def SPF0.OFS : Fld := ⟨89, 16, 12⟩
def SPF0.AGE : Fld := ⟨89, 28, 4⟩

end MEAS

namespace CAL

def STAT.SRC : Fld := ⟨97, 0, 1⟩
def STAT.CRC_OK : Fld := ⟨97, 1, 1⟩
def STAT.WR_BUSY : Fld := ⟨97, 2, 1⟩
def STAT.WR_CNT : Fld := ⟨97, 16, 16⟩

end CAL

namespace MB

def CFG.NRATE : Fld := ⟨98, 0, 2⟩
def CFG.DRATE : Fld := ⟨98, 2, 3⟩
def CFG.TORD : Fld := ⟨98, 5, 1⟩
def CFG.TERM : Fld := ⟨98, 6, 1⟩
def CFG.NSP : Fld := ⟨98, 8, 7⟩
def CFG.DSP : Fld := ⟨98, 16, 7⟩
def CONG.CONG_THR : Fld := ⟨99, 0, 7⟩
def CONG.STRM_MAX : Fld := ⟨99, 8, 7⟩
def STAT.LOAD : Fld := ⟨100, 0, 7⟩
def STAT.CONG : Fld := ⟨100, 7, 1⟩
def STAT.BUSOFF : Fld := ⟨100, 8, 1⟩
def STAT.EPASS : Fld := ⟨100, 9, 1⟩
def STAT.TXB_BUSY : Fld := ⟨100, 10, 3⟩
def STAT.TEC : Fld := ⟨100, 16, 8⟩
def STAT.REC : Fld := ⟨100, 24, 8⟩
def CNT.LOST_ARB : Fld := ⟨101, 0, 16⟩
def CNT.RX_OVR : Fld := ⟨101, 16, 16⟩
def CNT2.HPB_OVR : Fld := ⟨102, 0, 16⟩
def CNT2.BUSOFF_CNT : Fld := ⟨102, 16, 16⟩
def EVT.CONG_ON : Flag := ⟨5, 0⟩
def EVT.CONG_OFF : Flag := ⟨5, 1⟩
def EVT.BUSOFF : Flag := ⟨5, 2⟩
def EVT.BUSOFF_END : Flag := ⟨5, 3⟩
def EVT.EPASS : Flag := ⟨5, 4⟩
def EVT.RX_OVR : Flag := ⟨5, 5⟩
def EVT.HPB_OVR : Flag := ⟨5, 6⟩
def EVT.SEQ : Fld := ⟨103, 24, 8⟩
def FLTA.CLS : Fld := ⟨104, 0, 8⟩
def FLTA.DMODE : Fld := ⟨104, 8, 2⟩
def FLTA.HIGH : Fld := ⟨104, 10, 1⟩
def FLTA.EN : Fld := ⟨104, 11, 1⟩
def FLTA.DEST : Fld := ⟨104, 16, 8⟩
def FLTB.SRC : Fld := ⟨105, 0, 8⟩
def FLTB.SRC_MASK : Fld := ⟨105, 8, 8⟩

end MB

namespace CASC

def STAT.POS : Fld := ⟨326, 0, 3⟩
def STAT.MASTER : Fld := ⟨326, 3, 1⟩
def STAT.ALT : Fld := ⟨326, 4, 1⟩
def STAT.RA_OK : Fld := ⟨326, 5, 1⟩
def STAT.RB_OK : Fld := ⟨326, 6, 1⟩
def STAT.WRAP : Fld := ⟨326, 7, 1⟩
def STAT.COUNT : Fld := ⟨326, 8, 4⟩
def STAT.LVER : Fld := ⟨326, 12, 4⟩
def STAT.ADDR : Fld := ⟨326, 16, 8⟩
def CFG.EN : Fld := ⟨327, 0, 1⟩
def CFG.AUTO_ALT : Fld := ⟨327, 1, 1⟩
def EVT.LINK_LOSS : Flag := ⟨11, 0⟩
def EVT.WRAP : Flag := ⟨11, 1⟩
def EVT.UNWRAP : Flag := ⟨11, 2⟩
def EVT.MASTER_CHG : Flag := ⟨11, 3⟩
def EVT.JOIN : Flag := ⟨11, 4⟩
def EVT.LEAVE : Flag := ⟨11, 5⟩
def EVT.SYNC_LOSS : Flag := ⟨11, 6⟩
def EVT.VER_LOW : Flag := ⟨11, 7⟩
def EVT.SEQ : Fld := ⟨328, 24, 8⟩
def SYNC.OFS : Fld := ⟨329, 0, 16⟩
def ERR.ERR_A : Fld := ⟨330, 0, 16⟩
def ERR.ERR_B : Fld := ⟨330, 16, 16⟩
def SHARE.A_SHARE : Fld := ⟨331, 0, 16⟩
def SHARE.CREDIT : Fld := ⟨331, 16, 16⟩

end CASC

namespace SMP

def CFG.CPM : Fld := ⟨332, 0, 2⟩
def CFG.DDR : Fld := ⟨332, 2, 1⟩
def CFG.LANES : Fld := ⟨332, 3, 2⟩
def CFG.DQS : Fld := ⟨332, 5, 1⟩
def CFG.DIV : Fld := ⟨332, 8, 8⟩
def WIN.RD_CMD : Fld := ⟨333, 0, 8⟩
def WIN.PROG_CMD : Fld := ⟨333, 8, 8⟩
def WIN.STAT_CMD : Fld := ⟨333, 16, 8⟩
def WIN.BUSY_BIT : Fld := ⟨333, 24, 3⟩
def WIN.BUSY_POL : Fld := ⟨333, 27, 1⟩
def WIN.SEL : Fld := ⟨333, 28, 3⟩
def WIN2.ABYTES : Fld := ⟨334, 0, 3⟩
def WIN2.DUMMY : Fld := ⟨334, 3, 5⟩
def WIN2.RETRY_DLY : Fld := ⟨334, 8, 8⟩
def WIN2.BUSY_PAT : Fld := ⟨334, 16, 8⟩
def WIN2.BUSY_EN : Fld := ⟨334, 24, 1⟩
def WIN2.RETRY_MAX : Fld := ⟨334, 25, 7⟩
def STAT.BUSY : Fld := ⟨335, 0, 1⟩
def STAT.PROG : Fld := ⟨335, 1, 1⟩
def STAT.RETRY : Fld := ⟨335, 8, 8⟩
def STAT.ERR : Fld := ⟨335, 16, 16⟩
def EVT.PROG_FAIL : Flag := ⟨12, 0⟩
def EVT.RETRY_MAX : Flag := ⟨12, 1⟩
def EVT.DQS_LOSS : Flag := ⟨12, 2⟩
def EVT.DEV_ABSENT : Flag := ⟨12, 3⟩
def EVT.SEQ : Fld := ⟨336, 24, 8⟩

end SMP

namespace GRAZE

def CTRL.EN : Fld := ⟨342, 0, 1⟩
def CTRL.PAUSE : Fld := ⟨342, 1, 1⟩
def CTRL.ITEMS : Fld := ⟨342, 8, 11⟩
def STAT.ITEM : Fld := ⟨343, 0, 4⟩
def STAT.AXIS : Fld := ⟨343, 4, 6⟩
def STAT.RUN : Fld := ⟨343, 10, 1⟩
def STAT.PROG : Fld := ⟨343, 16, 7⟩
def EVT.FAIL : Flag := ⟨14, 0⟩
def EVT.PASS_DONE : Flag := ⟨14, 1⟩
def EVT.LATE : Flag := ⟨14, 2⟩
def EVT.YIELD : Flag := ⟨14, 3⟩
def EVT.ES_DEGR : Flag := ⟨14, 4⟩
def EVT.DIODE : Flag := ⟨14, 5⟩
def EVT.SCRUB_UE : Flag := ⟨14, 6⟩
def EVT.SEQ : Fld := ⟨344, 24, 8⟩
def PASS.PASS_CNT : Fld := ⟨345, 0, 16⟩
def PASS.LAST_H : Fld := ⟨345, 16, 16⟩
def ES0.C : Fld := ⟨346, 0, 16⟩
def ES0.ESR : Fld := ⟨346, 16, 16⟩
def ES1.C : Fld := ⟨347, 0, 16⟩
def ES1.ESR : Fld := ⟨347, 16, 16⟩
def SCRUB.CORR : Fld := ⟨348, 0, 16⟩
def SCRUB.UNCORR : Fld := ⟨348, 16, 16⟩
def LIFE_H.H : Fld := ⟨349, 0, 32⟩

end GRAZE

namespace LOG

def CFG.CLS : Fld := ⟨350, 0, 8⟩
def CAP.AXIS : Fld := ⟨351, 0, 6⟩
def CAP.DIV : Fld := ⟨351, 8, 8⟩
def CAP.EN : Fld := ⟨351, 16, 1⟩
def HEAD.HEAD : Fld := ⟨352, 0, 32⟩
def TAIL.TAIL : Fld := ⟨353, 0, 32⟩
def STAT.WRAPPED : Fld := ⟨354, 0, 1⟩
def STAT.CAP_RUN : Fld := ⟨354, 1, 1⟩
def STAT.MEM_OK : Fld := ⟨354, 2, 1⟩
def STAT.PEND : Fld := ⟨354, 8, 8⟩
def EVT.WRAP : Flag := ⟨15, 0⟩
def EVT.CAP_OVR : Flag := ⟨15, 1⟩
def EVT.MEM_FAIL : Flag := ⟨15, 2⟩
def EVT.SEQ : Fld := ⟨355, 24, 8⟩

end LOG

/-- The event registers of the module pages, by number: their places in `modDefs`. -/
def modEvRegs : List Nat := [6, 12, 18, 40, 55, 103, 141, 179, 217, 255, 293, 328, 336, 341, 344, 355]

/-- Registers for each port block in `modDefs`. -/
def mbStride : Nat := 38

/-- Registers for each serial memory port block in `modDefs`. -/
def smpStride : Nat := 5

end Sys2Proof.Machine
end

