-- ==== Sys2Proof/Machine/AxisState.lean ====
section
/-!
DEFINITION. The state of one axis and its cell, as plain data (02 to 08, 10, 14 R456 to R458).
Status fields that the spec gives a register are held in the register file `regs`; what is held typed here is
shown through the status registers by `axisWord` (Ops.lean).
-/

namespace Sys2Proof.Machine

/-- The registers of an axis page, by their place in `axDefs`. -/
abbrev AxRegs := Vector Word 131
/-- The registers of the module pages, by their place in `modDefs`. -/
abbrev ModRegs := Vector Word 356

/-- `AX_CFG.MOTOR` (14 R457). -/
inductive Motor | none | stepper | brushless | brushlessStar
  deriving DecidableEq, Repr

/-- The axis modes (06 R179). -/
inductive Mode
  | fallow | hold | position | velocity | followStep | gear | cam | localSpeed | stopping | park | unconfigured
  deriving DecidableEq, Repr

/-- The states of short-circuit handling (02 R61); a substitution waits for its isolator, then for its tap. -/
inductive LegPhase
  | normal
  | hold
  | isoWait (role : Fin 4)
  | tapWait (role : Fin 4)
  | drain
  | lost
  deriving DecidableEq, Repr

/-- A stop or FALLOW that waits for short-circuit handling to complete (02 R69). -/
inductive Deferred | stop | qstop | fallow
  deriving DecidableEq, Repr

/-- A phase of a gate edge (02 R44, R45, R53): its strength in sixteenths, its length in 2.5 ns steps (none: until the next edge),
and whether the end of the node's transition ends it sooner. -/
structure GatePhase where
  strength : Nat
  steps : Option Nat
  toNode : Bool
  deriving DecidableEq, Repr

/-- What a leg's drivers run on each edge of the period (02 R44, R45). -/
structure GateDrive where
  on : List GatePhase := []
  off : List GatePhase := []
  deriving DecidableEq, Repr

/-- The legs of a cell (02). -/
structure Legs where
  phase : LegPhase := .normal
  fail : BitVec 5 := 0
  iso : BitVec 4 := 0
  tap : BitVec 4 := 0
  bootOk : BitVec 5 := 0
  pumpOn : BitVec 5 := 0
  /-- Pumps that run in HOLD, in nap (02 R40). -/
  pumpHold : BitVec 5 := 0
  subRole : Option (Fin 4) := none
  spareUsed : Bool := false
  spareBad : Bool := false
  /-- Every isolator and tap reached its last commanded state in time (02 R57). -/
  inTime : Bool := true
  count : Vector Nat 4 := Vector.replicate 4 0
  /-- Roles whose own leg faulted in the elapsed period (02 R56). -/
  hit : BitVec 4 := 0
  /-- The leg that began the fault hold. -/
  holdLeg : Option (Fin 5) := none
  /-- The gate drive of each leg in the running period. -/
  drive : Vector GateDrive 5 := Vector.replicate 5 {}
  /-- How the legs were last forced off: a detection in two steps (02 R53), everything else through `GD_OFF` (02 R43, 03 R96). -/
  forced : Vector (List GatePhase) 5 := Vector.replicate 5 []
  /-- Consecutive measured edges past an ADAPT limit, by leg (02 R46). -/
  runOn : Vector Nat 5 := Vector.replicate 5 0
  runOff : Vector Nat 5 := Vector.replicate 5 0
  deferred : List Deferred := []
  /-- A leg check is running (02 R66). -/
  checking : Bool := false
  deriving DecidableEq, Repr

/-- A window comparator (03 R92, R93). -/
inductive CmpState | unarmed | inside | high | low
  deriving DecidableEq, Repr

/-- The sources of a filter window (03 R97). -/
structure PerSrc (α : Type) where
  comp : α
  link : α
  ext : α
  deriving DecidableEq, Repr

/-- The trip input of a cell (03 R95 to R101). -/
structure Trip where
  /-- The comparators are active since the cell left fallow (03 R93). -/
  live : Bool := false
  cmp : Vector CmpState 4 := Vector.replicate 4 .unarmed
  pre : Bool := false
  latch : Bool := false
  srcComp : Bool := false
  srcLink : Bool := false
  srcDidt : Bool := false
  srcExt : Bool := false
  srcChat : Bool := false
  /-- Open filter windows: the cycle at which each ends. -/
  win : PerSrc (Option Nat) := ⟨none, none, none⟩
  /-- The last 25 MHz cycle on which each source was seen active. -/
  seen : PerSrc (Option Nat) := ⟨none, none, none⟩
  /-- Sources whose becoming active the cell has taken and that have not gone inactive since (03 R96). -/
  stand : PerSrc Bool := ⟨false, false, false⟩
  /-- Times of the pre-trips of the last 1 ms (03 R99). -/
  pres : List Nat := []
  clearReq : Bool := false
  deriving DecidableEq, Repr

/-- What the switches of a role do in a period (03 R74 to R84), widths in 1/8 counts. -/
inductive Pulse
  | off
  | complementary (high : Nat)
  | independent (high low : Nat)
  | interlocked
  deriving DecidableEq, Repr

/-- When the two switches of a role are on in a period, after dead time (03 R75, R82): spans in 1/8 counts from the boundary,
which switch is commanded on as the period ends, and what of the low side's dead time reaches into the next period. -/
structure Switches where
  high : Option (Nat × Nat) := none
  low : List (Nat × Nat) := []
  hiEnd : Bool := false
  loEnd : Bool := false
  wait : Nat := 0
  deriving DecidableEq, Repr

/-- The cell's time base (09 R302): a side's; its local oscillator, with the present period still to complete; the local oscillator, the cell
stopped. -/
inductive Osc | side | due | stopped
  deriving DecidableEq, Repr

/-- The PWM generator of a cell (03 R71 to R90). -/
structure Pwm where
  carry : Vector Int 4 := Vector.replicate 4 0
  /-- Compare values of the running period, 1/8 counts. -/
  cmp : Vector Nat 4 := Vector.replicate 4 0
  /-- The roles' commands in the running period, which the generator produces though the legs are held off (02 R54). -/
  cmd : Vector Pulse 4 := Vector.replicate 4 .off
  /-- The commands that reach the legs, and what the switches do. -/
  pulses : Vector Pulse 4 := Vector.replicate 4 .off
  sw : Vector Switches 4 := Vector.replicate 4 {}
  /-- The edge shift of the running period: role and shift in 1/8 counts (05 R156). -/
  shift : Option (Fin 4 × Nat) := none
  /-- The boundary that began the running period, 1/8 counts of the time base (03 R79); none before the first. -/
  start : Option Nat := none
  /-- The counter stood, or ran on another clock, since then: its period ends later than `start` tells (03 R88, R89, 09 R302). -/
  late : Bool := false
  fill : Bool := false
  /-- The counter holds at 0 at the end of a fill period (03 R80). -/
  fillHold : Bool := false
  /-- The counter and its direction where it stands still (03 R88, R89). -/
  cnt : Nat := 0
  down : Bool := false
  directAct : Bool := false
  halted : Bool := false
  clockLost : Bool := false
  /-- The clocks stand in nap (09 R308). -/
  napped : Bool := false
  osc : Osc := .side
  /-- Values that a `LOAD_ALL` captured and the cell has not applied (03 R86): its registers at 0x0100 to 0x01FF. -/
  capt : Option AxRegs := none
  deriving DecidableEq, Repr

/-- `MOTOR_MODEL` (11 R386). -/
structure MotorModel where
  rw : Nat
  l : Nat
  ke : Nat
  j : Nat
  tc : Nat
  b : Nat
  deriving DecidableEq, Repr

/-- Why a stepper holds at the ceiling, or slews, at rest (04 R123, R125). -/
inductive RestKind
  | none
  /-- At the ceiling until the count of ticks runs out. -/
  | ceiling (ticks : Nat)
  /-- Slewing towards `I_HOLD`. -/
  | slew
  deriving DecidableEq, Repr

/-- Current regulation (04 R108 to R114; 05 R152 to R156); currents in mA, voltages in µV. -/
structure Reg where
  /-- Integrators of the regulated phases, µV. -/
  integ : Vector Rat 2 := Vector.replicate 2 0
  /-- Measured phase currents: A and B, or U, V and W. -/
  meas : Vector Rat 3 := Vector.replicate 3 0
  ref : Vector Rat 3 := Vector.replicate 3 0
  /-- Phase voltages of the running period, and of the next one. -/
  volt : Vector Rat 3 := Vector.replicate 3 0
  voltNext : Vector Rat 3 := Vector.replicate 3 0
  /-- Compare fractions computed for the next period (04 R108, 03 R83). -/
  next : Vector Rat 4 := Vector.replicate 4 (1/2)
  /-- Amplitude of the current vector, mA. -/
  amp : Rat := 0
  rest : RestKind := .none
  sat : Bool := false
  clamp : Bool := false
  /-- Thermal accumulators, mA² ns (04 R114). -/
  acc : Vector Int 3 := Vector.replicate 3 0
  vLink : Nat := 0
  /-- A winding measurement drives this pair with this current, mA (08 R280). -/
  test : Option (Fin 3 × Nat) := none
  /-- The star-point voltage at the last boundary, mV (02 R34). -/
  star : Int := 0
  /-- Sums over the periods of the tick: voltages and currents, their number, and the currents at its start. -/
  sumV : Vector Rat 3 := Vector.replicate 3 0
  sumI : Vector Rat 3 := Vector.replicate 3 0
  startI : Vector Rat 3 := Vector.replicate 3 0
  periods : Nat := 0
  /-- ns of the tick's periods. -/
  span : Nat := 0
  /-- The legs switched on every period of the tick, with no pre-trip, fault hold or trip (04 R119). -/
  switched : Bool := true
  /-- A substitution ran during the tick (05 R177). -/
  subst : Bool := false
  /-- Load angle δ, degrees (04 R120); rotor angle, ac. -/
  delta : Rat := 0
  rotor : Rat := 0
  stallN : Nat := 0
  obstN : Nat := 0
  /-- The obstacle of this run of counting ticks has been declared (04 R132). -/
  obstHit : Bool := false
  homeN : Nat := 0
  /-- The last commanded step of P_cmd, ac per tick (04 R119). -/
  omega : Int := 0
  /-- A change redefined P_cmd without motion on this tick (04 R119). -/
  redefined : Bool := false
  deriving DecidableEq, Repr

/-- Position sources (05 R178 `POS_SRC`). -/
inductive PosSrc | halls | estimator | grip | none
  deriving DecidableEq, Repr

/-- Why a brushless cell short-brakes (05 R166). -/
inductive Brake
  | none
  /-- `BRAKE`, or a stop without regeneration: parks at rest. -/
  | park
  /-- Hall failure in `HALL_MODE` 1: fallow at rest. -/
  | hallFail
  /-- Locked rotor: 200 ms, then fallow. -/
  | locked
  /-- Catch braking towards a speed, with STOP received meanwhile, or, once the Halls failed, to rest (05 R177). -/
  | catching (stop toRest : Bool)
  /-- 82 V (07 R250): fallow at rest. -/
  | sb82
  deriving DecidableEq, Repr

/-- A test pulse (05 R158): its direction in degrees and sign, the switches of roles 0 to 2 that apply it (true: the high side; none: both
off), and its start and length in µs of the sequence. -/
structure TestPulse where
  dir : Nat
  pos : Bool
  legs : Vector (Option Bool) 3
  at_ : Nat
  len : Nat
  deriving DecidableEq, Repr

/-- The start sequence of a sensorless move (05 R157, R169). -/
inductive StartSeq
  | none
  | observe
  /-- A sequence that waits for the step of a stand-in (08 R292): which of the two it is, and the length of its pulses in µs. -/
  | testWait (attempt len : Nat)
  /-- The sequence that runs: which of the two it is, the length of its pulses in µs, and the pulses. -/
  | testPulses (attempt len : Nat) (seq : List TestPulse)
  | initAngle (attempt len : Nat) (peaks : Vector Int 12)
  deriving DecidableEq, Repr

/-- Commutation (05). -/
structure Bl where
  sector : Option (Fin 6) := none
  posSrc : PosSrc := .none
  sensorSupply : Bool := true
  /-- The sensor supply has shut down in nap; the failure acts after ready (17 R527). -/
  supplyNap : Bool := false
  /-- Electrical angle θ, ac mod 2^24, and the last edge: angle, cycle, direction. -/
  theta : Rat := 0
  edge : Option (Nat × Nat × Int) := none
  /-- Time between the last two edges of one direction, cycles; edges since start or reversal. -/
  dtLast : Nat := 0
  edges : Nat := 0
  /-- Measured speed, ac per tick. -/
  omega : Rat := 0
  /-- Cycles of the skips of the last 100 ms (05 R147). -/
  skips : List Nat := []
  /-- Velocity integrator, mN·m, torque demand, mN·m. -/
  vInt : Rat := 0
  torque : Rat := 0
  /-- P_cmd and angle at the start of grip (05 R160). -/
  gripPos : Int := 0
  gripAngle : Rat := 0
  gripEnd : Bool := false
  estValid : Bool := false
  bemfN : Nat := 0
  /-- θ_est of the last period and at the last tick, and ω_est (05 R161). -/
  estTheta : Rat := 0
  estLast : Rat := 0
  estOmega : Rat := 0
  /-- What P_meas lies above its angle θ by a redefinition (05 R164), ac; and the part of P_meas below 1 ac (05 R143). -/
  posOfs : Int := 0
  posFrac : Rat := 0
  brake : Brake := .none
  brakeChop : Bool := false
  start : StartSeq := .none
  catchWait : Bool := false
  /-- `HALL_MODE` and `HALL_DIR` in effect (05 R147). -/
  hallMode : Nat := 0
  hallDir : Bool := false
  lsVmax : Nat := 0
  lsLost : Bool := false
  /-- The last AUXB reading was no valid signal (05 R173). -/
  lsBad : Bool := false
  /-- Motion ticks of the short-brake in progress (05 R168, R170), and ns for which every terminal current has stayed below 0.1 A (05 R166). -/
  brakeN : Nat := 0
  quiet : Nat := 0
  /-- Ticks of the locked-rotor window (05 R168), and a sector change of θ_est on this tick. -/
  lockTicks : Nat := 0
  lockHit : Bool := false
  /-- Sum of i_q over the periods of the tick (05 R172). -/
  iq : Rat := 0
  samp : Option (Fin 3 × Fin 3) := none
  sampHold : Bool := false
  deriving DecidableEq, Repr

/-- A piece of a profile (06 R184): whole ticks of constant jerk.  `no` is the segment number that
`MOT_STAT.SEG` shows, `ramp` tells which pieces form one ramp. -/
structure Seg where
  n : Nat
  a0 : Rat
  j : Rat
  no : Nat
  ramp : Nat
  deriving DecidableEq, Repr

/-- A profile: the exact position, velocity and acceleration, and the pieces that remain. -/
structure Prof where
  p : Rat := 0
  v : Rat := 0
  a : Rat := 0
  segs : List Seg := []
  deriving DecidableEq, Repr

/-- The limits of a profile (06 R182), in field units; `zone` is the speed limit of R192. -/
structure Limits where
  v : Nat
  a : Nat
  d : Nat
  j : Nat
  deriving DecidableEq, Repr

/-- A master (06 R203). -/
inductive MasterRef
  | cmd (axis : Fin 48)
  | meas (axis : Fin 48)
  | step (axis : Fin 48)
  | remote (addr : Byte) (axis : Fin 48) (src : Fin 3)
  deriving DecidableEq, Repr

/-- `CAM_ENGAGE` (06 R210). -/
structure CamP where
  table : Fin 64
  master : MasterRef
  mOrg : Int
  abs : Bool
  sOrg : Int
  /-- Start AT: position and direction (true: rising). -/
  startAt : Option (Int × Bool)
  tol : Nat
  autoOff : Bool
  deriving DecidableEq, Repr

/-- What a motion command asks for. -/
inductive MoveK
  | abs (target : Int)
  | rel (dist : Int)
  | vel (v : Int) (home : Bool)
  | localSpeed (vmax : Nat)
  | followStep
  | gear (m : MasterRef) (num : Int) (den : Nat) (e : Nat)
  | cam (c : CamP)
  | hold
  deriving DecidableEq, Repr

/-- An engagement in force (06 R201 to R212): positions at the engage tick. -/
structure Engage where
  kind : MoveK
  mOrg : Int
  pOrg : Int
  sOrg : Rat
  /-- The gear ramp has been passed, or the cam's last point (for `CAM_END`). -/
  full : Bool
  ended : Bool
  /-- A pending disengage position and direction (06 R212). -/
  offAt : Option (Int × Bool)
  deriving DecidableEq, Repr

/-- A move: what was asked, its limits, factor, and the marks of its command. -/
structure Move where
  kind : MoveK
  lim : Limits
  /-- The limits that its command carried (06 R182), for the ramps planned later (R185). -/
  ask : Limits
  q : Nat
  seq : Nat
  plane : Plane
  group : Option (Nat × Bool)
  /-- Predicted energy, mJ (07 R255). -/
  ePred : Int
  tagged : Bool
  deriving DecidableEq, Repr

/-- An admitted move that waits for its start: the swath and tick, whether it is a queued move, and its delay in swaths.  A queued move
admitted without a delay has swath and tick 0 until the move ahead ends: it starts right after it (06 R189). -/
structure Waiting where
  move : Move
  swath : Nat
  tick : Nat
  queued : Bool
  dly : Nat
  deriving DecidableEq, Repr

/-- The move in progress: its move and the axis's net energy when it began. -/
structure Job where
  move : Move
  eStart : Int
  travel : Int
  deriving DecidableEq, Repr

/-- Which stop ramp runs. -/
inductive StopKind | none | stop | qstop
  deriving DecidableEq, Repr

/-- How an axis came to rest (07 R231): swaths at the ceiling, and the swath from which they count. -/
structure RestClaim where
  h : Nat
  from_ : Nat
  deriving DecidableEq, Repr

/-- Motion (06). -/
structure Motion where
  mode : Mode := .unconfigured
  pCmd : Int := 0
  pMeas : Int := 0
  stepTgt : Int := 0
  posMin : Int := 0
  posMax : Int := 0
  prof : Prof := {}
  stop : StopKind := .none
  fallowAfter : Bool := false
  job : Option Job := none
  waiting : Option Waiting := none
  queued : Option Waiting := none
  engage : Option Engage := none
  camWait : Option (CamP × Nat × Plane) := none
  group : Option (Nat × Bool) := none
  /-- The axis left its profile by an event of R199, for R196. -/
  left : Bool := false
  /-- Admissions that lapsed, for R257: their SEQ and plane. -/
  lapsed : List (Nat × Plane) := []
  vTarget : Int := 0
  /-- 200 MHz time of the last accepted step edge (04 R137). -/
  lastStep : Option Nat := none
  rest : Option RestClaim := none
  /-- The session was orphaned while the axis ran: it holds with `ORPHAN` at rest (10 R341). -/
  orphan : Bool := false
  /-- P_cmd of the last motion tick, from which ω is taken (04 R119). -/
  lastP : Int := 0
  depth : Nat := 0
  /-- Motion ticks of the homing run (04 R134). -/
  homeTicks : Nat := 0
  /-- Motion ticks from which the axis is fallow, and of the stop in progress, with the profile that it met (06 R213). -/
  fell : Nat := 0
  stopFrom : Option (Nat × Prof) := none
  deriving DecidableEq, Repr

/-- A slice of an axis (08): a single request waiting, by the last boundary before it; the ends of its last urgent and its last single
conversion in 1/8 counts of the time base, the stand-in's spare and step, whether a comparison of the stand-in was out of tolerance, and a failed slice that waits for a spare. -/
structure Slice where
  single : Option Nat := none
  busy : Nat := 0
  one : Nat := 0
  stand : Option (Fin 8 × Fin 5) := none
  mismatch : Bool := false
  calDone : Option Bool := none
  direct : Bool := false
  waits : Bool := false
  deriving DecidableEq, Repr

/-- An urgent request of a slice whose event has occurred (08 R262, R266, R267): the event in 1/8 counts of the time base, and the delay in
counts. -/
structure SampleReq where
  slice : Fin 2
  diag : Bool
  ev : Nat
  delay : Nat
  deriving DecidableEq, Repr

/-- Speed zone and force zone entries (06 R191, 04 R131). -/
structure SpeedZone where
  start : Int
  vLim : Nat
  deriving DecidableEq, Repr
structure ForceZone where
  start : Int
  limPos : Nat
  limNeg : Nat
  off : Bool
  deriving DecidableEq, Repr

/-- The nonvolatile marks of a cell (09 R320). -/
structure NvMarks where
  fail : BitVec 5 := 0
  spareUsed : Bool := false
  subRole : Option (Fin 4) := none
  spareBad : Bool := false
  lost : Bool := false
  deriving DecidableEq, Repr

/-- The lifetime counts of an axis (10 R350), with the parts below their units. -/
structure Life where
  travel : Nat := 0
  energy : Int := 0
  onTicks : Nat := 0
  deriving DecidableEq, Repr

/-- The curve of an axis in the plan (07 R227 to R232): the energy sums in µW ticks of the swaths from `start`,
and the claim per tick that follows. `id` tells what the curve predicts: the latest move admitted, or a stop; `held` the rest whose claim
it is (R232): the mode, how it came to rest, and whether it waits for a cam. -/
structure Curve where
  start : Nat := 0
  sums : List Int := []
  claim : Int := 0
  id : Option (Nat × StopKind) := none
  held : Option (Mode × Option RestClaim × Bool) := none
  deriving DecidableEq, Repr

/-- One axis. -/
structure Axis where
  regs : AxRegs
  /-- Values of RB fields in force (13 R425). -/
  force : AxRegs
  /-- Stamps of the flags of the six event registers (13 R440). -/
  stamps : Vector (Vector Nat 24) 6 := Vector.replicate 6 (Vector.replicate 24 0)
  motor : Motor := .none
  legs : Legs := {}
  trip : Trip := {}
  pwm : Pwm := {}
  reg : Reg := {}
  bl : Bl := {}
  mot : Motion := {}
  slc : Vector Slice 2 := Vector.replicate 2 {}
  /-- Urgent requests whose sample instants lie beyond the last boundary (08 R266). -/
  reqs : List SampleReq := []
  /-- The last regulator result of each role's input, mA (08 R270). -/
  held : Vector Int 4 := Vector.replicate 4 0
  model : Option MotorModel := none
  speedZones : List SpeedZone := []
  forceZones : List ForceZone := []
  /-- Correction tables: the one in use, the one loaded for the next boundary, and a load in progress. -/
  corr : List (Int × Int) := []
  corrNext : Option (List (Int × Int)) := none
  corrLoad : List Byte := []
  /-- Energy drawn and returned, mJ, with the parts below 1 mJ (07 R216). -/
  eOut : Int := 0
  eRegen : Int := 0
  eSub : Rat := 0
  rSub : Rat := 0
  /-- Net energies of the last 16 tagged moves, 0.1 J, latest first (07 R226). -/
  learned : List Int := []
  plan : Curve := {}
  planned : Bool := false
  nv : NvMarks := {}
  nvPending : Bool := false
  life : Life := {}
  lifeSaved : Vector Word 4 := Vector.replicate 4 0
  lifeRest : Life := {}
  /-- Swaths since the last refresh are in `AX_SUPV.AGE`; a CAL_SELF names this axis. -/
  calSelf : Bool := false
  deriving DecidableEq, Repr

/-- A cam table (06 R206): points where written. -/
structure CamTable where
  count : Nat := 0
  mShift : Nat := 0
  sShift : Nat := 0
  interp : Nat := 0
  periodic : Bool := false
  points : List (Option (Int × Int)) := []
  valid : Bool := false
  deriving DecidableEq, Repr

end Sys2Proof.Machine
end

