-- ==== Sys2Proof/Machine/Cell.lean ====
section
/-!
DEFINITION. The named operations on one cell: its register fields, the flags that a step raises, the ends of a
profile and the way to FALLOW (06 R180, R199, 03 R93, 05 R163), and the words that its status registers show.
-/

namespace Sys2Proof.Machine

/-! ### Fields -/

/-- The value of a field of a register file. -/
def Fld.get {k : Nat} (f : Fld) (r : Vector Word k) : Nat :=
  ((r[f.reg]?.getD 0).toNat >>> f.lo) % 2 ^ f.w

/-- The value of a signed field. -/
def Fld.getS {k : Nat} (f : Fld) (r : Vector Word k) : Int :=
  (BitVec.ofNat f.w (f.get r)).toInt

/-- A word with the bits of a field replaced. -/
def Fld.ins (f : Fld) (x : Word) (v : Nat) : Word :=
  let m := BitVec.ofNat 32 ((2 ^ f.w - 1) <<< f.lo)
  (x &&& ~~~ m) ||| (BitVec.ofNat 32 (v <<< f.lo) &&& m)

/-- A register file with a field replaced; the module's own update, whatever the field's access code. -/
def Fld.put {k : Nat} (f : Fld) (r : Vector Word k) (v : Nat) : Vector Word k :=
  r.setIfInBounds f.reg (f.ins (r[f.reg]?.getD 0) v)

/-- A field of a signed quantity, in two's complement. -/
def Fld.putS {k : Nat} (f : Fld) (r : Vector Word k) (v : Int) : Vector Word k :=
  f.put r (BitVec.ofInt f.w v).toNat

/-- A saturating counter (00 R8; the counters of each chapter). -/
def Fld.count {k : Nat} (f : Fld) (r : Vector Word k) (d : Nat := 1) : Vector Word k :=
  f.put r (min (f.get r + d) (2 ^ f.w - 1))

/-- A value limited to an unsigned field, saturating. -/
def Fld.sat (f : Fld) (v : Int) : Nat := min v.toNat (2 ^ f.w - 1)

/-- A signed value saturated to a signed field. -/
def satS (w : Nat) (v : Int) : Int := max (-(2 ^ (w - 1))) (min v (2 ^ (w - 1) - 1))

def Bool.bit (b : Bool) : Nat := if b then 1 else 0

/-- Nearest integer, halves away from zero (06 R184). -/
def roundAway (x : Rat) : Int :=
  if 0 ≤ x then (x + 1/2).floor else - ((-x + 1/2).floor)

/-- Rounding towards zero. -/
def toZero (x : Rat) : Int := if 0 ≤ x then x.floor else - (-x).floor

def Rat.abs' (x : Rat) : Rat := if x < 0 then -x else x

def sgn (x : Rat) : Int := if x < 0 then -1 else if x = 0 then 0 else 1

/-- The value x moved towards t by at most d. -/
def slew (x t d : Rat) : Rat := if x < t then min t (x + d) else max t (x - d)

def axisCount : Nat := 48

/-! ### The axis -/

/-- A field as last written (13 R426). -/
def Axis.r (a : Axis) (f : Fld) : Nat := f.get a.regs
def Axis.rS (a : Axis) (f : Fld) : Int := f.getS a.regs
def Axis.b (a : Axis) (f : Fld) : Bool := f.get a.regs != 0
/-- A field in force at the cell (13 R425). -/
def Axis.inForce (a : Axis) (f : Fld) : Nat := f.get a.force
def Axis.set (a : Axis) (f : Fld) (v : Nat) : Axis := { a with regs := f.put a.regs v }
def Axis.setS (a : Axis) (f : Fld) (v : Int) : Axis := { a with regs := f.putS a.regs v }
def Axis.setB (a : Axis) (f : Fld) (v : Bool) : Axis := { a with regs := f.put a.regs (Bool.bit v) }
def Axis.count (a : Axis) (f : Fld) : Axis := { a with regs := f.count a.regs }

def Axis.stepper (a : Axis) : Bool := a.motor == .stepper
def Axis.brushless (a : Axis) : Bool := a.motor == .brushless || a.motor == .brushlessStar

/-- The working roles (02 R34, R37). -/
def Axis.roles (a : Axis) : List (Fin 4) :=
  match a.motor with
  | .none => []
  | .stepper => [0, 1, 2, 3]
  | _ => [0, 1, 2]

/-- The role that a leg carries (02 R34, R37). -/
def Axis.roleOf (a : Axis) (leg : Fin 5) : Option (Fin 4) :=
  if h : leg.val < 4 then
    let k : Fin 4 := ⟨leg.val, h⟩
    if a.legs.subRole = some k || !(a.roles.contains k) then none else some k
  else a.legs.subRole

/-- The leg that carries a role. -/
def Axis.legOf (a : Axis) (k : Fin 4) : Fin 5 :=
  if a.legs.subRole = some k then 4 else ⟨k.val, by omega⟩

/-- The numbers of R179. -/
def Mode.num : Mode → Nat
  | .fallow => 0 | .hold => 1 | .position => 2 | .velocity => 3 | .followStep => 4 | .gear => 5 | .cam => 6
  | .localSpeed => 7 | .stopping => 8 | .park => 9 | .unconfigured => 15

/-- Modes 2 to 8: the axis runs a profile or follows (06 R180). -/
def Mode.running (m : Mode) : Bool := 2 ≤ m.num && m.num ≤ 8
/-- Modes 1 to 9. -/
def Mode.enabled (m : Mode) : Bool := 1 ≤ m.num && m.num ≤ 9

/-- The motor is moving by command: velocity or acceleration not zero (04 R123). -/
def Axis.moving (a : Axis) : Bool := a.mot.prof.v != 0 || a.mot.prof.a != 0

/-- `POS_UNC` of the present motor type (04 R127, 05 R163). -/
def Axis.posUnc (a : Axis) : Bool :=
  if a.brushless then a.b AX.BL_STAT.POS_UNC else a.b AX.ST_STAT.POS_UNC

/-- A slice is failed and has no spare (08 R284). -/
def Axis.slcFail (a : Axis) : Bool :=
  let fail := a.r AX.SLC_STAT.FAIL; let sub := a.r AX.SLC_STAT.SUB
  (fail.testBit 0 && !sub.testBit 0) || (fail.testBit 1 && !sub.testBit 1)

/-- The axis's fault that `AXIS_FAULT` reports: a latched trip, DRAIN, LOST, a failed slice (06 R181), or the Hall
failure of `HALL_MODE` 1 (05 R147). -/
def Axis.faulted (a : Axis) : Bool :=
  a.trip.latch || a.legs.phase == .drain || a.legs.phase == .lost || a.slcFail
    || (a.brushless && a.b AX.BL_STAT.HALL_FAIL && a.bl.hallMode == 1)

/-- The current ceiling, mA (04 R122, 05 R151). -/
def Axis.ceiling (a : Axis) : Nat :=
  let m := if a.brushless then a.r AX.BL_ILIM.I_MAX else a.r AX.I_LIM0.I_MAX
  if a.reg.clamp then min m 12000 else m

/-- Pole pairs (04 R141, 05 R142). -/
def Axis.poles (a : Axis) : Nat :=
  if a.brushless then a.r AX.BL_CFG.POLE_PAIRS else a.r AX.ST_CFG.POLE_PAIRS

/-- Net energy drawn, mJ. -/
def Axis.eNet (a : Axis) : Int := a.eOut - a.eRegen

/-- The legs of the cell are allowed to switch, gate-drive power apart: no fault hold, substitution, DRAIN or LOST, no
pre-trip, no latched trip, no halt (02 R54, R58, R63, 03 R96, R100, R88). -/
def Axis.legsFree (a : Axis) : Bool :=
  a.legs.phase == .normal && !a.trip.pre && !a.trip.latch

/-- The cell's legs are enabled by its mode, by direct PWM (03 R81), or by a winding measurement (08 R280); not once it has stopped on its
local oscillator (09 R302). -/
def Axis.enabled (a : Axis) : Bool :=
  if a.pwm.osc == .stopped then false
  else if a.pwm.directAct then AX.PWM_CTRL.OUT_EN.get a.force != 0
  else a.mot.mode.enabled && !(a.bl.start == .observe) || a.reg.test.isSome

/-! ### A step on one cell -/

/-- A cell in a step: the axis, the flags that the instant raises, the module's flags, and the asynchronous events
(11 R401: code and data). -/
structure Cell where
  ax : Axis
  /-- The swath number at the step, and the motion ticks of the swath so far. -/
  now : Nat := 0
  tick : Nat := 0
  flags : List Flag := []
  modFlags : List Flag := []
  events : List (Nat × List Byte) := []
  deriving DecidableEq, Repr

def Cell.map (c : Cell) (f : Axis → Axis) : Cell := { c with ax := f c.ax }
def Cell.raise (c : Cell) (f : Flag) : Cell := { c with flags := c.flags ++ [f] }
def Cell.raiseIf (c : Cell) (b : Bool) (f : Flag) : Cell := if b then c.raise f else c
def Cell.modRaise (c : Cell) (f : Flag) : Cell := { c with modFlags := c.modFlags ++ [f] }
def Cell.event (c : Cell) (code : Nat) (data : List Byte := []) : Cell := { c with events := c.events ++ [(code, data)] }
def Cell.mot (c : Cell) (f : Motion → Motion) : Cell := { c with ax := { c.ax with mot := f c.ax.mot } }
def Cell.legs (c : Cell) (f : Legs → Legs) : Cell := { c with ax := { c.ax with legs := f c.ax.legs } }
def Cell.trip (c : Cell) (f : Trip → Trip) : Cell := { c with ax := { c.ax with trip := f c.ax.trip } }
def Cell.reg (c : Cell) (f : Reg → Reg) : Cell := { c with ax := { c.ax with reg := f c.ax.reg } }
def Cell.bl (c : Cell) (f : Bl → Bl) : Cell := { c with ax := { c.ax with bl := f c.ax.bl } }
def Cell.pwm (c : Cell) (f : Pwm → Pwm) : Cell := { c with ax := { c.ax with pwm := f c.ax.pwm } }
def Cell.set (c : Cell) (f : Fld) (v : Nat) : Cell := c.map (·.set f v)
def Cell.setS (c : Cell) (f : Fld) (v : Int) : Cell := c.map (·.setS f v)
def Cell.setB (c : Cell) (f : Fld) (v : Bool) : Cell := c.map (·.setB f v)
def Cell.count (c : Cell) (f : Fld) : Cell := c.map (·.count f)
def Cell.when (c : Cell) (b : Bool) (f : Cell → Cell) : Cell := if b then f c else c

/-- The bytes of a number, low byte first (00 R7). -/
def leBytes (n : Nat) (v : Nat) : List Byte :=
  (List.range n).map fun i => BitVec.ofNat 8 (v >>> (8 * i))

/-- The value of bytes, low byte first. -/
def leNat (bs : List Byte) : Nat := bs.foldr (fun b acc => b.toNat + 256 * acc) 0

/-- A signed value of bytes. -/
def leInt (bs : List Byte) : Int := (BitVec.ofNat (8 * bs.length) (leNat bs)).toInt

/-- Every switch off: no command reaches the legs (02 R54, 03 R88). -/
def Pwm.dark (p : Pwm) : Pwm := { p with pulses := Vector.replicate 4 .off, sw := Vector.replicate 4 {}, shift := none }

/-- The legs are forced off, and the carries become zero (03 R78, R96, R103). -/
def Pwm.off (p : Pwm) : Pwm := { p.dark with carry := Vector.replicate 4 0 }

/-! ### Ends -/

/-- The position becomes uncertain (04 R127, 05 R163); a home found before no longer counts. -/
def Cell.setUnc (c : Cell) : Cell :=
  if c.ax.brushless then
    ((c.raiseIf (!c.ax.b AX.BL_STAT.POS_UNC) AX.BL_EVT.POS_UNC).setB AX.BL_STAT.POS_UNC true).setB AX.BL_STAT.HOMED false
  else (c.setB AX.ST_STAT.POS_UNC true).setB AX.ST_STAT.HOMED false

/-- A homing run ends without its home (04 R134, 05 R164). -/
def Cell.homeFail (c : Cell) : Cell :=
  if c.ax.brushless then
    if c.ax.b AX.BL_STAT.HOMING then
      ((c.setB AX.BL_STAT.HOMING false).raise AX.BL_EVT.HOME_FAIL).event 0x08 else c
  else if c.ax.b AX.ST_STAT.HOMING then
    ((c.setB AX.ST_STAT.HOMING false).raise AX.ST_EVT.HOME_FAIL).event 0x08 else c

/-- A move ends: its measured and predicted energies are stored and compared (07 R255); `done` tells a completed
move, whose energy a tagged axis learns (07 R226). -/
def Cell.endJob (c : Cell) (done : Bool) : Cell :=
  match c.ax.mot.job with
  | none => c
  | some j =>
    let e := c.ax.eNet - j.eStart
    let dev := 100 * (e - j.move.ePred) > 5 * (j.move.ePred.natAbs : Int)
    let c := ((c.set AX.LEDG_LAST.E_LAST (AX.LEDG_LAST.E_LAST.sat (e / 100))).set AX.LEDG_LAST.E_PRED
      (AX.LEDG_LAST.E_PRED.sat (j.move.ePred / 100))).setB AX.LEDG_AX.MODEL_DEV dev
    let c := if dev then c.modRaise LEDG.EVT.MODEL_DEV else c
    let c := if done && j.move.tagged then
        let l := (e / 100 :: c.ax.learned).take 16
        (c.map fun a => { a with learned := l }).set AX.LEDG_LEARN.E_LEARN
          (AX.LEDG_LEARN.E_LEARN.sat (l.foldl max 0))
      else c
    c.mot fun m => { m with job := none, group := none }

/-- The sector-based position source while at rest and not sensorless (05 R148, R178). -/
def Axis.restSrc (a : Axis) : PosSrc :=
  if a.bl.hallMode != 2 && !a.b AX.BL_STAT.HALL_FAIL && a.bl.sector.isSome then .halls else .none

/-- The comparators of a fallow cell (03 R93): not active, and unarmed.  An open comparator window ends with them, STO's fallow included
(notes/assumptions/126.md). -/
def Trip.asleep (t : Trip) : Trip :=
  { t with live := false, cmp := Vector.replicate 4 .unarmed, win := { t.win with comp := none }, stand := { t.stand with comp := false } }

/-- The number of a motion tick. -/
def Cell.tickNo (c : Cell) : Nat := 25 * c.now + c.tick

/-- A side writes to the cell: the hold of 01 R14 ends (14 R457). -/
def Cell.written (c : Cell) : Cell := c.setB AX.AX_SUPV.HELD false

/-- `HALL_MODE` and `HALL_DIR` come into force (05 R147): in the other sense the sector that stands is the mirrored one (05 R145), whose
centre gives the angle until the next edge (05 R146). -/
def Bl.takeHall (b : Bl) (mode : Nat) (dir : Bool) : Bl :=
  let b := { b with hallMode := mode }
  if dir = b.hallDir then b else { b with hallDir := dir, sector := b.sector.map (5 - ·), edge := none, edges := 0 }

/-- The written Hall settings come into force on an axis that is fallow, and the position source follows them (05 R147). -/
def Axis.takeHall (a : Axis) : Axis :=
  let a := { a with bl := a.bl.takeHall (a.r AX.BL_CFG.HALL_MODE) (a.b AX.BL_CFG.HALL_DIR) }
  { a with bl := { a.bl with posSrc := a.restSrc } }

/-- A regulator that does not run keeps nothing of its past: references and voltages 0, half duty (04 R110, notes/assumptions/101.md). -/
def Reg.rested (r : Reg) : Reg :=
  { r with integ := Vector.replicate 2 0, sat := false, ref := Vector.replicate 3 0, voltNext := Vector.replicate 3 0
           next := Vector.replicate 4 (1/2) }

/-- A winding measurement leaves the regulator (08 R280); with none it stays as it is. -/
def Reg.endTest (r : Reg) : Reg := if r.test.isNone then r else { r.rested with test := none }

/-- The axis becomes FALLOW: legs off, comparators unarmed (03 R93), carries zero (03 R78), step target at P_cmd
(04 R139), amplitude and reference 0, no voltage and half duty for the first period after (04 R110, R123, notes/assumptions/101.md), pending Hall settings in force (05 R147), and, where the
position source is not the Halls, the position uncertain (05 R163). -/
def Cell.goFallow (c : Cell) : Cell :=
  let lose := c.ax.brushless && c.ax.bl.posSrc != .halls && c.ax.mot.mode.enabled
  let c := if lose then c.setUnc else c
  let a := c.ax
  let a := { a with
    trip := a.trip.asleep
    pwm := { a.pwm.off with cmd := Vector.replicate 4 .off }
    reg := { a.reg.rested with test := none, amp := 0, rest := .none, omega := 0 }
    bl := { a.bl with brake := .none, brakeChop := false, start := .none, catchWait := false, gripEnd := false,
                      vInt := 0, torque := 0, bemfN := 0 }
    mot := { a.mot with mode := if a.motor = Motor.none then .unconfigured else .fallow,
                        prof := { p := a.mot.pCmd }, stop := .none, fallowAfter := false, queued := none, engage := none,
                        camWait := none, stepTgt := a.mot.pCmd, depth := 0, rest := none, lastStep := none
                        fell := c.tickNo, stopFrom := none } }
  let a := a.takeHall
  let a := (a.setB AX.BL_STAT.BRAKE false).setB AX.BL_STAT.PARK false
  let a := ((a.setB AX.BL_STAT.V_SAT false).setB AX.ST_STAT.V_SAT false).setB AX.BL_STAT.SHIFT false
  let a := ((a.setB AX.BL_STAT.CATCH false).setB AX.BL_STAT.INIT false).setB AX.ST_STAT.LA_VALID false
  let a := a.setB AX.RST_STAT.ORPHAN false
  { c with ax := { a with mot := { a.mot with group := none, orphan := false } } }

/-- The admitted moves of an axis that have not started lapse or are withdrawn; `report` marks them for the report of 07 R257 at the next
decision point. -/
def Cell.dropWaiting (c : Cell) (report : Bool) : Cell :=
  c.mot fun m => { m with
    waiting := none, queued := none, camWait := none, job := if m.camWait.isSome then none else m.job
    lapsed := if report then m.lapsed ++ ([m.waiting, m.queued].filterMap id).map fun w => (w.move.seq, w.move.plane) else m.lapsed }

/-- A profile is given up without a ramp: trip, STO, DRAIN or LOST (06 R180, R199, 07 R257). -/
def Cell.abandon (c : Cell) : Cell :=
  let m := c.ax.mot.mode
  if m.enabled then
    -- an axis at rest whose move only waits had started no profile (07 R257)
    let report := !((m == .hold || m == .park) && c.ax.mot.waiting.isSome)
    let c := c.homeFail
    let c := if report then (c.raise AX.MOT_EVT.ABANDONED).event 0x0C else c
    let c := if m.running then (c.count AX.MOT_CNT.STOPS).mot fun x => { x with left := true } else c
    ((c.endJob false).dropWaiting true).goFallow
  else if c.ax.mot.waiting.isSome then c.dropWaiting true
  else c

/-- A start that fails ends its move, and the axis goes fallow (05 R159, R170). -/
def Cell.startFails (c : Cell) (f : Flag) : Cell := (((c.raise f).homeFail.endJob false).dropWaiting false).goFallow

/-- The switches of roles 0 to 2 that apply V_link along a direction (05 R158; notes/assumptions/138.md): at a multiple of 60° two legs stand
against the third, between them one leg against one. -/
def testLegs (dir : Nat) : Vector (Option Bool) 3 :=
  match dir with
  | 0 => #v[some true, some false, some false]
  | 30 => #v[some true, none, some false]
  | 60 => #v[some true, some true, some false]
  | 90 => #v[none, some true, some false]
  | 120 => #v[some false, some true, some false]
  | _ => #v[some false, some true, none]

/-- The twelve test pulses (05 R158): six directions, a positive and a negative pulse each, of `len` µs, one every `len` + 10 × `gap` µs. -/
def testSeq (len gap : Nat) : List TestPulse :=
  (List.range 12).map fun k =>
    let dir := 30 * (k / 2); let pos := k % 2 = 0
    ⟨dir, pos, (testLegs dir).map fun x => if pos then x else x.map not, k * (len + 10 * gap), len⟩

/-- A test sequence begins (05 R158); `TP_GAP` as it stands. -/
def Axis.test (a : Axis) (attempt len : Nat) : StartSeq := .testPulses attempt len (testSeq len (a.r AX.BL_START.TP_GAP))

/-- A test sequence is due: a stand-in on a slice of the cell completes its step first (08 R292). -/
def Axis.testFrom (a : Axis) (attempt len : Nat) : StartSeq :=
  if a.slc.any (·.stand.isSome) then .testWait attempt len else a.test attempt len

/-- The repeat of a test sequence (05 R159): double the length, up to 50 µs. -/
def Axis.testAgain (a : Axis) (len : Nat) : StartSeq := a.testFrom 2 (min 50 (2 * len))

/-- A pre-trip, a fault hold or a substitution that interrupts test pulses (05 R177): the sequence is discarded, and restarts as the one
repeat; a second interruption fails. -/
def Cell.interruptTest (c : Cell) : Cell :=
  match c.ax.bl.start with
  | .testPulses k len _ => if k < 2 then c.bl fun b => { b with start := c.ax.testAgain len } else c.startFails AX.BL_EVT.INIT_FAIL
  | _ => c

/-! ### What the status registers show -/

def Motor.num : Motor → Nat
  | .none => 0 | .stepper => 1 | .brushless => 2 | .brushlessStar => 3

def PosSrc.num : PosSrc → Nat
  | .halls => 0 | .estimator => 1 | .grip => 2 | .none => 3

def cmpBits (v : Vector CmpState 4) (hi : Bool) : Nat :=
  (List.finRange 4).foldl (fun acc k =>
    let on := match v.get k with
      | .unarmed => true | .inside => false | .high => hi | .low => !hi
    acc + (if on then 2 ^ k.val else 0)) 0

/-- `LEG_STAT` (02 R70). -/
def Axis.legStat (a : Axis) : Nat :=
  let l := a.legs
  l.fail.toNat + l.iso.toNat <<< 5 + l.tap.toNat <<< 9
    + (match l.subRole, l.spareUsed with | some k, true => k.val | _, _ => 7) <<< 13
    + Bool.bit l.spareUsed <<< 16 + Bool.bit l.spareBad <<< 17 + Bool.bit (l.phase == .lost) <<< 18
    + Bool.bit (match l.phase with | .isoWait _ => true | .tapWait _ => true | _ => false) <<< 19
    + min 7 (l.count.toList.foldl max 0) <<< 20 + Bool.bit (l.phase == .hold) <<< 23 + l.bootOk.toNat <<< 24

/-- `TRIP_STAT` (03 R106). -/
def Axis.tripStat (a : Axis) : Nat :=
  let t := a.trip
  Bool.bit t.pre + Bool.bit t.latch <<< 1
    + Bool.bit (t.win.comp.isSome || t.win.link.isSome || t.win.ext.isSome) <<< 2
    + Bool.bit t.srcComp <<< 3 + Bool.bit t.srcLink <<< 4 + Bool.bit t.srcDidt <<< 5 + Bool.bit t.srcExt <<< 6
    + Bool.bit t.srcChat <<< 7 + cmpBits t.cmp true <<< 8 + cmpBits t.cmp false <<< 12

/-- The counter stands still (03 R71, R80, R88, R89, 09 R308): before the first boundary, in the hold of a fill period, and while its
clock is stopped. -/
def Pwm.still (p : Pwm) : Bool := p.start.isNone || p.fillHold || p.halted || p.clockLost || p.napped

/-- The counter and its direction (03 R71): where it stands, or, while it runs, at the instant of the read, which lies anywhere between 0 and
`PER` (notes/assumptions/1.md). -/
def Axis.counter (a : Axis) (free : Nat) : Nat × Bool :=
  if a.pwm.still then (a.pwm.cnt, a.pwm.down)
  else (free % (AX.PWM_PER.PER.get a.force + 1), (free / 2 ^ 16).testBit 0)

/-- `PWM_STAT` (03 R106); `free` places the instant of the read in the period. -/
def Axis.pwmStat (a : Axis) (free : Nat) : Nat :=
  (a.counter free).1 % 2 ^ 16 + Bool.bit (a.counter free).2 <<< 16 + Bool.bit a.pwm.fill <<< 17 + Bool.bit a.pwm.capt.isSome <<< 18
    + Bool.bit a.pwm.directAct <<< 19

/-- The slices interleave on one input (08 R272): while the test pulses run. -/
def Axis.ilv (a : Axis) : Bool := match a.bl.start with | .testPulses .. => true | _ => false

/-- The slices take the urgent requests of the cell (08 R263, R273): the axis is not fallow, or in direct PWM. -/
def Axis.sampling (a : Axis) : Bool :=
  (a.trip.live || a.pwm.directAct || a.reg.test.isSome) && a.legs.phase != .drain && !a.ilv

/-- `AWAKE` of a slice (08 R263, R268, R272, R273): throughout DRAIN, interleaving and its calibration, from a single request to its sample,
and, of a slice that takes urgent requests, as the instant of the read falls. -/
def Axis.awake (a : Axis) (s : Fin 2) (free : Nat) : Bool :=
  let x := a.slc.get s
  a.legs.phase == .drain || a.ilv || x.direct || a.calSelf || x.single.isSome || (x.stand.elim false (·.2 = 2) && x.calDone.isNone) || (a.sampling && free.testBit (17 + s.val))

/-- The segment in progress (06 R187). -/
def Axis.seg (a : Axis) : Nat :=
  if a.mot.mode == .position then (match a.mot.prof.segs with | s :: _ => s.no | [] => 0) else 0

/-- `MOT_STAT` (06 R214). -/
def Axis.motStat (a : Axis) : Nat :=
  let m := a.mot
  let ramp := match m.engage with
    | some e => (match e.kind with | .gear .. => !e.full | _ => false)
    | none => false
  let table := match m.engage with
    | some e => (match e.kind with | .cam c => c.table.val | _ => 0xFF)
    | none => 0xFF
  m.mode.num + a.seg <<< 4 + Bool.bit (m.queued.isSome || (m.waiting.elim false (·.queued))) <<< 7
    + Bool.bit m.camWait.isSome <<< 8 + Bool.bit ramp <<< 9 + (m.depth % 4) <<< 10
    + Bool.bit m.group.isSome <<< 12 + (m.group.elim 0 (·.1 % 8)) <<< 13 + table <<< 16

/-- `AX_STAT` (14 R457): copies of fields held elsewhere. -/
def Axis.axStat (a : Axis) : Nat :=
  a.mot.mode.num + Bool.bit a.posUnc <<< 4 + Bool.bit a.trip.latch <<< 5 + Bool.bit a.trip.pre <<< 6
    + Bool.bit (a.legs.phase == .lost) <<< 7 + Bool.bit a.legs.spareUsed <<< 8 + Bool.bit a.legs.spareBad <<< 9
    + Bool.bit a.slcFail <<< 10 + Bool.bit a.planned <<< 11 + a.r AX.RST_STAT.ORPHAN <<< 12
    + a.r AX.RST_STAT.SESS_RST <<< 13 + (if a.brushless then a.r AX.BL_STAT.HALL_FAIL else 0) <<< 15

/-- The word that register `i` of the axis page shows, motor type apart. -/
def Axis.word (a : Axis) (free : Nat) (i : Nat) : Word :=
  let w := a.regs[i]?.getD 0
  -- a word that the cell forms, over the RSV bits that the register holds
  let formed := fun (n : Nat) => BitVec.ofNat 32 n ||| (w &&& (axDefs[i]?).elim 0 RegDef.rsv)
  if i = AX.AX_CFG.MOTOR.reg then AX.AX_CFG.MOTOR.ins w a.motor.num
  else if i = AX.AX_STAT.MODE.reg then formed a.axStat
  else if i = AX.LEG_STAT.FAIL.reg then formed a.legStat
  else if i = AX.TRIP_STAT.PRE.reg then formed a.tripStat
  else if i = AX.PWM_STAT.CNT.reg then formed (a.pwmStat free)
  else if i = AX.SLC_STAT.ILV.reg then
    AX.SLC_STAT.ILV.ins (AX.SLC_STAT.AWAKE1.ins (AX.SLC_STAT.AWAKE0.ins w (Bool.bit (a.awake 0 free))) (Bool.bit (a.awake 1 free)))
      (Bool.bit a.ilv)
  else if i = AX.MOT_STAT.MODE.reg then formed a.motStat
  else if i = AX.LEDG_AX.PLANNED.reg then AX.LEDG_AX.PLANNED.ins w (Bool.bit a.planned)
  else if i = AX.BL_STAT.SECTOR.reg then
    AX.BL_STAT.POS_SRC.ins (AX.BL_STAT.SECTOR.ins w (a.bl.sector.elim 7 (·.val))) a.bl.posSrc.num
  else w

/-- A register of the other motor type (14 R456). -/
def Axis.foreign (a : Axis) (i : Nat) : Bool :=
  let off := (axDefs[i]?.elim 0 (·.addr))
  let st := (0x400 ≤ off && off ≤ 0x44C) || (0x914 ≤ off && off ≤ 0x918)
  let bl := (0x500 ≤ off && off < 0x600) || (0x91C ≤ off && off ≤ 0x924)
  (a.stepper && bl) || (a.brushless && st)

theorem axDefs_length : axDefs.length = 131 := by rfl

/-- A fresh axis: every register at its reset value (14 R456). -/
def Axis.reset (n : Fin 48) : Axis :=
  let regs : AxRegs := ⟨(axDefs.map fun d => BitVec.ofNat 32 d.reset).toArray, by simp [axDefs_length]⟩
  let regs := AX.AX_CFG.AXIS.put regs n.val
  { regs := regs, force := regs }

end Sys2Proof.Machine
end

