-- ==== Sys2Proof/Machine/Legs.lean ====
section
/-!
DEFINITION. The five legs of a cell: gate-drive phases and codes (02 R43 to R47, R53), short-circuit handling (02 R53 to R64),
substitution (02 R57 to R59), the leg check (02 R66) and the isolators (02 R33 to R35).
-/

namespace Sys2Proof.Machine

def bitSet {w : Nat} (v : BitVec w) (k : Nat) (b : Bool) : BitVec w :=
  let m := BitVec.ofNat w (2 ^ k)
  if b then v ||| m else v &&& ~~~ m

/-- The per-leg fields of a code register (02 R70). -/
def codeOn (leg : Fin 5) : Fld := AX.GD_CODE_ON.L0.nth leg.val
def codeOff (leg : Fin 5) : Fld := AX.GD_CODE_OFF.L0.nth leg.val

/-- `SC_CNT` of a leg (02 R70). -/
def scCnt (leg : Fin 5) : Fld := (AX.SC_CNT01.L0.skip (leg.val / 2)).nth (leg.val % 2)

/-- The codes of every leg follow the profile's slope code (02 R47). -/
def Axis.slopeCodes (a : Axis) : Axis :=
  (List.finRange 5).foldl (fun a l =>
    (a.set (codeOn l) (a.inForce AX.GD_ON.S_SLOPE)).set (codeOff l) (a.inForce AX.GD_OFF.S_SLOPE)) a

/-- The phases of a leg's edges of one kind (02 R44, R45): a length of 0 skips its phase; in ADAPT the slope runs at the leg's code and ends
with the node's transition. -/
def Axis.edgePhases (a : Axis) (leg : Fin 5) (on : Bool) : List GatePhase :=
  let f := fun (x y : Fld) => a.inForce (if on then x else y)
  let adapt := decide (a.inForce AX.GD_CTRL.MODE = 1)
  let tPre := f AX.GD_ON.T_PRE AX.GD_OFF.T_PRE
  let tSlope := f AX.GD_ON.T_SLOPE AX.GD_OFF.T_SLOPE
  let slope := if adapt then a.r (if on then codeOn leg else codeOff leg) else f AX.GD_ON.S_SLOPE AX.GD_OFF.S_SLOPE
  (if tPre = 0 then [] else [⟨f AX.GD_ON.S_PRE AX.GD_OFF.S_PRE + 1, some tPre, false⟩])
    ++ (if tSlope = 0 then [] else [⟨slope + 1, some tSlope, adapt⟩])
    ++ [⟨f AX.GD_ON.S_HOLD AX.GD_OFF.S_HOLD + 1, none, false⟩]

/-- The two steps in which a detection turns the legs off (02 R53): codes 0 to 9 of `T_S1` are read as 10. -/
def Axis.twoStep (a : Axis) : List GatePhase :=
  [⟨1, some (max 10 (a.inForce AX.SC_CFG.T_S1)), false⟩, ⟨16, none, false⟩]

/-- The gate drive of the coming period. -/
def Cell.gateDrive (c : Cell) : Cell :=
  c.legs fun l => { l with drive := Vector.ofFn fun k => ⟨c.ax.edgePhases k true, c.ax.edgePhases k false⟩ }

/-- The edge is measured (02 R46): it switches 0.5 A or more, and its node completes the transition within `T_SLOPE`. -/
def Axis.edgeTime (a : Axis) (e : Edge) : Option Nat :=
  let cap := a.inForce (if e.on then AX.GD_ON.T_SLOPE else AX.GD_OFF.T_SLOPE)
  e.tsw.filter fun t => decide (500 ≤ e.mA.natAbs) && decide (t ≤ 25 * cap)

/-- One measured edge moves the leg's ADAPT code (02 R45, R46).  After `GD_LIMIT` the count of consecutive edges begins anew
(notes/assumptions/127.md). -/
def Cell.adaptEdge (c : Cell) (e : Edge) : Cell :=
  let a := c.ax
  if a.inForce AX.GD_CTRL.MODE = 0 then c else
  match a.edgeTime e with
  | none => c
  | some tsw =>
  let f := if e.on then codeOn e.leg else codeOff e.leg
  let sMin := a.inForce AX.GD_CTRL.S_MIN; let sMax := a.inForce AX.GD_CTRL.S_MAX
  let tgt := a.inForce AX.GD_CTRL.T_TARGET
  if sMin > sMax then c.set f sMax else
  let code := a.r f
  let up := tsw > 10 * (tgt + 1); let down := tsw < 10 * (tgt - 1)
  let past := (up && sMax ≤ code) || (down && code ≤ sMin)
  let runs := if e.on then a.legs.runOn else a.legs.runOff
  let run := if past then runs.get e.leg + 1 else 0
  let code' := if past then (if up then sMax else sMin)
    else if up then code + 1 else if down then code - 1 else code
  let limit := decide (run = 256)
  let run := if limit then 0 else run
  let c := (c.set f code').raiseIf limit AX.LEG_EVT.GD_LIMIT
  c.legs fun l => if e.on then { l with runOn := l.runOn.set e.leg run } else { l with runOff := l.runOff.set e.leg run }

/-- No command reaches a leg. -/
def Pwm.isOff (p : Pwm) : Bool := p.pulses.all (· == .off)

/-- The legs are forced off: carries become zero and the integrators hold (03 R78, 02 R54); `didt` by a detection.  Legs that are off already
stay as they were turned off, so the two steps of a detection govern (02 R53, R69). -/
def Cell.forceOff (c : Cell) (didt : Bool := false) : Cell :=
  let how : Vector (List GatePhase) 5 :=
    if didt then Vector.replicate 5 c.ax.twoStep
    else if c.ax.pwm.isOff then c.ax.legs.forced
    else Vector.ofFn fun k => c.ax.edgePhases k false
  ((c.legs fun l => { l with forced := how }).pwm Pwm.off).reg fun r => { r with switched := false }

/-- A span of a switch, where it lasts at all. -/
def span (f t : Nat) : List (Nat × Nat) := if f < t then [(f, t)] else []

/-- The spans of a role's switches in a period of `full` 1/8 counts, with dead time `d` on each turn-on edge (03 R75, R82), after the period
`p`: a turn-on edge whose dead time passes the period's end waits for the rest of it in the next. -/
def Pulse.switches (full d : Nat) (p : Switches) : Pulse → Switches
  | .off => {}
  | .interlocked => {}
  | .complementary w =>
    let f := (full - w) / 2; let t := (full + w) / 2
    let from_ := if p.hiEnd then d else p.wait
    if w = 0 then ⟨none, span from_ full, false, true, from_ - full⟩
    else if full ≤ w then ⟨(span (if p.loEnd then d else 0) full).head?, [], true, false, 0⟩
    else ⟨(span (f + d) t).head?, span from_ f ++ span (t + d) full, false, true, t + d - full⟩
  | .independent w l =>
    let f := (full - w) / 2; let t := (full + w) / 2; let e := full - l / 2
    let from_ := if p.loEnd then p.wait else d
    ⟨if w = 0 then none else if full ≤ w then (span (if p.hiEnd then 0 else d) full).head? else (span (f + d) t).head?,
      if l = 0 then [] else if full ≤ l then span from_ full else span from_ (l / 2) ++ span (e + d) full,
      decide (full ≤ w), l != 0, if l = 0 then 0 else if full ≤ l then from_ - full else e + d - full⟩

/-- The commands reach the legs where these may switch, and the switches follow with dead time (03 R75); a high side does not turn on while the
bootstrap of its leg is not above BOOT_UV (02 R42, R43). -/
def Cell.gate (c : Cell) (on : Bool) : Cell :=
  let a := c.ax
  let full := 16 * AX.PWM_PER.PER.get a.force
  let pulses : Vector Pulse 4 := if on then a.pwm.cmd else Vector.replicate 4 .off
  let sw : Vector Switches 4 := Vector.ofFn fun k =>
    let x := (pulses.get k).switches full (8 * a.inForce AX.PWM_DT.DT) (a.pwm.sw.get k)
    if a.legs.bootOk.getLsbD (a.legOf k).val then x else { x with high := none, hiEnd := false }
  c.pwm fun p => { p with pulses := pulses, sw := sw }

/-- The cell enters DRAIN (02 R61, R63): legs off, the profile abandoned; its slices sample continuously, and the requests are suspended
(08 R273). -/
def Cell.toDrain (c : Cell) (didt : Bool := false) : Cell :=
  (((c.legs fun l => { l with phase := .drain, holdLeg := none, deferred := [] }).forceOff didt).abandon).map fun a =>
    { a with reqs := [] }

/-- Another role has a fault count (02 R61). -/
def Axis.otherCount (a : Axis) (k : Option (Fin 4)) : Bool :=
  (List.finRange 4).any fun i => some i != k && a.legs.count.get i != 0

/-- A fault on a leg: a detection, or a BOOT_UV event of a leg that carries a role (02 R53, R43, R61).  R61 has no row for a second event of
the leg that began the hold, nor for events in SUBST, DRAIN and LOST: they change nothing, and raise no `SC` and no `SC_CNT`
(notes/assumptions/54.md). -/
def Cell.legFault (c : Cell) (leg : Fin 5) (didt : Bool) : Cell :=
  let a := c.ax
  let k := a.roleOf leg
  let mark (c : Cell) : Cell :=
    let c := if didt then (c.raise AX.LEG_EVT.SC).count (scCnt leg) else c
    c.legs fun l => { l with hit := k.elim l.hit (fun k => bitSet l.hit k.val true) }
  match a.legs.phase with
  | .normal =>
    if a.otherCount k then (mark c).toDrain didt
    else (((mark c).legs fun l => { l with phase := .hold, holdLeg := some leg }).forceOff didt).when a.legsFree Cell.interruptTest
  | .hold => if a.legs.holdLeg = some leg then c else (mark c).toDrain didt
  | _ => c

/-- An open edge of a switch of a leg that carries a role, at a leg current in mA (10 R337, 02 R61): the role counts, no fault hold.  It counts above
0.5 A in the switch's forward direction; a turn-on that 02 R43 withholds is not judged. -/
def Cell.openFault (c : Cell) (leg : Fin 5) (high : Bool) (mA : Int) : Cell :=
  if (if high then decide (mA ≤ 500) || !c.ax.legs.bootOk.getLsbD leg.val else decide (-500 ≤ mA)) then c else
  match c.ax.roleOf leg, c.ax.legs.phase with
  | some k, .normal => (c.raise AX.LEG_EVT.SC).legs fun l => { l with hit := bitSet l.hit k.val true }
  | _, _ => c

/-- The spare is available (02 R57), by the `SPARE_EN` given. -/
def Axis.spareAvailable (a : Axis) (spareEn : Bool) : Bool :=
  spareEn && !a.legs.spareUsed && !a.legs.spareBad && a.legs.bootOk.getLsbD 4 && a.legs.inTime

/-- The ADAPT codes of the leg that gives up role k pass to L4 (02 R37). -/
def Cell.moveCodes (c : Cell) (k : Fin 4) : Cell :=
  let lk : Fin 5 := ⟨k.val, by omega⟩
  (c.set (codeOn 4) (c.ax.r (codeOn lk))).set (codeOff 4) (c.ax.r (codeOff lk))

/-- Step 1 of a substitution (02 R58): the role and its ADAPT codes pass to L4 (02 R37). -/
def Cell.substStart (c : Cell) (k : Fin 4) : Cell :=
  let c := (c.forceOff.when c.ax.legsFree Cell.interruptTest).moveCodes k
  { c with ax := { c.ax with
      legs := { c.ax.legs with
        phase := .isoWait k, holdLeg := none, subRole := some k, fail := bitSet c.ax.legs.fail k.val true
        pumpOn := bitSet c.ax.legs.pumpOn k.val false }
      reg := { c.ax.reg with subst := true }
      nvPending := true } }

/-- Step 2 (02 R58): ISOk confirmed open, TAPk commanded closed.  A debug halt stops the sequence (02 R69). -/
def Cell.substIsoOpen (c : Cell) : Cell :=
  if c.ax.pwm.halted then c else
  match c.ax.legs.phase with
  | .isoWait k => c.legs fun l => { l with iso := bitSet l.iso k.val false, phase := .tapWait k }
  | _ => c

/-- Steps 3 and 4 (02 R58): TAPk is confirmed closed, and all legs take up their commanded states, L4 as role k; `gd` tells that gate-drive
power is present.  A debug halt stops the sequence (02 R69). -/
def Cell.substTapClosed (c : Cell) (gd : Bool) : Cell :=
  if c.ax.pwm.halted then c else
  match c.ax.legs.phase with
  | .tapWait k =>
    let c := c.legs fun l => { l with
      tap := bitSet l.tap k.val true, phase := .normal, count := l.count.set k 0, spareUsed := true }
    let c := c.gate (c.ax.enabled && c.ax.legsFree && gd)
    ((c.raise AX.LEG_EVT.SUBST).count AX.SC_CNT4.SUBST_CNT).event 0x0B [BitVec.ofNat 8 k.val]
  | _ => c

/-- An isolator or tap misses its time (02 R61). -/
def Cell.substTimeout (c : Cell) : Cell :=
  if c.ax.pwm.halted then c else
  match c.ax.legs.phase with
  | .isoWait _ => ((c.raise AX.LEG_EVT.ISO_FAULT).legs fun l => { l with inTime := false }).toDrain
  | .tapWait _ => ((c.raise AX.LEG_EVT.ISO_FAULT).legs fun l => { l with inTime := false }).toDrain
  | _ => c

/-- Entry to LOST (02 R64, R52): all open, pumps off, the DIDT trip recorded.  `BOOT_OK` reads 0 at once with the pumps off
(notes/assumptions/99.md). -/
def Cell.toLost (c : Cell) : Cell :=
  let c := c.legs fun l => { l with phase := .lost, iso := 0, tap := 0, pumpOn := 0, pumpHold := 0, bootOk := 0, hit := 0,
                                    count := Vector.replicate 4 0 }
  let c := c.trip fun t => { t with latch := true, srcDidt := true }
  let c := ((c.raise AX.LEG_EVT.AXIS_LOST).raise AX.TRIP_EVT.CONF).count AX.CONF_CNT.CONF_CNT
  let c := if c.ax.stepper then c.setUnc else c
  ((c.reg Reg.endTest).map fun a => { a with nvPending := true }).event 0x0A

/-- The fault counts at a boundary (02 R56), and what they decide (02 R61, R62).  `release` tells whether the release of
03 R98 holds at this boundary (03 R105). -/
def Cell.countFaults (c : Cell) (retry : Nat) (spareEn release : Bool) : Cell :=
  match c.ax.legs.phase with
  | .normal | .hold =>
    let l := c.ax.legs
    let cnt : Vector Nat 4 := Vector.ofFn fun k => if l.hit.getLsbD k.val then l.count.get k + 1 else 0
    let ok := (List.finRange 4).any fun k => !(l.hit.getLsbD k.val) && l.count.get k != 0
    let c := (c.legs fun l => { l with count := cnt, hit := 0 }).raiseIf ok AX.LEG_EVT.RETRY_OK
    let exceeded := (List.finRange 4).filter fun k => cnt.get k > retry
    match exceeded with
    | [] =>
      if l.phase = .hold then
        if release then c.legs fun l => { l with phase := .normal, holdLeg := none }
        else c.legs fun l => { l with hit := (l.holdLeg.bind c.ax.roleOf).elim 0 (fun k => bitSet 0 k.val true) }
      else c
    | [k] => if c.ax.spareAvailable spareEn then c.substStart k else c.toDrain
    | _ => c.toDrain
  | _ => c

/-- The isolators and the spare's tap take up the mapping of the motor type (02 R34, R35, 09 R320): a role that the spare
carries closes its tap, a cell in LOST stays open. -/
def Axis.mapIsolators (a : Axis) : Axis :=
  if a.legs.phase = .lost then a else
  let want : List (Fin 4) := match a.motor with
    | .none => [] | .stepper => [0, 1, 2, 3] | .brushless => [0, 1, 2] | .brushlessStar => [0, 1, 2, 3]
  let l := a.legs
  let iso : BitVec 4 := want.foldl (fun v k =>
    if l.subRole = some k || (k = 3 && a.motor = .brushlessStar && l.fail.getLsbD 3) then v else bitSet v k.val true) 0
  let tap : BitVec 4 := match l.subRole with
    | some k => if want.contains k then bitSet 0 k.val true else 0
    | none => 0
  let pumps : BitVec 5 := if a.motor = .none then 0 else
    (List.finRange 5).foldl (fun v k => if l.fail.getLsbD k.val then v else bitSet v k.val true) 0
  { a with legs := { l with iso := iso, tap := tap, pumpOn := pumps, bootOk := l.bootOk &&& pumps } }

/-- The result of a leg check (02 R66): marks cleared and set, and, where the roles can be covered, the axis leaves
LOST for a fallow NORMAL.  Gives whether it did. -/
def Cell.legCheck (c : Cell) (x : LegCheck) : Cell × Bool :=
  let a := c.ax
  let l := a.legs
  -- legs that pass lose their failed marks; a working leg whose isolator fails is marked failed
  let fail : BitVec 5 := (List.finRange 5).foldl (fun v k =>
    let isoFails := if h : k.val < 4 then !(x.iso.getLsbD (⟨k.val, h⟩ : Fin 4).val) else false
    bitSet v k.val (!(x.legs.getLsbD k.val) || isoFails)) 0
  let bad := if x.legs.getLsbD 4 && x.tap = 0xF then false
    else l.spareBad || x.tap != 0xF || !(x.legs.getLsbD 4)
  let need := a.roles
  let failed := need.filter fun k => fail.getLsbD k.val
  let l := { l with fail := fail, spareBad := bad, checking := false, inTime := true }
  let c := { c with ax := { a with legs := l, nvPending := true } }
  if a.motor = Motor.none then (c, false) else
  match failed with
  | [] =>
    let l := { l with phase := .normal, subRole := none, spareUsed := false, count := Vector.replicate 4 0, hit := 0 }
    ({ c with ax := { c.ax with legs := l }.mapIsolators }, true)
  | [k] =>
    if !bad then
      let l := { l with phase := .normal, subRole := some k, spareUsed := true, count := Vector.replicate 4 0, hit := 0 }
      let c := if a.legs.subRole = some k then c else c.moveCodes k
      ({ c with ax := { c.ax with legs := l }.mapIsolators }, true)
    else (c, false)
  | _ => (c, false)

/-- A change of the marks that the nonvolatile store keeps (09 R320). -/
def Cell.markLegs (c : Cell) (f : Legs → Legs) : Cell := (c.legs f).map fun a => { a with nvPending := true }

/-- Graze finds a failed leg in a fallow cell (02 R67); R67 has no row for an L4 that carries a role: it is marked failed and the cell goes to
DRAIN (notes/assumptions/100.md). -/
def Cell.grazeLeg (c : Cell) (leg : Fin 5) : Cell :=
  let a := c.ax
  if h : leg.val < 4 then
    let k : Fin 4 := ⟨leg.val, h⟩
    if a.legs.fail.getLsbD leg.val then c
    else if leg = 3 && a.brushless then
      c.markLegs fun l => { l with fail := bitSet l.fail 3 true, iso := bitSet l.iso 3 false, pumpOn := bitSet l.pumpOn 3 false }
    else if a.legs.phase == .normal && a.spareAvailable (a.inForce AX.SC_CFG.SPARE_EN != 0) then c.substStart k
    else (c.markLegs fun l => { l with fail := bitSet l.fail leg.val true, pumpOn := bitSet l.pumpOn leg.val false }).toDrain
  else if a.legs.subRole.isSome then
    if a.legs.fail.getLsbD 4 then c else
    (c.markLegs fun l => { l with fail := bitSet l.fail 4 true, pumpOn := bitSet l.pumpOn 4 false }).toDrain
  else if a.legs.spareBad then c
  else (c.markLegs fun l => { l with spareBad := true, fail := bitSet l.fail 4 true, pumpOn := bitSet l.pumpOn 4 false }).raise AX.LEG_EVT.SPARE_BAD

end Sys2Proof.Machine
end

