-- ==== Sys2Proof/Machine/TripInput.lean ====
section
/-!
DEFINITION. The trip input of a cell: comparators (03 R91 to R94), pre-trip, filter, chatter and confirmation
(03 R95 to R100), release and clear (03 R98, R101), arming (03 R93), and the restart of windows (03 R90).
-/

namespace Sys2Proof.Machine

/-- The three classes of sources that open filter windows (03 R97); the comparators of the roles are one source. -/
def PerSrc.get {α : Type} (p : PerSrc α) : TripSrc → α
  | .comp .. => p.comp | .link => p.link | .ext => p.ext

def PerSrc.put {α : Type} (p : PerSrc α) (s : TripSrc) (v : α) : PerSrc α :=
  match s with
  | .comp .. => { p with comp := v } | .link => { p with link := v } | .ext => { p with ext := v }

/-- The module-wide sources as they stand: the link comparator tripped or not yet armed, and TRIP_EXT low (03 R93 to R95). -/
structure Wide where
  link : Bool
  ext : Bool
  deriving DecidableEq, Repr

/-- A leg comparator of a live cell is tripped or not yet armed (03 R92, R93). -/
def Axis.compActive (a : Axis) : Bool :=
  a.trip.live && a.roles.any fun k => a.trip.cmp.get k != .inside

/-- The enabled sources active now (03 R95). -/
def Axis.srcActive (a : Axis) (w : Wide) : PerSrc Bool :=
  { comp := a.inForce AX.TRIP_CFG.COMP_EN != 0 && a.compActive, link := w.link, ext := a.inForce AX.TRIP_CFG.EXT_EN != 0 && w.ext }

def PerSrc.any (p : PerSrc Bool) : Bool := p.comp || p.link || p.ext

/-- A source is enabled (03 R95); a leg comparator only of a role of a cell that is live (03 R93). -/
def Axis.srcEnabled (a : Axis) : TripSrc → Bool
  | .comp k _ => a.trip.live && a.roles.contains k && a.inForce AX.TRIP_CFG.COMP_EN != 0
  | .link => true
  | .ext => a.inForce AX.TRIP_CFG.EXT_EN != 0

/-- Confirmation (03 R100); `chat` by the chatter rule, which abandons the open windows (03 R105).  While a trip is latched nothing is
confirmed. -/
def Cell.confirm (c : Cell) (w : Wide) (chat : Bool) : Cell :=
  let a := c.ax
  if a.trip.latch then c else
  let act := a.srcActive w
  let unc := a.stepper && a.mot.mode != .fallow
  let c := c.trip fun t => { t with
    latch := true, srcComp := act.comp, srcLink := act.link, srcExt := act.ext, srcChat := chat
    win := if chat then ⟨none, none, none⟩ else t.win }
  let c := c.reg Reg.endTest
  let c := ((c.raise AX.TRIP_EVT.CONF).raiseIf chat AX.TRIP_EVT.CHAT).count AX.CONF_CNT.CONF_CNT
  let c := c.event 0x09 [BitVec.ofNat 8 c.ax.tripStat]
  let c := (c.forceOff.abandon)
  if unc then c.setUnc else c

/-- The clock of the cell's filter and counter is stopped (03 R90, 09 R308). -/
def Pwm.stopped (p : Pwm) : Bool := p.halted || p.clockLost || p.napped

/-- The filter first sees a source active (03 R97): it opens a window, or with `TRIP_FLT` = 0 confirms. -/
def Cell.filterSees (c : Cell) (w : Wide) (src : TripSrc) (cyc : Nat) : Cell :=
  let flt := c.ax.inForce AX.TRIP_CFG.TRIP_FLT
  let c := c.trip fun t => { t with seen := t.seen.put src (some cyc) }
  if flt = 0 then c.confirm w false
  else c.trip fun t => { t with win := if (t.win.get src).isNone then t.win.put src (some (cyc + flt)) else t.win }

/-- The filter runs from its beginning: it sees the sources that are active (03 R90). -/
def Cell.startWindows (c : Cell) (w : Wide) (cyc : Nat) : Cell :=
  [TripSrc.comp 0 true, TripSrc.link, TripSrc.ext].foldl (fun (c : Cell) src =>
    if (c.ax.srcActive w).get src then c.filterSees w src cyc else c) c

/-- The clock returns to a cell: the filter starts from its beginning (03 R90). -/
def Cell.restartWindows (c : Cell) (w : Wide) (cyc : Nat) : Cell :=
  let c := c.trip fun t => { t with win := ⟨none, none, none⟩ }
  if c.ax.pwm.stopped then c else c.startWindows w cyc

/-- A source becomes active at a 25 MHz cycle (03 R96, R97, R99); `seen` tells whether the filter, while its clock runs (03 R90), samples
it.  A comparator that is not yet armed stays so (03 R93). -/
def Cell.preTrip (c : Cell) (w : Wide) (src : TripSrc) (cyc : Nat) (seen : Bool) : Cell :=
  let free := c.ax.legsFree
  let c := match src with
    | .comp k hi => if c.ax.trip.live && c.ax.trip.cmp.get k != .unarmed then
        c.trip fun t => { t with cmp := t.cmp.set k (if hi then .high else .low) } else c
    | _ => c
  if !c.ax.srcEnabled src then c else
  let pres := (c.ax.trip.pres.filter fun t => cyc < t + 25000) ++ [cyc]
  let c := c.trip fun t => { t with pre := true, pres := pres, stand := t.stand.put src true }
  let c := ((c.raise AX.TRIP_EVT.PRE).count AX.TRIP_CNT.PRE_CNT).forceOff.when free Cell.interruptTest
  if !c.ax.trip.latch && decide (pres.length > c.ax.inForce AX.TRIP_CFG.TRIP_CHAT) then c.confirm w true
  else if seen && !c.ax.pwm.stopped then c.filterSees w src cyc
  else c

/-- The filter window of a source ends with the source active throughout (03 R97, R100). -/
def Cell.windowEnds (c : Cell) (w : Wide) (src : TripSrc) (cyc : Nat) : Cell :=
  match c.ax.trip.win.get src with
  | none => c
  | some e =>
    if decide (cyc < e) || c.ax.pwm.stopped || !(c.ax.srcActive w).get src then c
    else (c.confirm w false).trip fun t => { t with win := t.win.put src none }

/-- A source becomes inactive: a window that has ended confirms first, an open one ends without confirmation (03 R97, 00 R6). `w` is as
the source stood. -/
def Cell.srcInactive (c : Cell) (w : Wide) (src : TripSrc) (cyc : Nat) : Cell :=
  (c.windowEnds w src cyc).trip fun t => { t with
    win := t.win.put src none, stand := t.stand.put src false
    seen := if (t.seen.get src).isSome then t.seen.put src (some cyc) else t.seen }

/-- A leg comparator goes inside (03 R92). -/
def Cell.compInside (c : Cell) (w : Wide) (k : Fin 4) (cyc : Nat) : Cell :=
  if !c.ax.trip.live then c else
  let others := c.ax.roles.any fun j => j != k && c.ax.trip.cmp.get j != .inside
  if c.ax.trip.cmp.get k = .inside then c
  else if others then c.trip fun t => { t with cmp := t.cmp.set k .inside }
  else (c.srcInactive w (.comp k true) cyc).trip fun t =>
    if t.live then { t with cmp := t.cmp.set k .inside } else t

/-- A leg comparator's thresholds in mA (03 R91). -/
def Axis.window (a : Axis) (k : Fin 4) : Rat × Rat × Rat :=
  let f := fun (x : Fld) => (a.inForce (x.skip k.val) : Rat)
  ((f AX.CMP_WIN0.LOW - 512) * (78125/1000), (f AX.CMP_WIN0.HIGH - 512) * (78125/1000), f AX.CMP_WIN0.HYST * (78125/1000))

/-- A boundary masks a class of sources (03 R95): no enabled source of it is seen any more, and its window ends without confirmation
(03 R97; notes/assumptions/129.md). -/
def Cell.dropMasked (c : Cell) : Cell :=
  let drop := fun (f : Fld) (src : TripSrc) (t : Trip) =>
    if c.ax.inForce f = 0 then { t with win := t.win.put src none, stand := t.stand.put src false } else t
  c.trip fun t => drop AX.TRIP_CFG.EXT_EN .ext (drop AX.TRIP_CFG.COMP_EN (.comp 0 true) t)

/-- Unarmed comparators of a live cell arm where their current lies inside with hysteresis (03 R93): those of the working roles, so that the
comparator of an unused role 3 stays unarmed (notes/assumptions/130.md). -/
def Cell.arm (c : Cell) (w : Wide) (i : Vector Int 4) (cyc : Nat) : Cell :=
  c.ax.roles.foldl (fun c k =>
    let (lo, hi, hy) := c.ax.window k
    if c.ax.trip.live && c.ax.trip.cmp.get k = .unarmed && decide (lo + hy < (i.get k : Rat)) && decide ((i.get k : Rat) < hi - hy)
    then c.compInside w k cyc else c) c

/-- Enabled sources that stand active without the cell having taken it: it takes it now (03 R93, R96).  These are the comparators that did not
arm as the cell left fallow, the link comparator that is not armed, and a source that a write has enabled. -/
def Cell.takeStanding (c : Cell) (w : Wide) (cyc : Nat) : Cell :=
  let role : Fin 4 := (c.ax.roles.find? fun k => c.ax.trip.cmp.get k != .inside).getD 0
  [TripSrc.comp role (c.ax.trip.cmp.get role == .high), TripSrc.link, TripSrc.ext].foldl (fun (c : Cell) src =>
    if (c.ax.srcActive w).get src && !c.ax.trip.stand.get src then c.preTrip w src cyc true else c) c

/-- The cell prepares to leave fallow, or leaves it: its comparators become active and its slices wake
(03 R93, 06 R188); a direct calibration of a slice is abandoned (08 R292). -/
def Cell.leaveFallow (c : Cell) : Cell :=
  if c.ax.trip.live then c else
  let c := c.map fun a => { a with slc := a.slc.map fun (x : Slice) => { x with direct := false } }
  c.trip fun t => { t with live := true, cmp := Vector.replicate 4 .unarmed }

/-- A fallow axis whose move starts in this swath or the next prepares to leave fallow (06 R188); one that waits for nothing any more, and
converts for nothing else, sleeps again. -/
def Cell.prepare (c : Cell) : Cell :=
  let a := c.ax
  if a.mot.mode != .fallow then c
  else if a.mot.waiting.elim false fun w => decide (w.swath ≤ c.now + 1) then c.leaveFallow
  else if a.pwm.directAct || a.reg.test.isSome then c
  else c.trip Trip.asleep

/-- The release test at a boundary, the latch apart (03 R98, R101): no window open, no enabled source active on the boundary cycle or
the one before, and no pre-trip on the boundary cycle. -/
def Axis.quiet (a : Axis) (w : Wide) (cyc : Nat) : Bool :=
  let t := a.trip
  let recent := fun (en : Bool) (x : Option Nat) => en && x.elim false fun s => decide (cyc < s + 2)
  t.win.comp.isNone && t.win.link.isNone && t.win.ext.isNone && !(a.srcActive w).any
    && !recent (a.inForce AX.TRIP_CFG.COMP_EN != 0) t.seen.comp && !recent true t.seen.link
    && !recent (a.inForce AX.TRIP_CFG.EXT_EN != 0) t.seen.ext && !(t.pres.contains cyc)

/-- A latched trip clears where its test passes; one recorded under 02 R52 clears only through the leg check
(03 R101).  Gives whether it cleared. -/
def Cell.clearTrip (c : Cell) (w : Wide) (cyc : Nat) : Cell × Bool :=
  if !c.ax.trip.latch then (c, true)
  else if c.ax.quiet w cyc && !c.ax.trip.srcDidt then
    (c.trip fun t => { t with latch := false, pre := false, srcComp := false, srcLink := false, srcDidt := false,
                              srcExt := false, srcChat := false }, true)
  else (c.raise AX.TRIP_EVT.CLR_IGN, false)

/-- What the trip input does at a boundary: the requested clear, then the release of the pre-trip latch
(03 R98, R101). -/
def Cell.tripBoundary (c : Cell) (w : Wide) (cyc : Nat) : Cell :=
  let req := c.ax.trip.clearReq
  let c := c.trip fun t => { t with clearReq := false }
  let c := if req && c.ax.trip.latch then (c.clearTrip w cyc).1 else c
  if c.ax.trip.pre && !c.ax.trip.latch && c.ax.quiet w cyc then c.trip fun t => { t with pre := false } else c

end Sys2Proof.Machine
end

