-- ==== Sys2Proof/Machine/PwmGen.lean ====
section
/-!
DEFINITION. The PWM generator of a cell: the counter and its grid (03 R71, R79), pulses, carry, dead time and
independent operation (03 R74 to R84), the values that a
boundary brings into force (03 R80, R82, R86, 13 R425).
-/

namespace Sys2Proof.Machine

def Axis.per (a : Axis) : Nat := a.inForce AX.PWM_PER.PER
/-- The grid of cell n's boundaries in the time base (03 R79): its offset, 1/8 counts. -/
def Axis.gridOffset (a : Axis) (n : Fin 48) : Nat :=
  if a.inForce AX.PWM_CTRL.STAG_EN = 0 then 0 else n.val * 16 * a.per / 48

/-- An instant of the time base lies on the grid of cell n (03 R79). -/
def Axis.onGrid (a : Axis) (n : Fin 48) (at8 : Nat) : Bool := decide (at8 % (16 * a.per) = a.gridOffset n)

/-- The counter ends its down-count at an instant (03 R71, R73): one period after the boundary that began it, or later where it stood
meanwhile; before the first boundary it stands at 0. -/
def Axis.downEnds (a : Axis) (at8 : Nat) : Bool :=
  match a.pwm.start with
  | none => false
  | some t => if a.pwm.late then decide (t < at8) else decide (at8 = t + 16 * a.per)

/-- An instant is the boundary of cell n (03 R73, R79, R80): the end of a down-count, or, at the start and in a fill period, the first point of
its grid from the end of the down-count on. -/
def Axis.boundaryAt (a : Axis) (n : Fin 48) (at8 : Nat) : Bool :=
  match a.pwm.start with
  | none => a.onGrid n at8
  | some t =>
    if !a.pwm.fill then a.downEnds at8
    else a.onGrid n at8 && (if a.pwm.late then decide (t < at8)
      else decide (t + 16 * a.per ≤ at8) && decide (at8 < t + 32 * a.per))

/-- The period, ns (03 R71). -/
def Axis.tPwm (a : Axis) : Nat := 5 * a.per

/-- The shortest pulse, 1/8 counts (03 R76, R77). -/
def Axis.pulseThr (a : Axis) : Nat := 8 * (a.inForce AX.PWM_DT.DT + a.inForce AX.PWM_DT.MINP)

/-- Complementary operation with the volt-second carry (03 R77): the pulse and the carry after it. -/
def carryStep (per thr : Nat) (cmp : Nat) (carry : Int) : Pulse × Int :=
  let full : Int := 16 * per
  let w : Int := full - 2 * (min cmp (8 * per) : Nat) + carry
  if w < thr then (.complementary 0, w)
  else if full - w < thr then (.complementary (16 * per), w - full)
  else (.complementary w.toNat, 0)

/-- Independent operation (03 R82) with the interlock (03 R84): an overlap of the commands keeps both switches off. -/
def indepStep (per thr cmp cmpl : Nat) : Pulse :=
  let cmp := min cmp (8 * per); let cmpl := min cmpl (8 * per)
  let hi := 16 * per - 2 * cmp; let lo := 2 * cmpl
  if 0 < hi && 0 < lo && cmp < cmpl then .interlocked
  else .independent (if hi < thr then 0 else hi) (if lo < thr then 0 else lo)

/-- The high-side width of a pulse, 1/8 counts. -/
def Pulse.high : Pulse → Nat
  | .off => 0 | .complementary w => w | .independent w _ => w | .interlocked => 0

/-- The roles' commands of the coming period, from the compare values; `run` tells that the cell commands its legs, and `on` that the commands
reach them.  Commands that overlap keep both switches off (03 R84): those of independent operation, and in complementary operation
those that a hardware fault makes overlap, which no register of graze reports (notes/assumptions/128.md). -/
def Cell.setPulses (c : Cell) (run on : Bool) (cmp : Vector Nat 4) (fault : BitVec 4) : Cell :=
  let a := c.ax
  let per := a.per; let thr := a.pulseThr
  let c := c.pwm fun p => { p with cmp := cmp }
  let c := (List.finRange 4).foldl (fun (c : Cell) (k : Fin 4) =>
    let indep := a.pwm.directAct && (a.inForce AX.PWM_CTRL.INDEP).testBit k.val
    let put := fun (c : Cell) (q : Pulse) (y : Int) =>
      c.pwm fun p => { p with cmd := p.cmd.set k q, carry := p.carry.set k y }
    if !run || !(a.roles.contains k) then put c .off 0
    else
      let (q, y) := if indep then (indepStep per thr (cmp.get k) (a.inForce (AX.PWM_CMPL0.CMPL.skip k.val)), 0)
        else carryStep per thr (cmp.get k) (if on then c.ax.pwm.carry.get k else 0)
      let q := if fault.getLsbD k.val then .interlocked else q
      let c := if q = .interlocked then (c.raise AX.TRIP_EVT.INTLK).count AX.TRIP_CNT.INTLK_CNT else c
      put c q (if on then y else 0)) c
  c.gate on

/-- A register at offsets 0x0100 to 0x01FF (03 R85). -/
def isPwmReg (i : Nat) : Bool := let o := (axDefs[i]?.elim 0 (·.addr)); 0x100 ≤ o && o < 0x200

/-- Registers in force after a boundary: cell-level values as last written, PWM values unchanged (13 R425). -/
def Axis.cellValues (a : Axis) : AxRegs :=
  Vector.ofFn fun i : Fin 131 => if isPwmReg i.val then a.force.get i else a.regs.get i

/-- The captured PWM values come into force at a boundary (03 R86): a change of `PER` or `STAG_EN` begins a fill period and
clears the carries (03 R80, R78), and `DIRECT` transfers (03 R82). -/
def Cell.applyCapture (c : Cell) : Cell :=
  match c.ax.pwm.capt with
  | none => c
  | some v =>
    let a := c.ax
    let force : AxRegs := Vector.ofFn fun i : Fin 131 => if isPwmReg i.val then v.get i else a.force.get i
    let a' := { a with force := force, pwm := { a.pwm with capt := none } }
    let perCh := a'.per != a.per
    let fill := perCh || a'.inForce AX.PWM_CTRL.STAG_EN != a.inForce AX.PWM_CTRL.STAG_EN
    let a' := { a' with pwm := { a'.pwm with
      fill := fill, carry := if perCh then Vector.replicate 4 0 else a'.pwm.carry } }
    let c := { c with ax := a' }
    let want := a'.inForce AX.PWM_CTRL.DIRECT != 0
    if want && !a.pwm.directAct then
      if a.mot.mode = .fallow then c.pwm fun p => { p with directAct := true } else c
    else if !want && a.pwm.directAct then (c.pwm fun p => { p with directAct := false }).goFallow
    else c

/-- The values that take effect at a boundary: cell-level values, with the ADAPT codes that a change of `MODE`, or `MODE` = 0,
sets (02 R47), the captured PWM values, and a loaded correction table (04 R117). -/
def Cell.takeValues (c : Cell) : Cell :=
  let a := c.ax
  let a' := { a with force := a.cellValues }
  let modeCh := a'.inForce AX.GD_CTRL.MODE != a.inForce AX.GD_CTRL.MODE
  let a' := if modeCh || a'.inForce AX.GD_CTRL.MODE = 0 then a'.slopeCodes else a'
  let a' := if a'.inForce AX.GD_CTRL.MODE != 0 && a'.inForce AX.GD_CTRL.S_MIN > a'.inForce AX.GD_CTRL.S_MAX then
      (List.finRange 5).foldl (fun a l => (a.set (codeOn l) (a.inForce AX.GD_CTRL.S_MAX)).set (codeOff l) (a.inForce AX.GD_CTRL.S_MAX)) a'
    else a'
  let a' := match a'.corrNext with
    | some t => { a' with corr := t, corrNext := none }
    | none => a'
  { c with ax := a' }.applyCapture

/-- The compare values that `PWM_CMPk` give in direct mode. -/
def Axis.directCmp (a : Axis) : Vector Nat 4 := Vector.ofFn fun k => a.inForce (AX.PWM_CMP0.CMP.skip k.val)

/-- The compare values of the regulator, scaled by the `PER` in force (03 R83, 04 R109). -/
def Axis.regCmp (a : Axis) : Vector Nat 4 :=
  Vector.ofFn fun k => (roundAway (8 * a.per * a.reg.next.get k)).toNat

end Sys2Proof.Machine
end

