-- ==== Sys2Proof/Machine/Slices.lean ====
section
/-!
DEFINITION. The current slices of an axis: sample instants and requests (08 R262, R265 to R268), results (08 R261), lateness (08 R263), drops
(08 R269, R270), the data
registers (08 R271), and who serves a slice's input (08 R283, R284).
-/

namespace Sys2Proof.Machine

/-- Converter factors: gain and offset (08 R282). -/
structure Factors where
  gain : Nat
  ofs : Int
  deriving DecidableEq, Repr

def Axis.factors (a : Axis) (s : Fin 2) : Factors :=
  ⟨a.r (AX.SLC_FAC0.GAIN.skip s.val), a.rS (AX.SLC_FAC0.OFS.skip s.val)⟩

/-- A leg shunt's entry of the calibration set: gain 2^-15 and offset mA (08 R289). -/
abbrev ShuntCal := Nat × Int

/-- The current of a code, or of a mean of codes, mA (08 R261). -/
def meanCurrent (f : Factors) (cal : ShuntCal) (code : Rat) : Rat :=
  (code - 2048 - f.ofs / 16) * (f.gain / 32768) * (1953125 / 100000) * (cal.1 / 32768) + cal.2

def sliceCurrent (f : Factors) (cal : ShuntCal) (code : Nat) : Rat := meanCurrent f cal code

/-- What the module lends to a cell for its conversions: the factors of the spares, and the calibration entries of the
five leg shunts. -/
structure CellCal where
  spare : Vector Factors 8
  shunt : Vector ShuntCal 5
  deriving DecidableEq, Repr

/-- A result arrives in a data register (08 R271). -/
def Axis.putData (a : Axis) (s : Fin 2) (i : Int) (code : Nat) : Axis :=
  let f := fun (x : Fld) => x.skip s.val
  let new := a.b (f AX.SLC_DATA0.NEW)
  let a := (a.setS (f AX.SLC_DATA0.I) (satS 18 i)).set (f AX.SLC_DATA0.CODE) code
  (if new then a.setB (f AX.SLC_DATA0.OVR) true else a).setB (f AX.SLC_DATA0.NEW) true

/-- A read of a data register clears `NEW` and `OVR` (08 R271, 13 R430). -/
def Axis.readData (a : Axis) (s : Fin 2) : Axis :=
  (a.setB (AX.SLC_DATA0.NEW.skip s.val) false).setB (AX.SLC_DATA0.OVR.skip s.val) false

/-- The role whose leg shunt a slice samples (08 R260). -/
def Axis.sliceRole (a : Axis) (s : Fin 2) : Fin 4 :=
  if a.brushless then
    match a.bl.samp with
    | some (x, y) => if s = 0 then ⟨x.val, by omega⟩ else ⟨y.val, by omega⟩
    | none => if s = 0 then 0 else 1
  else if s = 0 then 0 else 2

/-- The spare that stands in for a slice towards its users: at steps 2 and 3 (08 R283). -/
def Axis.server (a : Axis) (s : Fin 2) : Option (Fin 8) :=
  (a.slc.get s).stand.bind fun x => if x.2 = 2 || x.2 = 3 then some x.1 else none

/-- The spare that replaces a slice (08 R284). -/
def Axis.substitute (a : Axis) (s : Fin 2) : Option (Fin 8) :=
  if (a.r AX.SLC_STAT.SUB).testBit s.val then some (Fin.ofNat 8 (a.r (if s = 0 then AX.SLC_STAT.SP0 else AX.SLC_STAT.SP1))) else none

/-- The factors of a slice, or of its substitute (08 R284). -/
def Axis.ownFactors (a : Axis) (k : CellCal) (s : Fin 2) : Factors := (a.substitute s).elim (a.factors s) k.spare.get

/-- The instant of a slice's event in a period that began at `start`, 1/8 counts (08 R262). -/
def Axis.eventAt (a : Axis) (evt cnt start : Nat) : Nat :=
  let cnt := min cnt a.per
  match evt with
  | 0 => start | 1 => start + 8 * a.per | 2 => start + 8 * cnt | _ => start + 16 * a.per - 8 * cnt

/-- The requests whose events occur in the running period (08 R262, R265, R267), by the values in force in it (R266): a brushless axis takes its
regulator samples at the boundary plus `T_SAMP_MIN` / 2, 200 ns at least. -/
def Axis.periodReqs (a : Axis) : List SampleReq :=
  match a.pwm.start with
  | none => []
  | some t =>
    let reg := fun (s : Fin 2) =>
      let f := fun (x : Fld) => a.inForce (x.skip s.val)
      if a.brushless then ⟨s, false, t, max 80 (2 * a.inForce AX.BL_SAMP.T_SAMP_MIN)⟩
      else (⟨s, false, a.eventAt (f AX.SLC_TRIG0.EVT) (f AX.SLC_TRIG0.EVT_CNT) t, f AX.SLC_TRIG0.DELAY⟩ : SampleReq)
    let diag : SampleReq := ⟨if a.inForce AX.SLC_DIAG.SLC = 0 then 0 else 1, true,
      a.eventAt (a.inForce AX.SLC_DIAG.EVT) (a.inForce AX.SLC_DIAG.EVT_CNT) t, a.inForce AX.SLC_DIAG.DELAY⟩
    if !a.sampling then [] else [reg 0, reg 1] ++ (if a.inForce AX.SLC_DIAG.EN = 0 then [] else [diag])

/-- A slice stays awake for an instant within 200 ns after the end of a conversion (08 R263). -/
def Slice.staysAwake (x : Slice) (t : Nat) : Bool := [x.busy, x.one].any fun e => e != 0 && decide (e ≤ t) && decide (t ≤ e + 640)

/-- An instant falls inside a running conversion (08 R269). -/
def Slice.inside (x : Slice) (t : Nat) : Bool := [x.busy, x.one].any fun e => e != 0 && decide (e ≤ t + 320) && decide (t < e)

/-- The sample instant of a request, 1/8 counts, and how late it is, counts (08 R263): a slice that has powered down wakes at the event at
the earliest and samples 200 ns after it. -/
def SampleReq.instant (r : SampleReq) (x : Slice) : Nat × Nat :=
  let t := r.ev + 8 * r.delay
  if 80 ≤ r.delay || x.staysAwake t then (t, 0) else (r.ev + 640, 80 - r.delay)

/-- The request that falls due first, as the slices stand; of equals the regulator's (08 R269). -/
def Axis.firstReq (a : Axis) (rs : List SampleReq) : Option SampleReq :=
  let t := fun (r : SampleReq) => (r.instant (a.slc.get r.slice)).1
  rs.foldl (fun (z : Option SampleReq) y =>
    z.elim (some y) fun x => if t y < t x || (t y = t x && x.diag && !y.diag) then some y else some x) none

/-- The first instant, at least 200 ns after an ordinary request, at which the slice is idle and the conversion ends before the instant of
every urgent request whose event has occurred by then (08 R268). -/
def Axis.singleAt (a : Axis) (k : Fin 2) (req : Nat) : Nat :=
  let x := a.slc.get k
  let rs := ((a.reqs ++ a.periodReqs).filter (·.slice = k)).map fun r => (r.ev, (r.instant x).1)
  let pass := fun (t : Nat) => rs.foldl (fun (t : Nat) y => if y.1 ≤ t && y.2 ≤ t + 320 && t < y.2 + 320 then y.2 + 320 else t) t
  (List.range rs.length).foldl (fun t _ => pass t) (max (req + 640) (max x.busy x.one))

/-- The result of a conversion on a slice's input, mA and code: from the slice or its substitute, or from the spare that stands in, each with
its own factors (08 R261, R267, R283, R284); at steps 1 and 3 of a stand-in the two are compared. -/
def Cell.convert (c : Cell) (k : CellCal) (s : Fin 2) (x : Conv) : Cell × Int × Nat :=
  let a := c.ax
  let cal := k.shunt.get (a.legOf (a.sliceRole s))
  let own := sliceCurrent (a.ownFactors k s) cal x.own.toNat
  let c := match (a.slc.get s).stand with
    | some (sp, step) =>
      let other := sliceCurrent (k.spare.get sp) cal x.spare.toNat
      if (step = 1 || step = 3) && decide (Rat.abs' (own - other) > 80 + Rat.abs' own / 100) then
        (c.raise AX.SLC_EVT.MISMATCH).map fun a => { a with slc := a.slc.set s { a.slc.get s with mismatch := true } }
      else c
    | none => c
  match a.server s with
  | some sp => (c, roundAway (sliceCurrent (k.spare.get sp) cal x.spare.toNat), x.spare.toNat)
  | none => (c, roundAway own, x.own.toNat)

/-- A slice's converter is busy from an instant for 100 ns (08 R260), with an urgent or a single sample. -/
def Axis.busyFrom (a : Axis) (s : Fin 2) (t : Nat) : Axis := { a with slc := a.slc.set s { a.slc.get s with busy := t + 320 } }
def Axis.oneFrom (a : Axis) (s : Fin 2) (t : Nat) : Axis := { a with slc := a.slc.set s { a.slc.get s with one := t + 320 } }

/-- An urgent request falls due (08 R263, R267, R269 to R271): dropped where its instant falls into a running conversion, else converted; the
regulator's result is its input's until the next. -/
def Cell.sample (c : Cell) (k : CellCal) (r : SampleReq) (t late : Nat) (x : Option Conv) : Cell :=
  let a := c.ax
  if (a.slc.get r.slice).inside t then (c.raise AX.SLC_EVT.DROP).count AX.SLC_CNT.DROP_CNT else
  let c := c.map fun a => a.busyFrom r.slice t
  let c := if r.diag then c else
    let c := c.set AX.SLC_STAT.LATE late
    if 0 < late then (c.raise AX.SLC_EVT.LATE).count AX.SLC_CNT.LATE_CNT else c
  match x with
  | none => c
  | some x =>
    let (c, mA, code) := c.convert k r.slice x
    let role := c.ax.sliceRole r.slice
    let c := if r.diag then c else c.map fun a => { a with held := a.held.set role mA }
    if c.ax.r AX.SLC_CFG.DSRC = Bool.bit r.diag then c.map fun a => a.putData r.slice mA code else c

/-- The codes of the conversions that a boundary command brings, by slice. -/
structure Convs where
  c0 : List Conv
  c1 : List Conv
  deriving DecidableEq, Repr

def Convs.next (x : Convs) (s : Fin 2) : Option Conv × Convs :=
  if s = 0 then (x.c0.head?, { x with c0 := x.c0.tail }) else (x.c1.head?, { x with c1 := x.c1.tail })

/-- Requests up to an instant, the next due first, each with the next code of its slice; those beyond it wait. -/
def Cell.takeReqs (c : Cell) (k : CellCal) (now : Nat) : Nat → List SampleReq → Convs → Cell
  | 0, _, _ => c
  | fuel + 1, rs, x =>
    match c.ax.firstReq rs with
    | none => c
    | some r =>
      let (t, late) := r.instant (c.ax.slc.get r.slice)
      if now < t then c.map fun a => { a with reqs := rs }
      else if (c.ax.slc.get r.slice).inside t then (c.sample k r t late none).takeReqs k now fuel (rs.erase r) x
      else (c.sample k r t late (x.next r.slice).1).takeReqs k now fuel (rs.erase r) (x.next r.slice).2

/-- The urgent requests that fall due up to an instant are converted in their order, each with the next code of its slice; those beyond it wait
(08 R262, R266). -/
def Cell.takeSamples (c : Cell) (k : CellCal) (now : Nat) (x : Convs) : Cell :=
  let rs := c.ax.reqs ++ c.ax.periodReqs
  (c.map fun a => { a with reqs := [] }).takeReqs k now rs.length rs x

/-- A stand-in advances one step at a boundary of the cell (08 R283): from step 2 to 3 only after the calibration has
ended.  Step 4 frees the spare, which the module sees. -/
def Axis.standStep (a : Axis) (s : Fin 2) : Axis :=
  let sl := a.slc.get s
  match sl.stand with
  | none => a
  | some (sp, step) =>
    if step = 0 then
      { a with slc := a.slc.set s { sl with stand := some (sp, 1) } }.set AX.SLC_STAT.STBY
        ((a.r AX.SLC_STAT.STBY) ||| 2 ^ s.val)
    else if step = 1 then { a with slc := a.slc.set s { sl with stand := some (sp, 2) } }
    else if step = 2 then
      (match sl.calDone with
       | some _ => { a with slc := a.slc.set s { sl with stand := some (sp, 3), calDone := none } }
       | none => a)
    else
      { a with slc := a.slc.set s { sl with stand := none } }.set AX.SLC_STAT.STBY
        ((a.r AX.SLC_STAT.STBY) &&& (3 - 2 ^ s.val))

/-- The stand-ins of a cell at its boundary: none advances in DRAIN (08 R292), or while the slices interleave (R284).  Test pulses that wait for
a step begin as it completes (R292). -/
def Axis.standSteps (a : Axis) : Axis :=
  if a.ilv || a.legs.phase == .drain then a else
  let x := (a.standStep 0).standStep 1
  match a.bl.start with
  | .testWait k len =>
    let moved := fun (s : Fin 2) => (a.slc.get s).stand.isNone || (a.slc.get s).stand != (x.slc.get s).stand
    if moved 0 && moved 1 then { x with bl := { x.bl with start := x.test k len } } else x
  | _ => x

end Sys2Proof.Machine
end

