-- ==== Sys2Proof/Machine/Trig.lean ====
section
/-!
DEFINITION. The sine tables of the current references (04 R115, R116, 05 R152), an entry being the sine to 16 bits with its last bit free;
and the functions of the estimators (04 R120, R129, 05 R151, R159, R161), each its value to 2^-40 with the last place free
(notes/assumptions/1.md).
-/

namespace Sys2Proof.Machine

/-- sin(90° × j / 1024) by its power series, to better than 10^-9. -/
def sinSeries (j : Nat) : Rat :=
  let x : Rat := Config.pi / 2 * j / 1024
  x - x ^ 3 / 6 + x ^ 5 / 120 - x ^ 7 / 5040 + x ^ 9 / 362880 - x ^ 11 / 39916800 + x ^ 13 / 6227020800

/-- An entry of a sine table: exact at 0° and 90°, else the 16-bit value nearest to the sine; of two that lie within 5/8 of a step, either, as
`e` tells.  So each entry lies within 0.00096 % of its sine, and with interpolation even the reference that is the sum of two others keeps
the bound of 0.002 % (04 R116, 05 R152). -/
def sinEntry (j : Nat) (e : Fin 2) : Rat :=
  if j = 0 then 0 else if 1024 ≤ j then 1
  else
    let x := sinSeries j * 65536
    let n := x.floor; let f := x - n
    (if f < 3/8 then n else if 5/8 < f then n + 1 else n + (e.val : Int) : Int) / 65536

/-- Entry j of the quarter-sine table (04 R116). -/
def quarterSin (j : Nat) : Rat := sinEntry j (Config.quarterErr j)

/-- sin and cos of an angle in ac, by the quarter-sine table (04 R115). -/
def stepperSinCos (phi : Nat) : Rat × Rat :=
  let phi := phi % 2 ^ 24
  let q := phi / 2 ^ 22; let j := phi / 2 ^ 12 % 1024; let f : Rat := (phi % 2 ^ 12 : Nat) / 4096
  let s := quarterSin j + f * (quarterSin (j + 1) - quarterSin j)
  let c := quarterSin (1024 - j) + f * (quarterSin (1024 - j - 1) - quarterSin (1024 - j))
  match q with
  | 0 => (s, c) | 1 => (c, -s) | 2 => (-s, -c) | _ => (-c, s)

/-- Entry j of the commutation table of 4096 entries (05 R152). -/
def commSin (j : Nat) : Rat :=
  let j := j % 4096
  let q := j / 1024; let i := j % 1024; let e := Config.sineErr j
  match q with
  | 0 => sinEntry i e | 1 => sinEntry (1024 - i) e | 2 => - sinEntry i e | _ => - sinEntry (1024 - i) e

/-- cos of an angle in ac by the commutation table (05 R152). -/
def commCos (angle : Int) : Rat :=
  let x := ((angle + 4194304) % 2 ^ 24).toNat
  let j := x / 4096; let f : Rat := (x % 4096 : Nat) / 4096
  commSin j + f * (commSin (j + 1) - commSin j)

/-! ### Functions of degrees and roots -/

/-- A value to within 2^-40, its last place free. -/
def lastBits (v : Rat) (e : Fin 3) : Rat := ((v * 2 ^ 40).floor + (e.val : Int) - 1 : Int) / 2 ^ 40

/-- The terms of a series: each is the one before times `-x²` over the two next factors. -/
def seriesFrom (x2 : Rat) : Nat → Nat → Rat → Rat
  | 0, _, t => t
  | k + 1, n, t => t + seriesFrom x2 k (n + 2) (- t * x2 / ((n + 1) * (n + 2) : Nat))

/-- sin and cos of an angle of at most 45°, in rad. -/
def sinSmall (x : Rat) : Rat := seriesFrom (x * x) 8 1 x
def cosSmall (x : Rat) : Rat := seriesFrom (x * x) 8 0 1

/-- sin of degrees. -/
def sinDeg (d : Rat) : Rat :=
  let k := (d / 90 + 1/2).floor
  let x : Rat := (((d - 90 * k) * 2 ^ 48).floor : Int) / 2 ^ 48 * Config.pi / 180
  if d = 90 * k then (match k % 4 with | 1 => 1 | 3 => -1 | _ => 0)
  else lastBits (match k % 4 with | 0 => sinSmall x | 1 => cosSmall x | 2 => - sinSmall x | _ => - cosSmall x) (Config.lastPlace 0 d 0)

/-- cos of degrees. -/
def cosDeg (d : Rat) : Rat := sinDeg (d + 90)

/-- The integer root, bit by bit from bit `k - 1`. -/
def rootFrom (n : Nat) : Nat → Nat → Nat
  | 0, r => r
  | k + 1, r => rootFrom n k (if (r + 2 ^ k) * (r + 2 ^ k) ≤ n then r + 2 ^ k else r)

/-- The square root of a value that is not negative. -/
def sqrtOf (x : Rat) : Rat :=
  if x = 0 then 0 else lastBits ((rootFrom (x * 2 ^ 100).floor.toNat 160 0 : Nat) / 2 ^ 50) (Config.lastPlace 1 x 0)

/-- atan of a value of at most one half, in rad: its series. -/
def atanSmall (u : Rat) : Rat :=
  (List.range 24).foldl (fun s k => s + (if k % 2 = 0 then u ^ (2 * k + 1) else - u ^ (2 * k + 1)) / (2 * k + 1 : Nat)) 0

/-- atan of 0 to 1, in degrees. -/
def atanDeg (t : Rat) : Rat :=
  let u : Rat := (((t - 1/2) / (1 + t / 2) * 2 ^ 60).floor : Int) / 2 ^ 60
  (atanSmall (1/2) + atanSmall u) * 180 / Config.pi

/-- atan2(y, x) in degrees, above −180 to 180. -/
def atan2Deg (y x : Rat) : Rat :=
  let ay := if y < 0 then -y else y; let ax := if x < 0 then -x else x
  if ax = 0 && ay = 0 then Config.noDirection else
  let first : Rat := if ay = 0 then 0 else if ax = 0 then 90 else
    lastBits (if ay ≤ ax then atanDeg (ay / ax) else 90 - atanDeg (ax / ay)) (Config.lastPlace 2 y x)
  let up := if x < 0 then 180 - first else first
  if y < 0 then -up else up

end Sys2Proof.Machine
end

