-- ==== Sys2Proof/Machine/Current.lean ====
section
/-!
DEFINITION. What a cell regulates once per PWM period: gains (04 R112, 05 R153), references (04 R115, 05 R152), voltage
commands (04 R108 to R111, 05 R153), the thermal accumulators (04 R114), the sampling windows (05 R155, R156), Hall
interpolation (05 R146) and the sums of the estimators (04 R120, 05 R161).
-/

namespace Sys2Proof.Machine

/-! ### Gains -/

/-- The bandwidth in Hz (04 R112). -/
def Axis.bandwidth (a : Axis) : Rat :=
  let bw := if a.brushless then a.r AX.BL_CFG.BW else a.r AX.CUR_CTRL.BW
  min (bw * 100 : Rat) (20000000 / (a.per : Rat))

/-- With `AUTO` = 1 the gain register holds the derived values (04 R112, 05 R153). -/
def Axis.deriveGains (a : Axis) : Axis :=
  match a.model with
  | none => a
  | some m =>
    let w := 2 * Config.pi * a.bandwidth
    let kp := roundAway (w * m.l / 1000)
    let ki := roundAway (w * m.rw * a.tPwm / 100000000)
    if a.brushless then
      if a.b AX.BL_CFG.AUTO then (a.set AX.BL_GAIN.KP (AX.BL_GAIN.KP.sat kp)).set AX.BL_GAIN.KI (AX.BL_GAIN.KI.sat ki) else a
    else if a.b AX.CUR_CTRL.AUTO then
      (a.set AX.CUR_GAIN.KP (AX.CUR_GAIN.KP.sat kp)).set AX.CUR_GAIN.KI (AX.CUR_GAIN.KI.sat ki)
    else a

/-! ### The stepper's current vector -/

/-- The correction at an angle: offset in ac, trim in 1/32768 (04 R117). -/
def Axis.correction (a : Axis) (phi : Nat) : Int × Rat :=
  let i := phi % 2 ^ 24 / 65536; let f : Rat := (phi % 65536 : Nat) / 65536
  let p := (a.corr[i]?).getD ((0 : Int), (0 : Int)); let q := (a.corr[(i + 1) % 256]?).getD ((0 : Int), (0 : Int))
  (roundAway (16 * ((p.1 : Rat) + f * ((q.1 : Rat) - p.1))), (p.2 : Rat) + f * ((q.2 : Rat) - p.2))

/-- The vector's angle, ac, and amplitude, mA (04 R115). -/
def Axis.vector (a : Axis) : Nat × Rat :=
  let n := a.r AX.ST_CFG.MSTEP_RES
  let step : Int := 2 ^ (22 - n)
  let pq := a.mot.pCmd / step * step
  let amp := a.reg.amp
  let (pq, amp) := if a.b AX.ST_CFG.CORR_EN then
      let (off, s) := a.correction (pq % 2 ^ 24).toNat
      (pq + off, amp * (1 + s / 32768))
    else (pq, amp)
  ((pq % 2 ^ 24).toNat, max 0 (min amp a.ceiling))

/-- Mechanical speed in rad/s of a speed in ac per tick (04 R119, 05 R143). -/
def Axis.mech (a : Axis) (w : Rat) : Rat := w * 25000 * 2 * Config.pi / (2 ^ 24 * max 1 a.poles)

/-- One phase's PI step (04 R110, R111): the integrator and the command, µV, before the limit. -/
def piStep (kp ki : Nat) (hold : Bool) (integ e ff : Rat) : Rat × Rat :=
  let i := if hold then integ else integ + ki * e / 10
  (i, kp * e + i + ff)

/-- The motor model as the regulator uses it: a winding measurement needs none (08 R280). -/
def Axis.regModel (a : Axis) : Option MotorModel :=
  if a.reg.test.isSome then some (a.model.getD ⟨0, 0, 0, 0, 0, 0⟩) else a.model

/-- The stepper's voltage commands of a period (04 R108 to R111), or those of a winding measurement (08 R280). -/
def Cell.stepperRegulate (c : Cell) (vLink : Nat) (hold : Bool) : Cell :=
  match c.ax.regModel with
  | none => c
  | some m =>
    let a := c.ax
    let r := a.reg
    let (phi, amp) := a.vector
    let (s, co) := stepperSinCos phi
    let ref : Vector Rat 2 := match r.test with
      | some (0, i) => #v[(i : Rat), 0]
      | some (_, i) => #v[0, (i : Rat)]
      | none => #v[amp * co, amp * s]
    let th : Rat := if a.b AX.ST_STAT.LA_VALID then r.rotor else phi - a.r AX.LA_CFG.LA_TARGET * 2 ^ 24 / 360
    let (st, ct) := stepperSinCos (roundAway th % 2 ^ 24).toNat
    let w := a.mech r.omega
    let eff : Vector Rat 2 := if a.b AX.CUR_CTRL.FF_EN then #v[- m.ke * w * st, m.ke * w * ct] else #v[0, 0]
    let lim : Rat := (98 / 100) * vLink * 1000
    let kp := a.r AX.CUR_GAIN.KP; let ki := a.r AX.CUR_GAIN.KI
    let one := fun (x : Fin 2) =>
      let e := ref.get x - r.meas.get ⟨x.val, by omega⟩
      let ff := m.rw * ref.get x + m.l * (ref.get x - r.ref.get ⟨x.val, by omega⟩) * 1000000 / max 1 a.tPwm + eff.get x
      let (i, v) := piStep kp ki hold (r.integ.get x) e ff
      let atLim := decide (lim < Rat.abs' v)
      let i := if atLim && sgn e = sgn v then r.integ.get x else i
      (i, max (-lim) (min lim v), atLim)
    let (iA, vA, sA) := one 0
    let (iB, vB, sB) := one 1
    let sat := sA || sB
    let fr := fun (v : Rat) => if vLink = 0 then (1/2 : Rat) else v / (2 * vLink * 1000)
    let c := c.raiseIf (sat && !r.sat) AX.ST_EVT.V_SAT
    let c := c.setB AX.ST_STAT.V_SAT sat
    c.reg fun r => { r with
      integ := #v[iA, iB], sat := sat, ref := #v[ref.get 0, ref.get 1, 0], voltNext := #v[vA, vB, 0]
      next := #v[1/2 - fr vA, 1/2 + fr vA, 1/2 - fr vB, 1/2 + fr vB] }

/-! ### Brushless -/

/-- E_s of R145. -/
def sectorEdge (s : Nat) : Int := (s * 2 ^ 24 + 3) / 6

/-- The sector offset (05 R145). -/
def Axis.hallOfs (a : Axis) : Int := 256 * a.rS AX.BL_HALL.HALL_OFS

/-- Hall interpolation at a boundary (05 R146): the angle, ac, and the speed, ac per tick; `cyc` in 25 MHz cycles. -/
def Axis.interpolate (a : Axis) (cyc : Nat) : Rat × Rat :=
  match a.bl.sector with
  | none => (a.bl.theta, 0)
  | some s =>
    let lo := sectorEdge s.val; let hi := sectorEdge (s.val + 1)
    let centre : Rat := (lo + hi : Int) / 2 + a.hallOfs
    match a.bl.edge with
    | none => (centre, 0)
    | some (ang, t, dir) =>
      let dt := cyc - t
      if a.bl.edges < 2 || 2500000 ≤ dt then (centre, 0)
      else
        let w : Rat := dir * (2 ^ 24 / 6 : Rat) / max 1 (max a.bl.dtLast dt)
        let th : Rat := ang + w * dt
        -- held at least 1 ac short of the sector's far edge
        let far : Rat := if 0 < dir then ang + (hi - lo : Int) - 1 else ang - (hi - lo : Int) + 1
        (if 0 < dir then min th far else max th far, w * 1000)

/-- P_meas takes the value congruent to an angle that lies nearest to the present one (05 R143, R159). -/
def nearest (p : Int) (ang : Int) : Int :=
  let d := (ang - p) % 2 ^ 24
  if d < 2 ^ 23 then p + d else p + d - 2 ^ 24

/-- The field advance, degrees, at a speed (05 R151): the valid points of the table, interpolated. -/
def Axis.advance (a : Axis) (w : Rat) : Rat :=
  let pts : List (Nat × Nat) := (List.range 16).map fun i => (a.r (AX.BL_ADV0.SPD.skip i), a.r (AX.BL_ADV0.ADV.skip i))
  let w := Rat.abs' w / 64
  let rec go : List (Nat × Nat) → Nat × Nat → Rat
    | [], p => p.2
    | q :: rest, p =>
      if q.1 < p.1 then p.2
      else if w ≤ q.1 then
        (if q.1 = p.1 then q.2 else p.2 + (w - p.1) * ((q.2 : Rat) - p.2) / (q.1 - p.1))
      else go rest q
  match pts with
  | [] => 0
  | p :: rest => (if w ≤ p.1 then (p.2 : Rat) else go rest p) / 100

/-- The angle of the current vector, ac (05 R151, R160). -/
def Axis.driveAngle (a : Axis) : Rat :=
  if a.bl.posSrc = .grip then a.bl.gripAngle + (a.mot.pCmd - a.bl.gripPos : Int)
  else a.bl.theta + sgn a.bl.torque * (90 + a.advance a.bl.omega) * 2 ^ 24 / 360

/-- The references of a winding measurement on a brushless axis (08 R280): U–V, V–W or W–U. -/
def pairRef (p : Fin 3) (i : Rat) : Vector Rat 3 :=
  match p with | 0 => #v[i, -i, 0] | 1 => #v[0, i, -i] | 2 => #v[-i, 0, i]

/-- The brushless voltage commands of a period (05 R152, R153), or those of a winding measurement (08 R280). -/
def Cell.blRegulate (c : Cell) (vLink : Nat) (hold : Bool) : Cell :=
  match c.ax.regModel with
  | none => c
  | some m =>
    let a := c.ax
    let r := a.reg
    let th := roundAway a.driveAngle
    let rU := r.amp * commCos th; let rV := r.amp * commCos (th - 5592405)
    let ref : Vector Rat 3 := match r.test with
      | some (p, i) => pairRef p i
      | none => #v[rU, rV, -rU - rV]
    let w := a.mech a.bl.omega
    let rot := roundAway a.bl.theta
    let sinOf := fun (x : Int) => commCos (x - 4194304)
    let eff : Vector Rat 2 := if a.b AX.BL_CFG.FF_EN then
      #v[- m.ke * w * sinOf rot, - m.ke * w * sinOf (rot - 5592405)] else #v[0, 0]
    let kp := a.r AX.BL_GAIN.KP; let ki := a.r AX.BL_GAIN.KI
    let one := fun (x : Fin 2) =>
      let y : Fin 3 := ⟨x.val, by omega⟩
      let e := ref.get y - r.meas.get y
      piStep kp ki hold (r.integ.get x) e
        (m.rw * ref.get y + m.l * (ref.get y - r.ref.get y) * 1000000 / max 1 a.tPwm + eff.get x)
    let (iU, vU) := one 0
    let (iV, vV) := one 1
    let vW := -vU - vV
    let hi := max vU (max vV vW); let lo := min vU (min vV vW)
    let lim : Rat := (98 / 100) * vLink * 1000
    let sat := decide (lim < hi - lo)
    let k : Rat := if sat then lim / (hi - lo) else 1
    let v0 := - (hi + lo) / 2
    let fr := fun (v : Rat) => if vLink = 0 then (1/2 : Rat) else 1/2 - k * (v + v0) / (vLink * 1000)
    let c := (c.raiseIf (sat && !r.sat) AX.BL_EVT.V_SAT).setB AX.BL_STAT.V_SAT sat
    c.reg fun r => { r with
      integ := if sat then r.integ else #v[iU, iV], sat := sat, ref := ref, voltNext := #v[k * vU, k * vV, k * vW]
      next := #v[fr vU, fr vV, fr vW, 1/2] }

/-- The sampled roles of the coming period and the edge shift (05 R155, R156), from the compare values and pulses. -/
def Cell.sampling (c : Cell) (cmp : Vector Nat 4) : Cell :=
  let a := c.ax
  let v := fun (k : Fin 3) => cmp.get ⟨k.val, by omega⟩
  -- the role with the least compare is left out, the highest of equals
  let out : Fin 3 := if v 2 ≤ v 0 && v 2 ≤ v 1 then 2 else if v 1 ≤ v 0 && v 1 ≤ v 2 then 1 else 0
  let pair : Fin 3 × Fin 3 := if out = 2 then (0, 1) else if out = 1 then (0, 2) else (1, 2)
  let (x, y) := if v pair.2 > v pair.1 then (pair.2, pair.1) else pair
  let need := 32 * a.inForce AX.BL_SAMP.T_SAMP_MIN
  let w := v y
  let full := match a.pwm.pulses.get ⟨y.val, by omega⟩ with
    | .complementary h => decide (16 * a.per ≤ h)
    | _ => false
  let s := if w < need && a.inForce AX.BL_SAMP.SHIFT_EN != 0 && !full then min (need - w) (w - a.pulseThr) else 0
  let held := decide (w + s < need) || full
  let c := if held then c.count AX.BL_CNT0.SAMP_HOLD else c
  let c := c.setB AX.BL_STAT.SHIFT (decide (0 < s))
  let c := c.pwm fun p => { p with shift := if 0 < s then some (⟨y.val, by omega⟩, s) else none }
  c.bl fun b => { b with samp := some (x, y), sampHold := held }

/-- No edge shift in the coming period (05 R156). -/
def Cell.noShift (c : Cell) : Cell :=
  (c.setB AX.BL_STAT.SHIFT false).pwm fun p => { p with shift := none }

/-- The cell does not regulate in the coming period: no command stands at its limit (04 R111, 05 R153). -/
def Cell.unregulated (c : Cell) : Cell :=
  (c.reg Reg.rested).setB (if c.ax.brushless then AX.BL_STAT.V_SAT else AX.ST_STAT.V_SAT) false

/-! ### Measured currents, heat and energy -/

/-- The phase currents that the samples of the elapsed period give (04 R108, 05 R155, R156). -/
def Axis.phaseCurrents (a : Axis) : Vector Rat 3 :=
  let s0 : Rat := a.held.get (a.sliceRole 0); let s1 : Rat := a.held.get (a.sliceRole 1)
  if a.brushless then
    match a.bl.samp with
    | none => a.reg.meas
    | some (x, y) =>
      let s1 := if a.bl.sampHold then a.reg.meas.get y else s1
      Vector.ofFn fun k => if k = x then s0 else if k = y then s1 else - (s0 + s1)
  else #v[s0, s1, 0]

/-- The limit of the accumulators, 1512 A²s in mA² ns (04 R114). -/
def i2tLimit : Int := 1512 * 10 ^ 15

/-- The thermal accumulators after a period (04 R114, 05 R154); the clamp releases when all are 0. -/
def Cell.heat (c : Cell) : Cell :=
  let a := c.ax
  let acc : Vector Int 3 := Vector.ofFn fun k =>
    max 0 (a.reg.acc.get k + (roundAway (a.reg.meas.get k * a.reg.meas.get k) - 144000000) * a.tPwm)
  let zero := acc.toList.all (· == 0)
  let clamp := a.reg.clamp && !zero
  let c := c.reg fun r => { r with acc := acc, clamp := clamp }
  let sh := fun (x : Int) => min 65535 (x / 10 ^ 14).toNat
  if a.brushless then
    (c.set AX.BL_I2T.ACC_MAX (sh (acc.toList.foldl max 0))).setB AX.BL_STAT.I2T_CLAMP clamp
  else ((c.set AX.I2T_STAT.ACC_A (sh (acc.get 0))).set AX.I2T_STAT.ACC_B (sh (acc.get 1))).setB AX.ST_STAT.I2T_CLAMP clamp

/-- The link energy of a period (07 R216): link voltage × Σ duty × leg current, drawn or returned. -/
def Cell.linkEnergy (c : Cell) (vLink : Nat) (i : Vector Int 4) : Cell :=
  let a := c.ax
  let sum : Rat := (a.roles.map fun k =>
    ((a.pwm.pulses.get k).high : Rat) / (16 * max 1 a.per) * (i.get k : Rat)).foldl (· + ·) 0
  let mJ : Rat := vLink * sum * a.tPwm / 10 ^ 12
  c.map fun a =>
    if 0 ≤ mJ then
      let t := a.eSub + mJ
      { a with eOut := a.eOut + t.floor, eSub := t - t.floor
               life := { a.life with energy := a.life.energy + t.floor } }
    else
      let t := a.rSub - mJ
      { a with eRegen := a.eRegen + t.floor, rSub := t - t.floor }

/-- The phase-to-star voltages of the elapsed period, µV (05 R161): as commanded, or, where the star point is sensed (02 R34, R67), from the commanded
voltages of the legs and the measured star point in mV. -/
def Axis.phaseVolts (a : Axis) (star : Int) : Vector Rat 3 :=
  if a.motor != .brushlessStar || !a.legs.iso.getLsbD 3 then a.reg.volt
  else Vector.ofFn fun k : Fin 3 =>
    1000 * ((a.reg.vLink : Rat) * ((a.pwm.cmd.get ⟨k.val, by omega⟩).high : Rat) / (16 * max 1 a.per) - star)

/-- The sums of the tick (04 R120, 05 R172); `on` tells that the legs switched through the elapsed period, and `volts` are its phase voltages. -/
def Cell.tickSums (c : Cell) (on : Bool) (volts : Vector Rat 3) : Cell :=
  let a := c.ax
  let add := fun (x y : Vector Rat 3) => Vector.ofFn fun k : Fin 3 => x.get k + y.get k
  let rot := roundAway a.bl.theta
  let sinOf := fun (x : Int) => commCos (x - 4194304)
  let m := a.reg.meas
  let iq : Rat := -(2/3 : Rat) * (m.get 0 * sinOf rot + m.get 1 * sinOf (rot - 5592405) + m.get 2 * sinOf (rot + 5592405))
  let c := c.reg fun r => { r with
    sumV := add r.sumV volts, sumI := add r.sumI m, periods := r.periods + 1, span := r.span + a.tPwm
    switched := r.switched && on }
  if a.brushless then c.bl fun b => { b with iq := b.iq + iq } else c

/-- The back-EMF estimate of a period (05 R161): θ_est from the elapsed period's phase voltages and currents, µV and mA, where the legs
switched; `old` are the currents measured the period before. -/
def Cell.estimatePeriod (c : Cell) (on : Bool) (volts old : Vector Rat 3) : Cell :=
  match c.ax.model with
  | none => c
  | some m =>
    let a := c.ax
    if !a.brushless || !on then c else
    let e := fun (k : Fin 3) => volts.get k - m.rw * a.reg.meas.get k
      - m.l * (a.reg.meas.get k - old.get k) * 1000000 / max 1 a.tPwm
    let ea := (2 * e 0 - e 1 - e 2) / 3; let eb := (e 1 - e 2) / sqrtOf 3
    let s := sgn (if a.bl.posSrc = .grip then a.mot.prof.v else a.bl.omega)
    c.bl fun b => { b with estTheta := (atan2Deg eb ea + (if 0 ≤ s then -90 else 90)) * 2 ^ 24 / 360 }

/-! ### Short-braking -/

/-- The low sides of a short-braking cell through the coming period (05 R165, 07 R250): off where a terminal current
exceeds the limit. -/
def Cell.brakePulses (c : Cell) (on : Bool) (i : Vector Int 4) : Cell :=
  let a := c.ax
  let lim : Int := if a.brushless then a.r AX.BL_ILIM.I_BRAKE else a.ceiling
  let chop := a.roles.any fun k => lim < (i.get k).natAbs
  let p : Pulse := if chop then .off else .complementary 0
  let c := c.pwm fun w => { w with cmd := Vector.ofFn fun k => if a.roles.contains k then p else .off
                                   carry := Vector.replicate 4 0, shift := none }
  let still := a.roles.all fun k => decide ((i.get k).natAbs < 100)
  (c.gate on).bl fun b => { b with brakeChop := chop, quiet := if still then b.quiet + a.tPwm else 0 }

end Sys2Proof.Machine
end

