-- ==== Sys2Proof/Machine/Profile.lean ====
section
/-!
DEFINITION. Profile arithmetic (06 R182 to R190, R197, R198): ramps, point-to-point moves, stops, and the exact
position, velocity and acceleration at each tick.  Velocities are in ac per tick, as exact rationals.
-/

namespace Sys2Proof.Machine

/-- Least n ≥ lo with p n, by search from `lo` within `fuel` doublings and bisection: p is monotone. -/
def leastFrom (p : Nat → Bool) (lo fuel : Nat) : Nat :=
  let rec up : Nat → Nat → Nat
    | 0, step => lo + step
    | k + 1, step => if p (lo + step) then lo + step else up k (2 * step)
  let hi := up fuel 1
  let rec bis : Nat → Nat → Nat → Nat
    | 0, _, h => h
    | k + 1, l, h => if h ≤ l then h else
        let m := (l + h) / 2
        if p m then bis k l m else bis k (m + 1) h
  if p lo then lo else bis (fuel + 1) (lo + 1) hi

/-- The tick counts n_j and n_x of a ramp of Δv under X and J (06 R183); J = 0 is no jerk limit. -/
def rampCounts (dv x j : Rat) : Nat × Nat :=
  let dv := Rat.abs' dv
  if dv = 0 || x ≤ 0 then (0, 0)
  else if j = 0 then (0, (dv / x).ceil.toNat)
  else
    let nj := min (max 1 (x / j).ceil.toNat) (leastFrom (fun n => decide (dv ≤ j * n * n)) 1 80)
    let nj := max 1 nj
    (nj, ((dv / x).ceil - (nj : Int)).toNat)

/-- The pieces of a ramp of Δv with the tick counts given (06 R183): jerk in, constant, jerk out. -/
def rampSegs (dv : Rat) (nj nx : Nat) (no : Nat × Nat × Nat) (ramp : Nat) : List Seg :=
  if dv = 0 || nj + nx = 0 then []
  else
    let pk := dv / (nj + nx : Nat)
    let j := if nj = 0 then 0 else pk / nj
    let segs := [⟨nj, 0, j, no.1, ramp⟩, ⟨nx, pk, 0, no.2.1, ramp⟩, ⟨nj, pk, -j, no.2.2, ramp⟩]
    segs.filter (·.n ≠ 0)

/-- Ticks of pieces. -/
def segTicks (l : List Seg) : Nat := l.foldl (fun n s => n + s.n) 0

/-- The limits in ac and ticks (06 R182). -/
structure Lims where
  v : Rat
  a : Rat
  d : Rat
  j : Rat

def Limits.real (l : Limits) : Lims := ⟨(l.v : Rat) / 256, (l.a : Rat) / 65536, (l.d : Rat) / 65536, (l.j : Rat) / 2 ^ 24⟩

/-- Ticks of a ramp: 2 n_j + n_x. -/
def rampTicks (dv x j : Rat) : Nat := let n := rampCounts dv x j; 2 * n.1 + n.2

/-- A point-to-point move from rest at `p` (06 R186): its pieces, and its exact peak. -/
def planMove (p t : Int) (l : Lims) : Prof :=
  let s : Rat := (t - p).natAbs; let dir : Rat := if p ≤ t then 1 else -1
  if t = p then { p := p }
  else
    let s0 := fun (x : Rat) => x * ((rampTicks x l.a l.j + rampTicks x l.d l.j : Nat) : Rat) / 2
    -- the largest grid value with S0 ≤ S, found from the first that breaks it
    let vf := (l.v * 256).floor.toNat
    let first := leastFrom (fun k => decide (vf < k) || decide (s < s0 ((k : Rat) / 256))) 1 40
    let vc : Rat := ((max 1 (min vf (first - 1)) : Nat) : Rat) / 256
    let (ja, xa) := rampCounts vc l.a l.j
    let (jd, xd) := rampCounts vc l.d l.j
    let na := 2 * ja + xa; let nd := 2 * jd + xd
    let nc := ((s - s0 vc) / vc).ceil.toNat
    let vp := dir * 2 * s / (2 * nc + na + nd : Nat)
    let up := rampSegs vp ja xa (1, 2, 3) 1
    let down := rampSegs (-vp) jd xd (5, 6, 7) 3
    { p := p, segs := up ++ (if nc = 0 then [] else [⟨nc, 0, 0, 4, 2⟩]) ++ down }

/-- A velocity ramp from v to w (06 R190): `A_MAX` when |v| grows in one direction, `D_MAX` when it shrinks, the lower
of the two when it crosses zero. -/
def velRamp (v w : Rat) (l : Lims) : List Seg :=
  let x := if 0 ≤ v * w then (if Rat.abs' v < Rat.abs' w then l.a else l.d) else min l.a l.d
  let (nj, nx) := rampCounts (w - v) x l.j
  rampSegs (w - v) nj nx (0, 0, 0) 1

/-- The state at the next tick (06 R184): position, velocity and acceleration advance by the piece in progress. -/
def Prof.tick (x : Prof) : Prof :=
  match x.segs with
  | [] => { x with p := x.p + x.v, a := 0 }
  | s :: rest =>
    let a := s.a0
    let p := x.p + x.v + a / 2 + s.j / 6
    let v := x.v + a + s.j / 2
    let a' := a + s.j
    if s.n ≤ 1 then
      { p := p, v := v
        a := (match rest with | r :: _ => r.a0 | [] => 0), segs := rest }
    else { p := p, v := v, a := a', segs := { s with n := s.n - 1, a0 := a' } :: rest }

/-- The profile is at rest. -/
def Prof.atRest (x : Prof) : Bool := x.segs = [] && x.v = 0 && x.a = 0

/-- The state after the pieces given. -/
def Prof.after (x : Prof) (l : List Seg) : Rat × Rat :=
  l.foldl (fun (v, _) s => (v + s.a0 * s.n + s.j * s.n * s.n / 2, s.a0 + s.j * s.n)) (x.v, x.a)

/-- The pieces of the ramp in progress. -/
def Prof.rampNow (x : Prof) : List Seg :=
  match x.segs with
  | [] => []
  | s :: _ => x.segs.takeWhile (·.ramp = s.ramp)

/-- The final ramp to 0 of a stop; ramp 9 marks it. -/
def stopRamp (v d j : Rat) : List Seg :=
  let (nj, nx) := rampCounts v d j
  rampSegs (-v) nj nx (0, 0, 0) 9

/-- Step 1 of a stop (06 R197): a goes to zero at constant jerk over n1 ticks; with J = 0 at once. -/
def endAccel (x : Prof) (j : Rat) : List Seg × Rat :=
  if x.a = 0 || j = 0 then ([], x.v)
  else
    let n1 := max 1 (Rat.abs' x.a / j).ceil.toNat
    ([⟨n1, x.a, - x.a / n1, 0, 8⟩], x.v + x.a * n1 / 2)

/-- Where a replaces D, as 06 R197 ends a stop without a limit. -/
def cut (x : Prof) : Prof := { p := x.p }

/-- `STOP` from (v, a) (06 R197).  `d` and `j` are `D_MAX` and `JERK` in force, `qd` `QS_DEC`.  Where v is 0 while a is not, a is taken to have
the sign of v: step 1 brings it to 0 first (notes/assumptions/139.md). -/
def Prof.planStop (x : Prof) (d j qd : Rat) : Prof :=
  let d := if d = 0 then qd else d
  if d = 0 then cut x
  else if x.a = 0 || 0 < x.a * x.v || x.v = 0 then
    let (s1, v1) := endAccel x j
    { x with a := (if s1 = [] then 0 else x.a), segs := s1 ++ stopRamp v1 d j }
  else
    -- a opposes v: the ramp in progress runs on
    let keep := x.rampNow.map fun s => { s with ramp := 7 }
    let (v1, _) := x.after keep
    { x with segs := keep ++ (if 0 < v1 * x.v then stopRamp v1 d j else []) }

/-- `QSTOP` from (v, a) (06 R198). -/
def Prof.planQstop (x : Prof) (qd qj : Rat) : Prof :=
  if qd = 0 then cut x
  else
    let (s1, v1) := endAccel x qj
    { x with a := (if s1 = [] then 0 else x.a), segs := s1 ++ (if 0 ≤ v1 * x.v then stopRamp v1 qd qj else []) }

/-- A tick of a stop ramp: where v would reach zero or change sign before the final ramp, v and a become 0 and the stop
ends (06 R197, R198). -/
def Prof.stopTick (x : Prof) : Prof :=
  let y := x.tick
  let final := match x.segs with | s :: _ => s.ramp = 9 | [] => true
  if !final && (y.v = 0 || y.v * x.v < 0) && x.v != 0 then { p := y.p } else y

/-- Field values of a speed and an acceleration, rounded towards zero (06 R184). -/
def vField (v : Rat) : Int := toZero (v * 256)
def aField (a : Rat) : Int := toZero (a * 65536)

/-- All ticks of a profile from its start: (v, a) at each, in field units, the start tick first.  `fuel` bounds it. -/
def Prof.trace (stop : Bool) : Nat → Prof → List (Int × Int)
  | 0, _ => []
  | k + 1, x =>
    if x.atRest || x.segs = [] then [(vField x.v, aField x.a)]
    else (vField x.v, aField x.a) :: Prof.trace stop k (if stop then x.stopTick else x.tick)

end Sys2Proof.Machine
end

