-- ==== Sys2Proof/Machine/MotionOps.lean ====
section
/-!
DEFINITION. The operations of an axis's profile generator: limits and zones (06 R182, R191 to R193), starts
(06 R186 to R190), stops (06 R197 to R200), the ends of moves (06 R180), short-braking (05 R165 to R167, 07 R249),
masters' followers (06 R201 to R212) and holding at the estimate (04 R125, R132, R133).
-/

namespace Sys2Proof.Machine

/-! ### Limits and zones -/

def Axis.limits (a : Axis) : Limits :=
  ⟨a.r AX.MOT_VMAX.V_MAX, a.r AX.MOT_AMAX.A_MAX, a.r AX.MOT_DMAX.D_MAX, a.r AX.MOT_JERK.JERK⟩

/-- A carried limit: 0 means the register, any other value is capped at it (06 R182). -/
def carried (x reg : Nat) : Nat := if x = 0 then reg else min x reg

/-- The limits of a move: carried values capped at the axis's registers (06 R182). -/
def Axis.moveLimits (a : Axis) (l : Limits) : Limits :=
  let r := a.limits
  ⟨carried l.v r.v, carried l.a r.a, carried l.d r.d, carried l.j r.j⟩

/-- The limits scaled by q/64 (07 R238). -/
def Limits.scale (l : Limits) (q : Nat) : Limits :=
  let h := fun (x : Nat) => max 1 x
  if q = 64 then l else ⟨h (l.v * q / 64), h (l.a * q ^ 2 / 4096), h (l.d * q ^ 2 / 4096), h (l.j * q ^ 3 / 262144)⟩

/-- The entry that governs a position (06 R191, 04 R131): the last that starts at or below it, else the first. -/
def zoneAt {α : Type} (start : α → Int) : List α → Int → Option α
  | [], _ => none
  | z :: rest, p => some (rest.foldl (fun best e => if start e ≤ p then e else best) z)

/-- The lowest speed limit of the zones that a path enters, both ends included (06 R192). -/
def pathLimit (zs : List SpeedZone) (p t : Int) : Nat :=
  let lo := min p t; let hi := max p t
  let at_ := fun (x : Int) => (zoneAt SpeedZone.start zs x).elim 0xFFFFFFFF (·.vLim)
  let inner := (zs.filter fun z => decide (lo < z.start) && decide (z.start ≤ hi)).map (·.vLim)
  inner.foldl min (min (at_ lo) (at_ hi))

def noLimit (v : Nat) (x : Nat) : Nat := if v = 0xFFFFFFFF then x else min x v

/-- A speed under the limit of the zone that holds P_cmd (06 R192). -/
def Axis.zoned (a : Axis) (v : Nat) : Nat := noLimit ((zoneAt SpeedZone.start a.speedZones a.mot.pCmd).elim 0xFFFFFFFF (·.vLim)) v

/-- The limits of a ramp planned now (06 R185): the registers as they stand, what the command carried and its factor. -/
def Axis.rampLimits (a : Axis) : Limits :=
  match a.mot.job with
  | some j => (a.moveLimits j.move.ask).scale j.move.q
  | none => a.limits

/-! ### The curve of the plan -/

/-- The energy of a swath, mJ: a draw rounded up, a return towards zero (07 R229). -/
def energy (sum : Int) : Int := -((-sum) / 25000000)

/-- The sum of a swath. -/
def Curve.sumAt (c : Curve) (s : Nat) : Int := if s < c.start then 0 else (c.sums[s - c.start]?).getD (25 * c.claim)

/-! ### Ends -/

/-- `LIFE_CYC` counts a profile that ends with `MOVE_DONE` or `STOP_DONE` after travelling at least 2^24 ac (10 R350). -/
def Cell.lifeCycle (c : Cell) : Cell :=
  match c.ax.mot.job with
  | some j => if 2 ^ 24 ≤ j.travel then c.count AX.LIFE_CYC.CYC else c
  | none => c

/-- A sensorless axis ends its move in grip at the ceiling, for 200 ms (05 R162): from the vector's angle, or the estimator's. -/
def Cell.endGrip (c : Cell) : Cell :=
  let a := c.ax
  if a.brushless && (a.bl.posSrc == .grip || a.bl.posSrc == .estimator) then
    (c.bl fun b => { b with gripEnd := true, posSrc := .grip, gripPos := a.mot.pCmd
                            gripAngle := if a.bl.posSrc = .grip then a.driveAngle else a.bl.theta }).reg
      fun r => { r with rest := .ceiling 5000 }
  else c

/-- The axis comes to rest in HOLD after a profile or stop ramp: ceiling for 20 ms (04 R123), which its claim counts from the swath after that
of the last moving tick, the tick before this (07 R231), grip for 200 ms where
sensorless (05 R162), orphan hold (10 R341). -/
def Cell.toHold (c : Cell) : Cell :=
  let a := c.ax
  let c := c.mot fun m => { m with
    mode := .hold, prof := { p := m.pCmd }, stop := .none, engage := none, camWait := none, depth := 0, vTarget := 0
    rest := some ⟨20, if c.tick = 1 then c.now else c.now + 1⟩ }
  let c := (c.reg fun r => { r with rest := .ceiling 500 }).endGrip
  if !a.mot.orphan then c
  else if a.mot.fallowAfter then c.goFallow
  else (c.setB AX.RST_STAT.ORPHAN true).mot fun m => { m with orphan := false }

def Axis.jobSeq (a : Axis) : List Byte := a.mot.job.elim [] fun j => leBytes 2 j.move.seq

/-- A profile reaches its end (06 R180): the queued move, if any, takes its place, from the tick after, or its delay later (06 R189). -/
def Cell.moveDone (c : Cell) : Cell :=
  let seq := c.ax.jobSeq
  let q := c.ax.mot.queued
  match q with
  | none =>
    -- a `FALLOW` that left the last ramp as it was acts at rest (06 R200)
    let fallow := c.ax.mot.fallowAfter
    let c := ((c.raise AX.MOT_EVT.MOVE_DONE).count AX.MOT_CNT.MOVES).event 0x01 seq
    let c := (c.lifeCycle.endJob true).toHold
    if fallow then c.goFallow else c
  | some w =>
    -- a start tick right after the last: the queued move starts without MOVE_DONE
    let direct := c.ax.mot.mode = .position && w.dly = 0
    let c := if direct then c else ((c.raise AX.MOT_EVT.MOVE_DONE).count AX.MOT_CNT.MOVES).event 0x01 seq
    let c := ((if direct then c else c.lifeCycle).endJob true)
    let c := if direct then c.mot fun m => { m with prof := { p := m.pCmd } } else c.toHold
    let t := c.tickNo + 25 * w.dly
    c.mot fun m => { m with queued := none, waiting := some { w with queued := true, swath := t / 25, tick := t % 25 } }

/-- A stop ramp reaches rest (06 R180, R200). -/
def Cell.stopDone (c : Cell) : Cell :=
  let seq := c.ax.jobSeq
  let fallow := c.ax.mot.fallowAfter
  let c := (c.raise AX.MOT_EVT.STOP_DONE).event 0x02 seq
  let c := (c.lifeCycle.endJob false).toHold
  if fallow then c.goFallow else c

/-! ### Short-braking -/

/-- Short-braking begins (05 R165, R166, 07 R250): the profile is given up and the axis shows PARK. -/
def Cell.startBrake (c : Cell) (why : Brake) : Cell :=
  let c := c.mot fun m => { m with
    mode := .park, prof := { p := m.pCmd }, stop := .none, engage := none, camWait := none, depth := 0 }
  let c := c.bl fun b => { b with brake := why, gripEnd := false, start := .none, catchWait := false, brakeN := 0, quiet := 0 }
  if c.ax.brushless then (c.setB AX.BL_STAT.BRAKE true).setB AX.BL_STAT.PARK false else c

/-- The rotor has come to rest on the parking brake (05 R167); without Halls the position is uncertain (05 R163). -/
def Cell.park (c : Cell) : Cell :=
  let unc := c.ax.bl.posSrc != .halls
  let c := c.mot fun m => { m with mode := .park, prof := { p := m.pCmd }, stop := .none }
  let c := (c.setB AX.BL_STAT.BRAKE false).setB AX.BL_STAT.PARK true
  let c := c.bl fun b => { b with brake := .park, gripEnd := false, posSrc := if unc then .none else b.posSrc }
  if unc then c.setUnc else c

/-- A rotor that a stop has braked to rest parks, or goes fallow where a `FALLOW` asked it (05 R167, 06 R200). -/
def Cell.restAfterStop (c : Cell) : Cell := if c.ax.mot.fallowAfter then c.goFallow else c.park

/-! ### Stops -/

/-- What a stop discards: the queue, a waiting move, a waiting or engaged cam (06 R189, R211). -/
def Cell.discard (c : Cell) : Cell := c.dropWaiting false

/-- The stop limits as they stand (06 R185): D_MAX, JERK, QS_DEC, QS_JERK. -/
def Axis.stopLims (a : Axis) : Rat × Rat × Rat × Rat :=
  (a.r AX.MOT_DMAX.D_MAX / 65536, a.r AX.MOT_JERK.JERK / 2 ^ 24, a.r AX.MOT_QSDEC.QS_DEC / 65536,
   a.r AX.MOT_QSJERK.QS_JERK / 2 ^ 24)

/-- The stop ramp from a state. -/
def Axis.stopFromProf (a : Axis) (p : Prof) (k : StopKind) : Prof :=
  let (d, j, qd, qj) := a.stopLims
  if k = .qstop then p.planQstop qd qj else p.planStop d j qd

/-- The mode follows a master or the step input. -/
def Mode.follows (m : Mode) : Bool := m == .gear || m == .cam || m == .followStep

/-- The stop ramp from the axis's state: a follower's from its velocity (06 R212; notes/assumptions/105.md). -/
def Axis.stopProf (a : Axis) (k : StopKind) : Prof :=
  a.stopFromProf (if a.mot.mode.follows then { a.mot.prof with a := 0 } else a.mot.prof) k

/-- A stop ramp begins; one that is at rest already has ended. -/
def Cell.stopAlong (c : Cell) (k : StopKind) (p : Prof) : Cell :=
  let c := c.mot fun x => { x with mode := .stopping, stop := k, prof := p, engage := none, camWait := none, depth := 0 }
  if p.atRest then c.stopDone else c

/-- A stop event on an axis whose stop ramp runs: of two on one tick the quicker ramp governs (06 R213); else a `QSTOP` overrides a `STOP`
(R198). -/
def Cell.stopAgain (c : Cell) (k : StopKind) : Cell :=
  let m := c.ax.mot
  match m.stopFrom with
  | some (t, p) =>
    if t = c.tickNo then
      if segTicks (c.ax.stopFromProf p k).segs < segTicks (c.ax.stopFromProf p m.stop).segs then c.stopAlong k (c.ax.stopFromProf p k) else c
    else if m.stop = .stop && k = .qstop then
      (c.mot fun x => { x with stopFrom := some (c.tickNo, m.prof) }).stopAlong k (c.ax.stopProf k)
    else c
  | none => c

/-- An event of R199 that keeps the ramp (06 R197, R198); an axis flagged `SB_STOP` short-brakes instead (07 R249). -/
def Cell.stop (c : Cell) (k : StopKind) : Cell :=
  let a := c.ax
  let m := a.mot
  if !m.mode.running then c.discard
  else if a.brushless && (a.bl.start != .none || a.bl.brake != .none || a.bl.catchWait) then
    -- before the start: catch braking runs on to its target, an observation or test ends here (05 R177)
    let c := c.discard.homeFail.mot fun x => { x with left := true }
    match a.bl.brake with
    | .catching _ r => c.bl fun b => { b with brake := .catching true r }
    | _ => (c.mot fun x => { x with mode := .stopping, prof := { p := x.pCmd } })
  else
    let c := c.discard
    if a.b AX.LEDG_AX.SB_STOP then
      let c := if m.mode = .stopping then c else ((c.homeFail.count AX.MOT_CNT.STOPS).mot fun x => { x with left := true })
      let c := c.endJob false
      if a.brushless then c.startBrake .park else c.setUnc.startBrake .sb82
    else if m.mode = .stopping then c.stopAgain k
    -- segments 5 to 7 are the stop ramp of a `STOP`; a `QSTOP` on the same tick governs where it is the quicker (06 R213)
    else if m.mode = .position && k = .stop && decide (5 ≤ a.seg) then c.mot fun x => { x with stopFrom := some (c.tickNo, m.prof) }
    else if m.mode = .position && m.stopFrom.elim false (fun f => decide (f.1 = c.tickNo))
        && decide (segTicks m.prof.segs ≤ segTicks (a.stopFromProf m.prof k).segs) then c
    else
      let c := ((c.homeFail.count AX.MOT_CNT.STOPS).mot fun x => { x with left := true })
      let from_ := if m.mode.follows then { m.prof with a := 0 } else m.prof
      (c.mot fun x => { x with stopFrom := some (c.tickNo, from_) }).stopAlong k (a.stopFromProf from_ k)

/-- `FALLOW` (06 R180, R200); the row's condition has been judged. -/
def Cell.fallowCmd (c : Cell) : Cell :=
  let m := c.ax.mot
  if m.mode = .fallow || m.mode = .unconfigured then c.discard
  else if m.mode = .hold || m.mode = .park || (m.mode.running && !c.ax.moving && m.prof.segs = [] && m.mode != .stopping) then
    (c.homeFail.discard.endJob false).goFallow
  else if m.mode = .stopping then c.mot fun x => { x with fallowAfter := true }
  else
    let c := c.stop .stop
    if c.ax.mot.mode = .stopping then c.mot fun x => { x with fallowAfter := true }
    else if c.ax.mot.mode = .hold then c.goFallow else c.mot fun x => { x with fallowAfter := true }

/-- What `STOP` and `QSTOP` do, or put off until short-circuit handling completes (02 R69). -/
def Cell.orDefer (c : Cell) (d : Deferred) (f : Cell → Cell) : Cell :=
  match c.ax.legs.phase with
  | .hold | .isoWait _ | .tapWait _ => c.legs fun l => { l with deferred := l.deferred ++ [d] }
  | _ => f c

def Cell.runDeferred (c : Cell) : Cell :=
  if c.ax.legs.phase = .normal then
    let ds := c.ax.legs.deferred
    ds.foldl (fun c d => match d with
      | .stop => c.stop .stop | .qstop => c.stop .qstop | .fallow => c.fallowCmd)
      (c.legs fun l => { l with deferred := [] })
  else c

/-! ### Holding at the estimate -/

/-- The estimated rotor position of a stepper (04 R125): P_cmd − δ × 2^24 / 360 × sign(ω). -/
def Axis.estimate (a : Axis) : Int :=
  if a.brushless then a.mot.pMeas
  else roundAway ((a.mot.pCmd : Rat) - a.reg.delta * 2 ^ 24 / 360 * sgn a.reg.omega)

/-- P_cmd is redefined without motion (04 R119); the vector of a rotor in grip does not turn with it (05 R160). -/
def Cell.redefine (c : Cell) (p : Int) : Cell :=
  let d := p - c.ax.mot.pCmd
  ((c.mot fun m => { m with pCmd := p, pMeas := if c.ax.brushless then m.pMeas else p, prof := { p := p }, lastP := p }).reg
    fun r => { r with redefined := true, omega := 0 }).bl fun b => { b with gripPos := b.gripPos + d }

/-- P_meas takes a value, and goes on from it as θ turns (05 R143, R164, 10 R345). -/
def Cell.setMeas (c : Cell) (p : Int) : Cell :=
  let d := p - c.ax.mot.pMeas
  (c.mot fun m => { m with pMeas := p }).bl fun b => { b with posOfs := b.posOfs + d, posFrac := 0 }

/-- Steps 2 to 4 of R125: the profile is abandoned, and the axis holds at the estimate at the ceiling for 200 ms
(04 R125, R132). -/
def Cell.holdAtEstimate (c : Cell) : Cell :=
  let p := c.ax.estimate
  let c := (c.discard.homeFail.endJob false).count AX.MOT_CNT.STOPS
  let c := c.endGrip.redefine p
  let c := c.mot fun m => { m with
    mode := .hold, stop := .none, fallowAfter := false, engage := none, camWait := none, depth := 0, left := true
    rest := some ⟨200, c.now + 1⟩ }
  c.reg fun r => { r with amp := c.ax.ceiling, rest := .ceiling 4999 }

/-! ### Starts -/

/-- Flags that the next accepted motion command clears, and the parking that it ends (04 R125, R132, 05 R167, R168). -/
def Cell.accepted (c : Cell) : Cell :=
  -- the registers of the other motor type keep their values (14 R456)
  let c := if c.ax.brushless then (c.setB AX.BL_STAT.OBST false).setB AX.BL_STAT.LOCKED false
    else (c.setB AX.ST_STAT.STALLED false).setB AX.ST_STAT.OBST false
  c.mot fun m => { m with fallowAfter := false, orphan := false }

/-- A move that has an end of its own. -/
def MoveK.ends : MoveK → Bool
  | .abs _ | .rel _ => true
  | _ => false

/-- A move begins: the net energy from which it counts, and, of one without an end, the prediction of its first swath (07 R255). -/
def Axis.newJob (a : Axis) (now : Nat) (m : Move) : Job :=
  ⟨if m.kind.ends then m else { m with ePred := energy (a.plan.sumAt now) }, a.eNet, 0⟩

/-- A position profile from the state: from rest under 06 R186; from a speed, a ramp to rest first, which the spec leaves
open (05 R170). -/
def positionProf (p t : Int) (v : Rat) (l : Lims) : Prof :=
  if v = 0 then planMove p t l
  else
    let r := (velRamp v 0 l).map fun s => { s with no := 1 }
    let stop : Prof := { p := p, v := v, segs := r }
    let run := r.foldl (fun (q, v, _) s =>
      (q + v * s.n + s.a0 * s.n * s.n / 2 + s.j * s.n * s.n * s.n / 6, v + s.a0 * s.n + s.j * s.n * s.n / 2, (0 : Rat))) ((p : Rat), v, (0 : Rat))
    -- the rest of the way, from the exact point of rest to the target
    let p1 := roundAway run.1
    { stop with segs := r ++ (planMove p1 t l).segs.map fun s => { s with ramp := s.ramp + 20 } }

/-- The masters' positions at the tick (06 R203). -/
abbrev MasterPos := MasterRef → Option Int

/-! ### Cam tables -/

def CamTable.pt (t : CamTable) (i : Nat) : Int × Int := (t.points[i]?.bind id).getD (0, 0)

/-- The neighbour of a point, wrapping in a periodic table (06 R209). -/
def CamTable.nb (t : CamTable) (i : Int) : Option (Rat × Rat) :=
  let n : Int := t.count
  let first := t.pt 0; let last := t.pt (t.count - 1)
  let pm : Rat := last.1 - first.1; let ps : Rat := last.2 - first.2
  if 0 ≤ i && i < n then let p := t.pt i.toNat; some (p.1, p.2)
  else if !t.periodic then none
  else if i < 0 then let p := t.pt (n - 1 + i).toNat; some ((p.1 : Rat) - pm, (p.2 : Rat) - ps)
  else let p := t.pt (i - n + 1).toNat; some ((p.1 : Rat) + pm, (p.2 : Rat) + ps)

/-- The slope of a point (06 R208). -/
def CamTable.slope (t : CamTable) (i : Nat) : Rat :=
  let p := (t.nb i).getD (0, 0)
  let sl := fun (a b : Rat × Rat) => (b.2 - a.2) / (b.1 - a.1)
  match t.nb ((i : Int) - 1), t.nb ((i : Int) + 1) with
  | none, some q => sl p q
  | some o, none => sl o p
  | some o, some q =>
    if t.interp = 1 then sl o q
    else
      let h0 := p.1 - o.1; let h1 := q.1 - p.1
      let d0 := sl o p; let d1 := sl p q
      if d0 * d1 ≤ 0 then 0
      else 3 * (h0 + h1) / ((2 * h1 + h0) / d0 + (h1 + 2 * h0) / d1)
  | none, none => 0

/-- f(x), exactly (06 R208, R209). -/
def CamTable.eval (t : CamTable) (x : Rat) : Rat :=
  let first := t.pt 0; let last := t.pt (t.count - 1)
  let pm : Rat := last.1 - first.1; let ps : Rat := last.2 - first.2
  let k : Rat := if t.periodic && 0 < pm then ((x - first.1) / pm).floor else 0
  let x := x - k * pm
  if x ≤ first.1 then first.2 + k * ps
  else if (last.1 : Rat) ≤ x then last.2 + k * ps
  else
    let i := (((List.range t.count).filter fun i => decide (((t.pt i).1 : Rat) ≤ x)).getLast?).getD 0
    let p := t.pt i; let q := t.pt (i + 1)
    let h : Rat := q.1 - p.1; let u := (x - p.1) / h
    let f := if t.interp = 0 then p.2 + u * (q.2 - p.2)
      else (2 * u ^ 3 - 3 * u ^ 2 + 1) * p.2 + (u ^ 3 - 2 * u ^ 2 + u) * h * t.slope i
        + (-2 * u ^ 3 + 3 * u ^ 2) * q.2 + (u ^ 3 - u ^ 2) * h * t.slope (i + 1)
    f + k * ps

/-- The table's check when every point has been written (06 R207). -/
def CamTable.good (t : CamTable) : Bool :=
  (List.range (t.count - 1)).all fun i => decide ((t.pt i).1 < (t.pt (i + 1)).1)

/-- The output of an engaged cam at a master position, S_o apart (06 R210). -/
def camOut (t : CamTable) (cp : CamP) (m : Int) : Rat :=
  t.eval (((m - cp.mOrg : Int) : Rat) / 2 ^ t.mShift) * 2 ^ t.sShift

/-- An engagement whose master falls at its tick is refused: the axis stays in HOLD.  Its reply has been sent with the admission (06 R211,
R213): a cam's refusal reaches the owner as one at its engage tick does, a gear's as a master lost (notes/assumptions/106.md). -/
def Cell.engageFails (c : Cell) : Cell :=
  let told := match c.ax.mot.camWait, c.ax.mot.job with
    | some (cp, seq, _), _ => (c.raise AX.MOT_EVT.CAM_REFUSED).event 0x18 (BitVec.ofNat 8 cp.table.val :: leBytes 2 seq)
    | none, some ⟨⟨.cam cp, _, _, _, seq, _, _, _, _⟩, _, _⟩ =>
      (c.raise AX.MOT_EVT.CAM_REFUSED).event 0x18 (BitVec.ofNat 8 cp.table.val :: leBytes 2 seq)
    | none, _ => (c.raise AX.MOT_EVT.MASTER_LOST).event 0x0D
  told.mot fun x => { x with
    mode := .hold, prof := { p := x.pCmd }, job := none, camWait := none, engage := none, depth := 0, rest := some ⟨0, c.now + 1⟩ }

/-- The engage tick of a cam (06 R210, R211): engaged, or refused beyond the tolerance. -/
def Cell.engageCam (c : Cell) (t : CamTable) (cp : CamP) (m : Int) (seq : Nat) (depth : Nat) : Cell :=
  let f := camOut t cp m
  let p := c.ax.mot.pCmd
  let c := c.mot fun x => { x with camWait := none }
  if cp.abs && decide ((cp.tol : Rat) < Rat.abs' ((cp.sOrg : Rat) + f - p)) then
    ((c.raise AX.MOT_EVT.CAM_REFUSED).event 0x18 (BitVec.ofNat 8 cp.table.val :: leBytes 2 seq)).mot
      fun x => { x with mode := .hold, job := none }
  else
    let s : Rat := if cp.abs then cp.sOrg else p - f
    (c.raise AX.MOT_EVT.CAM_ENGAGED).mot fun x => { x with
      mode := .cam, depth := depth
      engage := some ⟨.cam cp, m, p, s, false, false, none⟩ }

/-- g(d) of a gear (06 R201, R202). -/
def gearOut (num : Int) (den e : Nat) (d : Int) : Rat :=
  let k : Rat := (num : Rat) / den
  if d.natAbs < e then k * d * d.natAbs / (2 * e) else k * ((d : Rat) - sgn d * (e : Rat) / 2)

/-- A velocity mode plans its next ramp (06 R190, R192): towards the target, limited by the speed limit and the zone as they stand; at the
target, down to the limit of a slower zone that P_cmd has entered. -/
def Cell.planRamp (c : Cell) (l : Limits) : Cell :=
  let m := c.ax.mot
  let lim : Int := c.ax.zoned (if m.prof.v * 256 = (m.vTarget : Rat) then m.vTarget.natAbs else l.v)
  let t : Int := max (-lim) (min lim m.vTarget)
  c.mot fun x => { x with vTarget := t, prof := { x.prof with segs := velRamp x.prof.v ((t : Rat) / 256) l.real } }

/-- The profile, or the mode, of a move that starts now, from velocity `v` (06 R186 to R190, R201, R210).  A start under 20 ms after a ramp
that stays at rest keeps the count at the ceiling (04 R123), and the locked-rotor window opens anew (05 R168).  A `MOVE_VEL` without HOME
during a homing run does not end the run: its timeout and the count of its home torque begin anew (notes/assumptions/132.md). -/
def Cell.begin (c : Cell) (j : Job) (v : Rat) (mp : MasterPos) (tab : Fin 64 → CamTable) (depth : Nat) : Cell :=
  let a := c.ax
  let m := j.move
  let c := c.mot fun x => { x with job := some j, group := m.group, rest := none, stop := .none, stopFrom := none, waiting := none, left := false, homeTicks := 0 }
  let c := (c.reg fun r => { r with rest := (match r.rest with | .ceiling n => .ceiling n | _ => .slew), homeN := 0 }).bl
    fun b => { b with lockTicks := 0 }
  let go := fun (t : Int) =>
    let l := { m.lim with v := noLimit (pathLimit a.speedZones a.mot.pCmd t) m.lim.v }
    let p := positionProf a.mot.pCmd t v l.real
    let c := c.mot fun x => { x with mode := .position, prof := p }
    if t = a.mot.pCmd && v = 0 then c.moveDone else c
  -- a ramp in progress completes first (06 R190)
  let pr : Prof := if a.mot.mode.running && a.mot.prof.segs != [] then a.mot.prof else { p := a.mot.pCmd, v := v }
  let velo := fun (mode : Mode) (t : Int) (home : Bool) =>
    let c := c.mot fun x => { x with mode := mode, vTarget := t, prof := pr }
    let c := if pr.segs = [] then c.planRamp m.lim else c
    if home then (if a.brushless then c.setB AX.BL_STAT.HOMING true else c.setB AX.ST_STAT.HOMING true) else c
  match m.kind with
  | .abs t => go t
  | .rel d => go (a.mot.pCmd + d)
  | .vel w home => velo (if a.mot.mode = .localSpeed then .localSpeed else .velocity) w home
  -- the target is the input's: its ramp is planned at the next tick, which reads it (05 R174)
  | .localSpeed vmax =>
    let lim : Int := 256 * vmax
    (c.mot fun x => { x with mode := .localSpeed, prof := pr
                             vTarget := if a.mot.mode = .localSpeed then max (-lim) (min lim x.vTarget) else 0 }).bl fun b => { b with lsVmax := vmax }
  | .followStep => c.mot fun x => { x with mode := .followStep, stepTgt := x.pCmd }
  | .gear r num den e =>
    (match mp r with
     | none => c.engageFails
     | some mo => (c.raise AX.MOT_EVT.CAM_ENGAGED).mot fun x => { x with
         mode := .gear, depth := depth, engage := some ⟨.gear r num den e, mo, x.pCmd, 0, e = 0, false, none⟩ })
  | .cam cp =>
    (match mp cp.master with
     | none => c.engageFails
     | some mo =>
       if cp.startAt.isSome then c.mot fun x => { x with mode := .hold, camWait := some (cp, m.seq, m.plane) }
       else c.engageCam (tab cp.table) cp mo m.seq depth)
  | .hold => (c.mot fun x => { x with mode := .hold, prof := { p := x.pCmd }, job := none, rest := some ⟨0, c.now + 1⟩ }).reg
      fun r => { r with rest := .slew }

/-! ### One tick of the profile -/

/-- A travel limit (06 R193): a tick that passes a limit away from the range starts a QSTOP. -/
def Cell.travelLimit (c : Cell) (old : Int) : Cell :=
  let a := c.ax
  let p := a.mot.pCmd
  let pass := (decide (old ≤ a.mot.posMax) && decide (a.mot.posMax < p)) || (decide (a.mot.posMin ≤ old) && decide (p < a.mot.posMin))
  if a.b AX.MOT_CFG.LIM_EN && !a.posUnc && a.mot.mode.running && a.mot.mode != .position && pass then
    (c.raise AX.MOT_EVT.LIMIT).stop .qstop
  else c

/-- P_cmd moves to a value; travel and the shown speed follow (06 R184). -/
def Cell.putPos (c : Cell) (p : Int) : Cell :=
  c.mot fun m => { m with
    pCmd := p, pMeas := if c.ax.brushless then m.pMeas else p
    job := m.job.map fun j => { j with travel := j.travel + (p - m.pCmd).natAbs } }

/-- A brushless axis before its start: it observes, tests, or catches (05 R157, R169, R170). -/
def Axis.starting (a : Axis) : Bool := a.bl.start != .none || a.bl.catchWait

/-- A follower's profile state: its velocity is its last step, its acceleration the change of that (notes/assumptions/105.md). -/
def Prof.followed (x : Prof) (p old : Int) : Prof := { p := p, v := p - old, a := ((p - old : Int) : Rat) - x.v }

/-- The profile generator's tick (06 R184, R190), followers apart. -/
def Cell.profileTick (c : Cell) : Cell :=
  let old := c.ax.mot.pCmd
  -- 05 R169, R170: an axis that observes, tests or catches has not started
  if c.ax.starting && c.ax.mot.mode != .stopping then c else
  match c.ax.mot.mode with
  | .position =>
    let p := c.ax.mot.prof
    if p.segs = [] then c
    else
      let p := p.tick
      let c := (c.mot fun m => { m with prof := p }).putPos (roundAway p.p)
      if p.segs = [] then c.moveDone else c
  | .velocity | .localSpeed =>
    -- a new ramp starts at the tick after the one in progress has ended (06 R190), under the limits in force (R185)
    let cruise := c.ax.mot.prof.segs = []
    let p := c.ax.mot.prof.tick
    let c := (c.mot fun m => { m with prof := p }).putPos (roundAway p.p)
    let c := c.travelLimit old
    let c := if cruise && (c.ax.mot.mode = .velocity || c.ax.mot.mode = .localSpeed) then c.planRamp c.ax.rampLimits else c
    if c.ax.mot.mode = .velocity && c.ax.mot.vTarget = 0 && c.ax.mot.prof.atRest then c.moveDone else c
  | .followStep =>
    -- P_cmd has moved at the period boundaries of the tick (04 R138)
    let old := c.ax.mot.lastP
    (c.mot fun m => { m with prof := m.prof.followed m.pCmd old }).travelLimit old
  | .stopping =>
    if c.ax.bl.start != .none || c.ax.bl.brake != .none then c
    else
      let p := c.ax.mot.prof.stopTick
      let c := (c.mot fun m => { m with prof := p }).putPos (roundAway p.p)
      let c := c.travelLimit old
      if c.ax.mot.mode = .stopping && c.ax.mot.prof.atRest then c.stopDone else c
  | _ => c

/-- A follower's P_cmd at the tick (06 R201 to R203, R208 to R210, R212). -/
def Cell.followTick (c : Cell) (mp : MasterPos) (tab : Fin 64 → CamTable) : Cell :=
  match c.ax.mot.engage with
  | none => c
  | some e =>
    let ref := match e.kind with | .gear r .. => some r | .cam cp => some cp.master | _ => none
    match ref.bind mp with
    | none => c
    | some m =>
      let old := c.ax.mot.pCmd
      let (p, full, ended) := match e.kind with
        | .gear _ num den ed =>
          let d := m - e.mOrg
          (roundAway ((e.pOrg : Rat) + gearOut num den ed d), e.full || decide (ed ≤ d.natAbs), false)
        | .cam cp =>
          let t := tab cp.table
          let x : Rat := ((m - cp.mOrg : Int) : Rat) / 2 ^ t.mShift
          (roundAway (e.sOrg + camOut t cp m), false, e.ended || (!t.periodic && decide (((t.pt (t.count - 1)).1 : Rat) < x)))
        | _ => (old, false, false)
      let endNow := ended && !e.ended
      let c := c.mot fun y => { y with
        engage := some { e with full := full, ended := ended }
        prof := y.prof.followed p old }
      let c := c.putPos p
      let c := c.raiseIf endNow AX.MOT_EVT.CAM_END
      let off := endNow && (match e.kind with | .cam cp => cp.autoOff | _ => false)
      let c := if off then c.stop .stop else c
      let c := if c.ax.mot.mode.running && decide ((c.ax.r AX.MOT_VMAX.V_MAX : Rat) / 256 < Rat.abs' (p - old)) && c.ax.mot.mode != .stopping
        then (c.raise AX.MOT_EVT.FOLLOW_OVR).stop .stop else c
      c.travelLimit old

/-- FOLLOW_STEP at a period boundary (04 R138): P_cmd moves towards the step target by at most the maximum electrical
speed, 2^24 × 500 × T_PWM ac. -/
def Cell.stepFollow (c : Cell) : Cell :=
  if c.ax.mot.mode != .followStep || c.ax.starting then c else
  let m := c.ax.mot
  let mx : Int := (2 ^ 24 * 500 * (c.ax.tPwm : Int)) / 10 ^ 9
  let d := m.stepTgt - m.pCmd
  c.putPos (m.pCmd + max (-mx) (min mx d))

/-- What the tick shows: ω of R119, `MOT_VCMD`, `MOT_ACMD`, and the hours of R350. -/
def Cell.showTick (c : Cell) : Cell :=
  let m := c.ax.mot
  let w := if c.ax.reg.redefined then 0 else m.pCmd - m.lastP
  let c := (c.reg fun r => { r with omega := w, redefined := false }).mot fun x => { x with lastP := x.pCmd }
  let c := (c.setS AX.MOT_VCMD.V_CMD (vField c.ax.mot.prof.v)).setS AX.MOT_ACMD.A_CMD (aField c.ax.mot.prof.a)
  if m.mode.enabled then
    let t := c.ax.life.onTicks + 1
    if t = 90000000 then (c.count AX.LIFE_H.H).map fun a => { a with life := { a.life with onTicks := 0 } }
    else c.map fun a => { a with life := { a.life with onTicks := t } }
  else c

end Sys2Proof.Machine
end

