-- ==== Sys2Proof/Machine/StepperOps.lean ====
section
/-!
DEFINITION. The stepper's motion tick (04 R119 to R132) and what ends a run: stall, obstacle, home (04 R125, R132 to
R134), and the step input (04 R136 to R139).
-/

namespace Sys2Proof.Machine

/-- An angle in degrees wrapped to −180 to +180. -/
def wrapDeg (x : Rat) : Rat := x - 360 * ((x + 180) / 360).floor

/-- The mean back-EMF of a phase over the tick, µV (04 R120). -/
def Axis.backEmf (a : Axis) (rw l : Nat) (k : Fin 3) : Rat :=
  let r := a.reg
  let n : Rat := max 1 r.periods
  r.sumV.get k / n - rw * (r.sumI.get k / n) - l * (r.meas.get k - r.startI.get k) * 1000000 / max 1 r.span

/-- The load angle estimate of a tick is valid (04 R119). -/
def Axis.laValid (a : Axis) : Bool :=
  decide (a.r AX.LA_GAIN.V_EST * 16 ≤ a.reg.omega.natAbs) && a.reg.switched && a.reg.periods != 0 && decide (0 < a.reg.amp)
    && a.legsFree && a.model.isSome && a.mot.mode.enabled

/-- The load torque, mN·m, from the motor's torque in the direction of travel (04 R129, 05 R172). -/
def Axis.loadTorque (a : Axis) (tq : Rat) (s : Int) (w : Rat) : Int :=
  match a.model with
  | none => 0
  | some m =>
    let al : Rat := a.mot.prof.a * 625000000 * 2 * Config.pi / (2 ^ 24 * max 1 a.poles)
    roundAway (tq - s * m.j * al / 10000 - m.tc - m.b * Rat.abs' (a.mech w) / 1000)

/-- The limit of the force zone that holds P_cmd, for a direction: none where there is no table, no limit, or detection
is off (04 R131). -/
def Axis.forceLimit (a : Axis) (s : Int) : Option Nat :=
  match zoneAt ForceZone.start a.forceZones a.mot.pCmd with
  | none => none
  | some z =>
    let l := if s < 0 then z.limNeg else z.limPos
    if z.off || l = 0xFFFF then none else some l

/-- The counts of the obstacle and home tests on a valid tick (04 R132, R133, 05 R171). -/
def Cell.forceCounts (c : Cell) (f : Int) (s : Int) (en : Bool) (homeTq : Nat) (homing : Bool) : Cell :=
  let hit := en && (c.ax.forceLimit s).elim false fun l => decide ((l : Int) < f)
  let home := homing && decide ((homeTq : Int) < f)
  c.reg fun r => { r with
    obstN := if homing then r.obstN else if hit then r.obstN + 1 else 0, obstHit := r.obstHit && (homing || hit), homeN := if home then r.homeN + 1 else 0 }

/-- The stepper's tests and estimate at a motion tick (04 R119 to R132). -/
def Cell.stepperEstimate (c : Cell) : Cell :=
  let a := c.ax
  match a.model with
  | none => c.setB AX.ST_STAT.LA_VALID false
  | some m =>
    if !a.laValid then c.setB AX.ST_STAT.LA_VALID false
    else
      let s := sgn a.reg.omega
      let eA := a.backEmf m.rw m.l 0; let eB := a.backEmf m.rw m.l 1
      let th := if 0 < s then atan2Deg (-eA) eB else atan2Deg eA (-eB)
      let phi : Rat := (a.vector.1 : Rat) * 360 / 2 ^ 24
      let raw := wrapDeg ((phi - th) * s)
      let tau := a.r AX.LA_CFG.LA_TAU
      let d := a.reg.delta + (raw - a.reg.delta) / 2 ^ tau
      let f := a.loadTorque (m.ke * a.reg.amp * sinDeg d / 1000000) s a.reg.omega
      let slip := decide (90 < Rat.abs' raw)
      let c := c.reg fun r => { r with delta := d, rotor := th * 2 ^ 24 / 360 }
      let c := ((c.setB AX.ST_STAT.LA_VALID true).setS AX.ST_STAT.LA (satS 8 (toZero d))).setS AX.ST_FORCE.F_EST (satS 32 f)
      let c := if slip then c.setUnc.raise AX.ST_EVT.POS_UNC else c
      c.forceCounts f s (a.b AX.OBST_CFG.OBST_EN) (a.r AX.HOME_CFG.HOME_TQ) (a.b AX.ST_STAT.HOMING)

/-- The amplitude at a tick (04 R122, R123). `first` is the first tick of a move from rest. -/
def Cell.adaptAmp (c : Cell) (first : Bool) : Cell :=
  let a := c.ax
  let ceil : Rat := a.ceiling
  let floor : Rat := min (a.r AX.I_LIM0.I_MIN) (a.r AX.I_LIM0.I_MAX)
  let rate : Rat := a.r AX.I_LIM1.I_RATE
  let toward := fun (t : Rat) => if rate = 0 then t else slew a.reg.amp t rate
  -- the 20 ms count from the first tick at rest, whatever moved the axis
  let rest := if a.moving then RestKind.none else if a.reg.rest = .none && a.mot.mode.enabled then .ceiling 500 else a.reg.rest
  let amp :=
    if !a.mot.mode.enabled || a.mot.mode = .park then 0
    else if a.moving then
      if first || !a.b AX.ST_CFG.ADAPT_EN then ceil
      else if a.b AX.ST_STAT.LA_VALID then
        let d : Rat := a.r AX.LA_GAIN.ADAPT_GAIN * (a.reg.delta - a.r AX.LA_CFG.LA_TARGET)
        let d := if rate = 0 then d else max (-rate) (min rate d)
        max floor (min ceil (a.reg.amp + d))
      else toward ceil
    else match rest with
      | .ceiling (_ + 1) => ceil
      | _ => toward (min (a.r AX.I_LIM1.I_HOLD) ceil)
  let rest := match rest with | .ceiling n => RestKind.ceiling (n - 1) | r => r
  let amp := min amp ceil
  (c.reg fun r => { r with amp := amp, rest := rest }).set AX.ST_STAT.I_AMP (AX.ST_STAT.I_AMP.sat (roundAway amp))

/-- The stall count, after the amplitude (04 R124, R125). -/
def Cell.stallCount (c : Cell) : Cell :=
  let a := c.ax
  if !a.b AX.ST_STAT.LA_VALID then c
  else
    let n := decide ((a.r AX.LA_CFG.STALL_ANG : Rat) < Rat.abs' a.reg.delta) && decide ((a.ceiling : Rat) ≤ a.reg.amp)
    c.reg fun r => { r with stallN := if n then r.stallN + 1 else 0 }

/-- A new tick's sums begin (04 R120). -/
def Cell.newSums (c : Cell) : Cell :=
  let z : Vector Rat 3 := Vector.replicate 3 0
  (c.reg fun r => { r with sumV := z, sumI := z, startI := r.meas, periods := 0, span := 0
                           switched := c.ax.legsFree && c.ax.enabled
                           subst := match c.ax.legs.phase with | .isoWait _ | .tapWait _ => true | _ => false }).bl fun b => { b with iq := 0 }

/-- The stepper's motion tick, after the profile's. `wasMoving` is of the tick before. -/
def Cell.stepperTick (c : Cell) (wasMoving : Bool) : Cell :=
  ((c.stepperEstimate.adaptAmp (!wasMoving && c.ax.moving)).stallCount).newSums

/-! ### Home, stall, obstacle -/

/-- The stall count has reached `STALL_N` on a tick whose estimate is valid (04 R121, R124, R125). -/
def Axis.stallCounted (a : Axis) : Bool :=
  a.b AX.ST_STAT.LA_VALID && decide (max 1 (a.r AX.LA_CFG.STALL_N) ≤ a.reg.stallN)

/-- The stall of R125 is due: the axis runs no homing, and has not declared this stall.  A count that stands from an earlier stall (R121) declares
again at the first tick that is valid and counts, once `STALLED` has cleared (notes/assumptions/133.md). -/
def Axis.stallDue (a : Axis) : Bool :=
  a.stepper && a.mot.mode.running && !a.b AX.ST_STAT.HOMING && a.stallCounted && !a.b AX.ST_STAT.STALLED

/-- The locked-rotor window has run out (05 R168). -/
def Axis.lockCounted (a : Axis) : Bool := decide (250 * max 1 (a.r AX.BL_LOCK.T_LOCK) ≤ a.bl.lockTicks)

/-- The obstacle of R132 is due (05 R171): enabled, its count complete, and this obstacle not yet declared. -/
def Axis.obstacleDue (a : Axis) : Bool :=
  let on := if a.brushless then a.b AX.BL_OBST.OBST_EN else a.b AX.OBST_CFG.OBST_EN
  let n := if a.brushless then a.r AX.BL_OBST.OBST_N else a.r AX.OBST_CFG.OBST_N
  on && decide (max 1 n ≤ a.reg.obstN) && !a.reg.obstHit

/-- The homing threshold fields of the motor type (04 R133, 05 R164). -/
def Axis.homeReached (a : Axis) : Bool :=
  if a.brushless then
    a.b AX.BL_STAT.HOMING && (decide (max 1 (a.r AX.BL_HOME.HOME_N) ≤ a.reg.homeN)
      || a.lockCounted)
  else a.b AX.ST_STAT.HOMING && (decide (max 1 (a.r AX.HOME_CFG.HOME_N) ≤ a.reg.homeN) || a.stallCounted)

/-- The home is found (04 R133, 05 R164): the profile ends without a ramp, and the estimate becomes `HOME_OFS`; a carried position no longer is
(10 R345).  A sensorless axis ends its move in grip (05 R162). -/
def Cell.homeFound (c : Cell) : Cell :=
  let a := c.ax
  let seq := a.jobSeq
  let ofs := if a.brushless then a.rS AX.BL_HOME_OFS.HOME_OFS else a.rS AX.HOME_OFS.HOME_OFS
  let c := c.discard.endJob true
  let c := (c.endGrip.redefine ofs).setB AX.RST_STAT.CARRIED false
  let c := if a.brushless then
      ((((c.setB AX.BL_STAT.HOMING false).setB AX.BL_STAT.POS_UNC false).setB AX.BL_STAT.HOMED true).raise
        AX.BL_EVT.HOME_DONE).setMeas ofs
    else (((c.setB AX.ST_STAT.HOMING false).setB AX.ST_STAT.POS_UNC false).setB AX.ST_STAT.HOMED true).raise AX.ST_EVT.HOME_DONE
  let c := c.mot fun m => { m with mode := .hold, stop := .none, rest := some ⟨0, c.now + 1⟩ }
  (c.reg fun r => { r with rest := if c.ax.bl.gripEnd then r.rest else .slew, homeN := 0 }).event 0x07 seq

/-- The reaction to an obstacle (04 R132). -/
def Cell.obstReact (c : Cell) (act : Nat) : Cell :=
  match act with
  | 0 => c
  | 1 => c.stop .stop
  | 2 => c.stop .qstop
  | _ => c.holdAtEstimate

/-! ### The step input -/

/-- The edge is of the polarity that the axis counts (04 R136, 05 R176). -/
def Axis.activeEdge (a : Axis) (rising : Bool) : Bool :=
  rising != (if a.brushless then a.b AX.BL_STEP.EDGE else a.b AX.STEP_CFG.EDGE)

/-- An active step edge in FOLLOW_STEP (04 R136 to R138, 05 R176): lost within 250 ns, discarded where the lag would
exceed one electrical revolution, else the target moves.  `dir` is the level of AUXB. -/
def Cell.stepEdge (c : Cell) (at200 : Nat) (dir : Bool) : Cell :=
  let a := c.ax
  if a.mot.mode != .followStep then c else
  let bl := a.brushless
  let lost := a.mot.lastStep.elim false fun t => decide (at200 < t + 50)
  if lost then
    if bl then (c.count AX.BL_CNT2.STEP_LOST).raise AX.BL_EVT.STEP_LOST
    else (c.count AX.STEP_CNT.STEP_LOST).raise AX.ST_EVT.STEP_LOST
  else
    let res := if bl then a.r AX.BL_STEP.STEP_RES else a.r AX.STEP_CFG.STEP_RES
    let inv := if bl then a.b AX.BL_STEP.DIR_INV else a.b AX.STEP_CFG.DIR_INV
    let d : Int := 2 ^ (22 - res)
    let t := a.mot.stepTgt + (if dir != inv then d else -d)
    let c := c.mot fun m => { m with lastStep := some at200 }
    if 2 ^ 24 < (t - a.mot.pCmd).natAbs then
      if bl then (c.count AX.BL_CNT2.STEP_OVR).raise AX.BL_EVT.STEP_OVR
      else (c.count AX.STEP_CNT.STEP_OVR).raise AX.ST_EVT.STEP_OVR
    else c.mot fun m => { m with stepTgt := t }

end Sys2Proof.Machine
end

