-- ==== Sys2Proof/Machine/BrushlessOps.lean ====
section
/-!
DEFINITION. The brushless cell above its current loop: Hall codes (05 R144 to R148), position loops (05 R149 to R151),
the estimator and grip (05 R160 to R162), short-braking and rest (05 R165 to R167), locked rotor (05 R168), catching
(05 R169, R170), force (05 R171, R172) and local speed (05 R173, R174).
-/

namespace Sys2Proof.Machine

/-- The sector of a code (05 R145), none for an invalid one. -/
def hallSector (code : BitVec 3) (dir : Bool) : Option (Fin 6) :=
  let s : Option (Fin 6) := match code.toNat with
    | 1 => some 0 | 3 => some 1 | 2 => some 2 | 6 => some 3 | 4 => some 4 | 5 => some 5 | _ => none
  if dir then s.map fun x => 5 - x else s

/-- Grip begins at an angle (05 R160, R162). -/
def Cell.grip (c : Cell) (angle : Rat) : Cell :=
  c.bl fun b => { b with posSrc := .grip, gripPos := c.ax.mot.pCmd, gripAngle := angle, bemfN := 0 }

/-- The Halls fail (05 R147, R162, R163): flags, then sensorless running or a short-brake as `HALL_MODE` says. -/
def Cell.hallFail (c : Cell) : Cell :=
  let a := c.ax
  if a.bl.hallMode = 2 || a.b AX.BL_STAT.HALL_FAIL then c else
  let c := (((c.setB AX.BL_STAT.HALL_FAIL true).raise AX.BL_EVT.HALL_FAIL).count AX.BL_CNT0.HALL_ERR).event 0x0F
  let c := c.setUnc
  let blind := fun (c : Cell) => c.bl fun b => { b with posSrc := .none }
  if !a.mot.mode.enabled then blind c
  else match a.bl.hallMode, a.bl.brake with
    -- both go fallow at the end of their braking
    | _, .locked | _, .sb82 => blind c
    -- catch braking goes on to rest; the start is then sensorless (05 R177)
    | 0, .catching st _ => (blind c).bl fun b => { b with brake := .catching st true }
    | 1, _ => (blind ((c.homeFail.dropWaiting false).endJob false)).startBrake .hallFail
    | _, .none =>
      if a.mot.mode = .hold && !a.moving then (blind c).park
      else
        let c := if a.bl.estValid && decide ((a.r AX.BL_SPEED.V_BEMF * 16 : Rat) ≤ Rat.abs' a.bl.omega) then
            c.bl fun b => { b with posSrc := .estimator }
          else c.grip a.bl.theta
        -- a homing run ends (05 R164)
        if a.b AX.BL_STAT.HOMING then c.stop .stop else c
    | _, _ => blind c

/-- The code of the Hall lines (05 R144). -/
def HallIn.lines (x : HallIn) : BitVec 3 := BitVec.ofNat 3 (4 * Bool.bit x.h3 + 2 * Bool.bit x.h2 + Bool.bit x.h1)

/-- The sensor supply has gone: the Halls fail, and the position is uncertain (05 R147, R163). -/
def Cell.supplyFails (c : Cell) : Cell := if c.ax.brushless then c.hallFail.setUnc else c

/-- The filter has accepted a code (05 R144). -/
def Axis.hallStood (a : Axis) (x : HallIn) : Bool := decide (a.r AX.BL_HALL.HALL_FLT ≤ x.stood)

/-- An accepted Hall code (05 R144 to R148) at a 25 MHz cycle.  The edges of R146 count from the first accepted code, a skip or a reversal, and
never afresh from the start of a move (notes/assumptions/136.md). -/
def Cell.hallCode (c : Cell) (code : BitVec 3) (cyc : Nat) : Cell :=
  let a := c.ax
  if !a.brushless || !a.bl.sensorSupply then c
  -- 05 R147: what stands at a later reset
  else if a.b AX.BL_STAT.HALL_FAIL || a.bl.hallMode = 2 then c.bl fun b => { b with sector := hallSector code a.bl.hallDir } else
  match hallSector code a.bl.hallDir with
  | none => (c.bl fun b => { b with sector := none }).hallFail
  | some s =>
    let ofs := a.hallOfs
    let src := fun (b : Bl) => if b.posSrc = .none && !a.mot.mode.enabled then { b with posSrc := .halls } else b
    match a.bl.sector with
    | none =>
      let th : Rat := (sectorEdge s.val + sectorEdge (s.val + 1) : Int) / 2 + ofs
      (c.bl fun b => src { b with sector := some s, theta := th, edge := none, edges := 0 }).mot
        fun m => { m with pMeas := nearest m.pMeas (roundAway th + a.bl.posOfs) }
    | some o =>
      let d : Nat := (s.val + 6 - o.val) % 6
      if d = 0 then c
      else if d = 1 || d = 5 then
        let dir : Int := if d = 1 then 1 else -1
        let ang : Int := (if d = 1 then sectorEdge (o.val + 1) else sectorEdge o.val) + ofs
        let same := a.bl.edge.elim false fun e => e.2.2 = dir
        let t0 := a.bl.edge.elim cyc fun e => e.2.1
        let p := nearest a.mot.pMeas (ang + a.bl.posOfs)
        (c.bl fun b => src { b with
          sector := some s, theta := (ang % 2 ^ 24 : Int), edge := some ((ang % 2 ^ 24).toNat, cyc, dir)
          dtLast := if same then cyc - t0 else 0, edges := if same then b.edges + 1 else 1, lockTicks := 0 }).mot
            fun m => { m with pMeas := p }
      else
        let skips := (a.bl.skips.filter fun t => cyc < t + 2500000) ++ [cyc]
        let th : Rat := (sectorEdge s.val + sectorEdge (s.val + 1) : Int) / 2 + ofs
        let c := (c.raise AX.BL_EVT.HALL_SKIP).count AX.BL_CNT0.HALL_ERR
        let c := (c.bl fun b => { b with sector := some s, theta := th, edge := none, edges := 0, skips := skips, lockTicks := 0 }).mot
          fun m => { m with pMeas := nearest m.pMeas (roundAway th + a.bl.posOfs) }
        if 3 ≤ skips.length then c.hallFail else c

/-! ### Loops -/

/-- Torque limit of the integrator, mN·m (05 R149). -/
def Axis.intLimit (a : Axis) : Rat :=
  a.model.elim 0 fun m => 3 / 2 * m.ke * a.r AX.BL_ILIM.I_MAX / 1000000

/-- The position and velocity loops of a tick (05 R149, R151). -/
def Cell.posLoops (c : Cell) : Cell :=
  match c.ax.model with
  | none => c
  | some m =>
    let a := c.ax
    let rad := fun (x : Rat) => x * 2 * Config.pi / (2 ^ 24 * max 1 a.poles)
    let ep := rad (a.mot.pCmd - a.mot.pMeas : Int)
    let wc := a.mech a.mot.prof.v
    let al := rad (a.mot.prof.a * 625000000)
    let wref := wc + (a.r AX.BL_PLOOP.KPP : Rat) / 10 * ep
    let ev := wref - a.mech a.bl.omega
    let lim := a.intLimit
    let vi := if a.reg.sat then a.bl.vInt
      else max (-lim) (min lim (a.bl.vInt + a.r AX.BL_VLOOP.KVI * ev * 40 / 1000000))
    let t := m.j * al / 10000 + m.tc * sgn wc + m.b * wc / 1000 + a.r AX.BL_VLOOP.KVP * ev + vi
    let adv := a.advance a.bl.omega
    let i := Rat.abs' t * 1000000 / (3 / 2 * m.ke * cosDeg adv)
    (c.bl fun b => { b with vInt := vi, torque := t }).reg fun r => { r with amp := max 0 (min i a.ceiling) }

/-- The estimate of a tick (05 R161): its speed is the change of θ_est since the tick before, and a change of its sector is a commutation event
(R168).  Valid ticks in grip count while they are consecutive; through a substitution the count stands still (R177). -/
def Cell.estimate (c : Cell) : Cell :=
  let a := c.ax
  let dth := wrapDeg ((a.bl.estTheta - a.bl.estLast) * 360 / 2 ^ 24) * 2 ^ 24 / 360
  let valid := a.model.isSome && a.reg.switched && a.reg.periods != 0 && a.legsFree && a.enabled
    && decide ((a.r AX.BL_SPEED.V_BEMF * 16 : Rat) ≤ Rat.abs' dth)
  let sect := fun (x : Rat) => (roundAway x % 2 ^ 24) * 6 / 2 ^ 24
  c.bl fun b => { b with
    estLast := b.estTheta, estOmega := dth, estValid := valid
    bemfN := if b.posSrc != .grip then b.bemfN else if valid then b.bemfN + 1 else if a.reg.subst then b.bemfN else 0
    lockHit := valid && sect b.estTheta != sect b.estLast }

/-- P_meas takes an exact value, whose part below 1 ac goes on to the next tick (05 R143). -/
def Cell.unwrapTo (c : Cell) (x : Rat) : Cell :=
  (c.mot fun m => { m with pMeas := roundAway x }).bl fun b => { b with posFrac := x - roundAway x }

/-- The measured position and speed of a tick, by the position source (05 R146, R160 to R162). -/
def Cell.blPosition (c : Cell) : Cell :=
  let a := c.ax
  match a.bl.posSrc with
  | .halls => c.mot fun m => { m with pMeas := nearest m.pMeas (roundAway a.bl.theta + a.bl.posOfs) }
  | .estimator =>
    if a.bl.estValid then
      (c.bl fun b => { b with theta := b.estTheta, omega := b.estOmega }).unwrapTo (a.mot.pMeas + a.bl.posFrac + a.bl.estOmega)
    -- from the last valid estimate
    else if a.moving then c.grip (a.bl.theta + 2 ^ 22 * sgn a.bl.torque) else c
  | .grip => c.mot fun m => { m with pMeas := m.pCmd }
  | .none => c

/-- The force estimate and its tests (05 R171, R172). -/
def Cell.blForce (c : Cell) : Cell :=
  match c.ax.model with
  | none => c
  | some m =>
    let a := c.ax
    let s : Int := if a.bl.omega != 0 then sgn a.bl.omega else if a.mot.prof.v != 0 then sgn a.mot.prof.v else 1
    let n : Rat := max 1 a.reg.periods
    let f := a.loadTorque (s * 3 / 2 * m.ke * (a.bl.iq / n) / 1000000) s a.bl.omega
    let c := c.setS AX.BL_FORCE.F_EST (satS 32 f)
    let valid := (a.bl.posSrc = .halls || (a.bl.posSrc = .estimator && a.bl.estValid)) && a.reg.switched && a.reg.periods != 0
    if valid then
      c.forceCounts f s (a.b AX.BL_OBST.OBST_EN) (a.r AX.BL_HOME.HOME_TQ) (a.b AX.BL_STAT.HOMING)
    else c

/-- The locked-rotor window (05 R168), half-open: what happens on the tick that ends it voids it no more (00 R6). -/
def Cell.lockCount (c : Cell) : Cell :=
  let a := c.ax
  let braking := a.bl.brake != .none || a.bl.start != .none || a.bl.catchWait
  let run := a.moving && !braking && a.mot.mode.running
  let high := if a.bl.posSrc = .grip then decide ((a.r AX.BL_SPEED.V_BEMF * 16 : Rat) ≤ Rat.abs' a.mot.prof.v)
    else decide ((a.r AX.BL_LOCK.LOCK_TQ : Rat) < Rat.abs' a.bl.torque)
  let ends := decide (250 * max 1 (a.r AX.BL_LOCK.T_LOCK) ≤ a.bl.lockTicks + 1)
  c.bl fun b => { b with lockTicks :=
    if !run then 0
    else if b.posSrc = .grip && !high then b.lockTicks
    else if ends || (high && !b.lockHit) then b.lockTicks + 1 else 0 }

/-- A following error (05 R150). -/
def Cell.followError (c : Cell) : Cell :=
  let a := c.ax
  let m := a.r AX.BL_PLOOP.FERR_MAX
  let loops := a.bl.posSrc = .halls || a.bl.posSrc = .estimator
  if m != 0 && loops && a.mot.mode.enabled && a.bl.brake = .none && decide (m * 65536 < (a.mot.pCmd - a.mot.pMeas).natAbs) then
    (c.raise AX.BL_EVT.FERR).stop .stop
  else c

/-- The measured position of a tick, right after P_cmd (06 R203: followers read it of the same tick). -/
def Cell.measure (c : Cell) : Cell := if c.ax.brushless then c.estimate.blPosition else c

/-- The brushless motion tick, after the positions (05 R149 to R172). -/
def Cell.blTick (c : Cell) : Cell :=
  let a := c.ax
  let idle := !a.mot.mode.enabled || a.bl.brake != .none || a.mot.mode = .park || a.bl.start != .none
  let c := if idle then c.reg fun r => { r with amp := 0 }
    else if a.bl.posSrc = .grip then c.reg fun r => { r with
      amp := a.ceiling, rest := match r.rest with | .ceiling n => .ceiling (n - 1) | x => x }
    else if a.bl.posSrc = .none then c else c.posLoops
  let c := c.bl fun b => { b with brakeN := if b.brake = .none then 0 else b.brakeN + 1 }
  let c := c.set AX.BL_DIAG.I_AMP (AX.BL_DIAG.I_AMP.sat (roundAway c.ax.reg.amp))
  ((c.blForce.lockCount).followError).newSums

/-! ### Local speed -/

/-- The speed target of a reading, 1/256 ac per tick (05 R173, R174). -/
def Axis.lsTarget (a : Axis) (x : LsIn) : Int :=
  let fr : Rat := match a.r AX.BL_LS.LS_SRC with
    | 1 => if x.period = 0 then 0 else (x.high : Rat) / x.period
    | 2 => if 2500000 ≤ x.idle then 0 else min 1 ((x.freq : Rat) / max 1 (a.r AX.BL_LS.LS_FMAX))
    | _ => (x.code.toNat : Rat) / 4095
  let dead : Rat := a.r AX.BL_LS.LS_DEAD
  let v := if fr < dead / 1000 then 0 else (a.bl.lsVmax : Rat) * (fr - dead / 1000) / (1 - dead / 1000)
  let v := min v a.bl.lsVmax
  toZero (256 * v) * (if a.b AX.BL_LS.LS_DIR then -1 else 1)

/-- The signal of a reading is valid (05 R173). -/
def Axis.lsValid (a : Axis) (x : LsIn) : Bool :=
  match a.r AX.BL_LS.LS_SRC with
  | 1 => decide (x.idle < 500000) && decide (1250 ≤ x.period) && decide (x.period ≤ 250000)
  | 2 => true
  | _ => decide (-500 ≤ x.mV) && decide (x.mV ≤ 10500)

/-- The AUXB reading of a tick (05 R174): without a valid signal the target is 0, and follows again once it is valid. -/
def Cell.lsTick (c : Cell) (x : Option LsIn) : Cell :=
  if c.ax.mot.mode != .localSpeed then c else
  match x with
  | none => c
  | some r =>
    if c.ax.lsValid r then
      (c.bl fun b => { b with lsLost := false, lsBad := false }).mot fun m => { m with vTarget := c.ax.lsTarget r }
    else (c.bl fun b => { b with lsBad := true }).mot fun m => { m with vTarget := 0 }

/-! ### Catching and starting -/

/-- The direction of a move's first motion (05 R169). -/
def MoveK.dir (k : MoveK) (p : Int) (lsNeg : Bool) : Int :=
  match k with
  | .abs t => (t - p).sign
  | .rel d => d.sign
  | .vel v _ => v.sign
  | .localSpeed _ => if lsNeg then -1 else 1
  | _ => 0

/-- The start of a move after its catch (05 R157, R170): with Halls at once, else test pulses from rest. -/
def Cell.startFromRest (c : Cell) : Cell :=
  let a := c.ax
  if a.restSrc == .halls then c.bl fun b => { b with posSrc := .halls, start := .none, catchWait := false, brake := .none }
  else (c.bl fun b => { b with posSrc := .none, start := a.testFrom 1 (a.r AX.BL_START.TP_LEN), catchWait := false, brake := .none }).setB AX.BL_STAT.INIT true

end Sys2Proof.Machine
end

