-- ==== Sys2Proof/Machine/State.lean ====
section
/-!
DEFINITION. The state of the module, as plain data: axes, register file, planes, session, ports, planner, ledger,
measurement, sides, clocks, cascade, serial memories and the queue of waiting commands; the outcomes' reasons; and the
state after reset (notes/assumptions/2.md).
-/

namespace Sys2Proof.Machine

/-- Where a reply goes: a bus port, or the rings, for a command that came through the stack's master (15 R470). -/
inductive Via
  | port (p : Fin 6)
  | ring
  deriving DecidableEq, Repr

/-- A packet that the module sends (11 R358, R360). -/
structure OutPkt where
  cls : Fin 8
  dest : Byte
  src : Byte
  major : Fin 16
  async : Bool
  reply : Bool
  sid : Byte
  seq : BitVec 16
  opc : Byte
  tgt : Byte
  body : List Byte
  deriving DecidableEq, Repr

/-- A command packet with its opcode, as the module judges it. -/
structure Req where
  h : Hdr
  opc : Nat
  body : List Byte
  via : Via
  deriving DecidableEq, Repr

/-- An accepted command (11 R366, R367; 10 R325): its request, the swath, the places that wait for its reply, the stored
reply, and whether it was committed since the last state exchange. -/
structure Acc where
  q : Req
  swath : Nat
  waits : List Via
  reply : Option OutPkt
  fresh : Bool
  deriving DecidableEq, Repr

/-- What each plane holds for itself: L, the accepted commands, latest first, the lock, and the mailbox (01 R24, 11 R366,
13 R433, R436). -/
structure PlaneSt where
  l : BitVec 16 := 0
  acc : List Acc := []
  armed : Bool := false
  sel : Word := 0
  /-- RSV bits of the plane's `UNLOCK` and `MBX.STAT`, which a bench can write (13 R439). -/
  rsvUnlock : Word := 0
  rsvStat : Word := 0
  valid : Bool := false
  unknown : Bool := false
  words : Nat := 0
  d : Vector Word 4 := Vector.replicate 4 0
  /-- A capture for this ID is due (13 R433). -/
  due : Bool := false
  deriving DecidableEq, Repr

/-- A `TAKEOVER` GRANT: the successor and the end of its window, µs (11 R378). -/
structure Grant where
  to_ : Byte
  endUs : Nat
  deriving DecidableEq, Repr

/-- The session (11 R374 to R380, 10 R340 to R342). -/
structure Session where
  sid : Byte
  owner : Byte
  version : Nat
  tmo : Nat
  events : Bool
  keyCrc : Word
  keyZero : Bool
  orphan : Bool := false
  /-- The SEQ of the `OPEN_SESSION`, or the base of the last claim, from which a slave counts (15 R469). -/
  base : BitVec 16 := 0
  evSeq : BitVec 16 := 0
  /-- The port of each pair on which the owner's last accepted frame came. -/
  last : Vector (Option (Fin 6)) 3 := Vector.replicate 3 none
  /-- Frame-end stamp from which the heartbeat window runs, µs. -/
  hbFrom : Nat
  grant : Option Grant := none
  deriving DecidableEq, Repr

/-- A packet in a transmit buffer, or waiting for it: its next frame, its place in the order of arrival, and whether a hold has ended
(12 R413, R417). -/
structure TxCur where
  pkt : OutPkt
  idx : Nat
  ord : Nat
  released : Bool
  deriving DecidableEq, Repr

structure TxBuf where
  cur : Option TxCur := none
  wait : List TxCur := []
  deriving DecidableEq, Repr

/-- The transmit side of a port: buffers, the timing in force and the one that waits for the next bus idle with the SEQ of
the reply that goes first (12 R408, R413), and the last frame sent. -/
structure Port where
  tx : Vector TxBuf 3 := Vector.replicate 3 {}
  ord : Nat := 0
  timing : Word := 0x004B500A
  timingNext : Option (Word × Option (BitVec 16)) := none
  lastTx : Option Frame := none
  deriving DecidableEq, Repr

/-- A packet being reassembled (11 R361): the header bytes of its first frame, the next index, the payload so far, and the
end of its first frame. -/
structure Reasm where
  src : Byte
  cls : Fin 8
  dest : Byte
  head : List Byte
  next : Nat
  got : List Byte
  firstEnd : Nat
  deriving DecidableEq, Repr

/-- The receive side of a port (12 R412, 11 R361): HPB, whose frames have reached reassembly; the receive queue, whose frames have not; packets
in part; and the complete commands that have still to run. -/
structure RxPort where
  hpb : List Frame := []
  queue : List Frame := []
  re : List Reasm := []
  done : List Hdr := []
  deriving DecidableEq, Repr

/-- The receive side of the six ports and the wake queue (09 R311). -/
structure Rx where
  ports : Vector RxPort 6 := Vector.replicate 6 {}
  wake : List Frame := []
  deriving DecidableEq, Repr

/-! ### Planner and ledger -/

/-- A member of a candidate: its axis, what it asks, its carried limits, and whether it goes to the queue. -/
structure Member where
  axis : Fin 48
  kind : MoveK
  lim : Limits
  queued : Bool
  deriving DecidableEq, Repr

/-- A command that waits for the planner's decision (07 R233, R234): `rank` orders groups before axes, `stopped` marks a
stop received since (07 R257, 11 R405), `group` is the group of a group move with its GRP_STOP. -/
structure Cand where
  q : Req
  query : Bool
  policy : Nat
  dly : Nat
  members : List Member
  rank : Nat
  group : Option (Nat × Bool)
  stopped : Bool
  deriving DecidableEq, Repr

/-- A group move in progress (06 R195, R196): the members, in what they have not ended. -/
structure GrpRun where
  g : Nat
  stop : Bool
  seq : Nat
  members : List (Fin 48)
  running : List (Fin 48)
  started : Bool
  deriving DecidableEq, Repr

/-- The planner's ledger copy (01 R25): voltages in 10 mV, logic power in 10 mW, temperatures in 0.01 °C, capacitances in
0.01 F and µF, the brake resistance in mΩ. -/
structure Copy where
  vLink : Nat := 0
  vSup : Vector Nat 2 := Vector.replicate 2 0
  vEs : Vector Nat 2 := Vector.replicate 2 0
  pLogic : Nat := 0
  aux : Bool := false
  temp : Vector Int 16 := Vector.replicate 16 0
  cEs : Vector Nat 2 := Vector.replicate 2 0
  rdy : Vector Bool 2 := Vector.replicate 2 false
  linkC : Nat := 1200
  rBrk : Nat := 10000
  deriving DecidableEq, Repr

/-- The planner (07): the budget registers in force (LEDG 0x0000 to 0x002C), candidates, groups, the run of past swaths
above 4,800 mJ, and the shares of a stack (15 R478). -/
structure Planner where
  copy : Copy := {}
  budget : Vector Word 12 := Vector.ofFn fun i => BitVec.ofNat 32 ((modDefs[24 + i.val]?).elim 0 (·.reset))
  cands : List Cand := []
  groups : List GrpRun := []
  overRun : Nat := 0
  /-- Measured supply energy of the present swath, mW ticks (07 R245). -/
  supply : Int := 0
  /-- Power by which the stores cover the tick's excess, mW (07 R245), and charge each store, W (07 R244). -/
  cover : Int := 0
  charge : Vector Nat 2 := Vector.replicate 2 0
  /-- The chopper counts for nothing (07 R248). -/
  chopOff : Bool := false
  /-- The link voltage, 0.1 V, at or above which the store converters hold the link, the stores feeding the logic: in reserve operation
  (07 R251). -/
  hold : Option Nat := none
  deriving DecidableEq, Repr

/-- The ledger (07 R215): `e` holds the values of IDs 1 to 14 in mJ, `sub` the parts below 1 mJ in 10^-7 mJ, `link0` E_LINK at
power-up. -/
structure Ledger where
  e : Vector Int 14 := Vector.replicate 14 0
  sub : Vector Int 14 := Vector.replicate 14 0
  link0 : Option Int := none
  deriving DecidableEq, Repr

/-! ### Measurement and calibration -/

/-- A spare slice (08 R283, R284): its use (0 free, 1 stand-in, 2 substitute, 3 interleave), what it serves, a recheck due,
a slice that it calibrates directly, and its own calibration by `CAL_SELF`, due after that item (R287). -/
structure Spare where
  use : Fin 4 := 0
  fail : Bool := false
  serves : Option (Fin 48 × Fin 2) := none
  recheck : Bool := false
  item : Option SliceId := none
  selfDue : Bool := false
  deriving DecidableEq, Repr

/-- A copy of the calibration set (08 R289): the entries that differ from their nominal values, by rising index. -/
structure CalCopy where
  ent : List (Nat × Word) := []
  ok : Bool := true
  written : Bool := false
  count : Nat := 0
  deriving DecidableEq, Repr

/-- A winding measurement (08 R280): the axis, the pair and the current in mA; the µs of the first boundary of its current; and the winding
voltage that IC7 has integrated, µV. -/
structure Winding where
  axis : Fin 48
  pair : Nat
  mA : Nat
  since : Option Nat := none
  volt : Option Int := none
  deriving DecidableEq, Repr

/-- Measurement (08). -/
structure Meas where
  spares : Vector Spare 8 := Vector.replicate 8 {}
  /-- The next item of background calibration: 0 to 95 the slices, 96 to 103 the spares. -/
  bgPos : Nat := 0
  bgRun : Bool := false
  calSelf : Option (Req × List (Fin 48)) := none
  /-- `CAL_SELF` has started: the items on its axes are over (08 R292). -/
  selfRun : Bool := false
  calWrite : Option (Req × Nat × List Word) := none
  rw : Option Winding := none
  /-- IC7 (08 R276, R278): a shot armed, by the instant of the write in 1/8 counts; the µs at which a requested shot begins to convert; and a
  rotation step running. -/
  ic7Armed : Option Nat := none
  ic7Shot : Option Nat := none
  ic7Rot : Bool := true
  /-- The places of IC4, IC6 and IC7 in their rotations, and the start of IC6's last conversion, µs (08 R274, R276). -/
  icPos : Vector Nat 8 := Vector.replicate 8 0
  ic6At : Option Nat := none
  /-- The ends of the converters' last conversions, µs of the time base (08 R278). -/
  icEnd : Vector Nat 8 := Vector.replicate 8 0
  /-- T_INT in force, 0.1 µs (08 R275). -/
  tInt : Vector Nat 8 := Vector.replicate 8 200000
  copies : Vector CalCopy 2 := Vector.replicate 2 {}
  inUse : Fin 2 := 0
  /-- Temperature reactions standing (17 R510): at the lower and at the upper threshold. -/
  hot : BitVec 16 := 0
  hotter : BitVec 16 := 0
  deriving DecidableEq, Repr

/-! ### Sides, power, clocks -/

/-- The states of a side (10 R356). -/
inductive SideSt | off | booting | standby | active | out
  deriving DecidableEq, Repr

/-- A firmware image's header (16 R493). -/
structure Image where
  ver : Nat
  xmin : Nat
  xmax : Nat
  lmin : Nat
  lmax : Nat
  pmin : Nat
  pmax : Nat
  deriving DecidableEq, Repr

/-- A control side (10 R330 to R335): `img` is the image that it runs (none: its ROM), `fit` tells that it received a full
state exchange since it joined, `sick` that its crystal failed, `fails` the swaths of its failures, `swap` a restart by
`FW_SWAP` with the bank before it. -/
structure SideS where
  st : SideSt := .booting
  img : Option Image := none
  bank : Fin 2 := 0
  fit : Bool := false
  sick : Bool := false
  fails : List Nat := []
  swap : Option (Fin 2) := none
  deriving DecidableEq, Repr

/-- A firmware load in progress (16 R494, R495): its sides, bank, length, bytes received, and blocks erased on each side. -/
structure FwLoad where
  sides : List Side
  bank : Fin 2
  total : Nat
  got : Nat
  erased : Vector Nat 2
  deriving DecidableEq, Repr

/-- A store cartridge's loops (17 R519). -/
structure Cart where
  pres : Bool := false
  rdy : Bool := false
  deriving DecidableEq, Repr

/-- Supplies, pins and the always-on domain (09 R314 to R318, 17 R504, R519 to R522). -/
structure Power where
  powered : Bool := true
  aon : Bool := true
  held : Bool := false
  supMv : Vector Nat 2 := Vector.replicate 2 0
  ovBlock : Vector Bool 2 := Vector.replicate 2 false
  revBlock : Vector Bool 2 := Vector.replicate 2 false
  auxMv : Nat := 0
  stoA : Bool := false
  stoB : Bool := false
  /-- TRIP_EXT high. -/
  ext : Bool := false
  gd : Bool := false
  /-- Straps as sampled. -/
  straps : Straps := ⟨false, false, false⟩
  okA : Bool := false
  okB : Bool := false
  cart : Vector Cart 2 := Vector.replicate 2 {}
  link : CmpState := .unarmed
  /-- A reset sequence is due (09 R318): of nRST, which samples the straps, or of `MODULE_RESET`. -/
  resetDue : Option Bool := none
  deriving DecidableEq, Repr

/-- Nap (09 R304 to R313): in nap, or waking with the source's queue open. -/
inductive NapSt | awake | napping | waking
  deriving DecidableEq, Repr

/-! ### Telemetry, log, graze -/

/-- A stream (11 R394). -/
structure Stream where
  mask : BitVec 48
  k : Nat
  port : Fin 6
  dest : Byte
  sid : Byte
  major : Fin 16
  seq : BitVec 16
  deriving DecidableEq, Repr

/-- A log entry, its index and check apart (16 R497). -/
structure LogEntry where
  swath : Nat
  tick : Nat
  cls : Nat
  code : Nat
  axis : Nat
  side : Bool
  plane : Nat
  data : List Byte
  deriving DecidableEq, Repr

/-- The event log of a side (16 R498): buffer, entries that the standby takes at the next exchange, indices. -/
structure SideLog where
  buf : List LogEntry := []
  head : Nat := 0
  tail : Nat := 0
  wrapped : Bool := false
  deriving DecidableEq, Repr

/-- Graze (10 R347 to R349): the place in the pass, a requested item, the running item, items passed over, whether one of those comes next,
and the banks that a running scrub has read, two for each side. -/
structure Graze where
  item : Nat := 0
  axis : Nat := 0
  req : Option (Fin 11 × Option (Fin 48)) := none
  run : Option (Fin 11 × Option (Fin 48)) := none
  skipped : List (Fin 11 × Option (Fin 48)) := []
  turn : Bool := false
  banks : BitVec 4 := 0
  deriving DecidableEq, Repr

/-! ### Cascade -/

/-- A module of the stack (15 R464 to R466). -/
structure StackMod where
  addr : Byte
  pos : Nat
  serial : Nat
  lmax : Nat
  master : Bool
  alt : Bool
  ready : Bool
  wrap : Bool
  heldOut : Bool
  conflict : Bool
  noSync : Bool
  missed : Nat
  deriving DecidableEq, Repr

/-- A master position of another module: the last two samples, `m2` the later, and how many there were, up to 2; the sample
that came in the present swath; and the swaths without one (06 R204, R205). -/
structure RemoteSample where
  addr : Byte
  axis : Fin 48
  src : Fin 3
  m1 : Int
  m2 : Int
  n : Nat
  got : Option Int
  missing : Nat
  deriving DecidableEq, Repr

/-- The cascade (15). -/
structure Casc where
  mods : List StackMod := []
  selfPos : Nat := 0
  formed : Bool := false
  /-- Connected to a stack without a place in it: held out, or not yet enumerated (15 R465). -/
  heldOut : Bool := false
  /-- This module joined a formed stack, and has not yet taken its session (15 R469). -/
  joined : Bool := false
  /-- It left the stack as a slave, and the silence of its master is still to come (15 R468). -/
  parted : Bool := false
  lver : Nat := 0
  lostUp : Bool := false
  lostDown : Bool := false
  /-- Hops with 1 ms of clean signal, whose wrap goes at the next frame 0 (15 R462). -/
  cleanUp : Bool := false
  cleanDown : Bool := false
  /-- Whether `OFS` is within bounds, and for how many frames it has been (15 R473). -/
  inSync : Bool := true
  okFrames : Nat := 0
  /-- What the master published last (15 R468). -/
  pub : Option Frame0 := none
  remote : List RemoteSample := []
  /-- Positions of this module's axes at tick 0 of the swath: commanded, measured, and of the step target. -/
  tick0 : Vector (Vector Int 3) 48 := Vector.replicate 48 (Vector.replicate 3 0)
  /-- Published positions of this module's axes in the last frame 1. -/
  published : List RemotePos := []
  /-- Inner packets to place on the rings in the next frame, and routed commands in flight (15 R470). -/
  place : List (Byte × List Byte) := []
  routes : List (Byte × Req) := []
  /-- A slave's replies and events for its next contribution. -/
  contrib : List (List Byte) := []
  stopMark : Option Byte := none
  /-- Summaries last received, this module's own, and the shares for the next swath and the present one (15 R477, R478). -/
  sums : List Summary := []
  own : Option Summary := none
  shareNext : Option (List Nat × List Nat) := none
  shareNow : Option (List Nat × List Nat) := none
  /-- What the last frame 7 carried for every module (07 R256, 15 R478); on the master, what it published. -/
  shares : List ShareIn := []
  /-- The master's swath number less this module's. -/
  swathOfs : Int := 0
  deriving DecidableEq, Repr

/-! ### Serial memory -/

/-- The page buffer (16 R489): device, page address, bytes written by rising offset. -/
structure PageBuf where
  dev : Fin 8
  base : Nat
  bytes : List (Nat × Byte)
  deriving DecidableEq, Repr

/-- An operation that the port polls (16 R490): a program of bytes, or an erase of a 64 KiB block, and whether a firmware
load, the log or a cam slot asked for it. -/
inductive SmOp
  | program (dev : Fin 8) (base : Nat) (bytes : List (Nat × Byte))
  | erase (dev : Fin 8) (base : Nat)
  deriving DecidableEq, Repr

/-- A phase of a frame (16 R483, R484): its bytes in the order in which they go, the lanes, and whether both edges carry data. -/
structure SerPhase where
  bytes : List Byte
  lanes : Nat
  ddr : Bool
  deriving DecidableEq, Repr

/-- A frame of a port (16 R482 to R485): the device, the clock mode and divider, the phases in order, whether the device sends the data,
and the bits of data that went over. -/
structure SerFrame where
  dev : Fin 8
  cpm : Nat
  div : Nat
  cmd : SerPhase
  addr : SerPhase
  dummy : Nat
  data : SerPhase
  read : Bool
  bits : Nat
  deriving DecidableEq, Repr

/-- A serial memory port and its devices (16): contents keyed 2^32 × device + address. -/
structure SmPort where
  mem : List Host.Cell := []
  page : Option PageBuf := none
  op : Option SmOp := none
  /-- A read frame answered busy: device, address, retries so far, and whether it fetches (16 R486). -/
  retry : Option (Fin 8 × Nat × Nat × Bool) := none
  /-- The line last read, and the prefetched line after it (16 R488). -/
  line : List Byte := []
  ahead : List Byte := []
  /-- The frames of the last access, in order (16 R483). -/
  frames : List SerFrame := []
  /-- The operation was cut by a restart or reset of the side, and is to be repeated (16 R485). -/
  cut : Bool := false
  absent : BitVec 8 := 0
  /-- What the devices of the port answer to the identification read, as far as a command has shown it (16 R488). -/
  answers : Idents := Vector.replicate 8 0
  /-- Frames of the side's boot load that have lost their strobe (16 R501): after an odd number the frame is repeated, and every second loss
  fails the check of a bank. -/
  lost : Nat := 0
  deriving DecidableEq, Repr

/-! ### The whole -/

/-- Of an axis at a state exchange: the moves that wait, the move that runs, the withdrawn marks, and the claim (10 R324). -/
structure AxPlan where
  waits : List Waiting
  job : Option Job
  lapsed : List (Nat × Plane)
  claim : Curve
  deriving DecidableEq, Repr

/-- What the standby received at the last state exchange (10 R324). -/
structure Exchange where
  sess : Option Session
  l : Vector (BitVec 16) 3
  streams : Vector (Option Stream) 4
  plans : List AxPlan
  graze : Graze
  fw : Option FwLoad
  mods : List StackMod
  deriving DecidableEq, Repr

/-- An `AXIS_RESET` that waits for the leg checks of its axes (10 R344, 02 R66): the axes of its target, the statuses given so
far, and the axes still checked. -/
structure AxReset where
  q : Req
  keep : Bool
  axes : List (Fin 48)
  sts : List (Fin 48 × Nat)
  left : List (Fin 48)
  deriving DecidableEq, Repr

/-- Everything of the module but the queue of commands. -/
structure Blk where
  ax : Vector Axis 48
  regs : ModRegs
  rx : Rx := {}
  sm : Vector SmPort 2 := Vector.replicate 2 {}
  stamps : Vector (Vector Nat 24) 16 := Vector.replicate 16 (Vector.replicate 24 0)
  planes : Vector PlaneSt 3 := Vector.replicate 3 {}
  sess : Option Session := none
  /-- When the last session was orphaned or closed, in ticks of the module, until its hold time ends (10 R341). -/
  orphanAt : Option Nat := none
  /-- The last session ID given (11 R375). -/
  lastSid : Option Byte := none
  claimFails : List Nat := []
  lockout : Option Nat := none
  ports : Vector Port 6 := Vector.replicate 6 {}
  swath : Nat := 0
  /-- Motion ticks of the swath so far: the tick in progress is the one before (00 R5). -/
  tick : Nat := 0
  plan : Planner := {}
  ledg : Ledger := {}
  meas : Meas := {}
  sides : Vector SideS 2 := Vector.replicate 2 {}
  act : Option Side := none
  /-- A planned switch that waits for the state exchange, with its command (10 R332). -/
  switchReq : Option Req := none
  fw : Option FwLoad := none
  /-- A takeover has cut a load, whose next command is answered `BUSY` (10 R329). -/
  fwCut : Bool := false
  xchg : Option Exchange := none
  pw : Power := {}
  nap : NapSt := .awake
  /-- The slow clock's cycles in nap, and of all naps those below a second (09 R310, R323). -/
  napCyc : Nat := 0
  napRest : Nat := 0
  /-- Ticks for which every condition of nap has held, and the part of a ms that the swath count carries, in 1/25 cycles of the slow clock
  at 65.536 kHz (09 R304, R310). -/
  napTicks : Nat := 0
  msRest : Nat := 0
  cams : Vector CamTable 64 := Vector.replicate 64 {}
  /-- Tables that a side has still to write to its library (16 R496). -/
  camDirty : Vector (BitVec 64) 2 := Vector.replicate 2 0
  streams : Vector (Option Stream) 4 := Vector.replicate 4 none
  logs : Vector SideLog 2 := Vector.replicate 2 {}
  /-- Entries formed since the last exchange, for the standby's log (16 R498). -/
  logFresh : List LogEntry := []
  /-- After a takeover, the swaths below this one give no stream records (10 R329). -/
  skipStreams : Nat := 0
  capTicks : Nat := 0
  resets : List AxReset := []
  graze : Graze := {}
  /-- A command needs the resource of the running item: the slice ends within 20 µs (10 R347). -/
  yieldDue : Bool := false
  casc : Casc := {}
  /-- The low 32 bits of time awake, ticks, for `GRAZE.LIFE_H` and the ages of factors. -/
  onTicks : Nat := 0
  /-- `GRAZE.LIFE_H` as the nonvolatile store holds it (10 R350). -/
  lifeHSaved : Word := 0
  onSaved : Nat := 0
  /-- Draws of free values so far: the model's own (notes/assumptions/1.md). -/
  fresh : Nat := 0
  deriving DecidableEq, Repr

/-- The state of the machine. -/
structure State where
  /-- Commands that wait, first in first out: the model's own. -/
  pending : List Instr
  blk : Blk
  deriving DecidableEq, Repr

/-- Why a step may stop. -/
inductive Fault
  /-- Raised by the supply and power-up commands for a voltage beyond the absolute maximum ratings: 17 R502 says that no rule
  holds there.  Safe: the model stops where the spec gives no effect. -/
  | beyondRatings
  deriving DecidableEq, Repr

/-- Why a command has no meaning. -/
inductive Refusal
  /-- A command whose meaning is not written.  Safe: nothing is claimed of it. -/
  | notModelled (mnemonic : String)
  deriving DecidableEq, Repr

theorem modDefs_length : modDefs.length = 356 := by decide +kernel

/-- The module's registers at their reset values (14 R448). -/
def resetRegs : ModRegs := ⟨(modDefs.map fun d => BitVec.ofNat 32 d.reset).toArray, by simp [modDefs_length]⟩

/-- Every part of the module at its reset value. -/
def Blk.reset : Blk := { ax := Vector.ofFn Axis.reset, regs := resetRegs }

/-- The module just after power-up began, in PHASE BOOT (notes/assumptions/2.md). -/
def State.reset : State := { pending := [], blk := Blk.reset }

end Sys2Proof.Machine
end

