-- ==== Sys2Proof/Machine/Flags.lean ====
section
/-!
DEFINITION. Event registers (13 R440, R441): an 8-bit sequence in bits [31:24], up to 24 flags, and a stamp for each flag.
-/

namespace Sys2Proof.Machine

/-- The flags of one event register that a list of flags names. -/
def flagMask (fs : List Flag) (ev : Nat) : Nat :=
  (fs.filter fun f => f.ev == ev).foldl (fun m f => m ||| 2 ^ f.bit) 0

/-- The word of an event register after the flags of a mask are raised at one instant (13 R440). -/
def raiseWord (w : Word) (mask : Nat) : Word :=
  BitVec.ofNat 32 (((w.toNat / 2 ^ 24 + 1) % 256) * 2 ^ 24 + ((w.toNat % 2 ^ 24) ||| (mask % 2 ^ 24)))

/-- The stamps after that raise (13 R440). -/
def raiseStamps (w : Word) (mask : Nat) (st : Vector Nat 24) : Vector Nat 24 :=
  Vector.ofFn fun i : Fin 24 => if mask.testBit i.val then (w.toNat / 2 ^ 24 + 1) % 256 else st.get i

/-- The word after several raises, from before the first, where all of them lie at one instant: `SEQ` steps once (13 R440). -/
def oneSeq (old w : Word) : Word :=
  if old.toNat / 2 ^ 24 = w.toNat / 2 ^ 24 then w else BitVec.ofNat 32 ((old.toNat / 2 ^ 24 + 1) % 256 * 2 ^ 24 + w.toNat % 2 ^ 24)

/-- The stamps after them. -/
def oneStamp (old : Word) (st0 st : Vector Nat 24) : Vector Nat 24 :=
  Vector.ofFn fun i : Fin 24 => if st.get i = st0.get i then st.get i else (old.toNat / 2 ^ 24 + 1) % 256

/-- A flag is at or before the written sequence (13 R441). -/
def stampCovered (seq stamp s : Nat) : Bool := decide ((seq + 256 - s % 256) % 256 ≤ (seq + 256 - stamp % 256) % 256)

/-- The word of an event register after a write-back (13 R441). -/
def writeBackWord (w : Word) (st : Vector Nat 24) (v : Word) : Word :=
  let seq := w.toNat / 2 ^ 24
  let clear := (List.finRange 24).foldl (fun m i =>
    if v.getLsbD i.val && stampCovered seq (st.get i) (v.toNat / 2 ^ 24) then m ||| 2 ^ i.val else m) 0
  w &&& ~~~ (BitVec.ofNat 32 clear)

end Sys2Proof.Machine
end

