-- ==== Sys2Proof/Machine/Store.lean ====
section
/-!
DEFINITION. What the serial memories hold (16 R491 to R499): the contents in canonical form, the bank record, firmware
images, the cam library and the log; and the calibration set (08 R289).
-/

namespace Sys2Proof.Machine

/-! ### Memory contents -/

/-- A byte of a device: 0xFF where nothing is listed, as erased flash reads (notes/assumptions/7.md). -/
def memGet : List Host.Cell → Nat → Byte
  | [], _ => 0xFF
  | (k, v) :: t, a => if k = a then v else memGet t a

/-- The contents after one byte is set, in the canonical form. -/
def memSet : List Host.Cell → Nat → Byte → List Host.Cell
  | [], a, v => if v = 0xFF then [] else [(a, v)]
  | (k, w) :: t, a, v =>
    if a < k then (if v = 0xFF then (k, w) :: t else (a, v) :: (k, w) :: t)
    else if a = k then (if v = 0xFF then t else (a, v) :: t)
    else (k, w) :: memSet t a v

/-- The canonical form: addresses strictly rising, no entry equal to what an unlisted address reads as. -/
def memWf : List Host.Cell → Bool
  | [] => true
  | [(_, v)] => v != 0xFF
  | (k, v) :: (k', v') :: t => v != 0xFF && decide (k < k') && memWf ((k', v') :: t)

/-- An erase of a block of 64 KiB. -/
def memErase (m : List Host.Cell) (base : Nat) : List Host.Cell :=
  m.filter fun c => !(decide (base ≤ c.1) && decide (c.1 < base + 0x10000))

/-- The key of an address of a device. -/
def devKey (dev : Fin 8) (a : Nat) : Nat := dev.val * 2 ^ 32 + a

def memBytes (m : List Host.Cell) (a n : Nat) : List Byte := (List.range n).map fun i => memGet m (a + i)

def memPut (m : List Host.Cell) (a : Nat) (bs : List Byte) : List Host.Cell :=
  bs.zipIdx.foldl (fun m x => memSet m (a + x.2) x.1) m

/-- A program of flash: bits can only be cleared (16 R489; notes/assumptions/7.md). -/
def memProgram (m : List Host.Cell) (dev : Fin 8) (base : Nat) (bs : List (Nat × Byte)) : List Host.Cell :=
  bs.foldl (fun m x => memSet m (devKey dev (base + x.1)) (memGet m (devKey dev (base + x.1)) &&& x.2)) m

/-! ### Checks -/

def crc32Bit (c : BitVec 32) : BitVec 32 := if c.getLsbD 0 then (c >>> 1) ^^^ 0xEDB88320 else c >>> 1

def crc32Byte (c : BitVec 32) (b : Byte) : BitVec 32 :=
  (List.range 8).foldl (fun c _ => crc32Bit c) (c ^^^ b.zeroExtend 32)

/-- CRC-32 of IEEE 802.3 (11 R375, 16 R493). -/
def crc32 (bs : List Byte) : BitVec 32 := ~~~ (bs.foldl crc32Byte 0xFFFFFFFF)

def crc16Bit (c : BitVec 16) : BitVec 16 := if c.getLsbD 15 then (c <<< 1) ^^^ 0x1021 else c <<< 1

def crc16Byte (c : BitVec 16) (b : Byte) : BitVec 16 :=
  (List.range 8).foldl (fun c _ => crc16Bit c) (c ^^^ (b.zeroExtend 16 <<< 8))

/-- The check of a frame (11 R359). -/
def crc16 (bs : List Byte) : BitVec 16 := bs.foldl crc16Byte 0xFFFF

/-! ### The bank record and images (16 R492 to R494) -/

structure BankRec where
  seq : Nat := 0
  next : Fin 2 := 0
  before : Fin 2 := 0
  /-- State of each bank: 0 valid, 1 invalid, 2 empty. -/
  st : Vector Nat 2 := Vector.replicate 2 2
  deriving DecidableEq, Repr

def bankBase (k : Fin 2) : Nat := k.val * 0x800000
def bankSize : Nat := 0x800000
def recBase (k : Fin 2) : Nat := 0x1000000 + k.val * 0x10000

def toFin2 (n : Nat) : Fin 2 := if n % 2 = 1 then 1 else 0

/-- A copy of the bank record, where its check passes. -/
def recCopy (m : List Host.Cell) (k : Fin 2) : Option BankRec :=
  let bs := memBytes m (recBase k) 16
  if bs.take 4 = [0x42, 0x4B, 0x52, 0x44] && leNat (bs.drop 12) = (crc32 (bs.take 12)).toNat then
    some { seq := leNat ((bs.drop 4).take 4), next := toFin2 (leNat ((bs.drop 8).take 1)), before := toFin2 (leNat ((bs.drop 9).take 1)),
           st := Vector.ofFn fun i => leNat ((bs.drop (10 + i.val)).take 1) }
  else none

/-- The record in force: of the higher sequence number. -/
def bankRec (m : List Host.Cell) : BankRec :=
  match recCopy m 0, recCopy m 1 with
  | some a, some b => if a.seq < b.seq then b else a
  | some a, none => a
  | none, some b => b
  | none, none => {}

def BankRec.bytes (r : BankRec) : List Byte :=
  let bs := [0x42, 0x4B, 0x52, 0x44] ++ leBytes 4 r.seq ++ leBytes 1 r.next.val ++ leBytes 1 r.before.val
    ++ leBytes 1 (r.st.get 0) ++ leBytes 1 (r.st.get 1)
  bs ++ leBytes 4 (crc32 bs).toNat

/-- The block that holds the older copy. -/
def recOlder (m : List Host.Cell) : Fin 2 :=
  match recCopy m 0, recCopy m 1 with
  | none, _ => 0
  | some _, none => 1
  | some a, some b => if a.seq < b.seq then 0 else 1

/-- A record change: a new sequence in the block of the older copy, after its erase. -/
def putRec (m : List Host.Cell) (f : BankRec → BankRec) : List Host.Cell :=
  let r := bankRec m
  let r' := { f r with seq := r.seq + 1 }
  memPut (memErase m (recBase (recOlder m))) (recBase (recOlder m)) r'.bytes

/-- The header of a valid image in a bank (16 R493). -/
def imageAt (m : List Host.Cell) (k : Fin 2) : Option Image :=
  let h := memBytes m (bankBase k) 32
  let f := fun (o n : Nat) => leNat ((h.drop o).take n)
  let len := f 4 4
  if h.take 4 = [0x4D, 0x58, 0x47, 0x46] && f 20 4 = (crc32 (h.take 20)).toNat && decide (32 ≤ len) && decide (len ≤ bankSize) then
    if f 16 4 = (crc32 (memBytes m (bankBase k + 32) (len - 32))).toNat then
      some { ver := f 8 2, xmin := f 10 1 % 16, xmax := f 10 1 / 16, lmin := f 11 1 % 16, lmax := f 11 1 / 16, pmin := f 12 1, pmax := f 13 1 }
    else none
  else none

/-! ### Cam slots (16 R496) -/

def camSlot (t : Fin 64) : Nat := 0x1020000 + 0x10000 * t.val

/-- The descriptor bytes of a table, as bytes 8 to 15 of `CAM_LOAD` (11 R391). -/
def CamTable.desc (t : CamTable) : List Byte :=
  leBytes 2 t.count ++ leBytes 1 t.mShift ++ leBytes 1 t.sShift ++ leBytes 1 t.interp ++ leBytes 1 (Bool.bit t.periodic) ++ [0, 0]

def CamTable.pointBytes (t : CamTable) : List Byte :=
  (List.range t.count).flatMap fun i => let p := t.pt i
    leBytes 4 (BitVec.ofInt 32 p.1).toNat ++ leBytes 4 (BitVec.ofInt 32 p.2).toNat

def CamTable.slotBytes (t : CamTable) : List Byte :=
  t.desc ++ leBytes 4 t.count ++ leBytes 4 (crc32 (t.desc ++ t.pointBytes)).toNat ++ List.replicate 48 0xFF ++ t.pointBytes

/-- Points of 8 bytes: signed master and slave values (06 R206, 11 R391). -/
def camPoints : Nat → List Byte → List (Int × Int)
  | 0, _ => []
  | n + 1, bs => (leInt (bs.take 4), leInt ((bs.drop 4).take 4)) :: camPoints n (bs.drop 8)

/-- The table that a slot holds, where its check passes. -/
def camFromSlot (m : List Host.Cell) (t : Fin 64) : Option CamTable :=
  let b := camSlot t
  let h := memBytes m b 16
  let n := leNat ((h.drop 8).take 4)
  if n = leNat (h.take 2) && decide (n ≤ 1024) then
    let pts := memBytes m (b + 0x40) (8 * n)
    if leNat (h.drop 12) = (crc32 (h.take 8 ++ pts)).toNat then
      let c : CamTable := { count := n, mShift := leNat ((h.drop 2).take 1), sShift := leNat ((h.drop 3).take 1),
                            interp := leNat ((h.drop 4).take 1), periodic := leNat ((h.drop 5).take 1) % 2 = 1,
                            points := (camPoints n pts).map some, valid := true }
      some c
    else none
  else none

/-! ### The log (16 R492, R497) -/

/-- Entries that the log of a 32 MiB device holds, and those of a block. -/
def logBlocks : Nat := 190
def logPerBlock : Nat := 2048
def logAddr (i : Nat) : Nat := 0x1420000 + 32 * (i % (logBlocks * logPerBlock))

def padTo (n : Nat) (bs : List Byte) : List Byte := (bs ++ List.replicate n 0).take n

def LogEntry.bytes (e : LogEntry) (index : Nat) : List Byte :=
  let bs := leBytes 4 index ++ leBytes 4 e.swath ++ leBytes 1 e.tick ++ leBytes 1 e.cls ++ leBytes 1 e.code ++ leBytes 1 e.axis
    ++ leBytes 1 (Bool.bit e.side + 2 * e.plane) ++ [0, 0, 0] ++ padTo 12 e.data
  bs ++ leBytes 4 (crc32 bs).toNat

/-! ### The calibration set (08 R289) -/

/-- The nominal value of an entry; the check apart. -/
def calNominal (i : Nat) : Word :=
  if i < 493 || (496 ≤ i && i < 512) then 0x8000 else if i = 512 then 2500000 else 0

def calLookup (l : List (Nat × Word)) (i : Nat) : Word :=
  match l with
  | [] => calNominal i
  | (k, v) :: t => if k = i then v else calLookup t i

/-- An entry of a copy; entry 1023 is the check that the module forms. -/
def CalCopy.entry (c : CalCopy) (i : Nat) : Word :=
  if i = 1023 then crc32 ((List.range 1023).flatMap fun j => leBytes 4 (calLookup c.ent j).toNat) else calLookup c.ent i

/-- Entries set from a first index, by rising index, nominal values unlisted. -/
def calPut (l : List (Nat × Word)) (i : Nat) (v : Word) : List (Nat × Word) :=
  let rest := l.filter (·.1 != i)
  if v = calNominal i then rest else rest.filter (decide <| ·.1 < i) ++ [(i, v)] ++ rest.filter (decide <| i < ·.1)

end Sys2Proof.Machine
end

