-- ==== Sys2Proof/Machine/Ops.lean ====
section
/-!
DEFINITION. The named operations of the module: fields, flags, the log, asynchronous events, packets to send, and a
step on one cell.
-/

namespace Sys2Proof

def Side.idx : Side → Fin 2 | .a => 0 | .b => 1
def Side.other : Side → Side | .a => .b | .b => .a
def Plane.idx : Plane → Fin 3 | .ctrl => 0 | .data => 1 | .mgmt => 2
def Input.idx : Input → Fin 2 | .a => 0 | .b => 1

end Sys2Proof

namespace Sys2Proof.Machine

/-! ### Fields and axes -/

def Blk.r (b : Blk) (f : Fld) : Nat := f.get b.regs
def Blk.rS (b : Blk) (f : Fld) : Int := f.getS b.regs
def Blk.bit (b : Blk) (f : Fld) : Bool := f.get b.regs != 0
def Blk.set (b : Blk) (f : Fld) (v : Nat) : Blk := { b with regs := f.put b.regs v }
def Blk.setS (b : Blk) (f : Fld) (v : Int) : Blk := { b with regs := f.putS b.regs v }
def Blk.setB (b : Blk) (f : Fld) (v : Bool) : Blk := { b with regs := f.put b.regs (Bool.bit v) }
def Blk.count (b : Blk) (f : Fld) (d : Nat := 1) : Blk := { b with regs := f.count b.regs d }
def Blk.axis (b : Blk) (n : Fin 48) : Axis := b.ax.get n
def Blk.mapAx (b : Blk) (n : Fin 48) (f : Axis → Axis) : Blk := { b with ax := b.ax.set n (f (b.ax.get n)) }
def Blk.when (b : Blk) (c : Bool) (f : Blk → Blk) : Blk := if c then f b else b

/-- A field of port i's registers (12 R422), and of serial memory port j's (14 R454). -/
def Fld.port (f : Fld) (i : Fin 6) : Fld := f.skip (38 * i.val)
def Fld.smp (f : Fld) (j : Side) : Fld := f.skip (match j with | .a => 0 | .b => 5)

/-- The plane that a port serves (01 R18). -/
def portPlane (p : Fin 6) : Plane := if p.val < 2 then .ctrl else if p.val < 4 then .data else .mgmt

def Blk.phase (b : Blk) : Nat := b.r MOD.STATE.PHASE
/-- `PHASE` reads READY (09 R314). -/
def Blk.ready (b : Blk) : Bool := b.phase = 4

/-- Draws of free values: the index of the next, and the module after it (notes/assumptions/1.md). -/
def Blk.draw (b : Blk) (k : Nat := 1) : Blk := { b with fresh := b.fresh + k }

/-- The module as a step sees it: awake and ready, on its fast clocks. -/
def Blk.running (b : Blk) : Bool := b.ready && b.pw.powered && !b.pw.held && b.nap == .awake

/-! ### Event registers and the log -/

/-- An event register of the module pages takes a raise, without its log entry. -/
def Blk.rawRaise (b : Blk) (ev mask : Nat) : Blk :=
  let reg := (modEvRegs[ev]?).getD 0
  let w := (b.regs[reg]?).getD 0
  { b with
    regs := b.regs.setIfInBounds reg (raiseWord w mask)
    stamps := b.stamps.setIfInBounds ev (raiseStamps w mask ((b.stamps[ev]?).getD (Vector.replicate 24 0))) }

/-- An entry for the log of the active side, and for the standby's at the next exchange (16 R497, R498): 64 places of the
buffer are kept for classes 0 to 6. -/
def Blk.logEntry (b : Blk) (cls code axis plane : Nat) (data : List Byte) : Blk :=
  match b.act with
  | none => b
  | some s =>
    if !((b.r LOG.CFG.CLS).testBit cls) then b else
    let e : LogEntry := ⟨b.swath % 2 ^ 32, b.tick - 1, cls, code, axis, s == .b, plane, data⟩
    let l := b.logs.get s.idx
    if l.buf.length < (if cls = 7 then 960 else 1024) then
      { b with logs := b.logs.set s.idx { l with buf := l.buf ++ [e] }, logFresh := b.logFresh ++ [e] }
    else b.rawRaise LOG.EVT.CAP_OVR.ev (2 ^ LOG.EVT.CAP_OVR.bit)

/-- The entry of class 5 for a raise (16 R497). -/
def Blk.logRaise (b : Blk) (axis plane addr : Nat) (v : Word) : Blk :=
  b.logEntry 5 0x40 axis plane (leBytes 3 addr ++ [0] ++ leBytes 4 v.toNat)

/-- Flags of the module pages raised at one instant (13 R440). -/
def Blk.raise (b : Blk) (fs : List Flag) : Blk :=
  (List.range 16).foldl (fun b ev =>
    let m := flagMask fs ev
    if m = 0 then b else
    let b := b.rawRaise ev m
    let reg := (modEvRegs[ev]?).getD 0
    let d := (modDefs[reg]?)
    b.logRaise 0xFE ((d.elim .ctrl (·.writer)).idx.val) (d.elim 0 (·.addr)) ((b.regs[reg]?).getD 0)) b

/-- Entries of several raises of one register at one instant are one: of the last word, with the first sequence. -/
def mergeRaises (es : List LogEntry) : List LogEntry :=
  (List.range es.length).filterMap fun i => (es[i]?).bind fun e =>
    let same := fun (f : LogEntry) => f.cls = 5 && f.axis = e.axis && f.data.take 3 = e.data.take 3
    if e.cls != 5 then some e
    else if (es.drop (i + 1)).any same then none
    else some { e with data := e.data.take 7 ++ (es.find? same).elim [] fun f => f.data.drop 7 }

/-- Every flag raised since a state is raised at one instant: each `SEQ` steps once (13 R440). -/
def Axis.atOnce (a old : Axis) : Axis :=
  let was := fun (k : Fin 6) => (old.regs[(axEvRegs[k.val]?).getD 0]?).getD 0
  { a with
    regs := (List.finRange 6).foldl (fun (r : AxRegs) k =>
      let i := (axEvRegs[k.val]?).getD 0
      r.setIfInBounds i (oneSeq (was k) ((r[i]?).getD 0))) a.regs
    stamps := Vector.ofFn fun k => oneStamp (was k) (old.stamps.get k) (a.stamps.get k) }

def Blk.atOnce (b old : Blk) : Blk :=
  let was := fun (k : Fin 16) => (old.regs[(modEvRegs[k.val]?).getD 0]?).getD 0
  let merge := fun (o l : List LogEntry) => l.take o.length ++ mergeRaises (l.drop o.length)
  { b with
    regs := (List.finRange 16).foldl (fun (r : ModRegs) k =>
      let i := (modEvRegs[k.val]?).getD 0
      r.setIfInBounds i (oneSeq (was k) ((r[i]?).getD 0))) b.regs
    stamps := Vector.ofFn fun k => oneStamp (was k) (old.stamps.get k) (b.stamps.get k)
    ax := Vector.ofFn fun n => (b.axis n).atOnce (old.axis n)
    logs := Vector.ofFn fun s => let l := b.logs.get s; { l with buf := merge (old.logs.get s).buf l.buf }
    logFresh := merge old.logFresh b.logFresh }

def Blk.raiseIf (b : Blk) (c : Bool) (f : Flag) : Blk := if c then b.raise [f] else b

/-- The address of a register of an axis page (13 R424). -/
def axAddr (n : Fin 48) (off : Nat) : Nat := (0x10 + n.val) * 0x10000 + off

/-- Flags of an axis raised at one instant. -/
def Blk.raiseAx (b : Blk) (n : Fin 48) (fs : List Flag) : Blk :=
  (List.range 6).foldl (fun b ev =>
    let m := flagMask fs ev
    if m = 0 then b else
    let reg := (axEvRegs[ev]?).getD 0
    let a := b.axis n
    let w := (a.regs[reg]?).getD 0
    let w' := raiseWord w m
    let b := b.mapAx n fun a => { a with
      regs := a.regs.setIfInBounds reg w'
      stamps := a.stamps.setIfInBounds ev (raiseStamps w m ((a.stamps[ev]?).getD (Vector.replicate 24 0))) }
    b.logRaise n.val 0 (axAddr n ((axDefs[reg]?).elim 0 (·.addr))) w') b

/-! ### Sending -/

/-- The bytes of a packet: header and payload (11 R358). -/
def OutPkt.bytes (o : OutPkt) : List Byte :=
  [BitVec.ofNat 8 (o.major.val * 16 + Bool.bit o.async * 8 + Bool.bit o.reply * 4), o.sid] ++ leBytes 2 o.seq.toNat
    ++ [o.opc, o.tgt] ++ leBytes 2 o.body.length ++ o.body

/-- No cascade port has a signal (15 R459). -/
def Casc.alone (c : Casc) : Bool := c.lostUp && c.lostDown

/-- The module works in a stack (15 R459): with no signal on any cascade port it works alone. -/
def Blk.stacked (b : Blk) : Bool := b.casc.formed && b.bit CASC.CFG.EN && !b.casc.alone

/-- The module is connected to a stack without a place in it (15 R465). -/
def Blk.outside (b : Blk) : Bool := b.casc.heldOut && b.bit CASC.CFG.EN && !b.casc.alone

/-- The module's address (12 R410, 15 R466): 0 without a place in the stack that it is connected to. -/
def Blk.addr (b : Blk) : Byte :=
  if b.stacked then BitVec.ofNat 8 (0x40 + b.casc.selfPos % 8) else if b.outside then 0 else 0x40

/-- The stack's master is another module, heard or not. -/
def Blk.under (b : Blk) : Bool :=
  b.casc.formed && b.bit CASC.CFG.EN && !(b.casc.mods.any fun m => m.pos = b.casc.selfPos && m.master)

/-- This module is a slave of a stack (01 R30). -/
def Blk.slave (b : Blk) : Bool := b.stacked && b.under

def Blk.master (b : Blk) : Bool := b.stacked && !b.slave

/-- The transmit buffer of a class (12 R413). -/
def txIndex (cls : Fin 8) : Fin 3 := if cls = 3 then 2 else if cls = 5 || cls = 7 then 1 else 0

/-- A packet takes its buffer, or waits for it (12 R413); a class-3 frame is discarded while the port is congested (12 R417).
A frame that waits restarts the delay of nap (09 R304). -/
def Blk.send (b : Blk) (p : Fin 6) (o : OutPkt) : Blk :=
  if o.cls = 3 && b.bit (MB.STAT.CONG.port p) then b else
  let pt := b.ports.get p
  let i := txIndex o.cls
  let t := pt.tx.get i
  let c : TxCur := ⟨o, 0, pt.ord, false⟩
  let t := if t.cur.isNone then { t with cur := some c } else { t with wait := t.wait ++ [c] }
  { b with ports := b.ports.set p { pt with tx := pt.tx.set i t, ord := pt.ord + 1 }, napTicks := 0 }

/-- A packet of a slave for its next contribution to the rings (15 R470, R471). -/
def Blk.contribute (b : Blk) (o : OutPkt) : Blk := { b with casc := { b.casc with contrib := b.casc.contrib ++ [o.bytes] } }

def Blk.sendVia (b : Blk) (v : Via) (o : OutPkt) : Blk :=
  match v with
  | .port p => b.send p o
  | .ring => b.contribute o

/-! ### Asynchronous events (11 R400, R401) -/

/-- The log class of an event code (16 R497). -/
def eventClass (code : Nat) : Nat :=
  if code ∈ [0x09, 0x0A, 0x0B, 0x0F, 0x13] then 1
  else if code ∈ [0x0E, 0x10, 0x11, 0x12] then 2
  else if code ∈ [0x14, 0x15, 0x16] then 3
  else if code = 0x17 then 4 else 0

/-- An event: the log entry, and the frame to the owner in a session at 2.0 or later that takes events. `tgt` is the axis
or 0xFE, `b1` byte 1 of the payload. -/
def Blk.event (b : Blk) (code tgt b1 : Nat) (data : List Byte) : Blk :=
  let mgmt := 0x14 ≤ code && code ≤ 0x17
  let b := b.logEntry (eventClass code) code b1 (if mgmt then 2 else 0) data
  match b.sess with
  | none => b
  | some s =>
    if s.orphan || s.version < 0x20 || !s.events then b else
    let pair : Fin 3 := if mgmt then 2 else 0
    let dflt : Fin 6 := if mgmt then 4 else 0
    let o : OutPkt := {
      cls := if b.slave then 5 else if mgmt then 4 else 2, dest := s.owner, src := b.addr, major := ⟨s.version / 16 % 16, by omega⟩
      async := true, reply := false, sid := s.sid, seq := s.evSeq, opc := 0, tgt := BitVec.ofNat 8 tgt
      -- on the rings, the master's swath number (15 R473)
      body := [BitVec.ofNat 8 code, BitVec.ofNat 8 b1, 0, 0]
        ++ leBytes 4 (if b.slave then ((b.swath : Int) + b.casc.swathOfs).toNat else b.swath) ++ padTo 4 data }
    let b := { b with sess := some { s with evSeq := s.evSeq + 1 } }
    if b.slave then b.contribute o else b.send ((s.last.get pair).getD dflt) o

/-! ### A step on one cell -/

/-- What a cell's step leaves: its axis, its flags once for each register, the module's flags, and its events. -/
def Blk.commit (b : Blk) (n : Fin 48) (c : Cell) : Blk :=
  let b := ({ b with ax := b.ax.set n c.ax }.raiseAx n c.flags).raise c.modFlags
  c.events.foldl (fun b e => b.event e.1 n.val n.val e.2) b

/-- The module's own time, in ticks. -/
def Blk.ticks (b : Blk) : Nat := 25 * b.swath + b.tick

def Blk.cellOf (b : Blk) (n : Fin 48) : Cell := { ax := b.axis n, now := b.swath, tick := b.tick }

def Blk.cell (b : Blk) (n : Fin 48) (f : Cell → Cell) : Blk := b.commit n (f (b.cellOf n))

/-- The same step on a list of axes, in order. -/
def Blk.cells (b : Blk) (ns : List (Fin 48)) (f : Fin 48 → Cell → Cell) : Blk := ns.foldl (fun b n => b.cell n (f n)) b

def allAxes : List (Fin 48) := List.finRange 48

/-- The trip sources that the whole module shares (03 R94, R95); the link comparator is active until it arms (03 R93). -/
def Blk.wide (b : Blk) : Wide := ⟨b.pw.link != .inside, !b.pw.ext⟩

/-- A command's effect on everything but the queue. -/
def onBlk (f : Blk → Blk) (s : State) : Host.Outcome State Fault Refusal := .next { s with blk := f s.blk }

/-- Members of a group: axes whose `MOT_CFG.GRP` names it (06 R194). -/
def Blk.groupMembers (b : Blk) (g : Nat) : List (Fin 48) :=
  allAxes.filter fun n => ((b.axis n).r AX.MOT_CFG.GRP).testBit g

/-- The masters' positions at the tick (06 R203). -/
def Blk.masters (b : Blk) : MasterPos
  | .cmd n => some (b.axis n).mot.pCmd
  | .meas n => some (b.axis n).mot.pMeas
  | .step n => let m := (b.axis n).mot; some (if m.mode = .followStep then m.stepTgt else m.pCmd)
  | .remote addr n src =>
    -- 06 R204: from the samples of the two swaths before (notes/assumptions/46.md)
    (b.casc.remote.find? fun r => r.addr = addr && r.axis = n && r.src = src && decide (2 ≤ r.n)).map fun r =>
      roundAway ((r.m2 : Rat) + ((r.m2 - r.m1 : Int) : Rat) * ((25 + (b.tick - 1) : Nat) : Rat) / 25)

end Sys2Proof.Machine
end

