-- ==== Sys2Proof/Machine/RegAccess.lean ====
section
/-!
DEFINITION. Register reads and writes (13 R423 to R444, 14 R448 to R458): where an address leads, what a read shows, what
a write stores, and what a write sets off.
-/

namespace Sys2Proof.Machine

/-! ### Addresses -/

/-- What an address names (13 R423, R424, 14 R448). -/
inductive Loc
  | mod (i : Nat)
  | axis (n : Fin 48) (i : Nat)
  | unlock
  | mbxSel
  | mbxStat
  | mbxD (j : Fin 4)
  | cal (i : Nat)
  | none
  deriving DecidableEq, Repr

def locate (addr : Nat) : Loc :=
  let page := addr / 65536; let off := addr % 65536
  if addr = 0x30 then .unlock
  else if addr = 0x100 then .mbxSel
  else if addr = 0x104 then .mbxStat
  else if addr = 0x108 then .mbxD 0 else if addr = 0x10C then .mbxD 1
  else if addr = 0x110 then .mbxD 2 else if addr = 0x114 then .mbxD 3
  else if 0x51000 ≤ addr && addr < 0x52000 && addr % 4 = 0 then .cal ((addr - 0x51000) / 4)
  else if h : 0x10 ≤ page ∧ page < 0x40 then
    match axDefs.findIdx? (·.addr = off) with
    | some i => .axis ⟨page - 0x10, by omega⟩ i
    | .none => .none
  else if page < 0x10 then
    match modDefs.findIdx? (·.addr = addr) with
    | some i => .mod i
    | .none => .none
  else .none

/-! ### What registers show -/

/-- Commands accepted and not yet answered (11 R368). -/
def PlaneSt.open_ (p : PlaneSt) : Nat := (p.acc.filter (·.reply.isNone)).length
def Blk.unanswered (b : Blk) : Nat := b.planes.toList.foldl (fun n p => n + p.open_) 0

def SideSt.num : SideSt → Nat | .off => 0 | .booting => 1 | .standby => 2 | .active => 3 | .out => 4

def Blk.side (b : Blk) (s : Side) : SideS := b.sides.get s.idx
def Blk.mapSide (b : Blk) (s : Side) (f : SideS → SideS) : Blk := { b with sides := b.sides.set s.idx (f (b.sides.get s.idx)) }
def Blk.smp (b : Blk) (s : Side) : SmPort := b.sm.get s.idx
def Blk.mapSm (b : Blk) (s : Side) (f : SmPort → SmPort) : Blk := { b with sm := b.sm.set s.idx (f (b.sm.get s.idx)) }

/-- The standby side is fit to take over (10 R330, 09 R300). -/
def Blk.stbyOk (b : Blk) : Bool :=
  match b.act with
  | none => false
  | some s => let o := b.side s.other; o.st == .standby && o.fit && !o.sick && b.bit CLK.STAT.STBY_LOCK

/-- The level driven on an OK output (17 R522); nap holds it. -/
def Blk.okOut (b : Blk) (s : Side) : Bool :=
  decide (20000 ≤ b.pw.auxMv) &&
    (if b.nap == .awake then b.ready && ((b.side s).st == .active || ((b.side s).st == .standby && b.stbyOk))
     else match s with | .a => b.pw.okA | .b => b.pw.okB)

/-- The exchange version in use (10 R333). -/
def Blk.xver (b : Blk) : Nat :=
  match (b.side .a).img, (b.side .b).img with
  | some x, some y =>
    let m := min x.xmax y.xmax
    let on := fun (s : SideSt) => s == .standby || s == .active
    if on (b.side .a).st && on (b.side .b).st && max x.xmin y.xmin ≤ m then m else 0
  | _, _ => 0

/-- Failures of a side in the last 24 h, in swaths (10 R330, R356). -/
def Blk.failCount (b : Blk) (s : Side) : Nat := ((b.side s).fails.filter fun t => decide (b.swath < t + 86400000)).length

/-- The work of a spare is in progress: a direct calibration, or an item under a stand-in (08 R283, R292). -/
def Blk.spareBusy (b : Blk) (x : Spare) : Bool :=
  match x.item with
  | none => false
  | some (.spare _) => true
  | some (.axis n s) => let sl := (b.axis n).slc.get s; sl.direct || sl.stand.isSome

/-- The nap conditions of 09 R304 that do not hold, as bits of `NAP_WAIT`; `own` commands are being executed and do not
count (notes/assumptions/22.md). -/
def Blk.napWait (b : Blk) (own : Nat) : Nat :=
  let busy := b.ax.any fun a =>
    !(a.mot.mode == .fallow || a.mot.mode == .unconfigured)
      || (match a.legs.phase with | .normal => false | .lost => false | _ => true)
  let plan := b.ax.any fun a => a.planned || a.mot.waiting.isSome
  let cal := b.meas.calSelf.isSome || b.meas.calWrite.isSome || b.meas.rw.isSome
    || b.meas.spares.any fun s => b.spareBusy s || s.use == 1
  let store := b.fw.isSome || b.sides.any (·.swap.isSome) || b.sm.any fun p => p.op.isSome || p.page.isSome
  let frames := b.ports.any (fun p => p.tx.any fun t => t.cur.isSome || t.wait != [])
    || decide (own < b.unanswered) || b.rx.ports.any fun p => p.re != [] || p.queue != [] || p.done != []
  Bool.bit busy + 2 * Bool.bit plan + 4 * Bool.bit cal + 8 * Bool.bit store + 16 * Bool.bit b.graze.run.isSome
    + 32 * Bool.bit frames + 64 * Bool.bit (!b.bit MOD.CTRL.NAP_EN)

/-- Every condition of nap has held for `NAP_DLY` ms, in whole cycles of the slow clock at 65.536 kHz (09 R304, 13 R445;
notes/assumptions/140.md): the module begins to enter it. -/
def Blk.napDue (b : Blk) : Bool :=
  b.running && b.act.isSome && b.napWait 0 = 0 && decide ((65536 * b.r MOD.CTRL.NAP_DLY + 999) / 1000 ≤ 65536 * b.napTicks / 25000)

/-- No slice runs (10 R357). -/
def Blk.grazeIdle (b : Blk) : Blk :=
  let b := { b with graze := { b.graze with run := none, banks := 0 }, yieldDue := false }
  ((b.setB GRAZE.STAT.RUN false).set GRAZE.STAT.ITEM 15).set GRAZE.STAT.AXIS 63

/-- A slice that ends before its item is done: the item is taken again later in the pass (10 R347). -/
def Blk.grazeBack (b : Blk) : Blk :=
  match b.graze.run with
  | none => b
  | some x => { b with graze := { b.graze with skipped := b.graze.skipped ++ [x] } }.grazeIdle

/-- An accepted command needs some axes (10 R347): a slice on one of them has to yield. -/
def Blk.needAxes (b : Blk) (ns : List (Fin 48)) : Bool :=
  b.graze.run.elim false fun x => x.2.elim false ns.contains

/-- The running slice yields to the command that needs its resource (10 R347). -/
def Blk.yieldNow (b : Blk) : Blk :=
  if !b.yieldDue then b
  else if b.graze.run.isSome then b.grazeBack.raise [GRAZE.EVT.YIELD]
  else { b with yieldDue := false }

/-- An admission starts motion, during a test of the link, a store or the chopper (10 R347). -/
def Blk.needLink (b : Blk) : Blk :=
  if b.graze.run.elim false fun x => x.1 = 6 || x.1 = 7 || x.1 = 8 then { b with yieldDue := true } else b

def insAll (w : Word) (l : List (Fld × Nat)) : Word := l.foldl (fun w x => x.1.ins w x.2) w

def Blk.fwWord (b : Blk) (s : Side) (w : Word) : Word :=
  let x := b.side s
  let i := x.img.elim (0, 0, 0) fun i => (i.ver, i.xmin, i.xmax)
  insAll w [(SIDE.FW_A.VER, i.1), (SIDE.FW_A.BANK, x.bank.val), (SIDE.FW_A.NEXT, (bankRec (b.smp s).mem).next.val),
            (SIDE.FW_A.XMIN, i.2.1), (SIDE.FW_A.XMAX, i.2.2)]

/-- An input that stands at 33.0 V or more and is not blocked for overvoltage (07 R224, 17 R504). -/
def Blk.supOk (b : Blk) (i : Fin 2) : Bool := decide (33000 ≤ b.pw.supMv.get i) && !b.pw.ovBlock.get i

/-- ES k ready: present and ready (17 R519). -/
def Blk.esOk (b : Blk) (k : Fin 2) : Bool := (b.pw.cart.get k).pres && (b.pw.cart.get k).rdy

/-- Spares that are free (08 R283). -/
def Blk.freeSpares (b : Blk) : List (Fin 8) :=
  (List.finRange 8).filter fun i => let s := b.meas.spares.get i; s.use == 0 && !s.fail

/-- Some slice of an enabled axis has an age of 10 or more (08 R285): of a slice that a spare replaces, the spare's; a failed slice without one
has no factors. -/
def Blk.stale (b : Blk) : Bool :=
  b.ax.any fun a => a.mot.mode.enabled && [(0 : Fin 2), 1].any fun s =>
    if (a.r AX.SLC_STAT.SUB).testBit s.val then
      decide (10 ≤ b.r (MEAS.SPF0.AGE.skip (a.r (if s = 0 then AX.SLC_STAT.SP0 else AX.SLC_STAT.SP1) % 8)))
    else !(a.r AX.SLC_STAT.FAIL).testBit s.val && decide (10 ≤ a.r (AX.SLC_FAC0.AGE.skip s.val))

/-- `STALE` is raised at each rise (08 R285). -/
def Blk.staleRise (b old : Blk) : Blk := b.raiseIf (b.stale && !old.stale) MEAS.EVT.STALE

/-- A budget field in force (07 R223). -/
def Blk.bud (b : Blk) (f : Fld) : Nat := { f with reg := f.reg - LEDG.BUD_PWR.P_IN_MAX.reg }.get b.plan.budget

/-- The log of the active side. -/
def Blk.log (b : Blk) : SideLog := b.logs.get (b.act.elim 0 (·.idx))

/-- The word that register i of the module pages shows. -/
def Blk.modWord (b : Blk) (own : Nat) (i : Nat) : Word :=
  let w := (b.regs[i]?).getD 0
  if i = MOD.STATE.PHASE.reg then
    let nw := b.napWait own
    insAll w [(MOD.STATE.ACT_SIDE, b.act.elim 0 (·.idx.val)), (MOD.STATE.STBY_OK, Bool.bit b.stbyOk),
      (MOD.STATE.OWNED, Bool.bit (b.sess.elim false fun s => !s.orphan)), (MOD.STATE.NAP_OK, Bool.bit (nw = 0)), (MOD.STATE.NAP_WAIT, nw)]
  else if i = MOD.SESS.SID.reg then
    (b.sess.elim w fun s => insAll w [(MOD.SESS.HB_TMO, s.tmo), (MOD.SESS.SID, s.sid.toNat), (MOD.SESS.OWNER, s.owner.toNat)])
  else if i = MOD.IO.STO_A.reg then
    let p := b.pw
    insAll w [(MOD.IO.STO_A, Bool.bit p.stoA), (MOD.IO.STO_B, Bool.bit p.stoB), (MOD.IO.TRIP_EXT, Bool.bit p.ext),
      (MOD.IO.AUX24, Bool.bit (20000 ≤ p.auxMv)), (MOD.IO.STRAP_MSTR, Bool.bit p.straps.mstr),
      (MOD.IO.STRAP_ALT, Bool.bit p.straps.alt), (MOD.IO.STRAP_BENCH, Bool.bit p.straps.bench), (MOD.IO.GD_PWR, Bool.bit p.gd),
      (MOD.IO.OK_A, Bool.bit (b.okOut .a)), (MOD.IO.OK_B, Bool.bit (b.okOut .b))]
  else if i = SIDE.STAT.XVER.reg then
    insAll w [(SIDE.STAT.A_ST, (b.side .a).st.num), (SIDE.STAT.B_ST, (b.side .b).st.num), (SIDE.STAT.XVER, b.xver),
      (SIDE.STAT.A_FAIL, min 15 (b.failCount .a)), (SIDE.STAT.B_FAIL, min 15 (b.failCount .b))]
  else if i = SIDE.FW_A.VER.reg then b.fwWord .a w
  else if i = SIDE.FW_B.VER.reg then b.fwWord .b w
  else if i = LEDG.STAT.RES_OP.reg then
    insAll w [(LEDG.STAT.SUP_A_OK, Bool.bit (b.supOk 0)), (LEDG.STAT.SUP_B_OK, Bool.bit (b.supOk 1)),
      (LEDG.STAT.ES0_OK, Bool.bit (b.esOk 0)), (LEDG.STAT.ES1_OK, Bool.bit (b.esOk 1))]
  else if i = LEDG.SWATH.SWATH_LO.reg then BitVec.ofNat 32 b.swath
  else if i = MEAS.SPARE.USE0.reg then
    (List.finRange 8).foldl (fun w k => let s := b.meas.spares.get k
      ((⟨0, 4 * k.val, 2⟩ : Fld).ins w s.use.val) ||| BitVec.ofNat 32 (Bool.bit s.fail * 2 ^ (4 * k.val + 2))) w
  else if i = MEAS.SPARE_MAP0.MAP0.reg || i = MEAS.SPARE_MAP1.MAP0.reg then
    (List.finRange 4).foldl (fun w k =>
      let s := (b.meas.spares[k.val + 4 * (i - MEAS.SPARE_MAP0.MAP0.reg)]?).getD {}
      (⟨0, 8 * k.val, 8⟩ : Fld).ins w (s.serves.elim 0 fun x => x.1.val + 64 * x.2.val + 128)) w
  else if i = MEAS.CAL_STAT.FREE.reg then insAll w [(MEAS.CAL_STAT.FREE, b.freeSpares.length), (MEAS.CAL_STAT.STALE, Bool.bit b.stale)]
  else if i = CAL.STAT.SRC.reg then
    let c := b.meas.copies.get b.meas.inUse
    insAll w [(CAL.STAT.SRC, Bool.bit c.written), (CAL.STAT.CRC_OK, Bool.bit c.ok), (CAL.STAT.WR_BUSY, Bool.bit b.meas.calWrite.isSome),
      (CAL.STAT.WR_CNT, min 65535 c.count)]
  else if i = CASC.STAT.POS.reg then
    let c := b.casc
    let me := c.mods.find? (·.pos = c.selfPos)
    if !b.stacked then insAll w [(CASC.STAT.ADDR, b.addr.toNat)]
    else insAll w [(CASC.STAT.POS, c.selfPos), (CASC.STAT.MASTER, Bool.bit (me.elim false (·.master))), (CASC.STAT.ALT, Bool.bit (me.elim false (·.alt))),
      (CASC.STAT.RA_OK, Bool.bit (!c.mods.any (·.wrap))), (CASC.STAT.RB_OK, Bool.bit (!c.mods.any (·.wrap))),
      (CASC.STAT.WRAP, Bool.bit (c.lostUp || c.lostDown)), (CASC.STAT.COUNT, (c.mods.filter (!·.heldOut)).length), (CASC.STAT.LVER, c.lver), (CASC.STAT.ADDR, b.addr.toNat)]
  else if i = LOG.HEAD.HEAD.reg then BitVec.ofNat 32 b.log.head
  else if i = LOG.TAIL.TAIL.reg then BitVec.ofNat 32 b.log.tail
  else if i = LOG.STAT.PEND.reg then
    insAll w [(LOG.STAT.WRAPPED, Bool.bit b.log.wrapped), (LOG.STAT.CAP_RUN, b.r LOG.CAP.EN),
      (LOG.STAT.MEM_OK, Bool.bit (b.act.elim false fun s => !((b.smp s).absent.getLsbD 0))), (LOG.STAT.PEND, min 255 b.log.buf.length)]
  else
    match (List.finRange 6).find? fun p => MB.STAT.LOAD.reg + 38 * p.val = i with
    | some p => let t := (b.ports.get p).tx
        MB.STAT.TXB_BUSY.ins w (Bool.bit (t.get 0).cur.isSome + 2 * Bool.bit (t.get 1).cur.isSome + 4 * Bool.bit (t.get 2).cur.isSome)
    | none => w

/-- `MBX.STAT` and `MOD.UNLOCK` as a plane reads them (13 R434, R436, 14 R448). -/
def PlaneSt.statWord (p : PlaneSt) : Word := BitVec.ofNat 32 (Bool.bit p.valid + 2 * Bool.bit p.unknown + 16 * p.words) ||| p.rsvStat

def PlaneSt.unlockWord (p : PlaneSt) : Word := BitVec.ofNat 32 (Bool.bit p.armed * 2 ^ 16) ||| p.rsvUnlock

/-- The RSV bits of `MBX.STAT` and `MOD.UNLOCK`. -/
def statRsv : Word := 0xFFFFFF8C
def unlockRsv : Word := 0xFFFE0000

/-- The word at an address, as the register stands; `own` as in `napWait` (13 R426, R430, R434, R443). -/
def Blk.show (b : Blk) (pl : Plane) (own : Nat) : Loc → Word
  | .mod i => b.modWord own i &&& ~~~ (BitVec.ofNat 32 ((modDefs[i]?).elim 0 (·.wo)))
  | .axis n i =>
    let a := b.axis n
    if a.foreign i then 0
    else a.word (Config.freeNat b.fresh) i &&& ~~~ (BitVec.ofNat 32 ((axDefs[i]?).elim 0 (·.wo)))
  | .unlock => (b.planes.get pl.idx).unlockWord
  | .mbxSel => (b.planes.get pl.idx).sel
  | .mbxStat => (b.planes.get pl.idx).statWord
  | .mbxD j => let p := b.planes.get pl.idx; if p.valid then p.d.get j else 0
  | .cal i => (b.meas.copies.get b.meas.inUse).entry i
  | .none => 0

/-- The effect of a read: `NEW` and `OVR` of a data register clear (13 R430); the counter of `PWM_STAT` and `AWAKE` are draws of
a free value. -/
def Blk.afterRead (b : Blk) : Loc → Blk
  | .mod i =>
    if MEAS.IC_DATA0.RAW.reg ≤ i && i < MEAS.IC_DATA0.RAW.reg + 8 then
      { b with regs := b.regs.setIfInBounds i (((b.regs[i]?).getD 0) &&& 0x3FFFFFFF) }
    else b
  | .axis n i =>
    if i = AX.SLC_DATA0.I.reg then b.mapAx n (·.readData 0)
    else if i = AX.SLC_DATA0.I.reg + 1 then b.mapAx n (·.readData 1)
    else if i = AX.PWM_STAT.CNT.reg || i = AX.SLC_STAT.ILV.reg then b.draw
    else b
  | _ => b

/-- One register read (13 R428). -/
def Blk.readReg (b : Blk) (pl : Plane) (addr own : Nat) : Word × Blk :=
  let l := locate addr
  (b.show pl own l, b.afterRead l)

/-! ### What writes store -/

def lim (lo hi x : Nat) : Nat := max lo (min hi x)

/-- The values outside a field's range, as they are stored (the field tables of each chapter). -/
def axClamps : List (Fld × (Nat → Nat)) := [
  (AX.GD_CTRL.T_TARGET, lim 5 50), (AX.PWM_PER.PER, lim 2000 64516),
  (AX.ST_CFG.MSTEP_RES, min 12), (AX.ST_CFG.POLE_PAIRS, max 1), (AX.I_LIM0.I_MIN, min 30000), (AX.I_LIM0.I_MAX, min 30000),
  (AX.I_LIM1.I_HOLD, min 30000), (AX.CUR_CTRL.BW, lim 1 100), (AX.LA_CFG.LA_TARGET, min 89), (AX.LA_CFG.STALL_ANG, lim 46 89),
  (AX.LA_CFG.STALL_N, max 1), (AX.OBST_CFG.OBST_N, max 1), (AX.HOME_CFG.HOME_N, max 1), (AX.STEP_CFG.STEP_RES, min 12),
  (AX.SLC_TRIG0.DELAY, min 4000), (AX.SLC_TRIG0.DELAY.skip 1, min 4000), (AX.SLC_DIAG.DELAY, min 4000),
  (AX.BL_CFG.POLE_PAIRS, max 1), (AX.BL_CFG.HALL_MODE, min 2), (AX.BL_CFG.BW, lim 1 100), (AX.BL_ILIM.I_MAX, min 30000),
  (AX.BL_SAMP.T_SAMP_MIN, max 40), (AX.BL_START.TP_LEN, lim 5 50), (AX.BL_START.TP_GAP, max 1), (AX.BL_START.BEMF_N, max 1),
  (AX.BL_LOCK.T_LOCK, lim 1 200), (AX.BL_OBST.OBST_N, max 1), (AX.BL_HOME.HOME_N, max 1), (AX.BL_LS.LS_DEAD, min 200), (AX.BL_LS.LS_SRC, fun x => if x = 3 then 0 else x),
  (AX.BL_LS.LS_FMAX, lim 1 50000), (AX.BL_LS_VMAX.LS_VMAX, min 335544), (AX.BL_STEP.STEP_RES, min 12), (AX.MOT_VMAX.V_MAX, min 85899345)]
  ++ ((List.range 16).map fun k => (AX.BL_ADV0.ADV.skip k, min 6000))

def modClamps : List (Fld × (Nat → Nat)) := [
  (MOD.CTRL.NAP_DLY, max 1), (MOD.ORPHAN.ACT, fun x => if x = 3 then 0 else x),
  (LEDG.BUD_PWR.P_IN_MAX, min 12000), (LEDG.BUD_PWR.P_ES_MAX, min 6000), (LEDG.BUD_IIN.I_IN_MAX_A, min 1000),
  (LEDG.BUD_IIN.I_IN_MAX_B, min 1000), (LEDG.BUD_LINK.V_LINK_LO, lim 330 600), (LEDG.BUD_RES.E_RES, min 60000),
  (LEDG.ES_CFG.P_CHG_MAX, min 6000), (LEDG.ES_CFG.V_ES_FULL, lim 160 750), (LEDG.PLAN_CFG.STAG_STEP, lim 1 1000),
  (LEDG.PLAN_CFG.K_MIN, max 1), (LEDG.PLAN_CFG.D_MAX_DEF, min 4000), (LEDG.BRK_CFG.P_BRK_MAX, min 3000),
  (MEAS.IC_CFG.T_SEL, min 2), (MEAS.IC_CFG.T_PROG, lim 100 20000), (MEAS.IC7_CFG.TRIG, min 2), (MEAS.RW_REQ.I_TEST, lim 100 3000),
  (MEAS.LINK_WIN.HIGH, min 880), (SMP.WIN2.ABYTES, min 4), (SMP.WIN2.ABYTES.skip 5, min 4)]
  ++ ((List.range 6).flatMap fun i => [(MB.CFG.DRATE.skip (38 * i), min 4), (MB.CFG.NSP.skip (38 * i), lim 60 90),
        (MB.CFG.DSP.skip (38 * i), lim 60 90), (MB.CONG.CONG_THR.skip (38 * i), lim 20 95), (MB.CONG.STRM_MAX.skip (38 * i), min 90)])

def clampWord (l : List (Fld × (Nat → Nat))) (i : Nat) (v : Word) : Word :=
  (l.filter (·.1.reg = i)).foldl (fun v x => x.1.ins v (x.2 ((v.toNat >>> x.1.lo) % 2 ^ x.1.w))) v

/-- The word that a module register would store; `V_LINK_HI` is limited by the `V_LINK_LO` beside it (07 R222), a pair of a
stepper has no third value (08 R280). -/
def Blk.modClamp (b : Blk) (i : Nat) (v : Word) : Word :=
  let v := clampWord modClamps i v
  if i = LEDG.BUD_LINK.V_LINK_LO.reg then
    LEDG.BUD_LINK.V_LINK_HI.ins v (lim (v.toNat % 1024) 760 ((v.toNat >>> 10) % 1024))
  else if i = MEAS.RW_REQ.PAIR.reg then
    let n := v.toNat % 64; let p := (v.toNat >>> 6) % 4
    let st := (b.ax[n]?).elim false (·.stepper)
    if st && p = 2 then MEAS.RW_REQ.PAIR.ins v 0 else v
  else v

/-- The merge of a written word (13 R425, R427, R436, R439, R443): the new word, whether a part of it was ignored that would
have changed a value, and whether it tried to change an RSV bit. -/
def mergeWord (d : RegDef) (cur v : Word) (keyed bench : Bool) : Word × Bool × Bool :=
  let m := fun (n : Nat) => BitVec.ofNat 32 n
  let free := m d.rw ||| m d.rb ||| (if keyed then m d.rk else 0)
  let diff := cur ^^^ v
  let ign := (diff &&& (m d.ro ||| (if keyed then 0 else m d.rk))) != 0
  let rsv := (diff &&& d.rsv) != 0
  let free := if bench then free ||| d.rsv else free
  ((cur &&& ~~~ free) ||| (v &&& free), ign, rsv && !bench)

def Blk.viol (b : Blk) (pl : Plane) : Blk := b.count (MOD.VIOL.CTRL.nth pl.idx.val)

/-! ### What writes set off -/

/-- `LOAD_ALL` captures the shadows of the selected cells (03 R86); with none selected it returns to 0 (03 R87). -/
def Blk.loadAllCapture (b : Blk) : Blk :=
  let sel := b.r MOD.PWM_LOAD_LO.SEL + 2 ^ 32 * b.r MOD.PWM_LOAD_HI.SEL
  let ns := allAxes.filter fun n => sel.testBit n.val
  let b := ns.foldl (fun b n => b.mapAx n fun a => { a with pwm := { a.pwm with capt := some a.regs } }) b
  if ns = [] then b.setB MOD.PWM_LOAD_HI.LOAD_ALL false else b

/-- The module counters zeroed (07 R221). -/
def Blk.clearModCounters (b : Blk) : Blk :=
  { b with ledg := { b.ledg with
    e := Vector.ofFn fun i => if i.val < 10 then 0 else b.ledg.e.get i
    sub := Vector.ofFn fun i => if i.val < 10 then 0 else b.ledg.sub.get i } }

/-- The counters and learned energy of an axis zeroed (07 R221). -/
def Axis.clearCounters (a : Axis) : Axis :=
  -- a move in progress counts from the clear (07 R257)
  let m := { a.mot with job := a.mot.job.map fun (j : Job) => { j with eStart := 0 } }
  ({ a with eOut := 0, eRegen := 0, eSub := 0, rSub := 0, learned := [], mot := m }).set AX.LEDG_LEARN.E_LEARN 0

def Blk.clearAxCounters (b : Blk) (sel : Nat) : Blk :=
  if sel = 63 then { b with ax := b.ax.map Axis.clearCounters }
  else if h : sel < 48 then b.mapAx ⟨sel, h⟩ Axis.clearCounters else b

/-- A winding measurement ends with an outcome (08 R280). -/
def Blk.rwEnd (b : Blk) (st : Nat) : Blk :=
  match b.meas.rw with
  | none => b
  | some w =>
    let b := b.mapAx w.axis fun a => { a with reg := a.reg.endTest }
    ({ b with meas := { b.meas with rw := none } }.set MEAS.RW_RES.ST st).raise [MEAS.EVT.RW_DONE]

/-- A winding measurement whose cell a trip or STO has stopped is aborted (08 R280). -/
def Blk.rwCheck (b : Blk) : Blk :=
  match b.meas.rw with
  | none => b
  | some w => if (b.axis w.axis).reg.test.isNone then b.rwEnd 5 else b

/-- A winding measurement is asked for (08 R280): the cell regulates `I_TEST` through the pair. -/
def Blk.rwGo (b : Blk) : Blk :=
  if b.meas.rw.isSome then b else
  let n := b.r MEAS.RW_REQ.AXIS
  let refuse := (b.set MEAS.RW_RES.ST 3).raise [MEAS.EVT.RW_DONE]
  if h : n < 48 then
    let a := b.axis ⟨n, h⟩
    if a.mot.mode = .fallow && a.legs.phase = .normal && !a.trip.latch && b.pw.gd then
      let pair := b.r MEAS.RW_REQ.PAIR; let mA := b.r MEAS.RW_REQ.I_TEST
      { (b.set MEAS.RW_RES.ST 1).mapAx ⟨n, h⟩ (fun a => { a with reg := { a.reg with test := some (Fin.ofNat 3 pair, mA) } }) with
        yieldDue := b.yieldDue || b.needAxes [⟨n, h⟩]
        meas := { b.meas with rw := some { axis := ⟨n, h⟩, pair := pair, mA := mA } } }
    else refuse
  else refuse

/-- A side is let in again from OUT (10 R330). -/
def Blk.sideRetry (b : Blk) (s : Side) : Blk :=
  if (b.side s).st == .out then b.mapSide s fun x => { x with st := .booting } else b

/-- A frame as the port's settings form it (16 R482 to R484): under eight-lane DDR the command goes with its complement, and the address
has four bytes. -/
def Blk.serFrame (b : Blk) (s : Side) (dev : Fin 8) (op : Nat) (addr : Option Nat) (dummy : Nat) (data : List Byte) (read : Bool) : SerFrame :=
  let ddr := b.bit (SMP.CFG.DDR.smp s); let eight := decide (b.r (SMP.CFG.LANES.smp s) = 3)
  let n := 2 ^ b.r (SMP.CFG.LANES.smp s); let both := eight && ddr
  let op := BitVec.ofNat 8 op; let div := b.r (SMP.CFG.DIV.smp s)
  { dev, cpm := b.r (SMP.CFG.CPM.smp s)
    -- reads on both edges without the strobe go at 50 MHz at most
    div := if read && ddr && !b.bit (SMP.CFG.DQS.smp s) then max 1 div else div
    cmd := ⟨if both then [op, ~~~op] else [op], if eight then 8 else 1, both⟩
    addr := ⟨addr.elim [] fun a => (leBytes (if both then 4 else b.r (SMP.WIN2.ABYTES.smp s)) a).reverse, n, ddr⟩
    dummy, data := ⟨data, n, ddr⟩, read, bits := 8 * data.length }

/-- A read frame of the window command (16 R484, R488). -/
def Blk.readFrame (b : Blk) (s : Side) (dev : Fin 8) (addr : Nat) (data : List Byte) : SerFrame :=
  b.serFrame s dev (b.r (SMP.WIN.RD_CMD.smp s)) (some addr) (b.r (SMP.WIN2.DUMMY.smp s)) data true

/-- The frames of an operation (16 R489, R491; notes/assumptions/110.md): write-enable, then the program of a whole page, whose unwritten
bytes go as 0xFF, or the erase. -/
def Blk.opFrames (b : Blk) (s : Side) : SmOp → List SerFrame
  | .program dev base bs =>
    [b.serFrame s dev 0x06 none 0 [] false,
     b.serFrame s dev (b.r (SMP.WIN.PROG_CMD.smp s)) (some base) 0
       ((List.range 256).map fun o => (bs.find? (·.1 = o)).elim 0xFF (·.2)) false]
  | .erase dev base => [b.serFrame s dev 0x06 none 0 [] false, b.serFrame s dev 0xD8 (some base) 0 [] false]

/-- The pages of a run of bytes, each with its base. -/
def pagesOf (base : Nat) (bs : List Byte) : List (Nat × List (Nat × Byte)) :=
  (List.range ((base % 256 + bs.length + 255) / 256)).map fun k =>
    let lo := base - base % 256 + 256 * k
    (lo, (List.range 256).filterMap fun o => if lo + o < base then none else (bs[lo + o - base]?).map fun v => (o, v))

/-- The frames that write a run of bytes to device 0. -/
def Blk.putFrames (b : Blk) (s : Side) (base : Nat) (bs : List Byte) : List SerFrame :=
  (pagesOf base bs).flatMap fun g => b.opFrames s (.program 0 g.1 g.2)

/-- The frames of an access (16 R483). -/
def Blk.smSend (b : Blk) (s : Side) (fs : List SerFrame) : Blk := b.mapSm s fun p => { p with frames := fs }

/-- A translated write: the program of a page, not the erase of a load's block (16 R489, 14 R454). -/
def SmOp.writes : SmOp → Bool
  | .program .. => true
  | .erase .. => false

/-- An operation begins; `PROG` reads 1 from a flush until its poll ends (16 R489, R490). -/
def Blk.smBegin (b : Blk) (s : Side) (o : SmOp) : Blk :=
  ((b.smSend s (b.opFrames s o)).mapSm s fun p => { p with op := some o, cut := false }).setB (SMP.STAT.PROG.smp s) o.writes

/-- The page buffer goes to its device (16 R489). -/
def Blk.smFlush (b : Blk) (s : Side) : Blk :=
  let p := b.smp s
  match p.page, p.op with
  | some g, none => (b.mapSm s fun p => { p with page := none }).smBegin s (.program g.dev g.base g.bytes)
  | _, _ => b

/-- A frame cut by a restart or reset of its side counts as failed; a busy read is given up, a write or erase waits to be repeated
(16 R485). -/
def Blk.smCut (b : Blk) (s : Side) : Blk :=
  let b := if (b.smp s).op.isSome && !(b.smp s).cut then b.count (SMP.STAT.ERR.smp s) else b
  b.mapSm s fun p => { p with retry := none, cut := p.op.isSome, lost := 0 }

/-- The side runs again: what was cut is repeated from its beginning (16 R485). -/
def Blk.smResume (b : Blk) (s : Side) : Blk :=
  match (b.smp s).op with
  | some o => if (b.smp s).cut then b.smBegin s o else b
  | none => b

/-- A device counts as absent by its identification (16 R488). -/
def noDevice (id : BitVec 24) : Bool := id = 0 || id = 0xFFFFFF

def smpFlag (f : Flag) (s : Side) : Flag := f.skip (match s with | .a => 0 | .b => 1)

/-- The port checks every device (16 R488, R501): one that has gone raises `DEV_ABSENT`. -/
def Blk.smIdentify (b : Blk) (s : Side) (ids : Idents) : Blk :=
  let was := (b.smp s).absent
  let now : BitVec 8 := (List.finRange 8).foldl (fun v d => bitSet v d.val (noDevice (ids.get d))) 0
  let frame := fun (d : Fin 8) => b.serFrame s d 0x9F none 0 (leBytes 3 (ids.get d).toNat).reverse true
  (b.mapSm s fun p => { p with absent := now, answers := ids, frames := (List.finRange 8).map frame }).raiseIf (now &&& ~~~ was != 0)
    (smpFlag SMP.EVT.DEV_ABSENT s)

/-- A change of the bank record of a side (16 R494). -/
def Blk.setRec (b : Blk) (s : Side) (f : BankRec → BankRec) : Blk :=
  let m := putRec (b.smp s).mem f
  let k := recBase (recOlder (b.smp s).mem)
  (b.smSend s (b.opFrames s (.erase 0 k) ++ b.putFrames s k (memBytes m k 16))).mapSm s fun p => { p with mem := m }

/-- An ordinary request for a single sample (08 R267, R268). -/
def Axis.singleReq (a : Axis) (req : Nat) : Axis :=
  let put := fun (a : Axis) (s : Fin 2) => if req.testBit s.val then { a with slc := a.slc.set s { a.slc.get s with single := some (a.pwm.start.getD 0) } } else a
  put (put a 0) 1

/-- What follows a write to an axis register that has been stored; `v` is the written word. -/
def Axis.wrote (a : Axis) (i : Nat) (v : Word) : Axis :=
  let a := a.setB AX.AX_SUPV.HELD false
  if i = AX.TRIP_CLR.CLR.reg then (if v.getLsbD 0 && a.trip.latch then { a with trip := { a.trip with clearReq := true } } else a)
  else if i = AX.SLC_CFG.REQ.reg then a.singleReq ((v.toNat >>> 1) % 4)
  else if i = AX.CUR_CTRL.BW.reg || i = AX.BL_CFG.BW.reg then
    let a := a.deriveGains
    if i = AX.BL_CFG.BW.reg && (a.mot.mode = .fallow || a.mot.mode = .unconfigured) then
      a.takeHall
    else a
  else a

/-- Register fields that take no write in the axis's present state: gains that the cell derives (04 R112, 05 R152). -/
def Axis.locked (a : Axis) (i : Nat) : Bool :=
  (i = AX.CUR_GAIN.KP.reg && a.b AX.CUR_CTRL.AUTO) || (i = AX.BL_GAIN.KP.reg && a.b AX.BL_CFG.AUTO)

/-- What follows a write to a module register that has been stored.  `rep` is the port of the writing command and its SEQ
(12 R408). -/
def Blk.modWrote (b : Blk) (i : Nat) (v : Word) (rep : Option (Fin 6 × BitVec 16)) : Blk :=
  if i = MOD.PWM_LOAD_HI.LOAD_ALL.reg then (if b.bit MOD.PWM_LOAD_HI.LOAD_ALL then b.loadAllCapture else b)
  else if i = SIDE.CTRL.RETRY_A.reg then
    let b := if v.getLsbD 0 then b.sideRetry .a else b
    if v.getLsbD 1 then b.sideRetry .b else b
  else if i = LEDG.CTR_CLR.MOD.reg then
    let b := if v.getLsbD 0 then b.clearModCounters else b
    if v.getLsbD 1 then b.clearAxCounters ((v.toNat >>> 2) % 64) else b
  else if i = MEAS.IC7_CFG.ARM.reg then
    let b := { b with meas := { b.meas with ic7Rot := b.meas.ic7Rot || b.r MEAS.IC7_CFG.TRIG = 0 } }
    -- no operand dates the write within the period that runs (notes/assumptions/141.md)
    let at_ := (b.ax[b.r MEAS.IC7_CFG.AXIS]?).bind fun a => a.pwm.start.map fun t => t + Config.freeNat b.fresh % (16 * a.per + 1)
    (if v.getLsbD 26 && b.r MEAS.IC7_CFG.TRIG = 1 then { b with meas := { b.meas with ic7Armed := some (at_.getD 0) } }.draw else b)
  else if i = MEAS.RW_REQ.GO.reg then (if v.getLsbD 31 then b.rwGo else b)
  else if i = SMP.WIN.SEL.reg then b.smFlush .a
  else if i = SMP.WIN.SEL.reg + 5 then b.smFlush .b
  else
    match (List.finRange 6).find? fun p => MB.CFG.NRATE.reg + 38 * p.val = i with
    | some p =>
      -- on a port that sends nothing, and owes no reply to this command, the next bus idle is at once (12 R408)
      let seq := rep.bind fun r => if r.1 = p then some r.2 else none
      let t := b.ports.get p
      let w := (b.regs[i]?).getD 0
      let begun := t.tx.any fun x => x.cur.elim false fun c => c.idx != 0
      { b with ports := b.ports.set p (if seq.isNone && !begun then { t with timing := w, timingNext := none } else { t with timingNext := some (w, seq) }) }
    | none => b

/-- Whether a write that is ignored as a whole would have changed a value, once it is limited (13 R444). -/
def wouldChange (d : RegDef) (cur v : Word) (st : Vector Nat 24) : Bool :=
  let m := BitVec.ofNat 32 (d.rw ||| d.rb ||| d.rk ||| d.ro)
  ((cur ^^^ v) &&& m) != 0 || (v &&& BitVec.ofNat 32 d.wo) != 0 || (d.rc != 0 && writeBackWord cur st v != cur)

/-- A write to a register of the module pages from its writing plane. -/
def Blk.writeMod (b : Blk) (pl : Plane) (i : Nat) (d : RegDef) (v : Word) (keyed : Bool) (rep : Option (Fin 6 × BitVec 16)) : Blk :=
  let cur := (b.regs[i]?).getD 0
  match modEvRegs.findIdx? (· = i) with
  | some ev =>
    let (_, _, rsv) := mergeWord d cur v keyed b.pw.straps.bench
    let w := d.putRsv b.pw.straps.bench (writeBackWord cur ((b.stamps[ev]?).getD (Vector.replicate 24 0)) v) v
    let b := { b with regs := b.regs.setIfInBounds i w }
    b.raiseIf rsv MOD.EVT.RSV_WR
  | none =>
    if (i = MOD.PWM_LOAD_LO.SEL.reg || i = MOD.PWM_LOAD_HI.SEL.reg) && b.bit MOD.PWM_LOAD_HI.LOAD_ALL then
      if wouldChange d cur v (Vector.replicate 24 0) then b.viol pl else b
    else
      let shown := b.modWord 1 i
      let keyed' := keyed && b.pw.straps.bench
      let (_, ign, _) := mergeWord d shown v keyed b.pw.straps.bench
      let (w, _, rsv) := mergeWord d cur (b.modClamp i v) keyed' b.pw.straps.bench
      let b := if ign then b.viol pl else b
      let b := { b with regs := b.regs.setIfInBounds i w }
      let b := b.raiseIf rsv MOD.EVT.RSV_WR
      b.modWrote i v rep

/-- A write to a register of an axis page from its writing plane. -/
def Blk.writeAx (b : Blk) (pl : Plane) (n : Fin 48) (i : Nat) (d : RegDef) (v : Word) : Blk :=
  let a := b.axis n
  let cur := (a.regs[i]?).getD 0
  match axEvRegs.findIdx? (· = i) with
  | some ev =>
    let (_, _, rsv) := mergeWord d cur v false b.pw.straps.bench
    let b := b.mapAx n fun a => (({ a with
      regs := a.regs.setIfInBounds i (d.putRsv b.pw.straps.bench (writeBackWord cur ((a.stamps[ev]?).getD (Vector.replicate 24 0)) v) v) }).setB
        AX.AX_SUPV.HELD false)
    b.raiseIf rsv MOD.EVT.RSV_WR
  | none =>
    if a.locked i then b else
    let shown := a.word (Config.freeNat b.fresh) i
    let (_, ign, _) := mergeWord d shown v false b.pw.straps.bench
    let (w, _, rsv) := mergeWord d cur (clampWord axClamps i v) false b.pw.straps.bench
    let b := if ign then b.viol pl else b
    let b := if i = AX.PWM_STAT.CNT.reg then b.draw else b
    let b := b.mapAx n fun a => ({ a with regs := a.regs.setIfInBounds i w }).wrote i v
    b.raiseIf rsv MOD.EVT.RSV_WR

/-- Registers that a slave takes from the master alone: the budget, and the margin of the reserve (15 R475). -/
def stackRegs : List Nat := [LEDG.BUD_PWR.P_IN_MAX.reg, LEDG.BUD_IIN.I_IN_MAX_A.reg, LEDG.BUD_LINK.V_LINK_LO.reg, LEDG.BUD_RES.E_RES.reg,
  LEDG.BUD_RET.RET_A.reg, LEDG.ES_CFG.P_CHG_MAX.reg, LEDG.BRK_CFG.P_BRK_MAX.reg, LEDG.RES_CFG.RES_MARGIN.reg]

/-- One register write on a plane (13 R436, R437, R443): it disarms the lock of the plane, unless it arms it. -/
def Blk.writeReg (b : Blk) (pl : Plane) (addr : Nat) (v : Word) (rep : Option (Fin 6 × BitVec 16)) : Blk :=
  let p := b.planes.get pl.idx
  let keyed := p.armed
  let put := fun (b : Blk) (f : PlaneSt → PlaneSt) => { b with planes := b.planes.set pl.idx (f (b.planes.get pl.idx)) }
  let b := put b fun p => { p with armed := false }
  match locate addr with
  | .unlock =>
    let arm := v.toNat % 65536 = 0x6D58
    let b := if v.getLsbD 16 != keyed then b.viol pl else b
    let rsv := v &&& unlockRsv
    let b := b.raiseIf (rsv != p.rsvUnlock && !b.pw.straps.bench) MOD.EVT.RSV_WR
    let bench := b.pw.straps.bench
    put b fun p => { p with armed := arm, rsvUnlock := if bench then rsv else p.rsvUnlock }
  | .mbxSel => put b fun p => { p with sel := v, valid := false, due := true }
  | .mbxStat =>
    let rsv := v &&& statRsv
    let b := if (v ^^^ p.statWord) &&& ~~~statRsv != 0 then b.viol pl else b
    let b := b.raiseIf (rsv != p.rsvStat && !b.pw.straps.bench) MOD.EVT.RSV_WR
    let bench := b.pw.straps.bench
    put b fun p => { p with rsvStat := if bench then rsv else p.rsvStat }
  | .mbxD j => if v != (if p.valid then p.d.get j else 0) then b.viol pl else b
  | .cal i => if v != (b.meas.copies.get b.meas.inUse).entry i then b.viol pl else b
  | .none => if v != 0 then b.viol pl else b
  | .mod i =>
    (match modDefs[i]? with
     | none => b
     | some d =>
       if d.writer = pl && !(b.slave && stackRegs.contains i) then b.writeMod pl i d v keyed rep
       else if wouldChange d (b.modWord 1 i) (b.modClamp i v) ((b.stamps[(modEvRegs.findIdx? (· = i)).getD 16]?).getD (Vector.replicate 24 0)) then b.viol pl
       else b)
  | .axis n i =>
    let a := b.axis n
    if a.foreign i then b else
    (match axDefs[i]? with
     | none => b
     | some d =>
       if d.writer = pl then b.writeAx pl n i d v
       else if !a.locked i && wouldChange d (a.word (Config.freeNat b.fresh) i) (clampWord axClamps i v)
           ((a.stamps[(axEvRegs.findIdx? (· = i)).getD 6]?).getD (Vector.replicate 24 0)) then
         b.viol pl
       else b)

end Sys2Proof.Machine
end

