-- ==== Sys2Proof/Machine/Operands.lean ====
section
/-!
DEFINITION. The operand forms of packets (11 R381 to R397): fields of a payload, targets, move blocks and masters.
-/

namespace Sys2Proof.Machine

/-- An unsigned field of n bytes at an offset of a payload, low byte first. -/
def u (bs : List Byte) (o n : Nat) : Nat := leNat ((bs.drop o).take n)
/-- A signed field. -/
def sI (bs : List Byte) (o n : Nat) : Int := (BitVec.ofNat (8 * n) (u bs o n)).toInt

/-- The offset that `BAD_PARAM` reports for a target, a length, or another fault without a byte of its own (11 R398). -/
def noByte : Nat := 0xFF

/-- The targets that an opcode accepts (11 R381). -/
inductive TgtKind | module | axis | many | group | stopAll
  deriving DecidableEq, Repr

def tgtKind (opc : Nat) : TgtKind :=
  if opc ∈ [0x20, 0x21, 0x22, 0x36, 0x37, 0x38, 0x39, 0x3B, 0x3C] then .axis
  else if opc ∈ [0x09, 0x30, 0x31, 0x32, 0x34, 0x35, 0x40, 0x41] then .many
  else if opc = 0x33 then .group
  else if opc = 0x42 then .stopAll
  else .module

/-- The axes of a target, none where the opcode does not take it or the group has no member (11 R381, R382). -/
def Blk.targets (b : Blk) (k : TgtKind) (t : Byte) : Option (List (Fin 48)) :=
  let ax : Option (List (Fin 48)) := if h : t.toNat < 48 then some [⟨t.toNat, h⟩] else none
  let grp : Option (List (Fin 48)) :=
    if 0xF0 ≤ t.toNat && t.toNat ≤ 0xF7 then
      (match b.groupMembers (t.toNat - 0xF0) with | [] => none | l => some l)
    else none
  match k with
  | .module => if t = 0xFE then some [] else none
  | .axis => ax
  | .many => if t = 0xFF then some allAxes else ax.or grp
  | .group => grp
  | .stopAll => if t = 0xFE || t = 0xFF then some allAxes else none

/-- The mask of a list of axes, 6 bytes (11 R382). -/
def axisMask (ns : List (Fin 48)) : List Byte := leBytes 6 (ns.foldl (fun m n => m ||| 2 ^ n.val) 0)

def maskAxes (m : Nat) : List (Fin 48) := allAxes.filter fun n => m.testBit n.val

/-- A move block (11 R387). -/
structure MoveBlock where
  policy : Nat
  options : Nat
  dly : Nat
  value : Int
  lim : Limits
  deriving DecidableEq, Repr

def moveBlock (opc : Nat) (bs : List Byte) : MoveBlock :=
  { policy := u bs 0 1, options := u bs 1 1, dly := u bs 2 2, value := if opc = 0x32 then sI bs 4 4 else sI bs 4 8
    lim := ⟨u bs 12 4, u bs 16 4, u bs 20 4, u bs 24 4⟩ }

/-- The first byte of a move block that its rules refuse (11 R371, R387), by the session version. -/
def MoveBlock.bad (m : MoveBlock) (opc ver : Nat) : Option Nat :=
  if 3 < m.policy then some 0
  else if ver < 0x11 && (m.policy = 1 || m.policy = 2) then some 0
  else if m.options.testBit 0 && opc = 0x32 then some 1
  else if m.options.testBit 1 && opc != 0x32 then some 1
  else none

/-- A master in its 8 bytes (11 R390): a local one names 0xFE or the module's own address, a remote one an enumerated module at
link version 2 (15 R474). -/
def Blk.masterRef (b : Blk) (bs : List Byte) (o : Nat) : Option MasterRef :=
  let src := u bs o 1; let n := u bs (o + 1) 1; let m := u bs (o + 2) 1
  if h : n < 48 then
    let ax : Fin 48 := ⟨n, h⟩
    if m = 0xFE || m = b.addr.toNat then
      (match src with | 0 => some (.cmd ax) | 1 => some (.meas ax) | 2 => some (.step ax) | _ => none)
    else if b.stacked && 2 ≤ b.casc.lver && src < 3 && b.casc.mods.any (fun x => !x.heldOut && x.addr.toNat = m) then
      some (.remote (BitVec.ofNat 8 m) ax (Fin.ofNat 3 src))
    else none
  else none

/-- The first byte of a master that names none (11 R390, R398). -/
def masterByte (bs : List Byte) (o : Nat) : Nat := if 2 < u bs o 1 then o else if 48 ≤ u bs (o + 1) 1 then o + 1 else o + 2

def MasterRef.local : MasterRef → Option (Fin 48)
  | .cmd n => some n | .meas n => some n | .step n => some n | .remote .. => none

end Sys2Proof.Machine
end

