-- ==== Sys2Proof/Machine/Protocol.lean ====
section
/-!
DEFINITION. How the module judges a packet (11 R358 to R372), and how it answers (11 R363, R367, R398).
-/

namespace Sys2Proof.Machine

/-! ### Opcodes -/

/-- The planes that serve an opcode, none for every plane, and the version that brought it (01 R18, 11 R364, R371). -/
def opcode (opc : Nat) : Option (Option Plane × Nat) :=
  if opc = 0x04 then some (some .ctrl, 0x20)
  else if opc = 0x53 then some (some .ctrl, 0x11)
  else if opc = 0x7D then some (some .mgmt, 0x21)
  else if opc ∈ [0x06, 0x10, 0x11, 0x12, 0x13, 0x14, 0x42] then some (none, 0x10)
  else if opc ∈ [0x01, 0x02, 0x03, 0x05, 0x08, 0x09, 0x20, 0x21, 0x22, 0x40, 0x41, 0x50, 0x51] || (0x30 ≤ opc && opc ≤ 0x3C) then
    some (some .ctrl, 0x10)
  else if opc ∈ [0x52, 0x60, 0x61, 0x62] then some (some .data, 0x10)
  else if opc ∈ [0x70, 0x71, 0x72, 0x73, 0x78, 0x79, 0x7A, 0x7C] then some (some .mgmt, 0x10)
  else none

def Req.plane (q : Req) : Plane := portPlane q.h.port

/-- A `TAKEOVER` with mode CLAIM (11 R378). -/
def Req.claim (q : Req) : Bool := q.opc = 0x04 && q.body.head? = some 1

/-- Commands that take no place in the sequence (11 R365). -/
def Req.exempt (q : Req) : Bool := q.opc ∈ [0x01, 0x02, 0x05, 0x06, 0x42] || q.claim

/-- The source is the owner of a live session (01 R28, R29). -/
def Blk.isOwner (b : Blk) (src : Byte) : Bool := b.sess.elim false fun s => !s.orphan && s.owner = src

/-- The session version that a command is judged by; the module's own where there is no session. -/
def Blk.version (b : Blk) : Nat := b.sess.elim 0x21 (·.version)

/-! ### Answering -/

/-- The class of a reply (11 R362). -/
def Req.replyClass (q : Req) : Fin 8 :=
  if q.opc = 0x05 then 6
  else if q.opc ∈ [0x3A, 0x72, 0x78, 0x62] then 7
  else match q.plane with | .mgmt => 4 | _ => 2

/-- This command is the accepted one that waits for its reply. -/
def Acc.waitsFor (x : Acc) (q : Req) : Bool := x.reply.isNone && x.q.h.seq = q.h.seq && x.q.h.src = q.h.src && x.q.opc = q.opc

/-- A reply (11 R363, R369, R380; notes/assumptions/18.md). -/
def Blk.mkReply (b : Blk) (q : Req) (st : Nat) (extra : List Byte) : OutPkt :=
  let taken := !q.exempt && (b.planes.get q.plane.idx).acc.any (·.waitsFor q)
  let own := if q.via = .ring || b.isOwner q.h.src || taken then b.sess else none
  { cls := q.replyClass, dest := q.h.src, src := b.addr
    major := own.elim (if q.h.major.val < 2 then q.h.major else 2) fun s => ⟨s.version / 16 % 16, by omega⟩
    async := false, reply := true, sid := own.elim 0 (·.sid), seq := q.h.seq, opc := BitVec.ofNat 8 q.opc, tgt := q.h.tgt
    body := BitVec.ofNat 8 st :: extra }

/-- An exempt command that changes something has its journal entry too (10 R325): it names no place in the sequence. -/
def Req.journaled (q : Req) : Bool := q.opc = 0x02 || q.opc = 0x42 || q.claim

/-- The answer to a command: journaled with the swath of its execution (10 R325), stored for its retransmissions and sent to every port that
waits for it (11 R367), and a refusal logged (16 R497). -/
def Blk.answer (b : Blk) (q : Req) (st : Nat) (extra : List Byte := []) : Blk :=
  let o := b.mkReply q st extra
  let p := b.planes.get q.plane.idx
  let b := if st < 0x10 then b else
    b.logEntry 6 0x41 0xFE q.plane.idx.val ([BitVec.ofNat 8 q.opc, BitVec.ofNat 8 st] ++ leBytes 2 q.h.seq.toNat ++ leBytes 1 q.plane.idx.val)
  match (if q.exempt then none else p.acc.find? (·.waitsFor q)) with
  | some x =>
    let acc := p.acc.map fun y => if y.waitsFor q then { y with swath := b.swath, reply := some o, waits := [], fresh := true } else y
    x.waits.foldl (fun b v => b.sendVia v o) { b with planes := b.planes.set q.plane.idx { p with acc := acc } }
  | none =>
    let b := if q.exempt && q.journaled && st < 0x10 then
      { b with planes := b.planes.set q.plane.idx { p with acc := ⟨q, b.swath, [], some o, true⟩ :: p.acc } } else b
    b.sendVia q.via o

def Blk.ok (b : Blk) (q : Req) (extra : List Byte := []) : Blk := b.answer q 0 extra
/-- `BAD_PARAM` with the offset of the first offending byte (11 R398). -/
def Blk.badParam (b : Blk) (q : Req) (off : Nat := noByte) : Blk := b.answer q 0x31 [BitVec.ofNat 8 off]
def Blk.refusedState (b : Blk) (q : Req) : Blk := b.answer q 0x12
def Blk.busy (b : Blk) (q : Req) : Blk := b.answer q 0x40

/-! ### Judging -/

/-- What steps 1 to 6 of 11 R365 decide. -/
inductive Judged
  | drop
  | refuse (st : Nat) (extra : List Byte)
  | again (o : OutPkt)
  | join
  | go
  deriving DecidableEq, Repr

/-- The module's range, as `VERSION` carries it (11 R398). -/
def versionRange : List Byte := [0x10, 0x21]

/-- Step 1 in what it leaves to the packet: its class, its destination and its length (11 R358, R362, R363); a module held out of
a stack takes only `STOP_ALL` (15 R465). -/
def Blk.heeds (b : Blk) (q : Req) : Bool :=
  (q.via = .ring ||
  ((q.h.cls = 0 && q.opc = 0x42 || q.h.cls = 1 || q.h.cls = 4 || q.h.cls = 6 || q.h.cls = 7)
    && (q.h.dest = b.addr || (q.h.dest = 0xFF && q.opc ∈ [0x01, 0x06, 0x42]))
    && decide (q.body.length ≤ 1016) && (!b.outside || q.opc = 0x42)))
  && b.pw.powered && !b.pw.held && b.pw.resetDue.isNone && b.nap == .awake && ((b.ready && b.act.isSome) || b.phase = 1)

/-- Steps 2 to 6 in the ROM phase (09 R315, 11 R369). -/
def judgeRom (q : Req) : Judged :=
  if q.opc ∈ [0x01, 0x02, 0x06] && q.h.major = 0 then .refuse 0x24 versionRange
  else if q.opc ∈ [0x01, 0x06, 0x42] then .go
  else if q.opc = 0x78 then
    if q.h.major != 1 && q.h.major != 2 then .refuse 0x24 versionRange
    else if q.plane = .mgmt then .go else .refuse 0x30 []
  else .refuse 0x12 []

/-- Steps 5 and 6 (11 R365 to R367). -/
def Blk.judgeSeq (b : Blk) (q : Req) : Judged :=
  match b.sess with
  | none => .refuse 0x20 []
  | some s =>
    if q.h.sid != s.sid then .refuse 0x21 [s.sid]
    else
      let p := b.planes.get q.plane.idx
      let old := p.acc.find? fun x => !x.q.exempt && x.q.h.seq = q.h.seq && x.q.h.src = q.h.src
      if q.h.seq = p.l + 1 then .go
      else match (if (p.l - q.h.seq).toNat < 64 then old else none) with
        | some x => (match x.reply with | some o => .again o | none => .join)
        | none => .refuse 0x22 (leBytes 2 (p.l + 1).toNat)

/-- Steps 2 to 6 of 11 R365. -/
def Blk.judged (b : Blk) (q : Req) : Judged :=
  if !b.heeds q then .drop
  else if b.phase = 1 then judgeRom q
  else
    let owner := q.via = .ring || b.isOwner q.h.src
    let free := q.opc ∈ [0x01, 0x02, 0x06]
    let verOk := if q.opc = 0x42 then true else if free then q.h.major != 0
      else !owner || b.sess.elim true fun s => s.version / 16 = q.h.major.val
    if !verOk then .refuse 0x24 versionRange
    else if !(owner || free || q.opc = 0x42 || q.claim) then .refuse 0x20 []
    else if q.opc = 0x02 && q.via != .ring && (b.slave || (!owner && b.sess.elim false fun s => !s.orphan)) then .refuse 0x20 []
    else
      match opcode q.opc with
      | none => .refuse 0x30 []
      | some (pl, v) =>
        -- another host's claim fails for its version with `NOT_OWNER` (11 R369, R405)
        if (b.sess.isSome && decide (b.version < v) && (owner || !q.claim)) || !(pl.elim true (· == q.plane)) then .refuse 0x30 []
        else if q.exempt then .go
        else b.judgeSeq q

/-- A frame that the module accepts from the owner restarts the heartbeat window, unless it is late (00 R6), and shows its port (10 R340,
11 R400). -/
def Blk.heard (b : Blk) (src sid : Byte) (port : Fin 6) (endUs : Nat) : Blk :=
  match b.sess with
  | none => b
  | some s =>
    if s.orphan || s.owner != src || s.sid != sid then b
    else
      let late := !b.slave && decide (s.hbFrom + 1000 * s.tmo ≤ endUs)
      { b with sess := some { s with hbFrom := if late then s.hbFrom else max s.hbFrom endUs, last := s.last.set (portPlane port).idx (some port) } }

/-- An accepted command needs the axis of the running graze slice (10 R347): a motion command, `HOLD`, `AXIS_RESET` or `AXIS_CONFIG` to it, or
`CAL_SELF` over it. -/
def Blk.grazeNeeds (b : Blk) (q : Req) : Bool :=
  if q.opc = 0x71 then b.needAxes (maskAxes (u q.body 0 6))
  else if q.opc = 0x09 || q.opc = 0x20 || (0x30 ≤ q.opc && q.opc ≤ 0x3C && q.opc != 0x35 && q.opc != 0x3A) then
    (b.targets .many q.h.tgt).elim false b.needAxes
  else false

/-- The command takes its place (11 R366, R367): answered commands that no retransmission can name are forgotten, and a graze slice on an axis
of the command is to end. -/
def Blk.take (b : Blk) (q : Req) : Blk :=
  let p := b.planes.get q.plane.idx
  let l := q.h.seq
  let keep := p.acc.filter fun x => x.reply.isNone || decide ((l - x.q.h.seq).toNat < 64)
  { b with yieldDue := b.yieldDue || b.grazeNeeds q, planes := b.planes.set q.plane.idx { p with l := l, acc := ⟨q, b.swath, [q.via], none, true⟩ :: keep } }

/-- A packet is judged, and run where it passes (11 R365 to R368). -/
def Blk.serve (run : Blk → Req → Blk) (b : Blk) (q : Req) : Blk :=
  let j := b.judged q
  let b := if j = .drop || q.via = .ring then b else b.heard q.h.src q.h.sid q.h.port q.h.endUs
  match j with
  | .drop => b
  | .refuse st ex => b.sendVia q.via (b.mkReply q st ex) |>.logEntry 6 0x41 0xFE q.plane.idx.val
      ([BitVec.ofNat 8 q.opc, BitVec.ofNat 8 st] ++ leBytes 2 q.h.seq.toNat ++ leBytes 1 q.plane.idx.val)
  | .again o => b.sendVia q.via o
  | .join =>
    let p := b.planes.get q.plane.idx
    { b with planes := b.planes.set q.plane.idx { p with
        acc := p.acc.map fun x => if x.reply.isNone && x.q.h.seq = q.h.seq && x.q.h.src = q.h.src then { x with waits := x.waits ++ [q.via] } else x } }
  | .go =>
    if q.exempt || b.phase = 1 then run b q
    else
      let full := decide (128 ≤ (b.planes.get q.plane.idx).open_)
      let b := b.take q
      if full then b.busy q else run b q

/-! ### Complete packets -/

/-- The request that a packet row stands for. -/
def Pkt.req (p : Pkt) (opc : Nat) : Req := ⟨p.toHdr, opc, p.body, .port p.port⟩

/-- A frame's identifier and sequence number are those of a packet with this header. -/
def Hdr.owns (h : Hdr) (f : Frame) : Bool :=
  (f.id >>> 26).toNat = h.cls.val && ((f.id >>> 18).toNat % 256) = h.dest.toNat && ((f.id >>> 10).toNat % 256) = h.src.toNat
    && leNat ((f.data.drop 2).take 2) = h.seq.toNat

/-- A packet being reassembled, or complete, is the one with this header. -/
def Hdr.same (h g : Hdr) : Bool := g.cls = h.cls && g.dest = h.dest && g.src = h.src && g.seq = h.seq

def Hdr.part (h : Hdr) (x : Reasm) : Bool :=
  x.cls = h.cls && x.dest = h.dest && x.src = h.src && leNat ((x.head.drop 2).take 2) = h.seq.toNat

/-- The packet leaves its port, as its plane serves it: its frames in the buffers, and what reassembly holds of it (12 R412). -/
def Blk.served (b : Blk) (h : Hdr) : Blk :=
  let r := b.rx.ports.get h.port
  { b with rx := { b.rx with ports := b.rx.ports.set h.port { r with
      hpb := r.hpb.filter fun f => !Hdr.owns h f, queue := r.queue.filter fun f => !Hdr.owns h f
      re := r.re.filter fun x => !Hdr.part h x, done := r.done.filter fun g => !Hdr.same h g } } }

/-- A command of a packet row: its frames are taken from the port, and it is judged and run. -/
def Blk.packet (b : Blk) (p : Pkt) (opc : Nat) (run : Blk → Req → Blk) : Blk := (b.served p.toHdr).serve run (Pkt.req p opc)

/-- A register write or read that has a row of its own: a `REG_WR` or `REG_RD` of one register. -/
def Hdr.regReq (h : Hdr) (opc addr : Nat) (v : Option Word) : Req :=
  ⟨h, opc, leBytes 3 addr ++ [0] ++ v.elim [] (fun v => leBytes 4 v.toNat), .port h.port⟩

end Sys2Proof.Machine
end

