-- ==== Sys2Proof/Machine/Reception.lean ====
section
/-!
DEFINITION. Frames, and how packets come out of them: the parts of a frame (11 R358 to R363, 12 R409), reassembly (11 R361), and the buffers
of a port with the service of its plane (12 R412).
-/

namespace Sys2Proof.Machine

/-! ### Frames (11 R359, R360) -/

/-- The data length of a frame with a chunk of c bytes. -/
def frameLen (c : Nat) : Nat := ([12, 16, 20, 24, 32, 48].find? fun f => decide (10 + c ≤ f)).getD 64

/-- The bytes of a frame before its check. -/
def framed (c : Nat) (bs : List Byte) : List Byte := padTo (frameLen c - 2) bs

/-- The data of frame i of a packet: header with its fragment flags, chunk, padding and check. -/
def OutPkt.frameData (o : OutPkt) (i : Nat) : List Byte :=
  let chunk := (o.body.drop (54 * i)).take 54
  let last := decide (o.body.length ≤ 54 * (i + 1))
  let flags : Byte := BitVec.ofNat 8 (2 * Bool.bit (0 < i) + Bool.bit !last)
  let head := match o.bytes.take 8 with | v :: t => (v ||| flags) :: t | [] => []
  let bs := framed chunk.length (head ++ chunk)
  bs ++ leBytes 2 (crc16 bs).toNat

/-- The number of frames of a packet. -/
def OutPkt.frames (o : OutPkt) : Nat := max 1 ((o.body.length + 53) / 54)

/-- The identifier of frame i (12 R409). -/
def OutPkt.id (o : OutPkt) (i : Nat) : Nat :=
  o.cls.val * 2 ^ 26 + o.dest.toNat * 2 ^ 18 + o.src.toNat * 2 ^ 10 + o.seq.toNat % 32 * 32 + i % 32

end Sys2Proof.Machine

namespace Sys2Proof

open Sys2Proof.Machine

/-! ### The parts of a frame (11 R358 to R363, 12 R409) -/

def Frame.cls (f : Frame) : Nat := (f.id >>> 26).toNat

def Frame.dest (f : Frame) : Byte := BitVec.ofNat 8 (f.id >>> 18).toNat

def Frame.src (f : Frame) : Byte := BitVec.ofNat 8 (f.id >>> 10).toNat

def Frame.index (f : Frame) : Nat := f.id.toNat % 32

/-- The header of a frame: first bytes without the fragment flags. -/
def Frame.head (f : Frame) : List Byte :=
  match f.data.take 8 with | v :: t => (v &&& 0xFC) :: t | [] => []

def Frame.len (f : Frame) : Nat := leNat ((f.data.drop 6).take 2)

def Frame.cont (f : Frame) : Bool := ((f.data[0]?).getD 0).getLsbD 1

def Frame.more (f : Frame) : Bool := ((f.data[0]?).getD 0).getLsbD 0

/-- The bytes of the payload that a frame carries. -/
def Frame.chunk (f : Frame) : Nat := min 54 (f.len - 54 * f.index)

/-- A frame passes 11 R359, its length and its index their bounds, and its flags are those of its place (R360). -/
def Frame.good (f : Frame) : Bool :=
  let last := decide (f.len ≤ 54 * (f.index + 1))
  f.fd && decide (8 ≤ f.data.length) && f.data.length = frameLen f.chunk
    && leNat (f.data.drop (f.data.length - 2)) = (crc16 (f.data.take (f.data.length - 2))).toNat
    && decide (f.len ≤ 1016) && decide (f.index ≤ 18) && decide (f.index = 0 ∨ 54 * f.index < f.len)
    && f.cont == decide (0 < f.index) && f.more == !last

/-- The packet header that a frame carries. -/
def Frame.hdr (f : Frame) : Hdr :=
  let d := fun (i : Nat) => (f.data[i]?).getD 0
  { port := f.port, cls := ⟨f.cls % 8, by omega⟩, dest := f.dest, src := f.src, major := ⟨(d 0).toNat / 16 % 16, by omega⟩
    sid := d 1, seq := BitVec.ofNat 16 (leNat ((f.data.drop 2).take 2)), tgt := d 5, endUs := f.endUs }

def Frame.opc (f : Frame) : Nat := ((f.data[4]?).getD 0).toNat

/-- A packet that the module discards without reply has no row of its own: its class, or its destination, is not a command's. -/
def Frame.idle (f : Frame) (addr : Byte) : Bool :=
  (f.cls = 0 && f.opc != 0x42) || f.cls = 2 || f.cls = 3 || f.cls = 5 || (f.dest != addr && !(f.dest = 0xFF && f.opc ∈ [0x01, 0x06, 0x42]))

end Sys2Proof

namespace Sys2Proof.Machine

/-! ### Reassembly (11 R358 to R361) -/

def Blk.mapRx (b : Blk) (p : Fin 6) (g : RxPort → RxPort) : Blk :=
  { b with rx := { b.rx with ports := b.rx.ports.set p (g (b.rx.ports.get p)) } }

/-- A packet in part is discarded. -/
def Blk.dropPart (b : Blk) (p : Fin 6) (src : Byte) : Blk := b.mapRx p fun r => { r with re := r.re.filter (·.src != src) }

/-- A frame joins its packet; with the last frame, the payload of the whole (11 R361). -/
def Blk.reassemble (b : Blk) (f : Frame) : Blk × Option (List Byte) :=
  let data := (f.data.drop 8).take f.chunk
  if !f.good then (b.dropPart f.port f.src, none)
  else if f.index = 0 then
    -- a new first frame ends the packet before it
    let b := b.dropPart f.port f.src
    if !f.more then (b, some data)
    else (b.mapRx f.port fun r => { r with re := r.re ++ [⟨f.src, ⟨f.cls % 8, by omega⟩, f.dest, f.head, 1, data, f.endUs⟩] }, none)
  else
    match (b.rx.ports.get f.port).re.find? (·.src = f.src) with
    | none => (b, none)
    | some x =>
      if x.next != f.index || x.head != f.head || x.cls.val != f.cls || x.dest != f.dest || decide (x.firstEnd + 10000 ≤ f.endUs) then
        (b.dropPart f.port f.src, none)
      else
        let got := x.got ++ data
        if f.more then
          (b.mapRx f.port fun r => { r with re := r.re.map fun y => if y.src = f.src then { y with next := y.next + 1, got := got } else y }, none)
        else (b.dropPart f.port f.src, some got)

/-- A complete packet waits for its row.  One that no row stands for is done with here: one that is discarded, and one of an unknown opcode,
which is refused (11 R362, R364). -/
def Blk.complete (b : Blk) (f : Frame) (body : List Byte) : Blk :=
  if f.idle b.addr then b
  else if (opcode f.opc).isNone then b.serve (fun b _ => b) ⟨f.hdr, f.opc, body, .port f.port⟩
  else b.mapRx f.port fun r => { r with done := r.done ++ [f.hdr] }

/-- A frame reaches reassembly. -/
def Blk.join (b : Blk) (f : Frame) : Blk :=
  let (b, p) := b.reassemble f
  p.elim b (b.complete f)

/-! ### The buffers (12 R412) -/

/-- The plane of a port serves its queue: every frame that has ended by then, in order of frame end. -/
def Blk.serveQueue (b : Blk) (p : Fin 6) (us : Nat) : Blk :=
  let q := (b.rx.ports.get p).queue
  (q.filter fun f => decide (f.endUs ≤ us)).foldl Blk.join
    (b.mapRx p fun r => { r with queue := q.filter fun f => decide (us < f.endUs) })

/-- The last service of a port's buffers before a time, µs (notes/assumptions/146.md): the start of the swath for the control and data planes,
and the last whole 100 µs for the management plane. -/
def lastService (p : Fin 6) (us : Nat) : Nat := match portPlane p with | .mgmt => us / 100 * 100 | _ => us / 1000 * 1000

/-- The buffers of a port at a time: the HPB holds the frames of the last 100 µs. -/
def Blk.drain (b : Blk) (p : Fin 6) (us : Nat) : Blk :=
  (b.serveQueue p (lastService p us)).mapRx p fun r => { r with hpb := r.hpb.filter fun f => decide (us < f.endUs + 100) }

/-- Every port's buffers at the start of a swath. -/
def Blk.drainAll (b : Blk) : Blk := (List.finRange 6).foldl (fun (b : Blk) p => b.drain p (1000 * b.swath)) b

/-- An accepted frame takes its place in a buffer, or is lost to a full one: a frame in the HPB reaches reassembly at once. -/
def Blk.take1 (b : Blk) (f : Frame) (high : Bool) : Blk :=
  let b := (if f.good then b.heard f.src f.hdr.sid f.port f.endUs else b).drain f.port f.endUs
  let r := b.rx.ports.get f.port
  if high then
    if r.hpb.length < 8 then (b.mapRx f.port fun r => { r with hpb := r.hpb ++ [f] }).join f
    else (b.count (MB.CNT2.HPB_OVR.port f.port)).raise [MB.EVT.HPB_OVR.skip f.port.val]
  else if r.queue.length < 32 then b.mapRx f.port fun r => { r with queue := r.queue ++ [f] }
  else (b.count (MB.CNT.RX_OVR.port f.port)).raise [MB.EVT.RX_OVR.skip f.port.val]

end Sys2Proof.Machine
end

