-- ==== Sys2Proof/Machine/Session.lean ====
section
/-!
DEFINITION. Sessions and takeover (11 R373 to R383), sessions that lapse (10 R340 to R342), and the reset of an axis
(10 R344, R345).
-/

namespace Sys2Proof.Machine

/-! ### Shared -/

def Blk.mapPlanes (b : Blk) (f : PlaneSt → PlaneSt) : Blk := { b with planes := b.planes.map f }

/-- Step 7 for a command to the module (11 R372, R381): its target, and a payload not shorter than its layout. -/
def Blk.forModule (b : Blk) (q : Req) (len : Nat) (k : Blk → Blk) : Blk :=
  if q.h.tgt != 0xFE || decide (q.body.length < len) then b.badParam q else k b

/-- The versions that the module speaks, highest first (11 R370, R371; notes/assumptions/20.md). -/
def spoken : List Nat := [0x21, 0x20, 0x11, 0x10]

def commonVersion (lo hi : Nat) : Option Nat := spoken.find? fun v => decide (lo ≤ v) && decide (v ≤ hi)

/-- The reply of a command to several axes (11 R382); a single axis answers with its status alone. -/
def Blk.answerEach (b : Blk) (q : Req) (axes : List (Fin 48)) (sts : List Nat) : Blk :=
  if q.h.tgt.toNat < 48 then b.answer q (sts.headD 0)
  else b.answer q ((sts.find? (· != 0)).getD 0) (axisMask axes ++ sts.map (BitVec.ofNat 8 ·))

/-! ### Ends of a session -/

/-- Step 1 of 10 R341: waiting moves, queues, candidates and streams; the candidates get no reply (11 R405). -/
def Blk.withdrawAll (b : Blk) : Blk :=
  let lost := fun (x : Acc) => b.plan.cands.any fun c => x.waitsFor c.q
  let b := b.mapPlanes fun p => { p with acc := p.acc.filter fun x => !lost x }
  { b with
    ax := b.ax.map fun a => (Cell.dropWaiting { ax := a } false).ax
    streams := Vector.replicate 4 none
    plan := { b.plan with cands := [], groups := b.plan.groups.filter (·.started) } }

/-- Step 2 of 10 R341 for every running axis, marked to hold with `ORPHAN` at rest (step 3). -/
def Blk.orphanStops (b : Blk) (act : Nat) : Blk :=
  b.cells (allAxes.filter fun n => (b.axis n).mot.mode.running) fun _ c =>
    let c := c.mot fun m => { m with orphan := true }
    if act = 2 && c.ax.mot.mode == .position then c
    else if act = 1 then c.orDefer .qstop (·.stop .qstop)
    else c.orDefer .stop (·.stop .stop)

/-- The session is gone: its records, its locks, and every reset mark (10 R343, 11 R377). -/
def Blk.endSession (b : Blk) : Blk :=
  let b := b.mapPlanes fun p => { p with acc := p.acc.filter (·.reply.isNone), armed := false }
  { b with sess := none, ax := b.ax.map fun a => a.setB AX.RST_STAT.SESS_RST false }

/-- Steps 1 and 2 of R341, then the close; the hold time of step 4 runs from it (11 R377). -/
def Blk.closeSession (b : Blk) : Blk :=
  { (b.withdrawAll.orphanStops (b.r MOD.ORPHAN.ACT)).endSession with orphanAt := some b.ticks }

/-- The session becomes orphaned at the end of its window (10 R341); axes that hold already take the mark at once
(notes/assumptions/21.md), and an armed lock is disarmed (13 R437). -/
def Blk.orphan (b : Blk) : Blk :=
  let b := (b.withdrawAll.orphanStops (b.r MOD.ORPHAN.ACT)).mapPlanes fun p => { p with armed := false }
  { b with
    sess := b.sess.map fun s => { s with orphan := true }
    orphanAt := some b.ticks
    ax := b.ax.map fun a => if a.mot.mode = .hold then a.setB AX.RST_STAT.ORPHAN true else a }

/-! ### Session packets -/

/-- `HELLO` (11 R370, R373): with no common version, `VERSION` with the module's range (notes/assumptions/147.md). -/
def runHello (b : Blk) (q : Req) : Blk :=
  b.forModule q 6 fun b =>
    let v := (commonVersion (u q.body 0 1) (u q.body 1 1)).getD 0
    let st := if v = 0 then 0x24 else 0
    let own := Bool.bit (b.sess.elim false fun s => !s.orphan) + 2 * Bool.bit b.master + 4 * Bool.bit b.slave
    b.answer q st (versionRange ++ [BitVec.ofNat 8 v] ++ leBytes 4 (15 + 16 * Bool.bit b.pw.straps.bench)
      ++ [b.addr, BitVec.ofNat 8 b.phase, BitVec.ofNat 8 own])

/-- The ID of a new session (11 R375). -/
def Blk.nextSid (b : Blk) : Byte :=
  match b.lastSid with
  | none => BitVec.ofNat 8 (b.swath % 254 + 1)
  | some x => if x = 254 then 1 else x + 1

/-- `OPEN_SESSION` (11 R370, R374, R375). -/
def runOpenSession (b : Blk) (q : Req) : Blk :=
  b.forModule q (if q.h.major.val = 1 then 8 else 16) fun b =>
    match commonVersion (u q.body 0 1) (u q.body 1 1) with
    | none => b.answer q 0x24 versionRange
    | some v =>
      let t := u q.body 2 2
      if t != 0 && (t < 20 || 10000 < t) then b.badParam q 2 else
      let b := if b.sess.elim false (fun s => s.owner = q.h.src) then b.closeSession
        else if b.sess.isSome then b.endSession else b
      let key := (q.body.drop 8).take 8
      let keyed := decide (1 < q.h.major.val) && decide (0x20 ≤ v)
      let sid := b.nextSid
      let tmo := if t = 0 then 500 else t
      let s : Session := {
        sid := sid, owner := q.h.src, version := v, tmo := tmo, events := (u q.body 4 1).testBit 0
        keyCrc := crc32 key, keyZero := !keyed || key.all (· == 0), base := q.h.seq
        last := (Vector.replicate 3 none).set q.plane.idx (some q.h.port), hbFrom := q.h.endUs }
      let b := b.mapPlanes fun p => { p with l := q.h.seq, acc := [], armed := false }
      let b := { b with sess := some s, lastSid := some sid }.raise [ MOD.EVT.SESS_OPEN]
      b.ok q ([sid, BitVec.ofNat 8 v, 0] ++ leBytes 2 tmo ++ leBytes 2 q.h.seq.toNat ++ [0, 0])

/-- `CLOSE_SESSION` (11 R377): the reply goes first. -/
def runCloseSession (b : Blk) (q : Req) : Blk := b.forModule q 0 fun b => (b.ok q).closeSession

/-- Claims are locked out at a frame end (11 R379, 00 R6). -/
def Blk.lockedOut (b : Blk) (us : Nat) : Bool := b.lockout.elim false fun t => decide (us < t)

/-- A claim that fails (11 R379): three within 10 s lock claims out for 10 s. -/
def Blk.claimFailed (b : Blk) (q : Req) : Blk :=
  let us := q.h.endUs
  let b := b.raise [ MOD.EVT.CLAIM_FAIL]
  let b := if b.lockedOut us then b else
    let fails := (b.claimFails.filter fun t => decide (us < t + 10000000)) ++ [us]
    if 3 ≤ fails.length then { b with claimFails := [], lockout := some (us + 10000000) } else { b with claimFails := fails }
  b.answer q 0x20

/-- The conditions under which a claim is accepted (11 R379). -/
def Blk.claimOk (b : Blk) (q : Req) : Bool :=
  b.sess.elim false fun s =>
    let granted := s.grant.elim false fun g => g.to_ = q.h.src && decide (q.h.endUs < g.endUs)
    let key := (q.body.drop 8).take 8
    !b.lockedOut q.h.endUs && s.sid = q.h.sid && q.h.major.val = s.version / 16
      && (granted || (s.orphan && !s.keyZero && key.length = 8 && crc32 key = s.keyCrc))

/-- `TAKEOVER` with CLAIM (11 R378 to R380, 10 R342). -/
def Blk.takeClaim (b : Blk) (q : Req) (s : Session) : Blk :=
  let ls := b.planes.toList.flatMap fun p => leBytes 2 p.l.toNat
  let base := BitVec.ofNat 16 (u q.body 2 2)
  let b := { b with
    sess := some { s with
      owner := q.h.src, orphan := false, grant := none, hbFrom := q.h.endUs, base := base
      last := (Vector.replicate 3 none).set q.plane.idx (some q.h.port) }
    orphanAt := none
    ax := b.ax.map fun (a : Axis) => { a.setB AX.RST_STAT.ORPHAN false with mot := { a.mot with orphan := false } } }
  let b := b.mapPlanes fun p => { p with
    l := base, armed := false, acc := p.acc.filter fun x => x.reply.isNone && x.q.h.src != q.h.src }
  (b.raise [ MOD.EVT.CLAIM]).ok q ([s.sid, BitVec.ofNat 8 s.version] ++ ls)

/-- `TAKEOVER` with GRANT (11 R378). -/
def Blk.putGrant (b : Blk) (q : Req) : Blk :=
  let to_ := BitVec.ofNat 8 (u q.body 1 1)
  if to_ = q.h.src || to_ = 0xFF then b.badParam q 1
  else
    let g : Grant := ⟨to_, q.h.endUs + 1000000⟩
    let sess := b.sess.map fun (s : Session) => { s with grant := some g }
    { b with sess := sess }.ok q

/-- Opcode 0x04: byte 0 tells a GRANT from a CLAIM; another value is no mode. -/
def runTakeover (b : Blk) (q : Req) : Blk :=
  if q.claim then
    (match b.sess with
     | some s => if b.claimOk q then b.forModule q 16 (·.takeClaim q s) else b.claimFailed q
     | none => b.claimFailed q)
  else b.forModule q 16 fun b => if u q.body 0 1 = 0 then b.putGrant q else b.badParam q 0

/-- `HEARTBEAT` (11 R376). -/
def runHeartbeat (b : Blk) (q : Req) : Blk :=
  b.forModule q 0 fun b =>
    let st := (b.modWord 0 MOD.STATE.PHASE.reg).toNat % 65536
    b.ok q (leBytes 2 st ++ leBytes 4 b.swath ++ (b.planes.toList.flatMap fun p => leBytes 2 p.l.toNat)
      ++ leBytes 2 (b.sess.elim 0 (·.evSeq.toNat)))

/-- `IDENTIFY` (11 R383). -/
def runIdentify (b : Blk) (q : Req) : Blk :=
  b.forModule q 0 fun b =>
    let w := fun (i : Nat) => (b.modWord 0 i).toNat
    b.ok q (leBytes 4 (w MOD.ID.PART.reg) ++ leBytes 4 (w MOD.VER.PROTO_MIN.reg) ++ leBytes 8 Config.serial
      ++ [b.addr, BitVec.ofNat 8 (if b.stacked then b.casc.selfPos else 0), BitVec.ofNat 8 b.phase]
      ++ leBytes 2 (w SIDE.FW_A.VER.reg) ++ leBytes 2 (w SIDE.FW_B.VER.reg))

/-- `MODULE_RESET` (11 R383, 09 R318): the reply first; a winding measurement is aborted (08 R280), and the sequence is due. -/
def runModuleReset (b : Blk) (q : Req) : Blk :=
  b.forModule q 2 fun b =>
    if u q.body 0 1 != 0x5A then b.badParam q 0
    else if u q.body 1 1 != 0xA5 then b.badParam q 1
    else let b := b.ok q; { b with pw := { b.pw with resetDue := some false } }

/-! ### The reset of an axis -/

/-- A cycle by which no source was seen of late. -/
def Trip.past (t : Trip) : Nat := (t.pres ++ [t.seen.comp.getD 0, t.seen.link.getD 0, t.seen.ext.getD 0]).foldl max 0 + 2

/-- Steps 3 to 6 of 10 R344, and R345. -/
def Cell.resetSteps (c : Cell) (w : Wide) (cyc : Nat) (keep : Bool) : Cell :=
  let c := c.dropWaiting false
  let c := if c.ax.mot.mode.running then c.abandon else (c.endJob false).goFallow
  let c := (c.clearTrip w cyc).1
  let c := c.mot fun m => { m with lapsed := [] }
  if keep then
    let p := if c.ax.brushless then c.ax.mot.pMeas else c.ax.mot.pCmd
    (c.redefine p).setB AX.RST_STAT.CARRIED true
  else
    let c := (c.setUnc.redefine 0).setMeas 0
    c.setB AX.RST_STAT.CARRIED false

/-- Steps 7 and 8 of 10 R344, with the sensor supply and `HALL_FAIL` (17 R506, 05 R147): a shut-down supply shows no code. -/
def Axis.resetMarks (a : Axis) : Axis :=
  -- the registers of the other motor type keep their values (14 R456)
  let mine := fun (k : Fin 6) => !a.foreign ((axEvRegs[k.val]?).getD 0)
  let ks := (List.finRange 6).filter mine
  let regs := ks.foldl (fun (r : AxRegs) k => r.setIfInBounds ((axEvRegs[k.val]?).getD 0) 0) a.regs
  let a := { a with regs := regs, stamps := Vector.ofFn fun k => if mine k then Vector.replicate 24 0 else a.stamps.get k }
  let a := if a.brushless then a else (a.setB AX.ST_STAT.STALLED false).setB AX.ST_STAT.OBST false
  let a := if a.stepper then a else (a.setB AX.BL_STAT.OBST false).setB AX.BL_STAT.LOCKED false
  let a := { a with bl := { a.bl with sensorSupply := true, supplyNap := false, skips := [] } }
  let a := if a.bl.sector.isSome then a.setB AX.BL_STAT.HALL_FAIL false else a
  let a := { a with bl := { a.bl with posSrc := a.restSrc } }
  (a.setB AX.RST_STAT.SESS_RST true).setB AX.AX_SUPV.HELD false

/-- Steps 3 to 8 on one axis; the test of the trip latch is of the sources as they stand (03 R101). -/
def Blk.resetAxis (b : Blk) (n : Fin 48) (keep : Bool) : Blk :=
  let w := b.wide
  (b.cell n fun c => c.resetSteps w c.ax.trip.past keep).mapAx n Axis.resetMarks

/-- `AXIS_RESET` on one axis (10 R344): the status, or none while its leg check runs (02 R66). -/
def Blk.startReset (b : Blk) (n : Fin 48) (keep : Bool) : Blk × Option Nat :=
  let a := b.axis n
  if keep && !(a.mot.mode = .fallow || a.mot.mode = .hold || a.mot.mode = .park) then (b, some 0x12)
  else if a.legs.phase = .lost then (b.mapAx n fun a => { a with legs := { a.legs with checking := true } }, none)
  else (b.resetAxis n keep, some 0)

/-- `AXIS_RESET` (11 R364, R371, R382). -/
def runAxisReset (b : Blk) (q : Req) : Blk :=
  match b.targets .many q.h.tgt with
  | none => b.badParam q
  | some ns =>
    if q.body = [] then b.badParam q
    else
      let keep := (u q.body 0 1).testBit 0
      if keep && b.version < 0x21 then b.badParam q 0 else
      let (b, sts, left) := ns.foldl (fun (b, sts, left) n =>
        match Blk.startReset b n keep with
        | (b, some st) => (b, sts ++ [(n, st)], left)
        | (b, none) => (b, sts, left ++ [n])) (b, ([] : List (Fin 48 × Nat)), ([] : List (Fin 48)))
      if left = [] then b.answerEach q ns (sts.map (·.2))
      else { b with resets := b.resets ++ [⟨q, keep, ns, sts, left⟩] }

/-- A leg check ends (02 R66, 10 R344): the rest of the reset follows, and with the last axis the reply. -/
def Blk.legCheckDone (b : Blk) (n : Fin 48) (x : LegCheck) : Blk :=
  if !(b.axis n).legs.checking then b else
  let keep := b.resets.any fun r => r.left.contains n && r.keep
  let (c, ok) := (b.cellOf n).legCheck x
  let c := if ok then c.trip fun t =>
      let other := t.srcComp || t.srcLink || t.srcExt || t.srcChat
      { t with srcDidt := false, latch := t.latch && other, pre := t.pre && other } else c
  let b := (b.commit n c).resetAxis n keep
  let st := if ok then 0 else 0x50
  let rs := b.resets.map fun r =>
    if r.left.contains n then { r with left := r.left.filter (· != n), sts := r.sts ++ [(n, st)] } else r
  let b := { b with resets := rs.filter (·.left != []) }
  (rs.filter (·.left = [])).foldl (fun b r =>
    b.answerEach r.q r.axes (r.axes.map fun m => ((r.sts.find? (·.1 = m)).elim 0 (·.2)))) b

/-! ### The rows -/

def execHello (p : Pkt) (s : State) : Host.Outcome State Fault Refusal := onBlk (fun b => b.packet p 0x01 runHello) s
def execOpenSession (p : Pkt) (s : State) : Host.Outcome State Fault Refusal := onBlk (fun b => b.packet p 0x02 runOpenSession) s
def execCloseSession (p : Pkt) (s : State) : Host.Outcome State Fault Refusal := onBlk (fun b => b.packet p 0x03 runCloseSession) s
def execTakeoverGrant (p : Pkt) (s : State) : Host.Outcome State Fault Refusal := onBlk (fun b => b.packet p 0x04 runTakeover) s
def execTakeoverClaim (p : Pkt) (s : State) : Host.Outcome State Fault Refusal := onBlk (fun b => b.packet p 0x04 runTakeover) s
def execHeartbeat (p : Pkt) (s : State) : Host.Outcome State Fault Refusal := onBlk (fun b => b.packet p 0x05 runHeartbeat) s
def execIdentify (p : Pkt) (s : State) : Host.Outcome State Fault Refusal := onBlk (fun b => b.packet p 0x06 runIdentify) s
def execModuleReset (p : Pkt) (s : State) : Host.Outcome State Fault Refusal := onBlk (fun b => b.packet p 0x08 runModuleReset) s
def execAxisReset (p : Pkt) (s : State) : Host.Outcome State Fault Refusal := onBlk (fun b => b.packet p 0x09 runAxisReset) s
def execLegCheckDone (n : Fin 48) (x : LegCheck) (s : State) : Host.Outcome State Fault Refusal :=
  onBlk (fun b => b.legCheckDone n x) s

/-- The heartbeat window expires at a time of the frame stamps, µs (10 R340, R341); a slave's session expires with its master's
(15 R469). -/
def execSessionExpiry (us : Nat) (s : State) : Host.Outcome State Fault Refusal := onBlk (fun b =>
  match b.sess with
  | some x =>
    if x.orphan || b.slave || b.nap != .awake || decide (us < x.hbFrom + x.tmo * 1000) then b
    else b.orphan.raise [ MOD.EVT.SESS_EXP]
  | none => b) s

/-- `HOLD_T` ends, in ticks of the module's own time (10 R341, R342): marked axes go fallow, those that still stop go fallow at rest, and a session that is still
orphaned closes. -/
def execOrphanHoldExpiry (s : State) : Host.Outcome State Fault Refusal := onBlk (fun b =>
  let t := b.r MOD.ORPHAN.HOLD_T
  if t = 0xFFFF || b.orphanAt.elim true (fun a => decide (b.ticks < a + 2500 * t)) then b else
  let b := { b with orphanAt := none }
  let b := b.cells (allAxes.filter fun n => (b.axis n).b AX.RST_STAT.ORPHAN || (b.axis n).mot.orphan) fun _ c =>
    if c.ax.b AX.RST_STAT.ORPHAN then (c.endJob false).goFallow else c.mot fun m => { m with fallowAfter := true }
  -- a slave's session closes with its master's (15 R469)
  if b.sess.elim false (·.orphan) && !(b.under || b.casc.parted) then b.endSession else b) s

/-- A GRANT lapses 1000 ms after its end (11 R378). -/
def execGrantExpiry (us : Nat) (s : State) : Host.Outcome State Fault Refusal := onBlk (fun b =>
  { b with sess := b.sess.map fun x =>
      if x.grant.elim false (fun g => decide (g.endUs ≤ us)) then { x with grant := none } else x }) s

/-- The lockout after three failed claims ends (11 R379). -/
def execClaimLockoutEnd (us : Nat) (s : State) : Host.Outcome State Fault Refusal := onBlk (fun b =>
  if b.lockout.elim false (fun t => decide (t ≤ us)) then { b with lockout := none } else b) s

end Sys2Proof.Machine
end

