-- ==== Sys2Proof/Machine/Registers.lean ====
section
/-!
DEFINITION. Register packets and the mailbox (11 R384, R385, 13 R428 to R435, 14 R458), and the rows of single registers.
-/

namespace Sys2Proof.Machine

/-! ### Packets -/

/-- Commands under execution that do not count for `NAP_WAIT`: the reading command itself (notes/assumptions/22.md). -/
def own1 : Nat := 1

/-- The port and SEQ of a command that writes (12 R408). -/
def Req.rep (q : Req) : Option (Fin 6 × BitVec 16) :=
  match q.via with | .port p => some (p, q.h.seq) | .ring => none

/-- The address of the k-th register of a run: past the end of the page it names nothing (13 R431). -/
def runAddr (a k : Nat) : Option Nat :=
  if a % 65536 + 4 * k < 65536 then some (a + 4 * k) else none

/-- `REG_RD` (11 R384). -/
def runRegRd (b : Blk) (q : Req) : Blk :=
  b.forModule q 4 fun b =>
    let a := u q.body 0 3
    if a % 4 != 0 then b.badParam q 0
    else let (w, b) := b.readReg q.plane a own1; b.ok q (leBytes 4 w.toNat)

/-- `REG_WR` (11 R384). -/
def runRegWr (b : Blk) (q : Req) : Blk :=
  b.forModule q 8 fun b =>
    let a := u q.body 0 3
    if a % 4 != 0 then b.badParam q 0
    else (b.writeReg q.plane a (BitVec.ofNat 32 (u q.body 4 4)) q.rep).ok q

def badBlock (q : Req) : Option Nat :=
  if u q.body 0 3 % 4 != 0 then some 0
  else if u q.body 3 1 = 0 || 253 < u q.body 3 1 then some 3 else none

/-- `REG_RD_BLK` (11 R384, 13 R429, R431): one register at a time. -/
def runRegRdBlk (b : Blk) (q : Req) : Blk :=
  b.forModule q 4 fun b =>
    match badBlock q with
    | some o => b.badParam q o
    | none =>
      let a := u q.body 0 3
      let (ws, b) := (List.range (u q.body 3 1)).foldl (fun (ws, b) k =>
        match runAddr a k with
        | some x => let (w, b) := Blk.readReg b q.plane x own1; (ws ++ leBytes 4 w.toNat, b)
        | none => (ws ++ [0, 0, 0, 0], b)) (([] : List Byte), b)
      b.ok q ws

/-- A write beyond the end of a page: an unimplemented address (13 R431, R436, R444). -/
def Blk.writeBeyond (b : Blk) (pl : Plane) (v : Word) : Blk :=
  let b := { b with planes := b.planes.set pl.idx { b.planes.get pl.idx with armed := false } }
  if v != 0 then b.viol pl else b

/-- `REG_WR_BLK` (11 R384, 13 R431): its writes act at one instant (13 R427, R440). -/
def runRegWrBlk (b : Blk) (q : Req) : Blk :=
  b.forModule q 4 fun b =>
    match badBlock q with
    | some o => b.badParam q o
    | none =>
      let n := u q.body 3 1
      if q.body.length < 4 + 4 * n then b.badParam q else
      let a := u q.body 0 3
      (((List.range n).foldl (fun (b : Blk) (k : Nat) =>
        let v := BitVec.ofNat 32 (u q.body (4 + 4 * k) 4)
        match runAddr a k with
        | some x => b.writeReg q.plane x v q.rep
        | none => b.writeBeyond q.plane v) b).atOnce b).ok q

/-! ### Wide values -/

/-- A ledger value by its index, 1 to 15 (07 R215). -/
def Blk.ledgerValue (b : Blk) (i : Nat) : Option Int :=
  if i = 15 then some b.swath
  else if h : 1 ≤ i ∧ i ≤ 14 then some (b.ledg.e.get ⟨i - 1, by omega⟩) else none

/-- The values of 07 R215. -/
def Blk.ledgerId (b : Blk) (id : Nat) : Option Int :=
  if id / 65536 = 3 then b.ledgerValue (id % 65536)
  else if h : id / 65536 = 0x13 ∧ id / 256 % 256 < 48 then
    let a := b.axis ⟨id / 256 % 256, h.2⟩
    match id % 256 with | 1 => some a.eOut | 2 => some a.eRegen | _ => none
  else none

/-- The value that an ID names (14 R458). -/
def Blk.wideValue (b : Blk) (id : Nat) : Option Int :=
  if id = 1 then some Config.serial
  else if h : id / 65536 = 0x10 ∧ id / 256 % 256 < 48 then
    let m := (b.axis ⟨id / 256 % 256, h.2⟩).mot
    match id % 256 with
    | 1 => some m.pCmd
    -- a stepper's measured position is its commanded one (06 R203)
    | 2 => some (if (b.axis ⟨id / 256 % 256, h.2⟩).stepper then m.pCmd else m.pMeas)
    | 3 => some (if m.mode = .followStep then m.stepTgt else m.pCmd)
    | 4 => some m.posMin
    | 5 => some m.posMax
    | _ => none
  else b.ledgerId id

/-- A 64-bit value in two's complement. -/
def wide64 (v : Int) : Nat := (BitVec.ofInt 64 v).toNat

/-- The capture of a value into a mailbox instance (13 R433, R434). -/
def PlaneSt.capture (p : PlaneSt) (v : Option Int) : PlaneSt :=
  let w := v.elim 0 wide64
  { p with
    valid := true, unknown := v.isNone, words := if v.isSome then 2 else 0, due := false
    d := #v[BitVec.ofNat 32 w, BitVec.ofNat 32 (w / 2 ^ 32), 0, 0] }

def Blk.captureOn (b : Blk) (pl : Plane) (id : Nat) : Blk :=
  { b with planes := b.planes.set pl.idx ({ b.planes.get pl.idx with sel := BitVec.ofNat 32 id }.capture (b.wideValue id)) }

/-- `MBX_RD` (11 R385, 13 R435). -/
def runMbxRd (b : Blk) (q : Req) : Blk :=
  b.forModule q 1 fun b =>
    let n := u q.body 0 1
    if n = 0 || 32 < n then b.badParam q 0
    else if q.body.length < 4 + 4 * n then b.badParam q else
    let ids := (List.range n).map fun k => u q.body (4 + 4 * k) 4
    let bytes := ids.flatMap fun id => leBytes 4 id ++ leBytes 8 ((b.wideValue id).elim 0 wide64) ++ leBytes 8 0
    let b := b.captureOn q.plane (ids.getLastD 0)
    b.ok q ([BitVec.ofNat 8 n, 0, 0] ++ bytes)

/-! ### Calibration as the cells use it -/

/-- A leg shunt's entry (08 R289). -/
def shuntCal (w : Word) : ShuntCal := (w.toNat % 65536, (w.extractLsb' 16 16).toInt)

/-- What an axis's conversions take from the module (08 R261, R282, R289). -/
def Blk.cellCal (b : Blk) (n : Fin 48) : CellCal :=
  let c := b.meas.copies.get b.meas.inUse
  { spare := Vector.ofFn fun k => ⟨b.r (MEAS.SPF0.GAIN.skip k.val), b.rS (MEAS.SPF0.OFS.skip k.val)⟩
    shunt := Vector.ofFn fun k => shuntCal (calLookup c.ent (5 * n.val + k.val)) }

/-! ### Rows of single registers -/

def modAddr (f : Fld) : Nat := (modDefs[f.reg]?).elim 0 (·.addr)
def axRegAddr (n : Fin 48) (f : Fld) : Nat := axAddr n ((axDefs[f.reg]?).elim 0 (·.addr))

/-- A row that is a `REG_WR` of one register. -/
def Blk.regRow (b : Blk) (h : Hdr) (addr : Nat) (v : Word) : Blk :=
  (b.served h).serve runRegWr (Hdr.regReq h 0x11 addr (some v))

/-- A row that is a `REG_RD` of one register. -/
def Blk.readRow (b : Blk) (h : Hdr) (addr : Nat) : Blk := (b.served h).serve runRegRd (Hdr.regReq h 0x10 addr none)

def fields (l : List (Fld × Nat)) : Word := insAll 0 l

/-! ### The rows -/

def execRegRd (p : Pkt) (s : State) : Host.Outcome State Fault Refusal := onBlk (fun b => b.packet p 0x10 runRegRd) s
def execRegWr (p : Pkt) (s : State) : Host.Outcome State Fault Refusal := onBlk (fun b => b.packet p 0x11 runRegWr) s
def execRegRdBlk (p : Pkt) (s : State) : Host.Outcome State Fault Refusal := onBlk (fun b => b.packet p 0x12 runRegRdBlk) s
def execRegWrBlk (p : Pkt) (s : State) : Host.Outcome State Fault Refusal := onBlk (fun b => b.packet p 0x13 runRegWrBlk) s
def execMbxRd (p : Pkt) (s : State) : Host.Outcome State Fault Refusal := onBlk (fun b => b.packet p 0x14 runMbxRd) s

/-- The key in `KEY`, other bits in `upper` (13 R436). -/
def execModUnlock (h : Hdr) (upper : BitVec 16) (s : State) : Host.Outcome State Fault Refusal :=
  onBlk (fun b => b.regRow h 0x30 (upper ++ (0x6D58 : BitVec 16))) s

def execMbxSelWrite (h : Hdr) (id : Word) (s : State) : Host.Outcome State Fault Refusal := onBlk (fun b => b.regRow h 0x100 id) s

/-- The capture that a write to `MBX.SEL` began (13 R433). -/
def execMbxCaptureDone (pl : Plane) (s : State) : Host.Outcome State Fault Refusal := onBlk (fun b =>
  let p := b.planes.get pl.idx
  if p.due then b.captureOn pl p.sel.toNat else b) s

/-- `PWM_LOAD_HI` with `LOAD_ALL` = 1 (03 R86, R87). -/
def execLoadAll (h : Hdr) (sel : BitVec 16) (s : State) : Host.Outcome State Fault Refusal := onBlk (fun b =>
  b.regRow h (modAddr MOD.PWM_LOAD_HI.SEL) (fields [(MOD.PWM_LOAD_HI.SEL, sel.toNat), (MOD.PWM_LOAD_HI.LOAD_ALL, 1)])) s

def execTripClr (h : Hdr) (n : Fin 48) (s : State) : Host.Outcome State Fault Refusal := onBlk (fun b =>
  b.regRow h (axRegAddr n AX.TRIP_CLR.CLR) (fields [(AX.TRIP_CLR.CLR, 1)])) s

def execSlcSingleReq (h : Hdr) (n : Fin 48) (req : BitVec 2) (dsrc : Bool) (s : State) : Host.Outcome State Fault Refusal := onBlk (fun b =>
  b.regRow h (axRegAddr n AX.SLC_CFG.REQ) (fields [(AX.SLC_CFG.REQ, req.toNat), (AX.SLC_CFG.DSRC, Bool.bit dsrc)])) s

/-- The waiting request of a slice begins its conversion at an instant (08 R268), where it came no earlier than the boundary that it followed. -/
def Axis.mayTakeSingle (a : Axis) (k : Fin 2) (x : SingleIn) : Bool :=
  (a.slc.get k).single.elim false (fun t => decide (t ≤ x.reqAt8)) && x.at8 = a.singleAt k x.reqAt8

/-- A waiting single request is converted (08 R268, R271) by the slice or the spare that serves it; requests are suspended in DRAIN (08 R273).  A fallow
axis's slice powers down again (08 R263). -/
def execSingleSampleTaken (n : Fin 48) (k : Fin 2) (x : SingleIn) (s : State) : Host.Outcome State Fault Refusal := onBlk (fun b =>
  let a := b.axis n
  if a.legs.phase == .drain || !a.mayTakeSingle k x then b else
  let cal := b.cellCal n
  b.cell n fun c =>
    let c := c.map fun a => { a with slc := a.slc.set k { a.slc.get k with single := none } }
    let (c, i, code) := (c.map fun a => a.oneFrom k x.at8).convert cal k x.conv
    if c.ax.r AX.SLC_CFG.DSRC = 1 then c.map fun a => a.putData k i code else c) s

def execSlcDataRead (h : Hdr) (n : Fin 48) (k : Fin 2) (s : State) : Host.Outcome State Fault Refusal := onBlk (fun b =>
  b.readRow h (axRegAddr n (AX.SLC_DATA0.I.skip k.val))) s

def execIcDataRead (h : Hdr) (i : Fin 8) (s : State) : Host.Outcome State Fault Refusal := onBlk (fun b =>
  b.readRow h (modAddr (MEAS.IC_DATA0.RAW.skip i.val))) s

/-- The address of an event register (13 R440). -/
def EvReg.addr : EvReg → Nat
  | .mod i => ((modEvRegs[i.val]?).bind fun r => (modDefs[r]?).map (·.addr)).getD 0
  | .axis n i => axAddr n (((axEvRegs[i.val]?).bind fun r => (axDefs[r]?).map (·.addr)).getD 0)

def execEvtWriteBack (h : Hdr) (e : EvReg) (v : Word) (s : State) : Host.Outcome State Fault Refusal :=
  onBlk (fun b => b.regRow h (EvReg.addr e) v) s

def execRwReqGo (h : Hdr) (axis : BitVec 6) (pair : BitVec 2) (iTest : BitVec 16) (s : State) : Host.Outcome State Fault Refusal :=
  onBlk (fun b => b.regRow h (modAddr MEAS.RW_REQ.GO) (fields [(MEAS.RW_REQ.AXIS, axis.toNat), (MEAS.RW_REQ.PAIR, pair.toNat),
    (MEAS.RW_REQ.I_TEST, iTest.toNat), (MEAS.RW_REQ.GO, 1)])) s

/-- The roles at the two ends of a winding pair (08 R280). -/
def Axis.pairRoles (a : Axis) (pair : Nat) : Fin 4 × Fin 4 :=
  if a.brushless then (match pair with | 0 => (0, 1) | 1 => (1, 2) | _ => (2, 0)) else if pair = 0 then (0, 1) else (2, 3)

/-- The voltage of a terminal, µV, after the entry of its leg's node divider (08 R289): gain 2^-15, offset mV. -/
def Blk.nodeVolt (b : Blk) (n : Fin 48) (r : Fin 4) (uV : Int) : Rat :=
  let e := shuntCal (calLookup (b.meas.copies.get b.meas.inUse).ent (240 + 5 * n.val + ((b.axis n).legOf r).val))
  (uV : Rat) * e.1 / 32768 + 1000 * e.2

/-- V, µV, and I, mA, of a winding measurement (08 R280): IC7's integral, with the two dividers corrected, and the mean of the slices whose roles
end the pair (notes/assumptions/143.md). -/
def Blk.windingVI (b : Blk) (w : Winding) (uV : Int) (node : Vector Int 2) (code : Vector (Nat × Nat) 2) : Rat × Rat :=
  let a := b.axis w.axis; let (r, r') := a.pairRoles w.pair; let k := b.cellCal w.axis
  let off := fun (r : Fin 4) (x : Int) => b.nodeVolt w.axis r x - x
  let cur := fun (s : Fin 2) =>
    let cal := k.shunt.get (a.legOf (a.sliceRole s))
    match a.server s with
    | some sp => meanCurrent (k.spare.get sp) cal ((code.get s).2 / 16)
    | none => meanCurrent (a.ownFactors k s) cal ((code.get s).1 / 16)
  let ss := ([0, 1] : List (Fin 2)).filter fun s => a.sliceRole s = r || a.sliceRole s = r'
  (Rat.abs' (uV + off r (node.get 0) - off r' (node.get 1)), ss.foldl (fun x s => x + Rat.abs' (cur s)) 0 / ss.length)

/-- The end of a winding measurement (08 R280): V / I in µΩ, to the nearest (notes/assumptions/23.md), once IC7 has integrated the voltage. -/
def execRwMeasureDone (o : RwOut) (s : State) : Host.Outcome State Fault Refusal := onBlk (fun b =>
  match b.meas.rw, o with
  | none, _ => b
  | some w, .done node code =>
    (match w.volt with
     | none => b
     | some uV =>
       let (v, i) := b.windingVI w uV node code
       let r := if i = 0 then Config.freeNat b.fresh else (roundAway (v * 1000 / i)).toNat
       ((b.set MEAS.RW_RES.R (MEAS.RW_RES.R.sat r)).rwEnd 2).draw)
  | some _, .notReached => b.rwEnd 4
  | some _, .aborted => b.rwEnd 5) s

def execIc7Arm (h : Hdr) (cfg : BitVec 26) (s : State) : Host.Outcome State Fault Refusal :=
  onBlk (fun b => b.regRow h (modAddr MEAS.IC7_CFG.ARM) (MEAS.IC7_CFG.ARM.ins (cfg.zeroExtend 32) 1)) s

def execSideRetry (h : Hdr) (v : BitVec 3) (s : State) : Host.Outcome State Fault Refusal :=
  onBlk (fun b => b.regRow h (modAddr SIDE.CTRL.RETRY_A) (v.zeroExtend 32)) s

def execCtrClrMod (h : Hdr) (s : State) : Host.Outcome State Fault Refusal :=
  onBlk (fun b => b.regRow h (modAddr LEDG.CTR_CLR.MOD) (fields [(LEDG.CTR_CLR.MOD, 1)])) s

def execCtrClrAxes (h : Hdr) (axis : BitVec 6) (s : State) : Host.Outcome State Fault Refusal :=
  onBlk (fun b => b.regRow h (modAddr LEDG.CTR_CLR.AXES) (fields [(LEDG.CTR_CLR.AXES, 1), (LEDG.CTR_CLR.AXIS, axis.toNat)])) s

def execMbTimingWrite (h : Hdr) (i : Fin 6) (v : Word) (s : State) : Host.Outcome State Fault Refusal :=
  onBlk (fun b => b.regRow h (modAddr (MB.CFG.NRATE.port i)) v) s

def execMbFilterWrite (h : Hdr) (i : Fin 6) (j : Fin 16) (second : Bool) (v : Word) (s : State) : Host.Outcome State Fault Refusal :=
  onBlk (fun b => b.regRow h (modAddr (((if second then MB.FLTB.SRC else MB.FLTA.CLS).port i).skip (2 * j.val))) v) s

end Sys2Proof.Machine
end

