-- ==== Sys2Proof/Machine/Setup.lean ====
section
/-!
DEFINITION. Configuration packets (11 R386): motor type and travel limits (02 R35, 06 R193, 09 R320), the motor model, and
the zone and correction tables (06 R191, 04 R117, R131).
-/

namespace Sys2Proof.Machine

/-- Step 7 for a command to one axis (11 R372, R381). -/
def Blk.forAxis (b : Blk) (q : Req) (len : Nat) (k : Blk → Fin 48 → Blk) : Blk :=
  if h : q.h.tgt.toNat < 48 then
    if q.body.length < len then b.badParam q else k b ⟨q.h.tgt.toNat, h⟩
  else b.badParam q

def motorOf (n : Nat) : Option Motor :=
  match n with | 0 => some .none | 1 => some .stepper | 2 => some .brushless | 3 => some .brushlessStar | _ => none

/-- A motor type is set (02 R35, 06 R180): a change withdraws a move that waits (notes/assumptions/24.md). -/
def Cell.setMotor (c : Cell) (m : Motor) : Cell :=
  if c.ax.motor = m then c else
  let c := c.dropWaiting true
  let mode : Mode := if m = Motor.none then .unconfigured else .fallow
  c.map fun a =>
    -- P_meas of a stepper is P_cmd (14 R458)
    let mot := { a.mot with mode := mode, pMeas := if m = Motor.stepper then a.mot.pCmd else a.mot.pMeas }
    { a with motor := m, mot := mot }.mapIsolators.deriveGains.takeHall

/-- `AXIS_CONFIG` (11 R386). -/
def runAxisConfig (b : Blk) (q : Req) : Blk :=
  b.forAxis q 24 fun b n =>
    let a := b.axis n
    match motorOf (u q.body 0 1) with
    | none => b.badParam q 0
    | some m =>
      let lo := sI q.body 8 8; let hi := sI q.body 16 8
      if hi < lo then b.badParam q 8
      else if a.motor != m && !(a.mot.mode = .fallow || a.mot.mode = .unconfigured) then b.refusedState q
      else
        (b.cell n fun c => ((c.setMotor m).mot fun x => { x with posMin := lo, posMax := hi }).written).ok q

/-- `MOTOR_MODEL` (11 R386, 04 R112). -/
def runMotorModel (b : Blk) (q : Req) : Blk :=
  b.forAxis q 24 fun b n =>
    let f := fun (i : Nat) => u q.body (4 * i) 4
    if f 0 = 0 then b.badParam q 0
    else if f 1 = 0 then b.badParam q 4
    else if f 2 = 0 then b.badParam q 8
    else (b.cell n fun c => (c.map fun a => { a with model := some ⟨f 0, f 1, f 2, f 3, f 4, f 5⟩ }.deriveGains).written).ok q

/-- The first entry of a zone table that does not rise, or that a test refuses, as a byte offset (06 R191, 04 R131). -/
def badEntry (bs : List Byte) (n : Nat) (zeroLim : Bool) : Option Nat :=
  (List.range n).findSome? fun i =>
    let o := 8 + 16 * i
    if 0 < i && sI bs o 8 ≤ sI bs (o - 16) 8 then some o
    else if zeroLim && u bs (o + 8) 4 = 0 then some (o + 8) else none

/-- What a zone table asks of its packet: the entries, or the first fault. -/
def zoneEntries (bs : List Byte) (zeroLim : Bool) : Except Nat Nat :=
  let n := u bs 1 1
  if 32 < n then .error 1
  else if bs.length < 8 + 16 * n then .error noByte
  else match badEntry bs n zeroLim with | some o => .error o | none => .ok n

/-- A point of the correction table, its trim clamped (04 R117). -/
def corrPoint (bs : List Byte) (i : Nat) : Int × Int := (sI bs (4 * i) 2, max (-8192) (min (sI bs (4 * i + 2) 2) 8191))

/-- One part of the correction table (04 R117, 11 R386): part 1 completes the load that part 0 began. -/
def corrPart (b : Blk) (q : Req) (n : Fin 48) : Blk :=
  let part := u q.body 1 1
  let a := b.axis n
  if 1 < part then b.badParam q 1
  else if q.body.length < 520 then b.badParam q
  -- a brushless axis has no correction table, whichever part comes (11 R386)
  else if a.brushless then b.refusedState q
  else if part = 1 && a.corrLoad = [] then b.badParam q 1
  else
    let bs := (q.body.drop 8).take 512
    let f : Axis → Axis := if part = 0 then fun a => { a with corrLoad := bs } else fun a =>
      let all := a.corrLoad ++ bs
      { a with corrLoad := [], corrNext := some ((List.range 256).map (corrPoint all)) }
    (b.cell n fun c => (c.map f).written).ok q

/-- `ZONE_TABLE` (11 R386). -/
def runZoneTable (b : Blk) (q : Req) : Blk :=
  b.forAxis q 8 fun b n =>
    let bs := q.body
    match u bs 0 1 with
    | 0 =>
      (match zoneEntries bs true with
       | .error o => b.badParam q o
       | .ok k => (b.cell n fun c => (c.map fun a => { a with
           speedZones := (List.range k).map fun i => ⟨sI bs (8 + 16 * i) 8, u bs (16 + 16 * i) 4⟩ }).written).ok q)
    | 1 =>
      (match zoneEntries bs false with
       | .error o => b.badParam q o
       | .ok k => (b.cell n fun c => (c.map fun a => { a with
           forceZones := (List.range k).map fun i =>
             ⟨sI bs (8 + 16 * i) 8, u bs (16 + 16 * i) 2, u bs (18 + 16 * i) 2, (u bs (20 + 16 * i) 2).testBit 0⟩ }).written).ok q)
    | 2 => corrPart b q n
    | _ => b.badParam q 0

/-! ### The rows -/

def execAxisConfig (p : Pkt) (s : State) : Host.Outcome State Fault Refusal := onBlk (fun b => b.packet p 0x20 runAxisConfig) s
def execMotorModel (p : Pkt) (s : State) : Host.Outcome State Fault Refusal := onBlk (fun b => b.packet p 0x21 runMotorModel) s
def execZoneTableSpeed (p : Pkt) (s : State) : Host.Outcome State Fault Refusal := onBlk (fun b => b.packet p 0x22 runZoneTable) s
def execZoneTableForce (p : Pkt) (s : State) : Host.Outcome State Fault Refusal := onBlk (fun b => b.packet p 0x22 runZoneTable) s
def execZoneTableCorrection (p : Pkt) (s : State) : Host.Outcome State Fault Refusal := onBlk (fun b => b.packet p 0x22 runZoneTable) s

end Sys2Proof.Machine
end

