-- ==== Sys2Proof/Machine/Motion.lean ====
section
/-!
DEFINITION. Motion packets (06 R180, R181, R193 to R203, R206 to R212, 11 R387 to R391): what is refused at once, what
becomes a candidate of the planner, and the commands that act at once.
-/

namespace Sys2Proof.Machine

/-! ### Parsing -/

/-- A refusal: status and extra bytes. -/
abbrev Refuse := Nat × List Byte

def badAt (o : Nat) : Refuse := (0x31, [BitVec.ofNat 8 o])

/-- What a move command asks: policy, carried D_MAX, members and group. -/
structure Ask where
  policy : Nat
  dly : Nat
  members : List Member
  group : Option (Nat × Bool)
  rank : Nat
  deriving DecidableEq, Repr

def noLimits : Limits := ⟨0, 0, 0, 0⟩

/-- The exact position where a profile ends. -/
def Prof.endPos (x : Prof) : Rat :=
  (x.segs.foldl (fun (p, v) (s : Seg) =>
    (p + v * s.n + s.a0 * s.n * s.n / 2 + s.j * s.n * s.n * s.n / 6, v + s.a0 * s.n + s.j * s.n * s.n / 2)) (x.p, x.v)).1

/-- The position that a relative distance is measured from (06 R188, R189): P_cmd, or the target of the move ahead of a queued
move. -/
def Axis.relBase (a : Axis) (queue : Bool) : Int :=
  let m := a.mot
  let of := fun (k : MoveK) => match k with | .abs t => t | .rel d => m.pCmd + d | _ => m.pCmd
  if !queue then m.pCmd
  else match m.waiting with
    | some w => of w.move.kind
    | none => if m.mode = .position then roundAway m.prof.endPos else m.pCmd

/-- A target outside the travel limits (06 R193). -/
def Axis.outside (a : Axis) (k : MoveK) (queue : Bool) : Bool :=
  a.b AX.MOT_CFG.LIM_EN && !a.posUnc &&
  (match k with
   | .abs t => decide (t < a.mot.posMin) || decide (a.mot.posMax < t)
   | .rel d => let t := a.relBase queue + d; decide (t < a.mot.posMin) || decide (a.mot.posMax < t)
   | _ => false)

/-- A profile that would be planned with a zero limit (06 R182). -/
def Axis.zeroLimit (a : Axis) (m : Member) : Bool :=
  match m.kind with
  | .abs _ | .rel _ | .vel .. | .localSpeed _ => let l := a.moveLimits m.lim; l.v = 0 || l.a = 0 || l.d = 0 || l.j = 0
  | _ => false

def policyBad (p ver : Nat) (stretch : Bool) : Bool := 3 < p || (ver < 0x11 && (p = 1 || p = 2)) || (p = 2 && !stretch)

/-- The place of a target in the order of 07 R234. -/
def rankOf (t : Byte) : Nat :=
  if t = 0xFF then 0 else if 0xF0 ≤ t.toNat then 1 + (t.toNat - 0xF0) else 16 + t.toNat

/-- `MOVE_ABS`, `MOVE_REL`, `MOVE_VEL` (11 R382, R387, 04 R133). -/
def Blk.askBlock (b : Blk) (opc : Nat) (t : Byte) (bs : List Byte) : Except Refuse Ask :=
  match b.targets .many t with
  | none => .error (badAt noByte)
  | some ns =>
    if bs.length < 32 then .error (badAt noByte) else
    let mb := moveBlock opc bs
    match mb.bad opc b.version with
    | some o => .error (badAt o)
    | none =>
      let queue := mb.options.testBit 0; let home := mb.options.testBit 1
      let k : MoveK := if opc = 0x30 then .abs mb.value else if opc = 0x31 then .rel mb.value else .vel mb.value home
      let slow := home && ns.any fun n => let a := b.axis n
        a.stepper && decide (mb.value.natAbs < 256 * 16 * a.r AX.LA_GAIN.V_EST)
      if slow || ns.any (fun n => (b.axis n).outside k queue) then .error (badAt 4)
      else
        let grp := if 0xF0 ≤ t.toNat && t != 0xFF then some (t.toNat - 0xF0, false) else none
        .ok ⟨mb.policy, mb.dly, ns.map fun n => ⟨n, k, mb.lim, queue⟩, grp, rankOf t⟩

/-- An entry of `MOVE_GROUP` (11 R388). -/
def groupEntry (bs : List Byte) (o : Nat) : Option MoveK :=
  match u bs (o + 1) 1 with
  | 0 => some (.abs (sI bs (o + 8) 8)) | 1 => some (.rel (sI bs (o + 8) 8)) | 2 => some (.vel (sI bs (o + 8) 4) false) | _ => none

/-- `MOVE_GROUP` (06 R195, 11 R388). -/
def Blk.askGroup (b : Blk) (t : Byte) (bs : List Byte) : Except Refuse Ask :=
  match b.targets .group t with
  | none => .error (badAt noByte)
  | some mems =>
    let cnt := u bs 4 1; let stop := (u bs 1 1).testBit 2
    if bs.length < 8 then .error (badAt noByte)
    else if policyBad (u bs 0 1) b.version true then .error (badAt 0)
    else if stop && b.version < 0x21 then .error (badAt 1)
    else if cnt = 0 || 48 < cnt then .error (badAt 4)
    else if bs.length < 8 + 16 * cnt then .error (badAt noByte)
    else
      let r : Except Nat (List Member) := (List.range cnt).foldl (fun acc i =>
        match acc with
        | .error o => .error o
        | .ok ms =>
          let o := 8 + 16 * i
          if h : u bs o 1 < 48 then
            let n : Fin 48 := ⟨u bs o 1, h⟩
            if !(mems.contains n) || ms.any (fun (m : Member) => m.axis = n) then .error o
            else match groupEntry bs o with
              | none => .error (o + 1)
              | some k => if (b.axis n).outside k false then .error (o + 8) else .ok (ms ++ [⟨n, k, noLimits, false⟩])
          else .error o) (.ok [])
      match r with
      | .error o => .error (badAt o)
      | .ok ms => .ok ⟨u bs 0 1, u bs 2 2, ms, some (t.toNat - 0xF0, stop), rankOf t⟩

/-! ### Followers -/

/-- The master of a follower's move. -/
def MoveK.master : MoveK → Option MasterRef
  | .gear r .. => some r
  | .cam c => some c.master
  | _ => none

/-- The masters that an axis follows, or, with `all`, has been admitted to follow. -/
def Axis.masterRefs (a : Axis) (all : Bool) : List MasterRef :=
  (a.mot.engage.bind fun e => e.kind.master).toList
    ++ (if all then [a.mot.camWait.map fun w => w.1.master, a.mot.waiting.bind fun w => w.move.kind.master].filterMap id else [])

/-- The local axes among them. -/
def Axis.masterAxes (a : Axis) : List (Fin 48) := (a.masterRefs true).filterMap MasterRef.local

/-- The depth of an axis as a follower (06 R203), within `fuel` steps: a master on another module counts one. -/
def Blk.depthOf (b : Blk) (fuel : Nat) (n : Fin 48) (all : Bool := true) : Nat :=
  match fuel with
  | 0 => 0
  | f + 1 => (((b.axis n).masterRefs all).map fun r => 1 + (MasterRef.local r).elim 0 fun m => b.depthOf f m all).foldl max 0

/-- The followers below an axis, in levels. -/
def Blk.heightOf (b : Blk) : Nat → Fin 48 → Nat
  | 0, _ => 0
  | f + 1, n => ((allAxes.filter fun k => (b.axis k).masterAxes.contains n).map fun k => 1 + b.heightOf f k).foldl max 0

/-- An axis stands among the masters of another, itself included. -/
def Blk.reaches (b : Blk) : Nat → Fin 48 → Fin 48 → Bool
  | 0, m, n => m == n
  | f + 1, m, n => m == n || (b.axis m).masterAxes.any fun k => b.reaches f k n

/-- An engage that would close a loop or pass depth 3 (06 R203). -/
def Blk.badMaster (b : Blk) (n : Fin 48) (r : MasterRef) : Bool :=
  match MasterRef.local r with
  | none => decide (3 < 1 + b.heightOf 4 n)
  | some m => b.reaches 4 m n || decide (3 < b.depthOf 4 m + 1 + b.heightOf 4 n)

/-- `FOLLOW_STEP`, `GEAR`, `LOCAL_SPEED`, `CAM_ENGAGE` (11 R389, R390), their bytes judged in order (R398). -/
def Blk.askOne (b : Blk) (opc : Nat) (t : Byte) (bs : List Byte) : Except Refuse Ask :=
  if h : t.toNat < 48 then
    let n : Fin 48 := ⟨t.toNat, h⟩
    let len := if opc = 0x38 then 28 else if opc = 0x3B then 44 else 4
    if bs.length < len then .error (badAt noByte) else
    let pol := u bs (if opc = 0x3B then 4 else 0) 1
    let polBad := policyBad pol b.version false
    if opc != 0x3B && polBad then .error (badAt 0) else
    let one := fun (k : MoveK) => Except.ok (⟨pol, 0, [⟨n, k, noLimits, false⟩], none, rankOf t⟩ : Ask)
    if opc = 0x37 then one .followStep
    else if opc = 0x39 then one (.localSpeed ((b.axis n).r AX.BL_LS_VMAX.LS_VMAX))
    else if opc = 0x38 then
      match b.masterRef bs 4 with
      | none => .error (badAt (masterByte bs 4))
      | some r =>
        if b.badMaster n r then .error (badAt 4)
        else if u bs 16 4 = 0 then .error (badAt 16)
        else if 2 ^ 63 ≤ u bs 20 8 then .error (badAt 20)
        else one (.gear r (sI bs 12 4) (u bs 16 4) (u bs 20 8))
    else
      if ht : u bs 0 1 < 64 then
        if 1 < u bs 1 1 then .error (badAt 1)
        else if 1 < u bs 2 1 then .error (badAt 2)
        else if polBad then .error (badAt 4)
        else match b.masterRef bs 8 with
          | none => .error (badAt (masterByte bs 8))
          | some r =>
            if b.badMaster n r then .error (badAt 8)
            else one (.cam {
              table := ⟨u bs 0 1, ht⟩, master := r, mOrg := sI bs 16 8, abs := u bs 1 1 = 0, sOrg := sI bs 24 8
              startAt := if u bs 2 1 = 1 then some (sI bs 32 8, !(u bs 3 1).testBit 1) else none
              tol := u bs 40 4, autoOff := (u bs 3 1).testBit 0 })
      else .error (badAt 0)
  else .error (badAt noByte)

/-- What a move opcode asks, by its payload. -/
def Blk.ask (b : Blk) (opc : Nat) (t : Byte) (bs : List Byte) : Except Refuse Ask :=
  if opc = 0x33 then b.askGroup t bs
  else if opc = 0x30 || opc = 0x31 || opc = 0x32 then b.askBlock opc t bs
  else b.askOne opc t bs

/-! ### State checks (06 R181) -/

/-- The calibration set failed its check (08 R289). -/
def Blk.calFailed (b : Blk) : Bool := !(b.meas.copies.get b.meas.inUse).ok

/-- A waiting or running move that a move may be queued behind (06 R181, R189). -/
def Axis.mayQueue (a : Axis) : Bool :=
  let m := a.mot
  m.queued.isNone &&
  (match m.waiting with
   | some w => (match w.move.kind with | .abs _ | .rel _ => true | _ => false)
   | none => m.mode = .position || m.mode = .velocity)

/-- The mode in which a command is judged: after a `FALLOW` to a moving axis, STOPPING (06 R200). -/
def Motion.judged (m : Motion) : Mode := if m.mode.running && m.fallowAfter then .stopping else m.mode

/-- The row of 06 R180 that a command has for the axis's mode. -/
def Axis.hasRow (a : Axis) (k : MoveK) (queue : Bool) : Bool :=
  let m := a.mot
  let free := m.waiting.isNone && m.camWait.isNone
  -- 06 R200: after a `FALLOW` a command is judged in STOPPING
  if m.judged = .stopping then false else
  let idle := free && (m.mode = .fallow || m.mode = .hold || m.mode = .park)
  match k with
  | .abs _ | .rel _ => idle || (queue && a.mayQueue)
  | .vel .. => idle || (free && (m.mode = .velocity || m.mode = .localSpeed))
  | .localSpeed _ => a.brushless && (idle || (free && m.mode = .localSpeed))
  | .followStep | .cam _ => idle
  | .gear .. => idle || (free && m.mode = .gear)
  | .hold => free && (m.mode = .fallow || m.mode = .park)

/-- A master is valid for an engage (06 R180, R203, R204). -/
def Blk.masterValid (b : Blk) (r : MasterRef) : Bool :=
  (b.masters r).isSome && (match r with | .step m => (b.axis m).mot.mode = .followStep | _ => true)

/-- The status of step 8 for a command that starts motion or `HOLD` on an axis (06 R128, R181). -/
def Blk.stateFault (b : Blk) (n : Fin 48) (k : MoveK) (queue : Bool) : Option Nat :=
  let a := b.axis n
  let absolute := match k with | .abs _ | .cam _ => true | _ => false
  let target := match k with
    | .gear r .. => b.masterValid r
    | .cam c => b.masterValid c.master && (b.cams.get c.table).valid
    | _ => true
  if a.faulted || b.calFailed then some 0x50
  else if !a.b AX.RST_STAT.SESS_RST || a.model.isNone || a.pwm.directAct || (a.posUnc && absolute) || !a.hasRow k queue || !target then some 0x12
  else if a.calSelf || b.meas.rw.elim false (·.axis = n) then some 0x40
  else none

/-- Steps 7 and 8 for what a move asks: zero limits first (06 R181), then the first member's status that fails. -/
def Blk.askFault (b : Blk) (a : Ask) : Option Refuse :=
  if a.members.any fun m => (b.axis m.axis).zeroLimit m then some (badAt noByte)
  else (a.members.findSome? fun m => b.stateFault m.axis m.kind m.queued).map fun st => (st, [])

/-- A motion command cancels a pending fallow (06 R200). -/
def Blk.cancelFallow (b : Blk) (a : Ask) : Blk :=
  a.members.foldl (fun (b : Blk) m => b.mapAx m.axis fun x => { x with mot := { x.mot with fallowAfter := false } }) b

/-- A move command is judged, and becomes a candidate (07 R233, R234). -/
def runMove (opc off : Nat) (b : Blk) (q : Req) : Blk :=
  let query := off != 0
  match b.ask opc q.h.tgt (q.body.drop off) with
  | .error (st, ex) => b.answer q st (if off = 0 then ex else ex.map fun x => if x = 0xFF then x else x + BitVec.ofNat 8 off)
  | .ok a =>
    let f := b.askFault a
    let b := if query then b else b.cancelFallow a
    match f with
    | some (st, ex) => b.answer q st ex
    | none => { b with plan := { b.plan with cands := b.plan.cands ++ [⟨q, query, a.policy, a.dly, a.members, a.rank, a.group, false⟩] } }

/-- `PLAN_QUERY` (07 R241, 11 R393). -/
def runPlanQuery (b : Blk) (q : Req) : Blk :=
  let opc := u q.body 0 1
  if q.body.length < 8 then b.badParam q
  else if opc ∈ [0x30, 0x31, 0x32, 0x33, 0x37, 0x38, 0x39, 0x3B] then runMove opc 8 b q
  else b.badParam q 0

/-! ### Stops and what acts at once -/

/-- Candidates of the axes are marked stopped (07 R257, 11 R405). -/
def Blk.markStopped (b : Blk) (ns : List (Fin 48)) : Blk :=
  { b with plan := { b.plan with cands := b.plan.cands.map fun c =>
      if !c.query && c.members.any (fun m => ns.contains m.axis) then { c with stopped := true } else c } }

/-- `STOP`, `QSTOP` and `FALLOW` act on each member (11 R382, 06 R197, R198, R200, 02 R69). -/
def runStops (d : Deferred) (b : Blk) (q : Req) : Blk :=
  match b.targets .many q.h.tgt with
  | none => b.badParam q
  | some ns =>
    let f := fun (c : Cell) => match d with
      | .stop => c.stop .stop | .qstop => c.stop .qstop | .fallow => c.fallowCmd
    ((b.markStopped ns).cells ns fun _ c => c.written.orDefer d f).answerEach q ns (ns.map fun _ => 0)

/-- `HOLD` on one axis: a step from FALLOW or PARK (06 R180, R188). -/
def Cell.holdCmd (c : Cell) : Cell :=
  let c := c.written.leaveFallow.accepted
  let src := if c.ax.brushless then c.ax.restSrc else .none
  let c := (c.setB AX.BL_STAT.PARK false).setB AX.BL_STAT.BRAKE false
  -- a sensorless axis holds in grip at the angle it has (05 R160; notes/assumptions/25.md)
  let src := if c.ax.brushless && src = .none then PosSrc.grip else src
  let ang := c.ax.bl.theta
  let c := c.bl fun x => { x with brake := .none, start := .none, posSrc := src, gripPos := c.ax.mot.pCmd, gripAngle := ang }
  -- the loops hold where the rotor stands (05 R149)
  (c.mot fun m => { m with mode := .hold, prof := { p := m.pCmd }, stop := .none, rest := some ⟨0, c.now + 1⟩ }).reg
    fun r => { r with rest := .slew }

/-- A motion command cancels a pending fallow, refused or not (06 R200). -/
def Cell.unfallow (c : Cell) : Cell := c.mot fun m => { m with fallowAfter := false }

/-- `HOLD` (06 R180, R181, 11 R382). -/
def runHold (b : Blk) (q : Req) : Blk :=
  match b.targets .many q.h.tgt with
  | none => b.badParam q
  | some ns =>
    let (b, sts) := ns.foldl (fun (b, sts) n =>
      match Blk.stateFault b n .hold false with
      | some st => (b.cell n Cell.unfallow, sts ++ [st])
      | none => ((b.cell n Cell.holdCmd).staleRise b, sts ++ [0])) (b, ([] : List Nat))
    b.answerEach q ns sts

/-- `BRAKE` (05 R165, 06 R180, 11 R389). -/
def runBrake (b : Blk) (q : Req) : Blk :=
  b.forAxis q 0 fun b n =>
    let a := b.axis n
    if !a.brushless || !(a.mot.judged = .hold || a.mot.judged = .stopping) then (b.cell n Cell.unfallow).refusedState q
    else (b.cell n fun c => ((c.endJob false).unfallow.startBrake .park).written).ok q

/-- `CAM_DISENGAGE` (06 R180, R211, R212, 11 R389). -/
def runCamDisengage (b : Blk) (q : Req) : Blk :=
  b.forAxis q 16 fun b n =>
    let m := (b.axis n).mot
    if 1 < u q.body 0 1 then b.badParam q 0
    else
      let b := b.cell n Cell.unfallow
      if m.camWait.isSome then (b.cell n fun c => (c.mot fun x => { x with camWait := none, job := none }).written).ok q
      else if !(2 ≤ m.judged.num && m.judged.num ≤ 7) then b.refusedState q
      else if u q.body 0 1 = 0 then (b.cell n fun c => c.written.orDefer .stop (·.stop .stop)).ok q
      else match m.engage with
        | none => b.refusedState q
        | some e => (b.cell n fun c => (c.mot fun x => { x with
            engage := some { e with offAt := some (sI q.body 8 8, !(u q.body 1 1).testBit 1) } }).written).ok q

/-- The stop of every axis (11 R402). -/
def Blk.stopEvery (b : Blk) (byte : Nat) : Blk :=
  let d := if byte = 1 then Deferred.stop else .qstop
  (b.markStopped allAxes).cells allAxes fun _ c =>
    let c := c.written
    if c.ax.mot.mode.running then c.orDefer d (·.stop (if byte = 1 then .stop else .qstop)) else c.discard

/-- `STOP_ALL` (11 R402, 01 R26): only the owner's, in its session, is answered; a stack's master relays it (15). -/
def runStopAll (b : Blk) (q : Req) : Blk :=
  let own := b.isOwner q.h.src && b.sess.elim false fun s => s.sid = q.h.sid
  match b.targets .stopAll q.h.tgt with
  | none => if own then b.badParam q else b
  | some _ =>
    let b := b.stopEvery (u q.body 0 1)
    let b := if b.master then { b with casc := { b.casc with stopMark := some (BitVec.ofNat 8 (u q.body 0 1)) } } else b
    if own then b.ok q else b

/-! ### Cam tables -/

/-- An axis has engaged a table, or waits to (06 R207). -/
def Axis.usesTable (a : Axis) (t : Fin 64) : Bool :=
  let of := fun (k : MoveK) => match k with | .cam c => c.table == t | _ => false
  (a.mot.engage.elim false fun e => of e.kind) || (a.mot.camWait.elim false fun w => w.1.table == t)
    || (a.mot.waiting.elim false fun w => of w.move.kind)

/-- The descriptor of a load, or the first byte that is out of its range (06 R206). -/
def camDesc (bs : List Byte) : Except Nat CamTable :=
  let n := u bs 8 2
  if n < 2 || 1024 < n then .error 8
  else if 24 < u bs 10 1 then .error 10
  else if 24 < u bs 11 1 then .error 11
  else if 2 < u bs 12 1 then .error 12
  else if 1 < u bs 13 1 then .error 13
  else .ok { count := n, mShift := u bs 10 1, sShift := u bs 11 1, interp := u bs 12 1, periodic := u bs 13 1 = 1
             points := List.replicate n none, valid := false }

/-- A table with a run of points written: it is checked when every point has been written (06 R207).  Gives whether the
check refused it. -/
def CamTable.write (t : CamTable) (i : Nat) (ps : List (Int × Int)) : CamTable × Bool :=
  let pts := ps.zipIdx.foldl (fun (l : List (Option (Int × Int))) x => l.set (i + x.2) (some x.1)) t.points
  let t := { t with points := pts, valid := false }
  if t.count != 0 && pts.all (·.isSome) then
    if t.good then ({ t with valid := true }, false) else (t, true)
  else (t, false)

/-- `CAM_LOAD` (06 R207, 11 R391). -/
def runCamLoad (b : Blk) (q : Req) : Blk :=
  b.forModule q 8 fun b =>
    let bs := q.body
    let desc := (u bs 1 1).testBit 0; let n := u bs 4 2; let i := u bs 2 2
    if h : u bs 0 1 < 64 then
      let t : Fin 64 := ⟨u bs 0 1, h⟩
      if 125 < n then b.badParam q 4
      else
        let o := if desc then 16 else 8
        if bs.length < o + 8 * n then b.badParam q
        else match (if desc then camDesc bs else .ok (b.cams.get t)) with
          | .error k => b.badParam q k
          | .ok tab =>
            if tab.count < i + n then b.badParam q 2
            else if b.ax.any (·.usesTable t) || b.plan.cands.any (fun c => c.members.any fun m =>
                match m.kind with | .cam x => x.table == t | _ => false) then b.refusedState q
            else
              let (tab, bad) := tab.write i (camPoints n (bs.drop o))
              let b := { b with
                cams := b.cams.set t tab
                -- 16 R496: a descriptor erases the slot, a valid table is to be written
                sm := if desc then b.sm.map fun (p : SmPort) => if p.absent.getLsbD 0 then p else { p with mem := memErase p.mem (camSlot t) } else b.sm
                camDirty := b.camDirty.map fun m => bitSet m t.val (tab.valid || (!desc && m.getLsbD t.val)) }
              if bad then b.badParam q else b.ok q
    else b.badParam q 0

/-! ### The rows -/

def execMoveAbs (p : Pkt) (s : State) : Host.Outcome State Fault Refusal := onBlk (fun b => b.packet p 0x30 (runMove 0x30 0)) s
def execMoveRel (p : Pkt) (s : State) : Host.Outcome State Fault Refusal := onBlk (fun b => b.packet p 0x31 (runMove 0x31 0)) s
def execMoveVel (p : Pkt) (s : State) : Host.Outcome State Fault Refusal := onBlk (fun b => b.packet p 0x32 (runMove 0x32 0)) s
def execMoveVelHome (p : Pkt) (s : State) : Host.Outcome State Fault Refusal := onBlk (fun b => b.packet p 0x32 (runMove 0x32 0)) s
def execMoveGroup (p : Pkt) (s : State) : Host.Outcome State Fault Refusal := onBlk (fun b => b.packet p 0x33 (runMove 0x33 0)) s
def execHold (p : Pkt) (s : State) : Host.Outcome State Fault Refusal := onBlk (fun b => b.packet p 0x34 runHold) s
def execFallow (p : Pkt) (s : State) : Host.Outcome State Fault Refusal := onBlk (fun b => b.packet p 0x35 (runStops .fallow)) s
def execBrake (p : Pkt) (s : State) : Host.Outcome State Fault Refusal := onBlk (fun b => b.packet p 0x36 runBrake) s
def execFollowStep (p : Pkt) (s : State) : Host.Outcome State Fault Refusal := onBlk (fun b => b.packet p 0x37 (runMove 0x37 0)) s
def execGear (p : Pkt) (s : State) : Host.Outcome State Fault Refusal := onBlk (fun b => b.packet p 0x38 (runMove 0x38 0)) s
def execLocalSpeed (p : Pkt) (s : State) : Host.Outcome State Fault Refusal := onBlk (fun b => b.packet p 0x39 (runMove 0x39 0)) s
def execCamLoad (p : Pkt) (s : State) : Host.Outcome State Fault Refusal := onBlk (fun b => b.packet p 0x3A runCamLoad) s
def execCamEngage (p : Pkt) (s : State) : Host.Outcome State Fault Refusal := onBlk (fun b => b.packet p 0x3B (runMove 0x3B 0)) s
def execCamDisengage (p : Pkt) (s : State) : Host.Outcome State Fault Refusal := onBlk (fun b => b.packet p 0x3C runCamDisengage) s
def execStop (p : Pkt) (s : State) : Host.Outcome State Fault Refusal := onBlk (fun b => b.packet p 0x40 (runStops .stop)) s
def execQstop (p : Pkt) (s : State) : Host.Outcome State Fault Refusal := onBlk (fun b => b.packet p 0x41 (runStops .qstop)) s
def execStopAll (p : Pkt) (s : State) : Host.Outcome State Fault Refusal := onBlk (fun b => b.packet p 0x42 runStopAll) s
def execPlanQuery (p : Pkt) (s : State) : Host.Outcome State Fault Refusal := onBlk (fun b => b.packet p 0x53 runPlanQuery) s

end Sys2Proof.Machine
end

