-- ==== Sys2Proof/Machine/Service.lean ====
section
/-!
DEFINITION. Packets of the planner's settings (11 R393), of the data plane (11 R394, R395, 12 R418) and of the management
plane (11 R396, R397, 08 R287 to R291, 10 R332 to R335, 15 R466, R470, 16 R494, R495).
-/

namespace Sys2Proof.Machine

/-! ### Settings of the planner -/

/-- A field written by a command: limited as a register write limits it (07 R258). -/
def Blk.setLim (b : Blk) (f : Fld) (v : Nat) : Blk :=
  let w := f.ins ((b.regs[f.reg]?).getD 0) (f.sat v)
  { b with regs := b.regs.setIfInBounds f.reg (b.modClamp f.reg w) }

/-- `BUDGET_SET` (07 R223, 11 R393): all fields in one commit; a slave refuses it (15 R475). -/
def runBudgetSet (b : Blk) (q : Req) : Blk :=
  b.forModule q 26 fun b =>
    if b.slave then b.refusedState q else
    let f := u q.body
    ([(LEDG.BUD_PWR.P_IN_MAX, f 0 2), (LEDG.BUD_PWR.P_ES_MAX, f 2 2), (LEDG.BUD_IIN.I_IN_MAX_A, f 4 2),
      (LEDG.BUD_IIN.I_IN_MAX_B, f 6 2), (LEDG.BUD_LINK.V_LINK_LO, f 8 2), (LEDG.BUD_LINK.V_LINK_HI, f 10 2),
      (LEDG.BUD_RES.E_RES, f 12 4), (LEDG.BUD_RET.RET_A, f 16 1 % 2), (LEDG.BUD_RET.RET_B, f 16 1 / 2 % 2),
      (LEDG.BUD_RET.P_RET_MAX, f 18 2), (LEDG.ES_CFG.P_CHG_MAX, f 20 2), (LEDG.ES_CFG.V_ES_FULL, f 22 2),
      (LEDG.BRK_CFG.P_BRK_MAX, f 24 2)].foldl (fun (b : Blk) x => b.setLim x.1 x.2) b).ok q

/-- `RESERVE_SET` (07 R225, 11 R393): a slave takes its tags alone (15 R475). -/
def runReserveSet (b : Blk) (q : Req) : Blk :=
  b.forModule q 16 fun b =>
    let b := if b.slave then b else b.set LEDG.RES_CFG.RES_MARGIN (u q.body 0 1)
    let tag := fun (b : Blk) (f : Fld) (o : Nat) =>
      { b with regs := b.regs.setIfInBounds f.reg (BitVec.ofNat 32 (u q.body o 4)) }
    (tag (tag (tag b LEDG.RES_TAG0.TAG0 4) LEDG.RES_TAG1.TAG0 8) LEDG.RES_TAG2.TAG0 12).ok q

/-- `LEDGER_READ` (11 R393): an ID outside 07 R215 reads as zero. -/
def runLedgerRead (b : Blk) (q : Req) : Blk :=
  b.forModule q 1 fun b =>
    let n := u q.body 0 1
    if n = 0 || 32 < n then b.badParam q 0
    else if q.body.length < 4 + 4 * n then b.badParam q else
    let ids := (List.range n).map fun k => u q.body (4 + 4 * k) 4
    b.ok q ([BitVec.ofNat 8 n, 0, 0] ++ ids.flatMap fun id => leBytes 4 id ++ leBytes 8 ((b.ledgerId id).elim 0 wide64))

/-! ### Streams and the log -/

/-- Bit times of a port, ns (12 R407). -/
def tNom (w : Word) : Nat := match w.toNat % 4 with | 0 => 8000 | 1 => 4000 | 2 => 2000 | _ => 1000
def tData (w : Word) : Nat := match w.toNat / 4 % 8 with | 0 => tNom w | 1 => 1000 | 2 => 500 | 3 => 250 | _ => 200

/-- T_frame, ns (12 R418). -/
def tFrame (w : Word) (len : Nat) : Nat := 56 * tNom w + (8 * len + 128) * tData w

def maskCount (m : BitVec 48) : Nat := (allAxes.filter fun n => m.getLsbD n.val).length

/-- The bus time of a stream's capture on a port, ns (12 R418). -/
def captureNs (w : Word) (a : Nat) : Nat := (a / 2) * tFrame w 64 + (if a % 2 = 1 then tFrame w 48 else 0)

/-- The load of a stream, as ns per swath, scaled by the common multiple that keeps it exact. -/
def Stream.load (s : Stream) (w : Word) : Rat := (captureNs w (maskCount s.mask) : Rat) / s.k

/-- `STREAM_START` (11 R394, 12 R418). -/
def runStreamStart (b : Blk) (q : Req) : Blk :=
  b.forModule q 10 fun b =>
    let k := u q.body 2 1; let p := u q.body 3 1
    let port : Option (Fin 6) := if p = 0 then (match q.via with | .port x => some x | .ring => none) else if p = 2 then some 2 else if p = 3 then some 3 else none
    match (if h : u q.body 0 1 < 4 then some (⟨u q.body 0 1, h⟩ : Fin 4) else none), port with
    | none, _ => b.badParam q 0
    | some i, port =>
      if u q.body 1 1 != 0 then b.badParam q 1
      else if k = 0 || 250 < k then b.badParam q 2
      else match port with
        | none => b.badParam q 3
        | some x =>
          if x != 2 && x != 3 then b.badParam q 3 else
          let sid := b.sess.elim 0 (·.sid)
          let s : Stream := ⟨BitVec.ofNat 48 (u q.body 4 6), k, x, q.h.src, sid, q.h.major, 0⟩
          let w := (b.ports.get x).timing
          let others := (b.streams.toList.filterMap id).filter fun t => t.port = x
          let sum := (others.map fun t => Stream.load t w).foldl (· + ·) (s.load w)
          if (b.r (MB.CONG.STRM_MAX.port x) : Rat) * 10000 < sum then b.badParam q
          else if (b.streams.get i).isSome then b.refusedState q
          else { b with streams := b.streams.set i (some s) }.ok q

/-- `STREAM_STOP` (11 R394). -/
def runStreamStop (b : Blk) (q : Req) : Blk :=
  b.forModule q 1 fun b =>
    if h : u q.body 0 1 < 4 then { b with streams := b.streams.set (⟨u q.body 0 1, h⟩ : Fin 4) none }.ok q else b.badParam q 0

/-- `LOG_READ` (11 R395, 16 R499). -/
def runLogRead (b : Blk) (q : Req) : Blk :=
  b.forModule q 5 fun b =>
    let c := u q.body 4 1
    if c = 0 || 30 < c then b.badParam q 4 else
    let l := b.log
    let first := max (u q.body 0 4) l.tail
    let n := min c (l.head - first)
    let mem := (b.sm.get (b.act.elim 0 (·.idx))).mem
    b.ok q (leBytes 4 first ++ [BitVec.ofNat 8 n, 0, 0] ++ (List.range n).flatMap fun i => memBytes mem (logAddr (first + i)) 32)

/-! ### Graze and calibration -/

/-- `GRAZE_CTRL` (10 R349, 11 R396). -/
def runGrazeCtrl (b : Blk) (q : Req) : Blk :=
  b.forModule q 6 fun b =>
    let v := u q.body 0 4; let item := u q.body 4 1; let ax := u q.body 5 1
    let b' := ((b.set GRAZE.CTRL.EN (v % 2)).set GRAZE.CTRL.PAUSE (v / 2 % 2)).set GRAZE.CTRL.ITEMS (v / 256 % 2048)
    if item = 0xFF then b'.ok q
    else if h : item < 11 then
      let i : Fin 11 := ⟨item, h⟩
      if item ≤ 5 then
        if ha : ax < 48 then { b' with graze := { b'.graze with req := some (i, some ⟨ax, ha⟩) } }.ok q else b.badParam q 5
      else { b' with graze := { b'.graze with req := some (i, none) } }.ok q
    else b.badParam q 4

/-- `CAL_SELF` starts (08 R287, R292) once no item of the background calibration works on its axes: the slices of its axes, their substitutes and
every free spare, which completes an item of its own first. -/
def Blk.selfStart (b : Blk) : Blk :=
  match b.meas.calSelf with
  | none => b
  | some (_, ns) =>
    if b.meas.selfRun || ns.any fun n => (b.axis n).slc.any fun x => x.direct || x.stand.isSome then b
    else
      let mine := fun (x : Spare) => x.serves.elim (x.use == 0 && !x.fail) fun y => x.use == 2 && ns.contains y.1
      { (b.setB MEAS.CAL_STAT.SELF_BUSY true) with meas := { b.meas with
        selfRun := true
        spares := Vector.ofFn fun k => let x := b.meas.spares.get k
          if !mine x then x else if b.spareBusy x then { x with selfDue := true } else { x with item := some (.spare k) } } }

/-- `CAL_SELF` (08 R287, R292): the reply follows completion. -/
def runCalSelf (b : Blk) (q : Req) : Blk :=
  b.forModule q 6 fun b =>
    let ns := maskAxes (u q.body 0 6)
    if ns.any fun n => let m := (b.axis n).mot; !(m.mode = .fallow) then b.refusedState q
    else if b.meas.calSelf.isSome || b.meas.calWrite.isSome || b.meas.rw.elim false (fun r => ns.contains r.axis) then b.busy q
    else
      let b := ns.foldl (fun (b : Blk) n => b.mapAx n fun a => { a with
        calSelf := true, slc := a.slc.map fun (x : Slice) => { x with calDone := if x.stand.isSome then x.calDone else none } }) b
      { b with meas := { b.meas with calSelf := some (q, ns), selfRun := false } }.selfStart

/-- Entries whose low half is a gain (08 R289). -/
def calGain (i : Nat) : Bool := i < 493 || (496 ≤ i && i < 512)

/-- The axis of an entry (08 R289). -/
def calAxis (i : Nat) : Option (Fin 48) :=
  if h : i < 480 then some ⟨i % 240 / 5, by omega⟩ else none

/-- An entry as it is stored: reserved entries stay 0 (08 R289). -/
def calStored (i : Nat) (v : Word) : Word := if calGain i || i = 512 then v else 0

/-- `CAL_WRITE` (08 R290, R292): the reply follows completion. -/
def runCalWrite (b : Blk) (q : Req) : Blk :=
  b.forModule q 4 fun b =>
    let first := u q.body 0 2; let n := u q.body 2 2
    if n = 0 || 253 < n then b.badParam q 2
    else if q.body.length < 4 + 4 * n then b.badParam q
    else if 1023 < first + n then b.badParam q 0 else
    let vs : List Word := (List.range n).map fun k => calStored (first + k) (BitVec.ofNat 32 (u q.body (4 + 4 * k) 4))
    match (List.range n).find? fun k => calGain (first + k) && (((vs[k]?).getD 0).toNat % 65536 = 0) with
    | some k => b.badParam q (if 4 + 4 * k < 255 then 4 + 4 * k else noByte)
    | none =>
      let cur := b.meas.copies.get b.meas.inUse
      let moved := (List.range n).any fun k =>
        (vs[k]?).getD 0 != calLookup cur.ent (first + k)
          && (calAxis (first + k)).elim false fun a => !((b.axis a).mot.mode = .fallow)
      let pm := b.planes.get 2
      if !pm.armed || moved then b.refusedState q
      else if b.meas.calSelf.isSome || b.meas.calWrite.isSome then b.busy q
      else { b with
        planes := b.planes.set 2 { pm with armed := false }
        meas := { b.meas with calWrite := some (q, first, vs) } }

/-- `CAL_READ` (08 R291, 11 R396). -/
def runCalRead (b : Blk) (q : Req) : Blk :=
  b.forModule q 4 fun b =>
    let first := u q.body 0 2; let n := u q.body 2 2
    if n = 0 || 252 < n then b.badParam q 2
    else if 1024 < first + n then b.badParam q 0
    else
      let c := b.meas.copies.get b.meas.inUse
      b.ok q (leBytes 2 first ++ leBytes 2 n ++ [0, 0, 0] ++ (List.range n).flatMap fun k => leBytes 4 (c.entry (first + k)).toNat)

/-! ### Firmware (10 R333 to R335, 16 R494, R495) -/

/-- The sides and the bank that a load writes, none where there is no standby side to write (10 R334, 16 R494). -/
def Blk.fwTarget (b : Blk) : Option (List Side × Fin 2) :=
  if b.phase = 1 then some ([Side.a, Side.b].filter fun s => !((b.smp s).absent.getLsbD 0), 0)
  else match b.act with
    | none => none
    | some s =>
      let o := b.side s.other
      if o.st != .standby then none
      else some ([s.other], if o.img.isNone then 0 else 1 - o.bank)

/-- The port goes on to erase the load's next block (16 R495): one block beyond the last byte received. -/
def Blk.fwErase (b : Blk) : Blk :=
  match b.fw with
  | none => b
  | some f =>
    f.sides.foldl (fun (b : Blk) s =>
      let e := f.erased.get s.idx
      if (b.smp s).op.isNone && decide (e < min 128 (f.got / 65536 + 2)) then
        b.smBegin s (.erase 0 (bankBase f.bank + 65536 * e))
      else b) b

def Blk.setBank (b : Blk) (s : Side) (k : Fin 2) (st : Nat) : Blk :=
  b.setRec s fun r => { r with st := r.st.set k st }

/-- `FW_LOAD` BEGIN (11 R396, 16 R495). -/
def fwBegin (b : Blk) (q : Req) : Blk :=
  let total := u q.body 4 4
  if q.body.length < 8 then b.badParam q
  else if bankSize < total then b.badParam q 4
  else match b.fwTarget with
    | none => b.refusedState q
    | some (sides, k) =>
      let b := sides.foldl (fun (b : Blk) s => b.setBank s k 2) b
      { b with fw := some ⟨sides, k, total, 0, #v[0, 0]⟩, fwCut := false }.fwErase.ok q (leBytes 4 0)

/-- A command of a load that is not in progress; the first after a takeover has cut the load is answered `BUSY` (10 R329;
notes/assumptions/149.md). -/
def Blk.noLoad (b : Blk) (q : Req) : Blk := if b.fwCut then { b with fwCut := false }.busy q else b.refusedState q

/-- `FW_LOAD` DATA (11 R396, 16 R495). -/
def fwData (b : Blk) (q : Req) : Blk :=
  let data := (q.body.drop 8).take 1008
  if q.body.length < 8 then b.badParam q else
  match b.fw with
  | none => b.noLoad q
  | some f =>
    if u q.body 4 4 != f.got || bankSize < f.got + data.length then b.badParam q 4
    else if f.sides.any fun s => decide (f.erased.get s.idx * 65536 < f.got + data.length) then b.busy q
    else
      let base := bankBase f.bank + f.got
      let b := f.sides.foldl (fun (b : Blk) s =>
        (b.smSend s (b.putFrames s base data)).mapSm s fun p => { p with mem := memPut p.mem base data }) b
      let got := f.got + data.length
      { b with fw := some { f with got := got } }.fwErase.ok q (leBytes 4 got)

/-- The image of a side passes the checks of END (11 R396, 16 R493). -/
def fwPasses (mem : List Host.Cell) (f : FwLoad) (crc : Nat) : Bool :=
  (imageAt mem f.bank).isSome && f.got = f.total && leNat (memBytes mem (bankBase f.bank + 4) 4) = f.total
    && (crc32 (memBytes mem (bankBase f.bank) f.total)).toNat = crc

/-- `FW_LOAD` END (11 R396, 16 R494, R495): in the ROM phase the loaded sides restart. -/
def fwEnd (b : Blk) (q : Req) : Blk :=
  if q.body.length < 8 then b.badParam q else
  match b.fw with
  | none => b.noLoad q
  | some f =>
    let good := f.sides != [] && f.sides.all fun s => fwPasses (b.smp s).mem f (u q.body 4 4)
    let b := f.sides.foldl (fun (b : Blk) s => b.setBank s f.bank (if good then 0 else 1)) { b with fw := none }
    if !good then b.badParam q
    else
      let b := b.ok q (leBytes 4 f.got)
      if b.phase = 1 then
        let b := f.sides.foldl (fun (b : Blk) s =>
          (b.setRec s fun r => { r with next := f.bank }).mapSide s fun x => { x with st := .booting }) b
        b.set MOD.STATE.PHASE 0
      else b

/-- `FW_LOAD`. -/
def runFwLoad (b : Blk) (q : Req) : Blk :=
  b.forModule q 1 fun b =>
    match u q.body 0 1 with
    | 0 => fwBegin b q
    | 1 => fwData b q
    | 2 => fwEnd b q
    | _ => b.badParam q 0

/-- `FW_SWAP` (10 R333, R334). -/
def runFwSwap (b : Blk) (q : Req) : Blk :=
  b.forModule q 0 fun b =>
    match b.act with
    | none => b.refusedState q
    | some s =>
      let t := s.other; let o := b.side t
      let k : Fin 2 := if o.img.isNone then 0 else 1 - o.bank
      let mem := (b.smp t).mem
      match (if o.st = .standby && (bankRec mem).st.get k = 0 then imageAt mem k else none) with
      | none => b.refusedState q
      | some im =>
        let x := if b.xver != 0 then b.xver else (b.side s).img.elim 0 (·.xmax)
        let inside := fun (lo v hi : Nat) => decide (lo ≤ v) && decide (v ≤ hi)
        let fits := inside im.xmin x im.xmax && (b.sess.elim true fun z => inside im.pmin z.version im.pmax)
          && (!b.stacked || inside im.lmin b.casc.lver im.lmax)
        if !fits then b.answer q 0x24 versionRange
        else if b.fw.isSome then b.busy q
        else
          let b := b.setRec t fun r => { r with next := k, before := o.bank }
          (b.mapSide t fun z => { z with st := .booting, fit := false, swap := some o.bank }).answer q 0x01

/-- `SIDE_SWITCH` (10 R332): the reply comes from the new side. -/
def runSideSwitch (b : Blk) (q : Req) : Blk :=
  b.forModule q 0 fun b =>
    if !b.stbyOk then b.refusedState q
    else if b.switchReq.isSome then b.busy q
    else { b with switchReq := some q }

/-! ### The stack -/

/-- The state byte of a module (15 R466). -/
def StackMod.state (m : StackMod) : Nat :=
  Bool.bit m.master + 2 * Bool.bit m.alt + 4 * Bool.bit m.ready + 8 * Bool.bit m.wrap + 16 * Bool.bit m.heldOut
    + 32 * Bool.bit m.conflict + 64 * Bool.bit m.noSync

/-- Modules by position, held-out ones last (15 R466). -/
def Casc.listed (c : Casc) : List StackMod :=
  ((List.range 8).flatMap fun p => c.mods.filter fun m => !m.heldOut && m.pos = p) ++ c.mods.filter (·.heldOut)

/-- `CASCADE_ENUM` (11 R397, 15 R466). -/
def runCascadeEnum (b : Blk) (q : Req) : Blk :=
  b.forModule q 0 fun b =>
    let ms := if b.stacked then b.casc.listed else []
    b.ok q ([BitVec.ofNat 8 ms.length, 0, 0] ++ ms.flatMap fun m =>
      [if m.heldOut then 0 else m.addr, BitVec.ofNat 8 (if m.heldOut then 0xFF else m.pos), BitVec.ofNat 8 m.lmax, BitVec.ofNat 8 m.state])

/-- `CASCADE_ROUTE` (15 R470): the inner packet goes on the rings behind its plane byte; the reply follows the slave's. -/
def runCascadeRoute (b : Blk) (q : Req) : Blk :=
  b.forModule q 16 fun b =>
    let to_ := BitVec.ofNat 8 (u q.body 0 1); let inner := q.body.drop 8
    let known := b.master && b.casc.mods.any fun m => !m.heldOut && m.addr = to_ && m.pos != b.casc.selfPos
    if !known then b.badParam q 0
    else if 2 < u q.body 1 1 then b.badParam q 1
    else if 1000 < u inner 6 2 || u inner 6 2 + 8 != inner.length then b.badParam q 14
    else if u inner 4 1 ∈ [0x42, 0x02, 0x04, 0x7D] then b.badParam q 12
    else { b with casc := { b.casc with
      place := b.casc.place ++ [(to_, BitVec.ofNat 8 (u q.body 1 1) :: inner)], routes := b.casc.routes ++ [(to_, q)] } }

/-! ### The rows -/

def execBudgetSet (p : Pkt) (s : State) : Host.Outcome State Fault Refusal := onBlk (fun b => b.packet p 0x50 runBudgetSet) s
def execReserveSet (p : Pkt) (s : State) : Host.Outcome State Fault Refusal := onBlk (fun b => b.packet p 0x51 runReserveSet) s
def execLedgerRead (p : Pkt) (s : State) : Host.Outcome State Fault Refusal := onBlk (fun b => b.packet p 0x52 runLedgerRead) s
def execStreamStart (p : Pkt) (s : State) : Host.Outcome State Fault Refusal := onBlk (fun b => b.packet p 0x60 runStreamStart) s
def execStreamStop (p : Pkt) (s : State) : Host.Outcome State Fault Refusal := onBlk (fun b => b.packet p 0x61 runStreamStop) s
def execLogRead (p : Pkt) (s : State) : Host.Outcome State Fault Refusal := onBlk (fun b => b.packet p 0x62 runLogRead) s
def execGrazeCtrl (p : Pkt) (s : State) : Host.Outcome State Fault Refusal := onBlk (fun b => b.packet p 0x70 runGrazeCtrl) s
def execCalSelf (p : Pkt) (s : State) : Host.Outcome State Fault Refusal := onBlk (fun b => b.packet p 0x71 runCalSelf) s
def execCalWrite (p : Pkt) (s : State) : Host.Outcome State Fault Refusal := onBlk (fun b => b.packet p 0x72 runCalWrite) s
def execCalRead (p : Pkt) (s : State) : Host.Outcome State Fault Refusal := onBlk (fun b => b.packet p 0x73 runCalRead) s
def execFwLoadBegin (p : Pkt) (s : State) : Host.Outcome State Fault Refusal := onBlk (fun b => b.packet p 0x78 runFwLoad) s
def execFwLoadData (p : Pkt) (s : State) : Host.Outcome State Fault Refusal := onBlk (fun b => b.packet p 0x78 runFwLoad) s
def execFwLoadEnd (p : Pkt) (s : State) : Host.Outcome State Fault Refusal := onBlk (fun b => b.packet p 0x78 runFwLoad) s
def execFwSwap (p : Pkt) (s : State) : Host.Outcome State Fault Refusal := onBlk (fun b => b.packet p 0x79 runFwSwap) s
def execSideSwitch (p : Pkt) (s : State) : Host.Outcome State Fault Refusal := onBlk (fun b => b.packet p 0x7A runSideSwitch) s
def execCascadeEnum (p : Pkt) (s : State) : Host.Outcome State Fault Refusal := onBlk (fun b => b.packet p 0x7C runCascadeEnum) s
def execCascadeRoute (p : Pkt) (s : State) : Host.Outcome State Fault Refusal := onBlk (fun b => b.packet p 0x7D runCascadeRoute) s

end Sys2Proof.Machine
end

