-- ==== Sys2Proof/Machine/Calib.lean ====
section
/-!
DEFINITION. Calibration of slices (08 R282 to R288): factors, failures and spares, background calibration, `CAL_SELF`, and
the end of a `CAL_WRITE` (08 R290).
-/

namespace Sys2Proof.Machine

/-! ### Factors -/

def Blk.spareRec (b : Blk) (k : Fin 8) : Spare := b.meas.spares.get k
def Blk.mapSpare (b : Blk) (k : Fin 8) (f : Spare → Spare) : Blk :=
  { b with meas := { b.meas with spares := b.meas.spares.set k (f (b.meas.spares.get k)) } }

/-- The factors of three mean codes, in 1/16 LSB, or none where the slice fails (08 R282): ±30 A stand 1536 LSB from the middle
code 2048. -/
def calFactors (x : CalMeas) : Option Factors :=
  let ofs : Int := x.zero - 32768
  let span : Int := x.pos - x.neg
  if span ≤ 0 then none
  else
    let gain := roundAway ((2 * 1536 * 16 * 32768 : Rat) / span)
    if 1024 < ofs.natAbs || 32768 * 5 < (gain - 32768).natAbs * 100 || 128 < (2 * x.zero - x.pos - x.neg).natAbs then none
    else some ⟨gain.toNat, ofs⟩

def Axis.putFactors (a : Axis) (s : Fin 2) (f : Factors) : Axis :=
  ((a.set (AX.SLC_FAC0.GAIN.skip s.val) f.gain).setS (AX.SLC_FAC0.OFS.skip s.val) f.ofs).set (AX.SLC_FAC0.AGE.skip s.val) 0

def Blk.putSpareFactors (b : Blk) (k : Fin 8) (f : Factors) : Blk :=
  ((b.set (MEAS.SPF0.GAIN.skip k.val) f.gain).setS (MEAS.SPF0.OFS.skip k.val) f.ofs).set (MEAS.SPF0.AGE.skip k.val) 0

/-- Factors that no command reported: free values (notes/assumptions/26.md). -/
def freeFactors (n : Nat) : Factors := ⟨Config.freeNat n % 65536, satS 12 (Config.freeNat (n + 1))⟩

/-- Slices and spares of age 15, which no calibration has reached since the start, take free factors (08 R288), but those that failed; their
number is fixed, so that the draws are. -/
def Blk.bootCal (b : Blk) : Blk :=
  let f := b.fresh
  let one := fun (a : Axis) (s : Fin 2) (n : Nat) =>
    if a.r (AX.SLC_FAC0.AGE.skip s.val) = 15 && !(a.r AX.SLC_STAT.FAIL).testBit s.val then a.putFactors s (freeFactors n) else a
  let b := { b with ax := Vector.ofFn fun n => one (one (b.ax.get n) 0 (f + 4 * n.val)) 1 (f + 4 * n.val + 2) }
  let b := (List.finRange 8).foldl (fun (b : Blk) k =>
    if b.r (MEAS.SPF0.AGE.skip k.val) = 15 && !(b.meas.spares.get k).fail then b.putSpareFactors k (freeFactors (f + 192 + 2 * k.val)) else b) b
  b.draw 208

/-! ### Spares (08 R284) -/

/-- The direct item that a free spare works on is abandoned (08 R284, R292): the slice keeps its factors. -/
def Blk.dropItem (b : Blk) (k : Fin 8) : Blk :=
  let b' := b.mapSpare k fun x => { x with item := none }
  match (b.spareRec k).use, (b.spareRec k).item with
  | 0, some (.axis n s) => b'.mapAx n fun a => { a with slc := a.slc.set s { a.slc.get s with direct := false } }
  | _, _ => b'

/-- A slice takes a spare as its permanent substitute. -/
def Blk.assignSpare (b : Blk) (n : Fin 48) (s : Fin 2) (k : Fin 8) : Blk :=
  let b := b.dropItem k
  let b := b.mapSpare k fun x => { x with use := 2, serves := some (n, s), item := none }
  (b.mapAx n fun a =>
    let a := { a with slc := a.slc.set s { a.slc.get s with stand := none, calDone := none, direct := false, waits := false } }
    let a := a.set AX.SLC_STAT.SUB (a.r AX.SLC_STAT.SUB ||| 2 ^ s.val)
    let a := a.set AX.SLC_STAT.STBY (a.r AX.SLC_STAT.STBY &&& (3 - 2 ^ s.val))
    a.set (if s = 0 then AX.SLC_STAT.SP0 else AX.SLC_STAT.SP1) k.val).raiseAx n [AX.SLC_EVT.SUBST]

/-- A slice is found failed. -/
def Blk.sliceFailed (b : Blk) (n : Fin 48) (s : Fin 2) : Blk :=
  (b.mapAx n fun a =>
    let a := { a with slc := a.slc.set s { a.slc.get s with direct := false } }
    a.set AX.SLC_STAT.FAIL (a.r AX.SLC_STAT.FAIL ||| 2 ^ s.val)).raiseAx n [AX.SLC_EVT.FAIL]

/-- Waiting slices take the spares that have become free, in the order of the axes. -/
def Blk.giveSpares (b : Blk) : Blk :=
  allAxes.foldl (fun b n => [(0 : Fin 2), 1].foldl (fun (b : Blk) s =>
    if ((b.axis n).slc.get s).waits then
      (match b.freeSpares with | k :: _ => b.assignSpare n s k | [] => b)
    else b) b) b

/-- Background calibration runs while a spare is free or lent to it (08 R285). -/
def Blk.bgUpdate (b : Blk) : Blk :=
  let can := b.running && b.meas.spares.any fun x => !x.fail && (x.use == 0 || x.use == 1)
  if can == b.meas.bgRun then b
  else
    let b := { (b.setB MEAS.CAL_STAT.BG_RUN can) with meas := { b.meas with bgRun := can } }
    let b := b.set MEAS.CAL_STAT.STOP_AGE 0
    b.raise [if can then MEAS.EVT.BG_START else MEAS.EVT.BG_STOP]

/-- A slice that has failed with no spare in its place takes one by the state of the spares; the last free one ends background
calibration (08 R285). -/
def Blk.needSpare (b : Blk) (n : Fin 48) (s : Fin 2) : Blk :=
  match b.freeSpares with
  | k :: _ => (b.assignSpare n s k).bgUpdate
  | [] =>
    if b.meas.spares.any fun x => !x.fail && (x.use == 1 || x.use == 3) then
      b.mapAx n fun a => { a with slc := a.slc.set s { a.slc.get s with waits := true } }
    else b.raise [MEAS.EVT.NO_SPARE]

/-- A spare comes back from a stand-in or an interleave. -/
def Blk.returnSpare (b : Blk) (k : Fin 8) : Blk :=
  ((b.mapSpare k fun x => { x with use := 0, serves := none, item := none }).giveSpares).bgUpdate

/-- A spare fails (08 R284): the slice that it serves needs another. -/
def Blk.spareFailed (b : Blk) (k : Fin 8) : Blk :=
  let x := b.spareRec k
  let b := (b.mapSpare k fun x => { x with fail := true, use := 0, serves := none, item := none }).raise [MEAS.EVT.SPARE_FAIL]
  let b := match x.serves with
    | some (n, s) =>
      if x.use = 2 then
        let b := b.mapAx n fun a => a.set AX.SLC_STAT.SUB (a.r AX.SLC_STAT.SUB &&& (3 - 2 ^ s.val))
        (match ((b.axis n).slc.get s).stand with
         | some (j, _) => b.assignSpare n s j
         | none => b.needSpare n s)
      else b.mapAx n fun a => { a with slc := a.slc.set s { a.slc.get s with stand := none } }.set AX.SLC_STAT.STBY
        (a.r AX.SLC_STAT.STBY &&& (3 - 2 ^ s.val))
    | none => b
  b.bgUpdate

/-- An interleave borrows the free spare of lowest number (08 R272), whose direct item is abandoned (R284). -/
def Blk.lend (b : Blk) (n : Fin 48) : Blk :=
  match b.freeSpares with
  | k :: _ => ((b.dropItem k).mapSpare k fun x => { x with use := 3, serves := some (n, 1) }).bgUpdate
  | [] => b

/-- A spare that is lent to an interleave comes back as the interleave ends, and an interleave borrows one while it lasts and one is free
(08 R272, notes/assumptions/103.md). -/
def Blk.sweepInterleaves (b : Blk) : Blk :=
  let lent := fun (b : Blk) (n : Fin 48) => b.meas.spares.any fun y => y.use = 3 && y.serves.elim false (·.1 = n)
  let b := (List.finRange 8).foldl (fun (b : Blk) k =>
    let y := b.spareRec k
    match y.serves with
    | some (n, _) => if y.use = 3 && !(b.axis n).ilv then b.returnSpare k else b
    | none => b) b
  (allAxes.filter fun n => (b.axis n).ilv).foldl (fun (b : Blk) n => if lent b n then b else b.lend n) b

/-- IC7 integrates a winding's voltage at an instant, µs: 50 ms of its current have passed (08 R280). -/
def Winding.integrates (w : Winding) (t : Nat) : Bool := w.volt.isNone && w.since.elim false fun s => decide (s + 50000 ≤ t)

/-- The next event of axis n's counter after the write of `ARM` makes the armed shot of IC7 a request (08 R276): the conversion begins `DELAY` µs
after it, and 2 ms after it at the earliest.  A shot whose event falls during a running conversion is dropped (08 R278); `EVT` 2 and 3 take the
count of `SLC_TRIG0` (notes/assumptions/104.md). -/
def Blk.ic7Event (b : Blk) (old : Blk) (n : Fin 48) : Blk :=
  let a := if b.r MEAS.IC7_CFG.EVT = 0 then b.axis n else old.axis n
  match b.meas.ic7Armed, a.pwm.start with
  | some armed, some start =>
    let t8 := a.eventAt (b.r MEAS.IC7_CFG.EVT) (a.inForce AX.SLC_TRIG0.EVT_CNT) start
    if b.r MEAS.IC7_CFG.TRIG != 1 || b.r MEAS.IC7_CFG.AXIS != n.val || t8 < armed then b else
    let t := t8 / 3200
    let b := { b with meas := { b.meas with ic7Armed := none } }
    let running := b.meas.ic7Rot || b.meas.rw.elim false (·.integrates t) || b.meas.ic7Shot.elim false (fun x => decide (x ≤ t))
    if running then (b.count MEAS.IC_DROP.DROP_CNT).raise [MEAS.EVT.IC_DROP]
    else { b with meas := { b.meas with ic7Shot := some (t + max 2000 (b.r MEAS.IC7_CFG.DELAY)) } }
  | _, _ => b

/-- The current of a winding measurement runs from a boundary of its cell (08 R280). -/
def Blk.rwSeen (b : Blk) (n : Fin 48) (at8 : Nat) : Blk :=
  { b with meas := { b.meas with rw := b.meas.rw.map fun w => if w.axis = n && w.since.isNone then { w with since := some (at8 / 3200) } else w } }

/-- Ages grow by whole units of 64 s (08 R282). -/
def Blk.growAges (b : Blk) (d : Nat) : Blk :=
  if d = 0 then b else
  let up := fun (a : Axis) (f : Fld) => a.set f (min 15 (a.r f + d))
  let old := b
  let b := { b with ax := b.ax.map fun a => up (up a AX.SLC_FAC0.AGE) (AX.SLC_FAC0.AGE.skip 1) }
  ((List.finRange 8).foldl (fun (b : Blk) k =>
    let f := MEAS.SPF0.AGE.skip k.val; b.set f (min 15 (b.r f + d))) b).staleRise old

/-- The swath count advances over a nap of `cyc` cycles of the slow clock, which runs at 65.536 kHz, and the ages that follow it (09 R310;
10 R348, 08 R285): it stays the ms since power-up, with the ticks of the swath that the nap cut, and the next swath has a number of its own
(notes/assumptions/109.md). -/
def Blk.sleptFor (b : Blk) (cyc : Nat) : Blk :=
  let unit := 25 * 65536
  let t := b.msRest + 25 * 1000 * cyc + 65536 * b.tick
  let s := b.swath; let w := s + max 1 (t / unit) - 1
  let crossed := fun (d : Nat) => w / d - s / d
  let up := fun (x d : Nat) => if x = 0xFFFF then x else min 0xFFFE (x + d)
  let h := crossed 3600000
  let b := b.growAges (crossed 64000)
  let b := if b.bit MEAS.CAL_STAT.BG_RUN then b else b.count MEAS.CAL_STAT.STOP_AGE (crossed 1000)
  let b := if h = 0 then b else
    { b.set GRAZE.PASS.LAST_H (up (b.r GRAZE.PASS.LAST_H) h) with ax := b.ax.map fun a => a.set AX.GZ_AGE.AGE (up (a.r AX.GZ_AGE.AGE) h) }
  let z := b.napRest + cyc
  { (b.count CLK.NAP_TIME.S (z / 65536)).set LEDG.SWATH.SWATH_LO (w % 2 ^ 32) with
    swath := w, tick := 25, napRest := z % 65536, msRest := t % unit }

/-! ### The rows -/

/-- What a slice's calibration acts on: its substitute where it has one. -/
def Blk.calTarget (b : Blk) (id : SliceId) : SliceId :=
  match id with
  | .axis n s =>
    let a := b.axis n
    if (a.r AX.SLC_STAT.SUB).testBit s.val then
      .spare (Fin.ofNat 8 (a.r (if s = 0 then AX.SLC_STAT.SP0 else AX.SLC_STAT.SP1)))
    else id
  | .spare _ => id

/-- The stand-in of the slice that this calibration takes out, at its step 2 (08 R283). -/
def Blk.standOf (b : Blk) (id : SliceId) : Option (Fin 48 × Fin 2 × Fin 8) :=
  let at_ : Option (Fin 48 × Fin 2) := match id with | .axis n s => some (n, s) | .spare k => (b.spareRec k).serves
  at_.bind fun x => match ((b.axis x.1).slc.get x.2).stand with
    | some (j, step) => if step = 2 then some (x.1, x.2, j) else none
    | none => none

/-- The calibration of a slice or a spare ends (08 R282 to R284). -/
def Blk.sliceCal (b : Blk) (id : SliceId) (x : CalMeas) : Blk :=
  let t := b.calTarget id
  let st := b.standOf t
  -- a direct item ends, and the spare that handled it is idle
  let b := { b with meas := { b.meas with spares := Vector.ofFn fun k =>
    let y := b.meas.spares.get k
    if (y.item == some id || y.item == some t) && y.use != 1 then { y with item := if y.selfDue then some (.spare k) else none, selfDue := false } else y } }
  let mark := fun (b : Blk) => match st with
    | some (n, s, _) => b.mapAx n fun a => { a with slc := a.slc.set s { a.slc.get s with calDone := some true } }
    | none => b
  let done := fun (b : Blk) => match id with
    | .axis n s => b.mapAx n fun a => { a with slc := a.slc.set s { a.slc.get s with
        direct := false, calDone := if a.calSelf && b.meas.selfRun then some true else (a.slc.get s).calDone } }
    | .spare _ => b
  let b := done b
  match calFactors x with
  | some f =>
    (match t with
     | .axis n s => mark (b.mapAx n fun a => a.putFactors s f)
     | .spare k => mark ((b.putSpareFactors k f).mapSpare k fun y => { y with recheck := false }))
  | none =>
    (match t with
     | .axis n s =>
       let b := b.sliceFailed n s
       (match st with
        | some (_, _, j) => (b.assignSpare n s j).bgUpdate
        | none => (b.needSpare n s).bgUpdate)
     | .spare k => b.spareFailed k)

/-- The module boots (09 R314). -/
def Blk.booting (b : Blk) : Bool := b.phase ∈ [0, 2, 3] && b.pw.powered && !b.pw.held && b.pw.resetDue.isNone

/-- A calibration of this slice is in progress: at boot, by `CAL_SELF`, direct, or at step 2 of a stand-in. -/
def Blk.calRunning (b : Blk) (id : SliceId) : Bool :=
  b.booting || (b.standOf (b.calTarget id)).isSome
    || (match id with
        | .axis n s => (b.meas.selfRun && (b.axis n).calSelf) || ((b.axis n).slc.get s).direct
        | .spare k => (b.spareRec k).item == some (.spare k) && (b.spareRec k).use != 1)

/-- `SLICE_CAL_DONE` (08 R282).  As the module boots it belongs to the calibration of R288, PHASE CAL (09 R314; notes/assumptions/144.md). -/
def execSliceCalDone (id : SliceId) (x : CalMeas) (s : State) : Host.Outcome State Fault Refusal := onBlk (fun b =>
  if !b.calRunning id then b
  else
    let b := b.sliceCal id x
    if b.booting then (b.set MOD.STATE.PHASE 3).setB MEAS.CAL_STAT.SELF_BUSY true else b.selfStart) s

/-- Item i of the list of background calibration (08 R283) as spare k may take it. -/
def Blk.bgItem (b : Blk) (k : Fin 8) (i : Nat) : Option SliceId :=
  let taken := fun (id : SliceId) => b.meas.spares.any fun y => b.spareBusy y && y.item == some id
  if h : i < 96 then
    let n : Fin 48 := ⟨i / 2, by omega⟩
    let s : Fin 2 := if i % 2 = 0 then 0 else 1
    let a := b.axis n
    let fail := (a.r AX.SLC_STAT.FAIL).testBit s.val; let sub := (a.r AX.SLC_STAT.SUB).testBit s.val
    if (fail && !sub) || (a.slc.get s).stand.isSome || taken (.axis n s) || a.calSelf || a.legs.phase == .drain then none else some (.axis n s)
  else if h : i < 104 then
    let j : Fin 8 := ⟨i - 96, by omega⟩
    let y := b.spareRec j
    if y.fail || y.use != 0 || (b.spareBusy y && j != k) || taken (.spare j) then none else some (.spare j)
  else none

/-- A free spare begins the next item (08 R283): direct on a cell that is not enabled, else under a stand-in. -/
def Blk.bgStart (b : Blk) (k : Fin 8) : Blk :=
  let y := b.spareRec k
  if !b.running || !b.meas.bgRun || y.use != 0 || y.fail || b.spareBusy y || b.ax.any (·.slc.any (·.waits)) then b
  else if y.recheck then b.mapSpare k fun y => { y with item := some (.spare k) }
  else
    let places := (List.range 104).map fun d => (b.meas.bgPos + d) % 104
    match places.find? fun i => (b.bgItem k i).isSome with
    | none => b
    | some i =>
      let b := { b with meas := { b.meas with bgPos := (i + 1) % 104 } }
      (match b.bgItem k i with
       | some (.axis n s) =>
         if (b.axis n).mot.mode.enabled then
           (b.mapSpare k fun y => { y with use := 1, serves := some (n, s), item := some (.axis n s) }).mapAx n fun a =>
             let a := { a with slc := a.slc.set s { a.slc.get s with stand := some (k, 0), calDone := none } }
             if (a.r AX.SLC_STAT.SUB).testBit s.val then a
             else a.set (if s = 0 then AX.SLC_STAT.SP0 else AX.SLC_STAT.SP1) k.val
         else
           (b.mapSpare k fun y => { y with item := some (.axis n s) }).mapAx n fun a =>
             { a with slc := a.slc.set s { a.slc.get s with direct := true } }
       | some (.spare j) => b.mapSpare k fun y => { y with item := some (.spare j) }
       | none => b)

def execBgCalItemStart (spare : Fin 8) (s : State) : Host.Outcome State Fault Refusal := onBlk (fun b => b.bgStart spare) s

/-- `CAL_SELF` completes (08 R287): slices and spares of it that no command reported take free factors. -/
def execCalSelfDone (s : State) : Host.Outcome State Fault Refusal := onBlk (fun b =>
  match b.meas.calSelf with
  | none => b
  | some (q, ns) =>
    if !b.meas.selfRun then b else
    let f := b.fresh
    let one := fun (a : Axis) (s : Fin 2) (n : Nat) =>
      let sl := a.slc.get s
      let a := if sl.calDone.isNone && sl.stand.isNone && !(a.r AX.SLC_STAT.FAIL).testBit s.val then a.putFactors s (freeFactors n) else a
      { a with slc := a.slc.set s { sl with calDone := if sl.stand.isSome then sl.calDone else none } }
    let b := ns.foldl (fun (b : Blk) n => b.mapAx n fun a =>
      { one (one a 0 (f + 4 * n.val)) 1 (f + 4 * n.val + 2) with calSelf := false }) b
    let b := (List.finRange 8).foldl (fun (b : Blk) k =>
      if (b.spareRec k).item = some (.spare k) || (b.spareRec k).selfDue then
        (b.putSpareFactors k (freeFactors (f + 192 + 2 * k.val))).mapSpare k fun y =>
          { y with item := if y.selfDue then y.item else none, selfDue := false }
      else b) b
    let b := { ((b.draw 208).setB MEAS.CAL_STAT.SELF_BUSY false) with meas := { b.meas with calSelf := none, selfRun := false } }
    b.ok q) s

/-- Steps 1 to 3 of 08 R290: both copies hold the new set. -/
def execCalWriteDone (s : State) : Host.Outcome State Fault Refusal := onBlk (fun b =>
  match b.meas.calWrite with
  | none => b
  | some (q, first, vs) =>
    let cur := b.meas.copies.get b.meas.inUse
    let ent := vs.zipIdx.foldl (fun l x => calPut l (first + x.2) x.1) cur.ent
    let c : CalCopy := ⟨ent, true, true, cur.count + 1⟩
    { b with meas := { b.meas with copies := #v[c, c], inUse := 1 - b.meas.inUse, calWrite := none } }.ok q) s

/-- The age of a slice reaches 10 (08 R285), or of the spare that serves in its place. -/
def execCalStale (n : Fin 48) (k : Fin 2) (s : State) : Host.Outcome State Fault Refusal := onBlk (fun b =>
  match b.calTarget (.axis n k) with
  | .axis n k => (b.mapAx n fun a => let f := AX.SLC_FAC0.AGE.skip k.val; a.set f (max 10 (a.r f))).staleRise b
  | .spare j => let f := MEAS.SPF0.AGE.skip j.val; (b.set f (max 10 (b.r f))).staleRise b) s

end Sys2Proof.Machine
end

