-- ==== Sys2Proof/Machine/PowerRows.lean ====
section
/-!
DEFINITION. Power-up, resets and the nonvolatile store (09 R314 to R320), the STO lines and TRIP_EXT (03 R95, R103, R104),
the supply inputs, the store cartridges and the auxiliary input (10 R339, 17 R504, R519 to R522).
-/

namespace Sys2Proof.Machine

/-! ### The nonvolatile store -/

/-- What the store is to hold of a cell (09 R320): a substitution counts as completed from its first step. -/
def Axis.marks (a : Axis) : NvMarks :=
  ⟨a.legs.fail, a.legs.spareUsed || a.legs.subRole.isSome, a.legs.subRole, a.legs.spareBad, a.legs.phase == .lost⟩

/-- A pending write completes. -/
def Axis.nvWrite (a : Axis) : Axis := if a.nvPending then { a with nv := a.marks, nvPending := false } else a

/-! ### What a reset leaves (09 R319) -/

def lifeFields : List Fld := [AX.LIFE_CYC.CYC, AX.LIFE_E.E, AX.LIFE_TC.TC, AX.LIFE_H.H]

/-- Results of graze, of an axis and of the module. -/
def grazeAxFields : List Fld :=
  [AX.GZ_SW.SW_OK, AX.GZ_SW.ISO_OK, AX.GZ_SW.TAP_OK, AX.GZ_SW.DIDT_OK, AX.GZ_SW.CMP_OK, AX.GZ_AGE.AGE, AX.GZ_AGE.GATE_OK,
   AX.GZ_DIDT01.L0, AX.GZ_DIDT01.L1, AX.GZ_DIDT23.L2, AX.GZ_DIDT23.L3, AX.GZ_DIDT4.L4]

def grazeModFields : List Fld :=
  [GRAZE.PASS.PASS_CNT, GRAZE.PASS.LAST_H, GRAZE.ES0.C, GRAZE.ES0.ESR, GRAZE.ES1.C, GRAZE.ES1.ESR, GRAZE.SCRUB.CORR, GRAZE.SCRUB.UNCORR,
   LEDG.LINK_C.C, LEDG.CHOP_R.R_BRK]

/-- Counters of the module pages that only power-up and `MODULE_RESET` clear (07 R258, 08 R294, 09 R323, 10 R356, 12 R422, 13 R444, 14 R453,
R454): nRST keeps them. -/
def pinKeeps : List Fld :=
  [ MOD.VIOL.CTRL, MOD.VIOL.DATA, MOD.VIOL.MGMT, SIDE.SW_CNT.TAKE_CNT, SIDE.SW_CNT.SWITCH_CNT, CLK.WAKE_SRC.WAKE_DROP, LEDG.PLAN_CNT0.FORCE_CNT,
   LEDG.PLAN_CNT0.REFUSE_CNT, LEDG.PLAN_CNT1.DEFER_CNT, LEDG.PLAN_CNT1.STRETCH_CNT, LEDG.OVER_CNT.OVER_CNT, MEAS.IC_DROP.DROP_CNT,
   CASC.ERR.ERR_A, CASC.ERR.ERR_B, SMP.STAT.ERR.smp .a, SMP.STAT.ERR.smp .b]
  ++ (List.finRange 6).flatMap fun p => [MB.CNT.LOST_ARB.port p, MB.CNT.RX_OVR.port p, MB.CNT2.HPB_OVR.port p, MB.CNT2.BUSOFF_CNT.port p]

/-- An axis after a reset of the module; `power` tells a power-up, `keep` that the always-on domain was powered. -/
def Axis.afresh (w : Wide) (power keep : Bool) (n : Fin 48) (old : Axis) : Axis :=
  let o := old.nvWrite
  let m := o.nv
  let a := Axis.reset n
  let a := { a with
    legs := { a.legs with
      phase := if m.lost then .lost else .normal, fail := m.fail, subRole := m.subRole, spareUsed := m.spareUsed, spareBad := m.spareBad }
    nv := m, lifeSaved := o.lifeSaved, lifeRest := o.lifeRest }
  -- R101: a latch stays while a source is active; a DIDT trip of a cell in LOST stays (R320)
  let act := a.srcActive w
  let still := !power && old.trip.latch && act.any
  let a := { a with trip := { a.trip with
    latch := m.lost || still, pre := still, srcDidt := m.lost
    srcComp := still && old.trip.srcComp, srcLink := still && old.trip.srcLink, srcExt := still && old.trip.srcExt
    srcChat := still && old.trip.srcChat } }
  -- lifetime counts: the store's at power-up, else as counted (10 R350)
  let a := lifeFields.zipIdx.foldl (fun (a : Axis) x =>
    a.set x.1 (if power then ((o.lifeSaved[x.2]?).getD 0).toNat else o.r x.1)) a
  let a := { a with life := if power then o.lifeRest else o.life }
  -- graze results stay as measured, where power held them (10 R346; notes/assumptions/150.md)
  let a := if power then a else grazeAxFields.foldl (fun (a : Axis) f => a.set f (o.r f)) a
  -- the Hall inputs stay as they stand (05 R147)
  let a := { a with bl := { a.bl with sector := old.bl.sector } }
  let a := a.setB AX.BL_STAT.HALL_FAIL (!power && old.b AX.BL_STAT.HALL_FAIL && old.bl.sector.isNone)
  let a := (a.setB AX.ST_STAT.POS_UNC true).setB AX.BL_STAT.POS_UNC true
  -- ledger counters and learned energies (07 R221)
  if keep then
    { a with eOut := o.eOut, eRegen := o.eRegen, eSub := o.eSub, rSub := o.rSub, learned := o.learned }.set
      AX.LEDG_LEARN.E_LEARN (o.r AX.LEDG_LEARN.E_LEARN)
  else a

/-- The set that a power-up loads (08 R289): the newest copy whose check passes, or the nominal values. -/
def Meas.loaded (m : Meas) : Vector CalCopy 2 × Fin 2 :=
  let x := m.copies.get m.inUse; let y := m.copies.get (1 - m.inUse)
  if x.ok && (!y.ok || decide (y.count ≤ x.count)) then (m.copies, m.inUse)
  else if y.ok then (m.copies, 1 - m.inUse)
  else (m.copies.set m.inUse { x with ent := [] }, m.inUse)

/-- The module as a power-up, nRST (`pin`) or `MODULE_RESET` leaves it before it boots. -/
def Blk.afresh (b : Blk) (power pin : Bool) : Blk :=
  -- a nap ends without a wake (09 R321): it counts as far as the slow clock has shown
  let b := if b.nap == .awake then b else b.sleptFor b.napCyc
  let keep := !power || b.pw.aon
  let r := Blk.reset
  let b' := { r with
    ax := Vector.ofFn fun n => Axis.afresh b.wide power keep n (b.ax.get n)
    swath := if keep then b.swath else 0
    tick := if keep then b.tick else 0
    ledg := if keep then { b.ledg with link0 := if power then none else b.ledg.link0 } else {}
    meas := { r.meas with copies := if power then b.meas.loaded.1 else b.meas.copies, inUse := if power then b.meas.loaded.2 else b.meas.inUse }
    sm := b.sm.map fun (p : SmPort) =>
      let op := if power then none else p.op
      { mem := p.mem, absent := p.absent, answers := p.answers, op := op, cut := op.isSome }
    logs := b.logs.map fun (l : SideLog) => { l with buf := [] }
    pw := { b.pw with resetDue := none, link := .unarmed }
    napRest := if keep then b.napRest else 0
    msRest := if keep then b.msRest else 0
    onTicks := if power then b.onSaved else b.onTicks
    lifeHSaved := b.lifeHSaved
    onSaved := b.onSaved
    fresh := b.fresh }
  let keepAll := fun (fs : List Fld) (x : Blk) => fs.foldl (fun (x : Blk) f => x.set f (b.r f)) x
  let b' := if power then b' else keepAll grazeModFields b'
  let b' := if pin then keepAll pinKeeps b' else b'
  -- a cut write that is to be repeated is still in progress (16 R489)
  let b' := [Side.a, Side.b].foldl (fun (x : Blk) i => x.setB (SMP.STAT.PROG.smp i) ((x.smp i).op.any SmOp.writes)) b'
  let b' := b'.set GRAZE.LIFE_H.H (if power then b.lifeHSaved.toNat else b.r GRAZE.LIFE_H.H)
  -- the slow clock's source is tested again at a power-up only (09 R297)
  let b' := if power then b' else (b'.set CLK.STAT.SCK_SRC (b.r CLK.STAT.SCK_SRC)).set CLK.STAT.SCK_DEG (b.r CLK.STAT.SCK_DEG)
  if keep then (b'.set CLK.NAP_CNT.N (b.r CLK.NAP_CNT.N)).set CLK.NAP_TIME.S (b.r CLK.NAP_TIME.S) else b'

/-! ### Booting -/

/-- A side's device 0 holds anything. -/
def SmPort.carried (p : SmPort) : Bool := !p.absent.getLsbD 0 && p.mem.any fun c => decide (c.1 < 2 ^ 32)

/-- An image that the model holds no bytes of: its header is free (notes/assumptions/27.md). -/
def freeImage (n : Nat) : Image :=
  let f := fun (i : Nat) => Config.freeNat (n + i)
  ⟨f 0 % 65536, f 1 % 16, f 2 % 16, f 3 % 16, f 4 % 16, f 5 % 256, f 6 % 256⟩

/-- The image that the n-th load of a boot finds in a bank (16 R493): none where its frames have lost their strobe twice (R501). -/
def SmPort.load (p : SmPort) (n : Nat) (k : Fin 2) : Option Image := if n < p.lost / 2 then none else imageAt p.mem k

/-- The image and bank that a side loads (16 R493, R494), with its record as loading leaves it and whether a bank was bad. -/
def SmPort.boot (p : SmPort) : Option (Image × Fin 2) × SmPort × Bool :=
  let k := (bankRec p.mem).next
  let bad := fun (p : SmPort) (k : Fin 2) => { p with mem := putRec p.mem fun r => { r with st := r.st.set k 1 } }
  match p.load 0 k with
  | some im => (some (im, k), p, false)
  | none =>
    let p := bad p k
    match p.load 1 (1 - k) with
    | some im => (some (im, 1 - k), p, true)
    | none => (none, p, true)

/-- A side starts: its port checks its devices and repeats what was cut, and it loads its firmware from the bank marked next or the
other; a device whose contents the model does not hold loads where its tests passed. -/
def Blk.bootSide (b : Blk) (s : Side) (ok : Bool) (ids : Idents) : Blk :=
  let b := (b.smIdentify s ids).smResume s
  let lost := (b.smp s).lost / 2
  let done := fun (b : Blk) => b.mapSm s fun p => { p with lost := 0 }
  done <|
  if !ok || (b.smp s).absent.getLsbD 0 || decide (2 ≤ lost) && !(b.smp s).carried then b.mapSide s fun x => { x with img := none, fit := false }
  else if (b.smp s).carried then
    let (r, p, bad) := (b.smp s).boot
    let b := (b.mapSm s fun _ => p).raiseIf bad SIDE.EVT.BANK_BAD
    match r with
    | some (im, k) => b.mapSide s fun x => { x with img := some im, bank := k, fit := false }
    | none => b.mapSide s fun x => { x with img := none, fit := false }
  else
    let k := (bankRec (b.smp s).mem).next
    ((b.raiseIf (decide (lost = 1)) SIDE.EVT.BANK_BAD).mapSide s fun x =>
      { x with img := some (freeImage b.fresh), bank := if lost = 1 then 1 - k else k, fit := false }).draw 7

/-- A log that has fallen behind another goes on where that one stands. -/
def SideLog.from_ (l m : SideLog) : SideLog := if l.head < m.head then { l with head := m.head, tail := m.head, wrapped := false } else l

/-- Ready (09 R314, R316, 16 R496): registers of the clocks, the cam library, slices calibrated. -/
def Blk.becomeReady (b : Blk) (act : Side) : Blk :=
  let b := (b.mapSide act fun x => { x with st := .active }).mapSide act.other fun x =>
    { x with st := if x.st = .out then .out else .standby }
  -- the log goes on at the present `HEAD`, also where the other side wrote on alone (14 R455, 16 R500)
  let b := { b with act := some act, logs := b.logs.set act.idx ((b.logs.get act.idx).from_ (b.logs.get act.other.idx)) }
  let ok := fun (s : Side) => !(b.side s).sick
  let b := ((b.setB CLK.STAT.FCK_A_OK (ok .a)).setB CLK.STAT.FCK_B_OK (ok .b)).setB CLK.STAT.STBY_LOCK (b.side act.other).img.isSome
  let mem := (b.smp act).mem
  let cams : Vector CamTable 64 := if (b.smp act).absent.getLsbD 0 then Vector.replicate 64 {}
    else Vector.ofFn fun t => (camFromSlot mem t).getD {}
  let b := (({ b with cams := cams }.bootCal).set MOD.STATE.PHASE 4).setB MEAS.CAL_STAT.SELF_BUSY false
  let run := b.meas.spares.any fun x => !x.fail && (x.use == 0 || x.use == 1)
  let b := { (b.setB MEAS.CAL_STAT.BG_RUN run) with meas := { b.meas with bgRun := run } }
  b.raise [ MOD.EVT.READY]

/-- The end of the boot sequence (09 R314, R315). -/
def Blk.moduleReady (b : Blk) (x : ReadyIn) : Blk :=
  let p := b.phase
  if !b.pw.powered || b.pw.held || b.pw.resetDue.isSome || p = 4 || p = 1 then b else
  let b := (b.bootSide .a x.aOk (x.ids.get 0)).bootSide .b x.bOk (x.ids.get 1)
  if (b.side .a).img.isSome then b.becomeReady .a
  else if (b.side .b).img.isSome then b.becomeReady .b
  else b.set MOD.STATE.PHASE 1

/-! ### The rows of power and reset -/

/-- A voltage beyond the absolute maximum of an input (17 R502), mV. -/
def supBeyond (mV : Nat) : Bool := decide (100000 < mV)
def auxBeyond (mV : Nat) : Bool := decide (36000 < mV)

/-- Power-up (09 R314): it begins as an input rises through 34.0 V, or the auxiliary input through 20.0 V. -/
def Blk.powerUp (b : Blk) (x : PowerIn) : Blk :=
  let rises := decide (34000 ≤ x.supA) || decide (34000 ≤ x.supB) || decide (20000 ≤ x.aux)
  if !rises || (b.pw.powered && b.phase != 0) then b else
  let b := b.afresh true false
  { b with pw := { b.pw with
      powered := true, aon := true, supMv := #v[x.supA, x.supB], auxMv := x.aux
      ovBlock := #v[decide (76000 < x.supA), decide (76000 < x.supB)], revBlock := #v[false, false]
      straps := x.straps, stoA := x.stoA, stoB := x.stoB, gd := x.stoA && x.stoB, ext := x.ext
      resetDue := if b.pw.held then some true else none } }

def execPowerUp (x : PowerIn) (s : State) : Host.Outcome State Fault Refusal :=
  if supBeyond x.supA || supBeyond x.supB || auxBeyond x.aux then .fault .beyondRatings else onBlk (fun b => b.powerUp x) s

def execModuleReady (x : ReadyIn) (s : State) : Host.Outcome State Fault Refusal := onBlk (fun b => b.moduleReady x) s

/-- nRST low holds the module in reset; its release begins the reset sequence (09 R318, R321). -/
def execNrst (low : Bool) (s : State) : Host.Outcome State Fault Refusal := onBlk (fun b =>
  if low then
    let b := if b.pw.powered then b.afresh false true else b
    { b with pw := { b.pw with held := true } }
  else if b.pw.held then { b with pw := { b.pw with held := false, resetDue := some true } }
  else b) s

/-- The reply to `MODULE_RESET`, which goes first (09 R318), waits on a port that can send it. -/
def Blk.resetReplyWaits (b : Blk) : Bool :=
  (List.finRange 6).any fun p => !b.bit (MB.STAT.BUSOFF.port p) && (b.ports.get p).tx.any fun x =>
    (x.cur.toList ++ x.wait).any fun c => c.pkt.reply && c.pkt.opc = 0x08

/-- The reset sequence (09 R318, R319): the straps are sampled after nRST. -/
def execResetSequence (straps : Straps) (s : State) : Host.Outcome State Fault Refusal := onBlk (fun b =>
  match b.pw.resetDue with
  | none => b
  | some pin =>
    if !b.pw.powered || b.pw.held || (!pin && b.resetReplyWaits) then b else
    let cut := !pin && b.meas.rw.isSome
    let b := b.afresh false pin
    let b := { b with pw := { b.pw with straps := if pin then straps else b.pw.straps } }
    -- a winding measurement that `MODULE_RESET` cuts ends with its outcome (08 R280; notes/assumptions/145.md)
    if cut then (b.set MEAS.RW_RES.ST 5).raise [MEAS.EVT.RW_DONE] else b) s

/-- The logic loses its power (09 R317, R320): pending writes of the nonvolatile store complete on the hold-up.  With the 24 V auxiliary input
at 18 V or more the logic stays powered (01 R12). -/
def execLogicPowerLoss (s : State) : Host.Outcome State Fault Refusal := onBlk (fun b =>
  if !b.pw.powered || decide (18000 ≤ b.pw.auxMv) then b else
  let b := b.afresh false true
  { b with pw := { b.pw with powered := false, gd := false } }) s

def execHoldUpExpiry (s : State) : Host.Outcome State Fault Refusal := onBlk (fun b =>
  if b.pw.powered then b else { b with pw := { b.pw with aon := false } }) s

def execNvStoreWrite (n : Fin 48) (s : State) : Host.Outcome State Fault Refusal := onBlk (fun b => b.mapAx n Axis.nvWrite) s

/-! ### The lines of SAF -/

/-- A change of the STO lines, seen by the register file and the owner (14 R451, 11 R401). -/
def Blk.stoChanged (b : Blk) (a' b' : Bool) : Blk :=
  if b.pw.stoA = a' && b.pw.stoB = b' then b
  else ({ b with pw := { b.pw with stoA := a', stoB := b' } }.raise [ MOD.EVT.STO_CHG]).event 0x13 0xFE 0xFE
    [BitVec.ofNat 8 (Bool.bit a' + 2 * Bool.bit b')]

/-- STO on one cell (03 R103): the profile is abandoned, the axis goes fallow, and a stepper that was not fallow loses its
position; a winding measurement is aborted (08 R280). -/
def Cell.stoOff (c : Cell) : Cell :=
  let unc := c.ax.stepper && c.ax.mot.mode.enabled
  let c := (c.reg Reg.endTest).forceOff.abandon
  if unc then c.setUnc else c

def execStoAssert (a b : Bool) (s : State) : Host.Outcome State Fault Refusal := onBlk (fun x =>
  if !a && !b then x else
  let x := x.stoChanged (x.pw.stoA && !a) (x.pw.stoB && !b)
  ((({ x with pw := { x.pw with gd := false } }).setB LEDG.STAT.CHOP_ON false).cells allAxes fun _ c => c.stoOff).rwCheck) s

/-- Both lines are released (03 R104). -/
def execStoRelease (s : State) : Host.Outcome State Fault Refusal := onBlk (fun b =>
  let b := b.stoChanged true true
  { b with pw := { b.pw with gd := b.pw.powered } }) s

/-- One line rises while the other stays low (14 R451). -/
def execStoLineRise (a : Bool) (s : State) : Host.Outcome State Fault Refusal := onBlk (fun b =>
  b.stoChanged (b.pw.stoA || a) (b.pw.stoB || !a)) s

/-- The lines have disagreed for more than 100 ms (03 R104). -/
def execStoDiscordance (s : State) : Host.Outcome State Fault Refusal := onBlk (fun b =>
  b.raiseIf (b.pw.stoA != b.pw.stoB) MOD.EVT.STO_DISC) s

/-- TRIP_EXT changes level (03 R95, R96, 14 R451): low is active.  In nap, and until ready after it, the trip inputs do not act (09 R321). -/
def execTripExtChange (high : Bool) (cyc : Nat) (seen : Bool) (s : State) : Host.Outcome State Fault Refusal := onBlk (fun b =>
  if b.pw.ext = high then b else
  let was := b.wide
  let b := { b with pw := { b.pw with ext := high } }.raise [ MOD.EVT.EXT_CHG]
  (b.cells allAxes fun _ c => 
    if high then c.srcInactive was .ext cyc else if b.nap != .awake then c else c.preTrip b.wide .ext cyc seen).rwCheck) s

/-! ### Supplies -/

/-- The voltage of an input: it is blocked above 76.0 V and released below 75.5 V (17 R504). -/
def Blk.mapSup (b : Blk) (i : Input) (mV : Nat) (rev : Bool) : Blk :=
  let ov := decide (76000 < mV) || (b.pw.ovBlock.get i.idx && decide (75500 ≤ mV))
  { b with pw := { b.pw with supMv := b.pw.supMv.set i.idx mV, ovBlock := b.pw.ovBlock.set i.idx ov, revBlock := b.pw.revBlock.set i.idx rev } }

def execSupplyOvBlock (i : Input) (mV : Nat) (s : State) : Host.Outcome State Fault Refusal :=
  if supBeyond mV then .fault .beyondRatings else onBlk (fun b =>
    b.mapSup i mV (b.pw.revBlock.get i.idx)) s

/-- An input below the link, or below 33.0 V, is blocked from reverse current (10 R339): an input declared to take return current
conducts in reverse while it stands at 33.0 V. -/
def execSupplyReverseBlock (i : Input) (mV : Nat) (s : State) : Host.Outcome State Fault Refusal :=
  if supBeyond mV then .fault .beyondRatings else onBlk (fun b =>
    let ret := b.bud (match i with | .a => LEDG.BUD_RET.RET_A | .b => LEDG.BUD_RET.RET_B)
    b.mapSup i mV (!(ret != 0 && decide (33000 ≤ mV)))) s

/-- An input returns to 33.0 V or more (10 R339). -/
def execSupplyReturn (i : Input) (mV : Nat) (s : State) : Host.Outcome State Fault Refusal :=
  if supBeyond mV then .fault .beyondRatings else onBlk (fun b =>
    if mV < 33000 then b else b.mapSup i mV false) s

/-- A cartridge's loops (17 R519): an open PRES stops its converter. -/
def execCartridgeChange (k : Fin 2) (pres rdy : Bool) (s : State) : Host.Outcome State Fault Refusal := onBlk (fun b =>
  { b with
    pw := { b.pw with cart := b.pw.cart.set k ⟨pres, rdy⟩ }
    plan := { b.plan with charge := if pres then b.plan.charge else b.plan.charge.set k 0 } }) s

/-- The 24 V auxiliary input crosses 20 V (17 R522). -/
def execAux24Change (mV : Nat) (s : State) : Host.Outcome State Fault Refusal :=
  if auxBeyond mV then .fault .beyondRatings else onBlk (fun b => { b with pw := { b.pw with auxMv := mV } }) s

end Sys2Proof.Machine
end

