-- ==== Sys2Proof/Machine/CellRows.lean ====
section
/-!
DEFINITION. The events of a cell: the period boundary (03 R73), faults of legs (02 R53 to R66, 10 R337), trips (03 R94 to
R100), and stopped clocks (03 R88 to R90).
-/

namespace Sys2Proof.Machine

/-! ### The period boundary -/

/-- The slices' work at a boundary: the conversions that fell due by it, with the values in force up to it (08 R262 to R270). -/
def Cell.boundarySlices (c : Cell) (k : CellCal) (x : BoundaryIn) : Cell := c.takeSamples k x.at8 ⟨x.conv0, x.conv1⟩

/-- Hall interpolation (05 R146). -/
def Cell.boundaryHalls (c : Cell) (cyc : Nat) : Cell :=
  if c.ax.brushless && c.ax.bl.posSrc == .halls then
    let (th, w) := c.ax.interpolate cyc
    c.bl fun b => { b with theta := th, omega := w }
  else c

/-- The pulses of the coming period and the regulator's commands for the one after (04 R108, 05 R152, R165); the commands go on being formed
while the legs are held off (02 R54). -/
def Cell.boundaryDrive (c : Cell) (gd : Bool) (x : BoundaryIn) : Cell :=
  let a := c.ax
  let on := a.enabled && a.legsFree && gd
  let c := c.reg fun r => { r with volt := r.voltNext, vLink := x.vLink, star := x.star }
  if a.bl.brake != .none then c.noShift.unregulated.brakePulses on x.role
  else if a.pwm.directAct then c.noShift.unregulated.setPulses a.enabled on a.directCmp 0
  else
    let run := a.enabled && a.bl.start == .none && a.mot.mode != .park
    let c := c.setPulses run (on && run) a.regCmp x.ilFault
    if !run then c.noShift.unregulated
    else if a.brushless then (c.blRegulate x.vLink (!on)).sampling a.regCmp
    else c.stepperRegulate x.vLink (!on)

/-- The counter of a cell at an instant (03 R73, R79, R80): its boundary; the end of a fill period's down-count off the grid, where it holds at
0 with every command as it stands; or neither, and nothing happens (notes/assumptions/131.md).  Gives whether the boundary has come. -/
def Cell.reachesZero (c : Cell) (n : Fin 48) (at8 : Nat) : Cell × Bool :=
  if c.ax.boundaryAt n at8 then (c.pwm fun p => { p with fill := false, fillHold := false, late := false, cnt := 0, down := false }, true)
  else if c.ax.pwm.fill && c.ax.downEnds at8 then (c.pwm fun p => { p with fillHold := true, cnt := 0, down := false }, false)
  else (c, false)

/-- What the cell does at its period boundary (03 R73). -/
def Cell.atBoundary (c : Cell) (w : Wide) (k : CellCal) (gd : Bool) (x : BoundaryIn) : Cell :=
  let a := c.ax
  let on := a.enabled && a.legsFree && gd
  let volts := a.phaseVolts x.star
  let c := (c.linkEnergy x.vLink x.role).tickSums on volts
  let c := x.edges.foldl (fun (c : Cell) e => c.adaptEdge e) c
  let c := c.boundarySlices k x
  let c := (c.prepare.arm w x.role x.cyc).takeStanding w x.cyc
  let release := !c.ax.trip.latch && c.ax.quiet w x.cyc
  let c := c.countFaults (a.inForce AX.SC_CFG.SC_RETRY) (a.inForce AX.SC_CFG.SPARE_EN != 0) release
  let c := ((c.tripBoundary w x.cyc).runDeferred).takeValues.dropMasked
  let c := (c.pwm fun p => { p with start := some x.at8 }).gateDrive
  -- a new `PER` gives new gains (04 R112, 05 R153)
  let c := (if c.ax.per != a.per then c.map Axis.deriveGains else c).stepFollow
  let c := ((c.reg fun r => { r with meas := c.ax.phaseCurrents }).estimatePeriod on volts a.reg.meas).heat
  let c := c.map Axis.standSteps
  (c.boundaryHalls x.cyc).boundaryDrive gd x

/-- On its local oscillator the cell stops at the boundary that ends its present period: legs off, profile abandoned, axis fallow (09 R302). -/
def Cell.oscStop (c : Cell) : Cell :=
  if c.ax.pwm.osc == .due then (c.stoOff).pwm fun p => { p with osc := .stopped } else c

/-- `PERIOD_BOUNDARY` in the cell: nothing while its counter is stopped. -/
def Cell.boundary (c : Cell) (n : Fin 48) (w : Wide) (k : CellCal) (gd : Bool) (x : BoundaryIn) : Cell :=
  if c.ax.pwm.stopped then c else
  let r := c.reachesZero n x.at8
  if r.2 then (r.1.atBoundary w k gd x).oscStop else r.1

/-- What the module sees of a cell's boundary: `LOAD_ALL` completes with the last selected cell (03 R86), spares come back or are
to be checked (08 R283), `CAL_SELF` starts after them (R292), and the armed shot of IC7 is requested or dropped (08 R276, R278). -/
def Blk.afterBoundary (b old : Blk) (n : Fin 48) (at8 : Nat) : Blk :=
  let b := b.when (b.bit MOD.PWM_LOAD_HI.LOAD_ALL && b.ax.all fun a => a.pwm.capt.isNone) (·.setB MOD.PWM_LOAD_HI.LOAD_ALL false)
  let b := [(0 : Fin 2), 1].foldl (fun (b : Blk) s =>
    match ((old.axis n).slc.get s).stand with
    | none => b
    | some (j, _) =>
      let b := if ((b.axis n).slc.get s).mismatch then
          (b.mapSpare j fun y => { y with recheck := true }).mapAx n fun a =>
            { a with slc := a.slc.set s { a.slc.get s with mismatch := false } }
        else b
      if ((b.axis n).slc.get s).stand.isNone then b.returnSpare j else b) b
  (((b.selfStart).sweepInterleaves).ic7Event old n).rwSeen n at8

/-- The unarmed link comparator arms on a link voltage inside its window with hysteresis (03 R93, R94); codes of 0.1 V. -/
def Blk.armLink (b : Blk) (mV : Nat) : Blk :=
  let lo := b.r MEAS.LINK_WIN.LOW + b.r MEAS.LINK_WIN.HYST
  if b.pw.link = .unarmed && decide (100 * lo < mV) && decide (mV + 100 * b.r MEAS.LINK_WIN.HYST < 100 * b.r MEAS.LINK_WIN.HIGH) then
    { b with pw := { b.pw with link := .inside } }
  else b

def execPeriodBoundary (n : Fin 48) (x : BoundaryIn) (s : State) : Host.Outcome State Fault Refusal := onBlk (fun b =>
  if !b.pw.powered || b.pw.held || b.nap == .napping then b else
  let b := b.armLink x.vLink
  let k := b.cellCal n
  let w := b.wide
  let b' := b.cell n fun c => c.boundary n w k b.pw.gd x
  if (b.axis n).pwm.stopped || !(b.axis n).boundaryAt n x.at8 then b' else (b'.afterBoundary b n x.at8).rwCheck) s

/-- A thermal accumulator has reached its limit (04 R114, 05 R154): an accumulator below it clamps nothing. -/
def execI2tClamp (n : Fin 48) (s : State) : Host.Outcome State Fault Refusal := onBlk (fun b => b.cell n fun c =>
  if c.ax.reg.clamp || c.ax.motor == .none || c.ax.reg.acc.all (· < i2tLimit) then c else
  let c := c.reg fun r => { r with clamp := true, amp := min r.amp 12000 }
  if c.ax.brushless then (c.setB AX.BL_STAT.I2T_CLAMP true).raise AX.BL_EVT.I2T
  else (c.setB AX.ST_STAT.I2T_CLAMP true).raise AX.ST_EVT.I2T) s

/-! ### Faults of legs -/

/-- A detector works whenever gate-drive power is present (02 R48). -/
def execDidtDetect (n : Fin 48) (leg : Fin 5) (s : State) : Host.Outcome State Fault Refusal :=
  onBlk (fun b => if b.pw.gd then b.cell n fun c => c.legFault leg true else b) s

/-- A charged bootstrap falls (02 R43). -/
def Cell.bootUv (c : Cell) (leg : Fin 5) : Cell :=
  let l := c.ax.legs
  if !l.bootOk.getLsbD leg.val then c else
  let c := (c.legs fun l => { l with bootOk := bitSet l.bootOk leg.val false }).raise AX.LEG_EVT.BOOT_UV
  if (c.ax.roleOf leg).isSome then c.legFault leg false
  else if leg = 4 && !l.spareUsed && l.subRole.isNone then
    (c.map fun a => { a with legs := { a.legs with spareBad := true }, nvPending := true }).raise AX.LEG_EVT.SPARE_BAD
  else c

def execBootUvEvent (n : Fin 48) (leg : Fin 5) (s : State) : Host.Outcome State Fault Refusal :=
  onBlk (fun b => b.cell n fun c => c.bootUv leg) s

def execOpenEdge (n : Fin 48) (x : OpenIn) (s : State) : Host.Outcome State Fault Refusal :=
  onBlk (fun b => b.cell n fun c => c.openFault x.leg x.high x.mA) s

def execSubstIsoOpenDone (n : Fin 48) (s : State) : Host.Outcome State Fault Refusal :=
  onBlk (fun b => b.cell n Cell.substIsoOpen) s

/-- The substitution ends, and what waited for it acts (02 R58, R69). -/
def execSubstTapCloseDone (n : Fin 48) (s : State) : Host.Outcome State Fault Refusal :=
  onBlk (fun b => b.cell n fun c => (c.substTapClosed b.pw.gd).runDeferred) s

def execSubstConfirmTimeout (n : Fin 48) (s : State) : Host.Outcome State Fault Refusal :=
  onBlk (fun b => b.cell n Cell.substTimeout) s

/-- The terminal currents of a cell in DRAIN, mA, those of all four roles (02 R63, 08 R273): slice 0 converts the shunts of roles 0 and 1, slice 1 those of 2 and 3. -/
def Axis.drainCurrent (a : Axis) (k : CellCal) (codes : Vector (BitVec 12) 4) (r : Fin 4) : Rat :=
  let s : Fin 2 := if r.val < 2 then 0 else 1
  let f := match a.server s with
    | some sp => k.spare.get sp
    | none => a.ownFactors k s
  sliceCurrent f (k.shunt.get (a.legOf r)) (codes.get r).toNat

/-- DRAIN ends with every terminal current below 1 A, or after 5 ms (02 R63). -/
def execDrainEnd (x : DrainIn) (s : State) : Host.Outcome State Fault Refusal := onBlk (fun b =>
  let k := b.cellCal x.cell
  (b.cell x.cell fun c =>
    if c.ax.legs.phase == .drain && (x.expired || (List.finRange 4).all fun r => decide (Rat.abs' (c.ax.drainCurrent k x.codes r) < 1000)) then c.toLost
    else c).rwCheck) s

/-- A bootstrap rises above 5.3 V while its pump runs (02 R42). -/
def execBootstrapCharged (n : Fin 48) (leg : Fin 5) (s : State) : Host.Outcome State Fault Refusal :=
  onBlk (fun b => b.cell n fun c => c.legs fun l =>
    if l.pumpOn.getLsbD leg.val then { l with bootOk := bitSet l.bootOk leg.val true } else l) s

/-! ### Trips -/

/-- A module-wide source acts on the cells only while it stands. -/
def Wide.stands (w : Wide) : TripSrc → Bool
  | .comp .. => true | .link => w.link | .ext => w.ext

def execPreTrip (n : Fin 48) (src : TripSrc) (cyc : Nat) (seen : Bool) (s : State) : Host.Outcome State Fault Refusal :=
  onBlk (fun b => if b.wide.stands src then (b.cell n fun c => c.preTrip b.wide src cyc seen).rwCheck else b) s

def execTripConfirm (n : Fin 48) (src : TripSrc) (cyc : Nat) (s : State) : Host.Outcome State Fault Refusal :=
  onBlk (fun b => (b.cell n fun c => c.windowEnds b.wide src cyc).rwCheck) s

/-- The link leaves its window (03 R94): every cell pre-trips; a comparator that is not yet armed stays so (03 R93). -/
def execLinkWindowTrip (high : Bool) (cyc : Nat) (seen : Bool) (s : State) : Host.Outcome State Fault Refusal := onBlk (fun b =>
  let b := { b with pw := { b.pw with link := if b.pw.link == CmpState.unarmed then CmpState.unarmed else if high then .high else .low } }
  let w := b.wide
  (b.cells allAxes fun _ c => c.preTrip w .link cyc seen).rwCheck) s

/-- A comparator goes inside (03 R92). -/
def execComparatorInside (k : CompId) (cyc : Nat) (s : State) : Host.Outcome State Fault Refusal := onBlk (fun b =>
  match k with
  | .leg n r => (b.cell n fun c => c.compInside b.wide r cyc).rwCheck
  | .link =>
    let w := b.wide
    (({ b with pw := { b.pw with link := .inside } }).cells allAxes fun _ c => c.srcInactive w .link cyc).rwCheck) s

/-! ### Stopped clocks -/

/-- The counter of a cell stops where it stands (03 R88, R89); `free` places the instant in the period. -/
def Cell.stopCounter (c : Cell) (free : Nat) : Cell :=
  c.pwm fun p => { p with cnt := (c.ax.counter free).1, down := (c.ax.counter free).2, late := true }

/-- Debug halt (03 R88): with the strap and `DBG_EN`; `HALT_MODE` 1 turns the switches off, and the carries stay (03 R78). -/
def execDebugHalt (s : State) : Host.Outcome State Fault Refusal := onBlk (fun b =>
  if !b.pw.straps.bench || !b.bit MOD.CTRL.DBG_EN then b else
  (b.cells allAxes fun n c =>
    let c := (c.stopCounter (Config.freeNat (b.fresh + n.val))).pwm fun p => { p with halted := true }
    if c.ax.inForce AX.PWM_CTRL.HALT_MODE = 1 then c.pwm Pwm.dark else c).draw 48) s

/-- The halt ends (03 R88): the filter of each cell starts from its beginning (R90).  No operand dates the release, so that the windows opened
here end as `TRIP_CONFIRM` tells (notes/assumptions/51.md). -/
def execDebugRelease (s : State) : Host.Outcome State Fault Refusal := onBlk (fun b =>
  let w := b.wide
  (b.cells allAxes fun _ c => if c.ax.pwm.halted then (c.pwm fun p => { p with halted := false }).restartWindows w 0 else c).rwCheck) s

/-- The clock of a cell stops (03 R89): its legs freeze. -/
def execCellClockLoss (n : Fin 48) (s : State) : Host.Outcome State Fault Refusal := onBlk (fun b =>
  (b.cell n fun c => (c.stopCounter (Config.freeNat b.fresh)).pwm fun p => { p with clockLost := true }).draw) s

/-- The clock of a cell returns (03 R90). -/
def execCellClockReturn (x : ClockIn) (s : State) : Host.Outcome State Fault Refusal := onBlk (fun b => (b.cell x.cell fun c =>
  if c.ax.pwm.clockLost then (c.pwm fun p => { p with clockLost := false }).restartWindows b.wide x.cyc else c).rwCheck) s

end Sys2Proof.Machine
end

