-- ==== Sys2Proof/Machine/DriveRows.lean ====
section
/-!
DEFINITION. The events of motion and drives: starts and catching (05 R157 to R170, 06 R188, R189), what ends a run (04 R125,
R132 to R134, 05 R162, R168), inputs (04 R136, 05 R145, R174), masters and cams (06 R205, R210 to R212).
-/

namespace Sys2Proof.Machine

/-! ### Starting -/

/-- The mode that a move runs in. -/
def MoveK.mode : MoveK → Mode
  | .abs _ | .rel _ => .position | .vel .. => .velocity | .localSpeed _ => .localSpeed | .followStep => .followStep
  | .gear .. => .gear | .cam _ => .cam | .hold => .hold

/-- What a start needs of the module: the masters, the tables, and the axis's depth as a follower. -/
structure StartEnv where
  mp : MasterPos
  tab : Fin 64 → CamTable
  depth : Nat

/-- A local master went fallow at this tick (06 R213). -/
def Blk.fellNow (b : Blk) (r : MasterRef) : Bool :=
  (MasterRef.local r).elim false fun m =>
    let x := (b.axis m).mot
    !x.mode.enabled && decide (x.fell = b.ticks)

def Blk.startEnv (b : Blk) (n : Fin 48) : StartEnv :=
  ⟨fun r => if b.fellNow r then none else b.masters r, b.cams.get, b.depthOf 4 n⟩

/-- The move of the job in progress starts, from a velocity: the catch is over. -/
def Cell.startJob (c : Cell) (e : StartEnv) (v : Rat) : Cell :=
  let c := (c.setB AX.BL_STAT.CATCH false).setB AX.BL_STAT.BRAKE false
  let c := c.bl fun b => { b with start := .none, catchWait := false, brake := .none, lockTicks := 0 }
  match c.ax.mot.job with
  | none => c
  | some j => c.begin j v e.mp e.tab e.depth

/-- A start from rest (05 R157, R170): with Halls at once, else by test pulses, through which `CATCH` stays 1: the cell starts with its profile
(notes/assumptions/134.md). -/
def Cell.restStart (c : Cell) (e : StartEnv) : Cell :=
  let c := c.startFromRest
  let c := c.setB AX.BL_STAT.BRAKE false
  if c.ax.bl.start == .none then c.startJob e 0 else c

/-- Short-braking to catch a rotor (05 R170). -/
def Cell.catchBrake (c : Cell) : Cell :=
  ((c.bl fun b => { b with brake := .catching false false, start := .none, catchWait := true, brakeN := 0, quiet := 0 }).setB AX.BL_STAT.BRAKE true).setB
    AX.BL_STAT.CATCH true

/-- The position source takes over what the observation has found: nothing more where it is the Halls. -/
def Cell.takeRotor (c : Cell) (x : CatchIn) (halls : Bool) : Cell :=
  if halls then c.bl fun b => { b with posSrc := .halls } else
  (c.bl fun b => { b with posSrc := .estimator, theta := (x.theta : Nat), estTheta := (x.theta : Nat), estLast := (x.theta : Nat), estOmega := x.speed, estValid := true
                          posFrac := 0, omega := x.speed }).mot fun m => { m with pMeas := nearest m.pMeas x.theta }

/-- What the observation of a rotor leads to (05 R170). `halls` tells that the position source is the Halls.  An opposite rotor below `V_CATCH`
that is started at once was not caught, and raises no `CATCH` (notes/assumptions/135.md). -/
def Cell.caught (c : Cell) (e : StartEnv) (x : CatchIn) (halls : Bool) : Cell :=
  let a := c.ax
  let sp : Rat := x.speed
  let dir : Int := a.mot.job.elim 0 fun j => j.move.kind.dir a.mot.pCmd (a.b AX.BL_LS.LS_DIR)
  let lim := fun (f : Fld) => (a.r f : Rat) * 16
  if x.rest then c.restStart e
  else if !halls && decide (Rat.abs' sp < lim AX.BL_SPEED.V_BEMF) then (c.raise AX.BL_EVT.CATCH).catchBrake
  else if dir * x.speed < 0 then
    if Rat.abs' sp < lim AX.BL_CATCH.V_CATCH then
      (c.takeRotor x halls).startJob e 0
    else (c.raise AX.BL_EVT.CATCH).catchBrake
  else if Rat.abs' sp ≤ lim AX.BL_CATCH.V_CATCH_MAX then
    let c := c.takeRotor x halls
    let c := (c.raise AX.BL_EVT.CATCH).redefine c.ax.mot.pMeas
    c.startJob e sp
  else (c.raise AX.BL_EVT.CATCH).catchBrake

/-- An admitted move starts on its axis (06 R188): a brushless axis at rest or parked observes its rotor first (05 R169). -/
def Cell.startMove (c : Cell) (e : StartEnv) (m : Move) : Cell :=
  let a := c.ax
  let idle := a.mot.mode = .fallow || a.mot.mode = .park
  -- a move that this one takes the place of ends (07 R255)
  let c := c.leaveFallow.endJob false
  let j := a.newJob c.now m
  if a.brushless && idle then
    let halls := a.restSrc == .halls
    let c := (c.setB AX.BL_STAT.PARK false).setB AX.BL_STAT.BRAKE false
    let c := c.mot fun x => { x with
      mode := m.kind.mode, job := some j, group := m.group, waiting := none, rest := none, stop := .none, prof := { p := x.pCmd }, left := false, stopFrom := none, homeTicks := 0 }
    let c := c.bl fun b => { b with brake := .none, posSrc := if halls then .halls else .none }
    if halls then
      let w := a.bl.omega
      let rest := decide (Rat.abs' w < (a.r AX.BL_SPEED.V_STOP : Rat) * 16)
      c.caught e ⟨rest, roundAway w, 0⟩ true
    else (c.bl fun b => { b with start := .observe, catchWait := true }).setB AX.BL_STAT.CATCH true
  else
    -- a velocity command to a moving axis continues from its speed; every other start is from rest
    let v := if a.mot.mode.running then a.mot.prof.v else 0
    let c := (c.setB AX.BL_STAT.PARK false).setB AX.BL_STAT.BRAKE false
    (c.bl fun b => { b with brake := .none, gripEnd := false }).begin j v e.mp e.tab e.depth

/-- A group is marked as started with its first member (06 R195). -/
def Blk.groupStarted (b : Blk) (m : Move) : Blk :=
  match m.group with
  | none => b
  | some (g, _) => { b with plan := { b.plan with groups := b.plan.groups.map fun r =>
      if r.g = g && r.seq = m.seq then { r with started := true } else r } }

/-- Background calibration of a slice ends as its axis leaves fallow (08 R292), and the age of its factors counts (08 R285). -/
def Blk.startWaiting (b : Blk) (n : Fin 48) (w : Waiting) : Blk :=
  let e := b.startEnv n
  ((b.groupStarted w.move).cell n fun c => c.startMove e w.move).staleRise b

/-- `MOVE_START`: the first tick of the start swath has come (06 R188). -/
def execMoveStart (n : Fin 48) (s : State) : Host.Outcome State Fault Refusal := onBlk (fun b =>
  match (b.axis n).mot.waiting with
  | some w => if w.queued || decide (25 * b.swath + (b.tick - 1) < 25 * w.swath + w.tick) then b else b.startWaiting n w
  | none => b) s

/-- `QUEUE_START` (06 R189): after the move ahead, or after the delay. -/
def execQueueStart (n : Fin 48) (s : State) : Host.Outcome State Fault Refusal := onBlk (fun b =>
  match (b.axis n).mot.waiting with
  | some w =>
    if !w.queued || decide (25 * b.swath + (b.tick - 1) < 25 * w.swath + w.tick) then b
    else (b.raiseAx n [AX.MOT_EVT.QUEUE_START]).startWaiting n w
  | none => b) s

/-! ### Ends of a run (04 R125, R132 to R134) -/

/-- `STALL` on a running stepper that does not home, its count complete (04 R125). -/
def Cell.stalled (c : Cell) : Cell :=
  if !c.ax.stallDue then c else
  ((((c.setB AX.ST_STAT.STALLED true).raise AX.ST_EVT.STALL).count AX.ST_CNT.STALL_CNT).event 0x04 []).holdAtEstimate

def execStall (n : Fin 48) (s : State) : Host.Outcome State Fault Refusal := onBlk (fun b => b.cell n Cell.stalled) s

/-- The time at the ceiling has run out: the amplitude slews to `I_HOLD` (04 R123). -/
def Cell.ceilingEnds (c : Cell) : Cell :=
  match c.ax.reg.rest with
  | .ceiling 0 => if c.ax.stepper && c.ax.mot.mode == .hold then c.reg fun r => { r with rest := .slew } else c
  | _ => c

def execStallHoldExpiry (n : Fin 48) (s : State) : Host.Outcome State Fault Refusal := onBlk (fun b => b.cell n Cell.ceilingEnds) s
def execRestCeilingExpiry (n : Fin 48) (s : State) : Host.Outcome State Fault Refusal :=
  onBlk (fun b => b.cell n fun c => c.ceilingEnds) s

/-- A homing run is in progress. -/
def Axis.homing (a : Axis) : Bool := if a.brushless then a.b AX.BL_STAT.HOMING else a.b AX.ST_STAT.HOMING

/-- The locked rotor of R168 is due. -/
def Axis.lockDue (a : Axis) : Bool :=
  a.brushless && a.mot.mode.running && !a.homing && a.bl.brake == .none && !a.starting && a.lockCounted

/-- A locked rotor (05 R168). -/
def Cell.lockedRotor (c : Cell) : Cell :=
  if !c.ax.lockDue then c else
  let c := (((c.setB AX.BL_STAT.LOCKED true).raise AX.BL_EVT.LOCKED).count AX.BL_CNT1.LOCK_CNT).event 0x06 []
  let c := ((c.discard.endJob false).count AX.MOT_CNT.STOPS).mot fun m => { m with left := true }
  c.startBrake .locked

/-- The flags, the counter and the event of an obstacle. -/
def Cell.reportObstacle (c : Cell) : Cell :=
  let f := if c.ax.brushless then c.ax.rS AX.BL_FORCE.F_EST else c.ax.rS AX.ST_FORCE.F_EST
  let c := c.reg fun r => { r with obstHit := true }
  let c := if c.ax.brushless then ((c.setB AX.BL_STAT.OBST true).raise AX.BL_EVT.OBST).count AX.BL_CNT1.OBST_CNT
    else ((c.setB AX.ST_STAT.OBST true).raise AX.ST_EVT.OBST).count AX.ST_CNT.OBST_CNT
  c.event 0x05 (leBytes 4 (BitVec.ofInt 32 f).toNat)

/-- `OBSTACLE` (04 R132, 05 R171): with a stall or a locked rotor on the same tick, that governs, is reported first, and `OBST_ACT` is not applied
(04 R140, 05 R177). -/
def Cell.obstacle (c : Cell) : Cell :=
  if !c.ax.obstacleDue || c.ax.homing || c.ax.motor == .none then c else
  let c := c.stalled.lockedRotor
  let a := c.ax
  let other := (a.stepper && a.b AX.ST_STAT.STALLED && a.mot.mode == .hold) || (a.brushless && a.bl.brake == .locked)
  if other then c.reportObstacle
  else if a.mot.mode.running then
    c.reportObstacle.obstReact (if a.brushless then a.r AX.BL_OBST.OBST_ACT else a.r AX.OBST_CFG.OBST_ACT)
  else c

def execObstacle (n : Fin 48) (s : State) : Host.Outcome State Fault Refusal := onBlk (fun b => b.cell n Cell.obstacle) s

/-- The homing run has lasted `HOME_TMO`: a home on the tick that ends the window comes too late (04 R134, 00 R6). -/
def Axis.homeExpired (a : Axis) : Bool :=
  let t := if a.brushless then a.r AX.BL_HOME.HOME_TMO else a.r AX.HOME_CFG.HOME_TMO
  t != 0 && decide (2500 * t ≤ a.mot.homeTicks)

def execHomeFound (n : Fin 48) (s : State) : Host.Outcome State Fault Refusal :=
  onBlk (fun b => b.cell n fun c => if c.ax.homeReached && c.ax.mot.mode.running && !c.ax.homeExpired then c.homeFound else c) s

/-- The homing run reaches `HOME_TMO` (04 R134). -/
def execHomeTimeout (n : Fin 48) (s : State) : Host.Outcome State Fault Refusal :=
  onBlk (fun b => b.cell n fun c => if c.ax.homing && c.ax.homeExpired then c.homeFail.stop .stop else c) s

/-! ### Inputs -/

/-- A step edge (04 R136), of the selected polarity: the level of an unstable AUXB is free. -/
def execStepEdge (n : Fin 48) (x : StepIn) (s : State) : Host.Outcome State Fault Refusal := onBlk (fun b =>
  if !(b.axis n).activeEdge x.rising then b else
  match x.dir with
  | some d => b.cell n fun c => c.stepEdge x.at200 d
  | none => (b.cell n fun c => c.stepEdge x.at200 (Config.freeBool b.fresh)).draw) s

/-- A Hall code that has stood for `HALL_FLT` cycles is accepted (05 R144), one sampled in nap too (R148; notes/assumptions/137.md). -/
def execHallEdge (n : Fin 48) (x : HallIn) (cyc : Nat) (s : State) : Host.Outcome State Fault Refusal := onBlk (fun b =>
  b.cell n fun c =>
    if !c.ax.hallStood x then c else
    -- a skip seen in nap makes the position uncertain (05 R148, R163)
    let k := c.ax.bl.skips
    let c := c.hallCode (HallIn.lines x) cyc
    if b.nap == .napping && c.ax.bl.skips != k then c.setUnc else c) s

/-- The sensor supply shuts down (17 R506); in nap the failure acts after ready (R527). -/
def execSensorSupplyOverload (n : Fin 48) (s : State) : Host.Outcome State Fault Refusal := onBlk (fun b =>
  b.cell n fun c =>
    let c := c.bl fun x => { x with sensorSupply := false, sector := none, supplyNap := b.nap != .awake && x.sensorSupply }
    if b.nap == .awake then c.supplyFails else c) s

/-- The local-speed signal is lost (05 R174). -/
def execLsSignalLoss (n : Fin 48) (s : State) : Host.Outcome State Fault Refusal := onBlk (fun b =>
  b.cell n fun c =>
    if c.ax.mot.mode != .localSpeed || c.ax.bl.lsLost || !c.ax.bl.lsBad then c
    else ((c.bl fun x => { x with lsLost := true }).mot fun m => { m with vTarget := 0 }).raise AX.BL_EVT.LS_LOSS) s

/-! ### The sensorless start (05 R157 to R162) -/

/-- The twelve test pulses have run, one direction after another (05 R158), and give their peaks: an interruption has discarded them where the legs
are not free (05 R177). -/
def execTestPulses (n : Fin 48) (peaks : Vector Int 12) (s : State) : Host.Outcome State Fault Refusal := onBlk (fun b =>
  let a := b.axis n
  match a.bl.start with
  | .testPulses k len _ =>
    if a.legsFree && b.pw.gd then
      (b.mapAx n fun a => { a with bl := { a.bl with start := .initAngle k len peaks } }).sweepInterleaves
    else b
  | _ => b) s

/-- The sums of a_d cos d and a_d sin d of the twelve peaks (05 R159). -/
def asymSums (p : Vector Int 12) : Rat × Rat :=
  (List.range 6).foldl (fun (x, y) i =>
    let hi := (p[2 * i]?).getD 0; let lo := (p[2 * i + 1]?).getD 0
    let a : Rat := if hi + lo = 0 then Config.asymZero i else 2 * ((hi - lo : Int) : Rat) / (hi + lo : Int)
    (x + a * cosDeg (30 * i), y + a * sinDeg (30 * i))) (0, 0)

/-- The initial angle (05 R159, R160): accepted into grip, repeated once, or failed. -/
def Cell.initAngle (c : Cell) (e : StartEnv) (k len : Nat) (p : Vector Int 12) : Cell :=
  let (x, y) := asymSums p
  let amp := sqrtOf (x * x + y * y) / 3
  if (c.ax.r AX.BL_START.TP_ASYM : Rat) / 1000 ≤ amp then
    let th := atan2Deg y x * 2 ^ 24 / 360
    let ang : Int := roundAway th % 2 ^ 24
    let c := (c.set AX.BL_DIAG.INIT_ANGLE ((roundAway ((ang : Rat) / 4096) % 4096).toNat)).raise AX.BL_EVT.INIT_DONE
    let c := (c.setB AX.BL_STAT.INIT false).mot fun m => { m with pMeas := nearest m.pMeas ang }
    (c.grip ang).startJob e 0
  else if k < 2 then c.bl fun b => { b with start := c.ax.testAgain len }
  else c.startFails AX.BL_EVT.INIT_FAIL

def execInitAngleDone (n : Fin 48) (s : State) : Host.Outcome State Fault Refusal := onBlk (fun b =>
  match (b.axis n).bl.start with
  | .initAngle k len p => let e := b.startEnv n; (b.cell n fun c => c.initAngle e k len p).sweepInterleaves
  | _ => b) s

/-- The estimator takes over from grip (05 R161). -/
def Cell.handover (c : Cell) : Cell :=
  let a := c.ax
  if a.bl.posSrc != .grip || a.bl.gripEnd || !a.mot.mode.running || a.starting || !a.bl.estValid
    || decide (a.bl.bemfN < max 1 (a.r AX.BL_START.BEMF_N)) then c else
  let d := wrapDeg ((a.driveAngle - a.bl.estTheta) * 360 / 2 ^ 24) * 2 ^ 24 / 360
  (c.bl fun b => { b with posSrc := .estimator, theta := b.estTheta, omega := b.estOmega, vInt := 0, bemfN := 0 }).unwrapTo (a.mot.pCmd - d)

def execBemfHandover (n : Fin 48) (s : State) : Host.Outcome State Fault Refusal := onBlk (fun b => b.cell n Cell.handover) s

/-- The 200 ms of grip at the end of a sensorless move are over (05 R162, R167). -/
def execSensorlessGripEnd (n : Fin 48) (s : State) : Host.Outcome State Fault Refusal :=
  onBlk (fun b => b.cell n fun c => if c.ax.bl.gripEnd && c.ax.mot.mode == .hold && c.ax.reg.rest == .ceiling 0 then c.park else c) s

/-! ### Locked rotor and short-braking (05 R166 to R170) -/

def execLockedRotor (n : Fin 48) (s : State) : Host.Outcome State Fault Refusal := onBlk (fun b => b.cell n Cell.lockedRotor) s

def execLockedBrakeEnd (n : Fin 48) (s : State) : Host.Outcome State Fault Refusal :=
  onBlk (fun b => b.cell n fun c => if c.ax.bl.brake == .locked && decide (5000 ≤ c.ax.bl.brakeN) then c.goFallow else c) s

/-- A stop received while catching acts where the braking ends: in place, or parked where sensorless (05 R177). -/
def Cell.catchStopped (c : Cell) : Cell :=
  let halls := c.ax.restSrc == .halls
  let c := (c.setB AX.BL_STAT.CATCH false).setB AX.BL_STAT.BRAKE false
  let c := c.bl fun b => { b with brake := .none, start := .none, catchWait := false, posSrc := if halls then .halls else b.posSrc }
  if halls then (c.redefine c.ax.mot.pMeas).stopDone else (c.endJob false).restAfterStop

/-- The rotor is not at rest (05 R166, 07 R250): by the Halls, or by a terminal current that has not stayed below 0.1 A for 20 ms. -/
def Axis.stillTurns (a : Axis) : Bool :=
  if a.brushless && a.restSrc == .halls then decide ((a.r AX.BL_SPEED.V_STOP : Rat) * 16 ≤ Rat.abs' a.bl.omega)
  else decide (a.bl.quiet < 20000000)

/-- The rotor is at rest (05 R166): what the short-brake was for decides. -/
def Cell.rotorAtRest (c : Cell) (e : StartEnv) : Cell :=
  match c.ax.bl.brake with
  | .park => if c.ax.b AX.BL_STAT.PARK then c else c.restAfterStop
  | .hallFail | .sb82 => c.goFallow
  | .catching true _ => c.catchStopped
  | .catching false _ => c.restStart e
  | .locked | .none => c

def execRotorAtRest (n : Fin 48) (s : State) : Host.Outcome State Fault Refusal := onBlk (fun b =>
  let e := b.startEnv n
  b.cell n fun c => if c.ax.stillTurns then c else c.rotorAtRest e) s

/-- The observation ends, or catch braking reaches its target (05 R169, R170): an observation that a stop has met ends the move. -/
def Cell.observed (c : Cell) (e : StartEnv) (x : CatchIn) : Cell :=
  let halls := c.ax.restSrc == .halls
  match c.ax.bl.start, c.ax.bl.brake with
  | .observe, _ => if c.ax.mot.mode == .stopping then c.catchStopped else c.caught e x halls
  | _, .catching st toRest =>
    if toRest && !x.rest then c else if st then c.catchStopped else c.caught e x halls
  | _, _ => c

def execCatchObserveDone (n : Fin 48) (x : CatchIn) (s : State) : Host.Outcome State Fault Refusal := onBlk (fun b =>
  let e := b.startEnv n
  b.cell n fun c => c.observed e x) s

def execCatchFail (n : Fin 48) (s : State) : Host.Outcome State Fault Refusal := onBlk (fun b => b.cell n fun c =>
  match c.ax.bl.brake with
  | .catching .. => if c.ax.bl.brakeN < 50000 then c else c.startFails AX.BL_EVT.CATCH_FAIL
  | _ => c) s

/-! ### Masters and cams (06 R205, R210 to R212) -/

/-- The master of an axis that follows, or waits to. -/
def Axis.master (a : Axis) : Option MasterRef :=
  match a.mot.camWait with
  | some w => some w.1.master
  | none => a.mot.engage.bind fun e => match e.kind with | .gear r .. => some r | .cam cp => some cp.master | _ => none

/-- A master is lost (06 R205). -/
def Blk.masterGone (b : Blk) (r : MasterRef) : Bool :=
  match MasterRef.local r with
  | some m => !(b.axis m).mot.mode.enabled || (b.axis m).mot.left && (b.axis m).mot.mode == .park
  | none =>
    match r with
    | .remote addr n src =>
      !(b.casc.mods.any fun m => m.addr = addr) || (b.casc.remote.find? fun x => x.addr = addr && x.axis = n && x.src = src).elim false fun x => decide (3 ≤ x.missing)
    | _ => false

def Cell.masterLost (c : Cell) : Cell :=
  let c := (c.raise AX.MOT_EVT.MASTER_LOST).event 0x0D
  if c.ax.mot.camWait.isSome then c.mot fun m => { m with camWait := none, job := none }
  else c.stop (if c.ax.b AX.MOT_CFG.MLOSS_ACT then .qstop else .stop)

def execMasterLost (n : Fin 48) (s : State) : Host.Outcome State Fault Refusal := onBlk (fun b =>
  match (b.axis n).master with
  | some r => if b.masterGone r then b.cell n Cell.masterLost else b
  | none => b) s

/-- The master stands at or past a position in a direction. -/
def passedAt (m : Int) (x : Int × Bool) : Bool := if x.2 then decide (x.1 ≤ m) else decide (m ≤ x.1)

/-- A waiting cam engages, or is refused on its tolerance (06 R210, R211). -/
def execCamAtEngage (n : Fin 48) (s : State) : Host.Outcome State Fault Refusal := onBlk (fun b =>
  match (b.axis n).mot.camWait with
  | some (cp, seq, _) =>
    (match b.masters cp.master, cp.startAt with
     | some m, some x =>
       if passedAt m x && b.masterValid cp.master then
         let d := b.depthOf 4 n; let t := b.cams.get cp.table
         b.cell n fun c => if b.fellNow cp.master then c.engageFails else c.engageCam t cp m seq d
       else b
     | _, _ => b)
  | none => b) s

/-- The master passes the position of a disengage (06 R212). -/
def execCamAtDisengage (n : Fin 48) (s : State) : Host.Outcome State Fault Refusal := onBlk (fun b =>
  match (b.axis n).mot.engage, (b.axis n).master.bind b.masters with
  | some e, some m =>
    (match e.offAt with
     | some x => if passedAt m x then b.cell n fun c => c.orDefer .stop (·.stop .stop) else b
     | none => b)
  | _, _ => b) s

/-- An uncorrectable error in a table (06 R212). -/
def execCamEccError (t : Fin 64) (s : State) : Host.Outcome State Fault Refusal := onBlk (fun b =>
  let b := b.cells (allAxes.filter fun n => (b.axis n).usesTable t) fun _ c => (c.raise AX.MOT_EVT.CAM_ECC).stop .stop
  { b with cams := b.cams.set t { b.cams.get t with valid := false, points := (b.cams.get t).points.map fun _ => none }
           camDirty := b.camDirty.map fun m => bitSet m t.val false }) s

end Sys2Proof.Machine
end

