-- ==== Sys2Proof/Machine/PlanOps.lean ====
section
/-!
DEFINITION. The planner's arithmetic: predicted power and claims (07 R227 to R231), curves and their sums over the horizon
(R229, R232), allowances and surplus (R224, R243, R253, 15 R478), and the fit of a curve (R235).
-/

namespace Sys2Proof.Machine

/-! ### Power (07 R228) -/

/-- What the prediction takes of an axis. -/
structure PModel where
  p : Nat
  kc : Nat
  rw : Nat
  ke : Nat
  j : Nat
  tc : Nat
  b : Nat
  imax : Nat
  tload : Nat
  pstage : Nat

def Axis.pmodel (a : Axis) : PModel :=
  let m := a.model.getD ⟨0, 0, 0, 0, 0, 0⟩
  { p := a.poles, kc := if a.brushless then 3 else 2, rw := m.rw, ke := m.ke, j := m.j, tc := m.tc, b := m.b
    imax := if a.brushless then a.r AX.BL_ILIM.I_MAX else a.r AX.I_LIM0.I_MAX
    tload := a.r AX.PLAN_AX.T_LOAD, pstage := a.r AX.PLAN_AX.P_STAGE }

/-- Copper and stage loss at a current, µW per tick (07 R228, R230). -/
def PModel.copper (m : PModel) (i : Nat) : Int := (m.kc * m.rw * i ^ 2 / 2000 + 100000 * m.pstage : Nat)

/-- Torque at the ceiling, µN·m. -/
def PModel.tcap (m : PModel) : Int := (m.kc * m.ke * m.imax / 2000 : Nat)

/-- Shaft speed of a velocity field, mrad/s. -/
def PModel.w (m : PModel) (v : Int) : Int := (v * 157079633).tdiv (2 ^ 32 * m.p)

/-- The power of one tick, µW, from the velocity and acceleration fields (07 R228). -/
def PModel.power (m : PModel) (x : Int × Int) : Int :=
  let w := m.w x.1
  let al := (x.2 * 3926990816987).tdiv (2 ^ 40 * m.p)
  let tm := (m.j * al).tdiv (10 ^ 4) + 1000 * m.tc * w.sign + (m.b * w).tdiv 1000
  let tl : Int := if m.tload = 0xFFFF then m.tcap else 1000 * m.tload
  let aw : Int := w.natAbs
  let pm := (w * tm).tdiv 1000 + (aw * tl).tdiv 1000
  min pm ((aw * m.tcap).tdiv 1000) + m.copper m.imax

/-- The claim of a follower, per tick (07 R230). -/
def PModel.follow (m : PModel) (vmax : Nat) : Int := ((m.w vmax).natAbs * m.tcap).tdiv 1000 + m.copper m.imax

/-! ### Claims and curves (07 R229 to R232) -/

/-- What follows a profile: whole swaths at one power per tick, then another for good. -/
structure Claim where
  n : Nat
  hi : Int
  lo : Int

def Claim.const (x : Int) : Claim := ⟨0, x, x⟩

/-- The claim of HOLD after coming to rest with `h` (07 R230, R231). -/
def Axis.holdClaim (a : Axis) (h : Nat) : Claim :=
  let m := a.pmodel
  if a.brushless then .const (m.copper m.imax)
  else
    let ic := a.ceiling; let ih := a.r AX.I_LIM1.I_HOLD; let rate := a.r AX.I_LIM1.I_RATE
    let ns := if rate = 0 then 0 else (ic - ih + rate - 1) / rate
    ⟨h + (ns + 24) / 25, m.copper ic, m.copper (min ih ic)⟩

/-- Tick powers from tick `o` of their first swath, summed by swath: whole swaths latest first, the sum of the last and its ticks. -/
def chunks (o : Nat) (ps : List Int) : List Int × Int × Nat :=
  ps.foldl (fun (acc : List Int × Int × Nat) x =>
    if acc.2.2 + 1 = 25 then ((acc.2.1 + x) :: acc.1, 0, 0) else (acc.1, acc.2.1 + x, acc.2.2 + 1)) ([], 0, o)

/-- The sums of a profile's own ticks. -/
def profileSums (o : Nat) (ps : List Int) : List Int :=
  let (l, s, k) := chunks o ps
  l.reverse ++ (if k = 0 then [] else [s])

/-- The sums of a profile with the claim that follows: the swaths at the first power count from the swath after the last moving
tick, which is the tick before the last (07 R231). -/
def pieceSums (o : Nat) (ps : List Int) (c : Claim) : List Int :=
  let (l, s, k) := chunks o ps
  let fill : Int := s + ((25 - k : Nat) : Int) * (if c.n = 0 then c.lo else c.hi)
  l.reverse ++ (if k = 0 then [] else [fill]) ++ List.replicate (if k = 1 then c.n - 1 else c.n) (25 * c.hi)

/-- A curve goes on with a piece from tick `t`; `direct` tells that the piece follows the profile ahead at once.  A swath shared by
both keeps the ticks before `t` (07 R229). -/
def Curve.splice (c : Curve) (t : Nat) (direct : Bool) (sums : List Int) (claim : Int) : Curve :=
  let s := t / 25; let o := t % 25
  let after := if direct then c.sumAt (s + 1) else c.sumAt s
  let keep : Int := if o = 0 then 0 else c.sumAt s - ((25 - o : Nat) : Int) * after / 25
  { c with
    sums := (List.range (s - c.start)).map (fun k => c.sumAt (c.start + k)) ++ (match sums with | x :: l => (keep + x) :: l | [] => [])
    claim := claim }

/-- Values of swaths in order, and the value of every swath after them. -/
abbrev Win := List Int × Int

/-- The energies of a curve from a swath on. -/
def Curve.win (c : Curve) (s : Nat) : Win :=
  let l := if s < c.start then List.replicate (c.start - s) 0 ++ c.sums else c.sums.drop (s - c.start)
  (l.map energy, energy (25 * c.claim))

def zipPad (f : Int → Int → Int) (ta tb : Int) : List Int → List Int → List Int
  | [], bs => bs.map (f ta)
  | as, [] => as.map (f · tb)
  | a :: as, b :: bs => f a b :: zipPad f ta tb as bs

def Win.zip (f : Int → Int → Int) (a b : Win) : Win := (zipPad f a.2 b.2 a.1 b.1, f a.2 b.2)
def Win.add (a b : Win) : Win := Win.zip (· + ·) a b
def Win.sub (a b : Win) : Win := Win.zip (· - ·) a b
def Win.pos (a : Win) : Win := (a.1.map (max 0), max 0 a.2)
def Win.zero : Win := ([], 0)

/-! ### The present plan of an axis (07 R227, R230 to R233) -/

/-- What an axis's curve predicts: the latest move admitted, or the stop in progress. -/
def Axis.planId (a : Axis) : Option (Nat × StopKind) :=
  let m := a.mot
  match m.queued, m.waiting with
  | some w, _ => some (w.move.seq, .none)
  | none, some w => some (w.move.seq, .none)
  | none, none =>
    if m.mode = .stopping then some (0, m.stop)
    else if m.mode.running || m.camWait.isSome then m.job.map fun j => (j.move.seq, .none) else none

/-- The rest whose claim an axis carries (07 R230, R231): none while it runs. -/
def Axis.restKey (a : Axis) : Option (Mode × Option RestClaim × Bool) :=
  if a.mot.mode.running then none else some (a.mot.mode, a.mot.rest, a.mot.camWait.isSome)

/-- The tick powers that remain of a profile, from the next tick on. -/
def Axis.remaining (a : Axis) (stop : Bool) : List Int :=
  let p := a.mot.prof
  ((Prof.trace stop (segTicks p.segs + 1) p).drop 1).map a.pmodel.power

/-- The curve of what an axis does now, from the start of swath `n` (07 R233 step 2). -/
def Axis.present (n : Nat) (a : Axis) : Curve :=
  let m := a.mot
  let of := fun (stop : Bool) (c : Claim) =>
    ({ start := n, sums := pieceSums 0 (a.remaining stop) c, claim := c.lo, id := a.planId, held := a.restKey } : Curve)
  let flat := fun (c : Claim) (k : Nat) =>
    ({ start := n, sums := List.replicate k (25 * c.hi), claim := c.lo, id := a.planId, held := a.restKey } : Curve)
  let follower := Claim.const (a.pmodel.follow (a.r AX.MOT_VMAX.V_MAX))
  match m.mode with
  | .position => of false (a.holdClaim 20)
  | .velocity | .localSpeed => of false (.const (a.pmodel.power (vField (m.prof.after m.prof.segs).1, 0)))
  | .stopping => of true (if m.fallowAfter then .const 0 else a.holdClaim 20)
  | .followStep | .gear | .cam => flat follower 0
  | .hold =>
    if m.camWait.isSome then flat follower 0
    else match m.rest with
      | some r => let c := a.holdClaim r.h; flat c (r.from_ + c.n - n)
      | none => flat (a.holdClaim 0) 0
  | _ => flat (.const 0) 0

/-- The plan's curve at the start of swath `n`: kept while the axis follows what was admitted, or rests as it did (07 R232), else
replaced. -/
def Axis.replan (n : Nat) (a : Axis) : Axis :=
  let m := a.mot
  let follows := (m.mode.running || m.camWait.isSome) && a.plan.id = a.planId
  let rests := !m.mode.running && a.plan.held = a.restKey
  let keep := m.waiting.isSome || m.queued.isSome || follows || rests
  { a with
    plan := if keep then { a.plan with start := n, sums := a.plan.sums.drop (n - a.plan.start) } else a.present n
    planned := m.waiting.isSome || m.queued.isSome || (1 ≤ m.mode.num && m.mode.num ≤ 8) }

/-- The plan as a whole, from a swath on: the sums D and the sums of positive energies (07 R235). -/
def Blk.totals (b : Blk) (s : Nat) : Win × Win :=
  allAxes.foldl (fun (acc : Win × Win) n =>
    let w := (b.axis n).plan.win s
    (Win.add acc.1 w, Win.add acc.2 (Win.pos w))) (Win.zero, Win.zero)

/-! ### Predicting a candidate (07 R227, R229, R236) -/

/-- A member's curve: its start tick at delay 0, whether it follows a profile at once, the sums with the claim that follows,
the sums of the profile's own ticks, and the direction of its first motion. -/
structure Pred where
  axis : Fin 48
  lim : Limits
  queued : Bool
  tick : Nat
  direct : Bool
  sums : List Int
  claim : Int
  own : List Int
  dir : Int

/-- Where a move would start: its tick at delay 0, position and velocity, whether it is queued, and whether it follows at once
(07 R233, R236, 06 R189, R190). -/
def Axis.startOf (a : Axis) (n : Nat) (m : Member) : Nat × Int × Rat × Bool × Bool :=
  let x := a.mot
  let first := 25 * (n + 1)
  let left := segTicks x.prof.segs
  let vel := match m.kind with | .vel .. | .localSpeed _ => true | _ => false
  match (if m.queued then x.waiting else none) with
  | some w =>
    let t := match w.move.kind with | .abs t => t | .rel d => x.pCmd + d | _ => x.pCmd
    let l := { w.move.lim with v := noLimit (pathLimit a.speedZones x.pCmd t) w.move.lim.v }
    (25 * w.swath + w.tick + segTicks (planMove x.pCmd t l.real).segs + 1, t, 0, true, true)
  | none =>
    if m.queued && x.mode.running then (25 * n + left, roundAway x.prof.endPos, 0, true, true)
    else if vel && x.mode.running then
      let v := (x.prof.after x.prof.segs).1
      (max first (25 * n + left), roundAway x.prof.endPos, v, false, first ≤ 25 * n + left && left != 0)
    else (first, x.pCmd, 0, false, false)

/-- The prediction of a member at factor q, to start no sooner than tick `least` (07 R227, R238, 06 R195): until then a velocity goes on. -/
def Axis.predict (a : Axis) (n : Nat) (m : Member) (q least : Nat) : Pred :=
  let lim := (a.moveLimits m.lim).scale q
  let (t0, p0, v, queued, direct0) := a.startOf n m
  let t := max t0 least
  let p := p0 + roundAway (v * (t - t0 : Nat))
  let direct := direct0 && t = t0
  let pm := a.pmodel
  let mk := fun (prof : Prof) (c : Claim) (dir : Int) =>
    let ps := (Prof.trace false (segTicks prof.segs + 1) prof).map pm.power
    ({ axis := m.axis, lim := lim, queued := queued, tick := t, direct := direct, sums := pieceSums (t % 25) ps c, claim := c.lo
       own := profileSums (t % 25) ps, dir := dir } : Pred)
  let zone := (zoneAt SpeedZone.start a.speedZones p).elim 0xFFFFFFFF (·.vLim)
  let move := fun (x : Int) =>
    mk (planMove p x { lim with v := noLimit (pathLimit a.speedZones p x) lim.v }.real) (a.holdClaim 20) (x - p).sign
  let velo := fun (w : Int) =>
    let l := { lim with v := noLimit zone lim.v }
    let w : Int := max (-(l.v : Int)) (min l.v w)
    mk { p := p, v := v, segs := velRamp v ((w : Rat) / 256) l.real }
      (if w = 0 then a.holdClaim 20 else .const (pm.power (w, 0))) (if v = 0 then w.sign else sgn v)
  let follower : Pred :=
    { axis := m.axis, lim := lim, queued := queued, tick := t, direct := direct, sums := [], claim := pm.follow (a.r AX.MOT_VMAX.V_MAX)
      own := [], dir := 0 }
  match m.kind with
  | .abs x => move x
  | .rel d => move (p + d)
  | .vel w _ => velo w
  | .localSpeed vm => velo (256 * vm * (if a.b AX.BL_LS.LS_DIR then -1 else 1))
  | .followStep | .gear .. | .cam _ => follower
  | .hold => mk { p := p } (a.holdClaim 0) 0

/-- What a candidate changes from swath `s` on: the members' present curves, their new ones, and what is the candidate's own. -/
structure Load where
  old : Win
  new : Win
  oldPos : Win
  newPos : Win
  own : Win

def Blk.load (b : Blk) (s : Nat) (ps : List Pred) (d : Nat) : Load :=
  ps.foldl (fun (l : Load) (p : Pred) =>
    let c := (b.axis p.axis).plan
    let t := p.tick + 25 * d
    let o := c.win s
    let w := (c.splice t (p.direct && d = 0) p.sums p.claim).win s
    let e := ({ start := t / 25, sums := p.sums, claim := p.claim } : Curve).win s
    ⟨Win.add l.old o, Win.add l.new w, Win.add l.oldPos (Win.pos o), Win.add l.newPos (Win.pos w), Win.add l.own e⟩)
    ⟨.zero, .zero, .zero, .zero, .zero⟩

/-! ### Allowances (07 R222 to R226, R243, R253, 17 R509) -/

/-- The usable energy of a store, mJ (07 R225). -/
def Copy.usable (c : Copy) (k : Fin 2) : Rat := max 0 (475 * (c.cEs.get k : Rat) * (((c.vEs.get k : Rat) ^ 2) - 1600 ^ 2) / 10 ^ 6)

/-- A store that is counted: ready, and not too warm (07 R244, 17 R510); in reserve operation it feeds the link below the upper
threshold. -/
def Blk.counts (b : Blk) (res : Bool) (k : Fin 2) : Bool :=
  b.plan.copy.rdy.get k && !((if res then b.meas.hotter else b.meas.hot).getLsbD (12 + k.val))

/-- The usable energy of the stores that count. -/
def Blk.stored (b : Blk) (res : Bool) : Rat :=
  (List.finRange 2).foldl (fun (x : Rat) k => if b.counts res k then x + b.plan.copy.usable k else x) 0

/-- The reserve of this module, mJ: in a stack its share, by the E_RES_REQ of the others, which no message carries (15 R475;
notes/assumptions/1.md). -/
def Blk.reserve (b : Blk) : Rat :=
  let e := b.bud LEDG.BUD_RES.E_RES
  if b.stacked && decide (1 < (b.casc.mods.filter (!·.heldOut)).length) then Config.reserveShare e (b.ledg.e.get 13) else 1000 * (e : Rat)

/-- The energy of the counted stores above their shares of `E_RES`, which the ready stores hold in proportion to their usable energy
(07 R224, R225). -/
def Blk.above (b : Blk) (res : Bool) : Rat :=
  let all := (List.finRange 2).foldl (fun (x : Rat) k => if b.plan.copy.rdy.get k then x + b.plan.copy.usable k else x) 0
  if all = 0 then -b.reserve else b.stored res * (1 - b.reserve / all)

def Blk.reserveOp (b : Blk) : Bool := b.bit LEDG.STAT.RES_OP

/-- The supply allowance A_sup, W (07 R224): 0 with no input at or above 33 V. -/
def Blk.supplyW (b : Blk) : Int :=
  let c := b.plan.copy
  let v := fun (i : Fin 2) (f : Fld) => if 3300 ≤ c.vSup.get i then [b.bud f * c.vSup.get i] else []
  match v 0 LEDG.BUD_IIN.I_IN_MAX_A ++ v 1 LEDG.BUD_IIN.I_IN_MAX_B with
  | [] => 0
  | l =>
    let w := l.foldl min (1000 * b.bud LEDG.BUD_PWR.P_IN_MAX)
    (w / 1000 : Nat) - (if c.aux then 0 else ((c.pLogic + 99) / 100 : Nat))

/-- The output limits, continuous and peak, W (07 R235, 17 R509), and whether the temperature lowers them. -/
def Blk.outLimits (b : Blk) : Int × Int × Bool :=
  let t := b.plan.copy.temp.get 15 - 5500
  if t ≤ 0 then (4800, 12000, false) else (max 0 ((480000 - 120 * t) / 100), max 0 ((1200000 - 200 * t) / 100), true)

/-- What a fit is judged against, from swath `s` on. -/
structure Env where
  sup : Win
  es : Int
  head : Rat
  usable : Rat
  cont : Int
  peak : Int
  absorb : Int
  link : Rat
  chop : Rat
  res : Bool
  run : Nat

/-- The shares of a stack by swath from `s` on: block by block of 100 swaths of the master's count (15 R477, R478). -/
def Blk.shareWin (b : Blk) (s : Nat) (l : List Nat) : Win :=
  let m : Int := s + b.casc.swathOfs
  let first := 100 - (m % 100).toNat
  match l with
  | [] => ([], 0)
  | x :: rest =>
    (List.replicate first (x : Int) ++ rest.flatMap (fun y => List.replicate 100 (y : Int)), ((l.getLast?).getD 0 : Nat))

/-- The power of the stores that qualify by their energy of the copy, W (07 R224, R253). -/
def Blk.esAllow (b : Blk) : Int :=
  let c := b.plan.copy
  let res := b.reserveOp
  let two := List.finRange 2
  let k := if b.above res ≤ 0 then 0 else (two.filter fun i => b.counts res i && decide (0 < c.usable i)).length
  let feed := (two.filter fun i => b.counts true i && decide (0 < c.usable i)).length
  if res then (3000 * feed : Nat) else min (b.bud LEDG.BUD_PWR.P_ES_MAX) (3000 * k : Nat)

/-- What the stores that are charged take, and what declared inputs accept, W (07 R243, 10 R339). -/
def Blk.chargeW (b : Blk) : Nat :=
  3000 * ((List.finRange 2).filter fun i => b.counts false i && decide (b.plan.copy.vEs.get i < 10 * b.bud LEDG.ES_CFG.V_ES_FULL)).length
def Blk.returnW (b : Blk) : Nat :=
  let stands := fun (f : Fld) (i : Fin 2) => b.bud f != 0 && decide (3300 ≤ b.plan.copy.vSup.get i)
  if stands LEDG.BUD_RET.RET_A 0 || stands LEDG.BUD_RET.RET_B 1 then b.bud LEDG.BUD_RET.P_RET_MAX else 0

/-- The horizon from swath `s` on, cut at the blocks of 100 swaths of the master's count (15 R477). -/
def Blk.byBlock (b : Blk) (s : Nat) (w : Win) : List (List Int) :=
  let m : Int := s + b.casc.swathOfs
  let first := 100 - (m % 100).toNat
  let l := (w.1 ++ List.replicate 4000 w.2).take 4000
  (List.range 41).map fun k => if k = 0 then l.take first else (l.drop (first + 100 * (k - 1))).take 100

/-- U of each block: the highest draw beyond the stores (15 R477). -/
def Blk.ownU (b : Blk) (s : Nat) : List Nat :=
  let es := b.esAllow
  (b.byBlock s (b.totals s).1).map fun l => l.foldl (fun (x : Nat) d => max x (d - es).toNat) 0

/-- G of each block: the lowest power returned into declared inputs (15 R477). -/
def Blk.ownG (b : Blk) (s : Nat) : List Nat :=
  let chg : Int := b.chargeW; let ret := b.returnW
  (b.byBlock s (b.totals s).1).map fun l =>
    if b.casc.lver < 2 then 0
    else (l.foldl (fun (x : Option Nat) d => let r := min ret (-d - chg).toNat; some (x.elim r (min r))) none).getD 0

/-- The allowances of the decisions that start at swath `s` (07 R224, R243, R253, 15 R478), before what the plan draws from the stores. -/
def Blk.env (b : Blk) (s : Nat) : Env :=
  let c := b.plan.copy
  let res := b.reserveOp
  let tot := b.stored res
  let head := b.above res
  let hi : Rat := 10 * b.bud LEDG.BUD_LINK.V_LINK_HI
  let (cont, peak, _) := b.outLimits
  { sup := if res then .zero
      else if b.stacked then b.shareWin s ((b.casc.shareNow.map (·.1)).getD (b.ownU s))
      else ([], b.supplyW)
    es := b.esAllow
    head := if res then tot else head, usable := tot, cont := cont, peak := peak, absorb := (b.chargeW + b.returnW : Nat)
    link := max 0 ((c.linkC : Rat) * (hi ^ 2 - (c.vLink : Rat) ^ 2) / (2 * 10 ^ 7))
    chop := if b.plan.chopOff then 0
      else min (if c.rBrk = 0 then Config.chopZero else 6084000 / (c.rBrk : Rat)) (b.bud LEDG.BRK_CFG.P_BRK_MAX)
    res := res, run := b.plan.overRun }

/-! ### The fit (07 R235, R239, R243) -/

/-- A walk over the horizon: the store energy left, the link rise used, the run above the continuous limit, the energy summed; whether the
stores reach their reserve, or pass it; the first failure of the candidate, and what the plan breaks whoever adds. -/
structure Walk where
  head : Rat
  used : Rat := 0
  run : Nat
  sum : Int := 0
  bad : Option Nat := none
  low : Bool := false
  under : Bool := false
  out : Bool := false
  broken : Bool := false
  surplus : Bool := false

/-- One swath: the allowance, D, the positive sum, and the candidate's own energy. -/
structure Swath where
  sup : Int
  d : Int
  pos : Int
  own : Int

def Env.step (v : Env) (w : Walk) (x : Swath) : Walk :=
  let need := x.d - x.sup
  let head := if 0 < need then w.head - min need v.es else w.head
  let draws := decide (0 < need) && decide (0 < v.es) && !v.res
  let run := if v.cont < x.pos then w.run + 1 else 0
  let power := decide (v.es < need)
  let out := decide (v.peak < x.pos) || decide (5000 < run)
  let extra : Rat := -x.d - v.absorb
  let rise := if 0 < extra then min extra (v.link - w.used) else 0
  let lost := decide (v.chop < extra - rise)
  let adds := decide (0 < x.own)
  let code := if adds && power then some 1 else if adds && out then some 2 else if x.own < 0 && lost then some 3 else none
  { head := head
    used := if 0 < extra then w.used + rise else if 0 < x.d then max 0 (w.used - x.d) else w.used
    run := run, sum := w.sum + x.d, bad := w.bad <|> code
    low := w.low || (draws && decide (head ≤ 0)), under := w.under || (draws && decide (head < 0))
    out := w.out || (adds && out), broken := w.broken || power || out, surplus := w.surplus || lost }

/-- A swath that changes nothing however often it comes. -/
def Env.quiet (v : Env) (x : Swath) : Bool :=
  (!v.res || decide (x.d = 0)) && decide (x.d ≤ x.sup) && decide (0 ≤ x.d) && decide (x.pos ≤ v.cont) && decide (x.pos ≤ v.peak)

def Env.repeat_ (v : Env) (x : Swath) : Nat → Walk → Walk
  | 0, w => w
  | k + 1, w => v.repeat_ x k (v.step w x)

/-- The swaths of the horizon one by one, the last value standing for the rest. -/
def Env.walk (v : Env) (t : Swath) : Nat → List Swath → Walk → Walk
  | 0, _, w => w
  | k + 1, [], w => if v.quiet t then w else v.repeat_ t (k + 1) w
  | k + 1, x :: l, w => v.walk t k l (v.step w x)

def zip4 (a b c d : Win) : List Swath :=
  let n := max (max a.1.length b.1.length) (max c.1.length d.1.length)
  let full := fun (x : Win) => x.1 ++ List.replicate (n - x.1.length) x.2
  List.zipWith (fun (x y : Int × Int) => ⟨x.1, x.2, y.1, y.2⟩) ((full a).zip (full b)) ((full c).zip (full d))

/-- The walk over the 4000 swaths of the horizon (07 R232), the stores giving what they can. -/
def Env.pass (v : Env) (d pos own : Win) : Walk :=
  v.walk ⟨v.sup.2, d.2, pos.2, own.2⟩ 4000 (zip4 v.sup d pos own) { head := v.head, run := v.run }

/-- In reserve operation the energies of the horizon, summed, are held against the usable energy (07 R253; notes/assumptions/79.md). -/
def Env.total (v : Env) (w : Walk) : Walk :=
  if v.res && decide (v.usable < w.sum) then { w with bad := w.bad <|> some 1, broken := true } else w

/-- What is judged over the horizon: a store counts only where its energy above the reserve lasts over all of it (07 R224). -/
def Env.judge (v : Env) (d pos own : Win) : Walk :=
  let w := v.pass d pos own
  v.total (if w.low then { { v with es := 0 }.pass d pos own with under := w.under } else w)

/-- The allowances with the stores that the plan as it stands leaves above their reserve (07 R224). -/
def Blk.planEnv (b : Blk) (s : Nat) : Env :=
  let v := b.env s; let tot := b.totals s
  if (v.pass tot.1 tot.2 .zero).low then { v with es := 0 } else v

/-- What two walks find together. -/
def Walk.both (w x : Walk) : Walk :=
  { w with bad := w.bad <|> x.bad, low := w.low || x.low, under := w.under || x.under, out := w.out || x.out
           broken := w.broken || x.broken, surplus := w.surplus || x.surplus }

/-- The claim that follows a profile beyond the horizon, in the horizon's last swath (07 R232). -/
def Win.cut (w : Win) : Win := (w.1.take 3999, w.2)

/-- A candidate whose profile ends beyond the horizon, with its claims from the last swath on. -/
def Load.cut (l : Load) : Load := { l with new := l.new.cut, newPos := l.newPos.cut, own := l.own.cut }

/-- The walk of a candidate on the plan: one whose profile does not end within the horizon is judged on the part inside it, and its claim against
the last swath (07 R232). -/
def Env.fit (v : Env) (tot : Win × Win) (l : Load) : Walk :=
  let at_ := fun (l : Load) => v.judge (Win.add (Win.sub tot.1 l.old) l.new) (Win.add (Win.sub tot.2 l.oldPos) l.newPos) l.own
  if l.new.1.length < 4000 then at_ l else (at_ l).both (at_ l.cut)

end Sys2Proof.Machine
end

