-- ==== Sys2Proof/Machine/Planner.lean ====
section
/-!
DEFINITION. The planner (07 R223 to R258): the ledger copy and the decision point, admission, withdrawal, reserve operation,
the chopper and the 82 V short-brake, and the supervision of the cells (01 R14).
-/

namespace Sys2Proof.Machine

/-! ### Tags and the reserve (07 R225, R226) -/

/-- The reserve tag of an axis, as the registers in force give it. -/
def Blk.tag (b : Blk) (n : Fin 48) : Nat := b.bud ((LEDG.RES_TAG0.TAG0.skip (n.val / 16)).nth (n.val % 16))

/-- A member's move is reserve-tagged: its axis is tagged for the direction of its first motion. -/
def Blk.taggedFor (b : Blk) (p : Pred) : Bool :=
  let t := b.tag p.axis
  t = 3 || (t = 1 && decide (0 < p.dir)) || (t = 2 && decide (p.dir < 0))

/-- The reserve that the tagged axes require, mJ. -/
def Blk.resReq (b : Blk) : Int :=
  let sum := allAxes.foldl (fun (x : Int) n => if b.tag n = 0 then x else x + (b.axis n).learned.foldl max 0) 0
  b.bud LEDG.RES_CFG.RES_MARGIN * sum * 100 / 16

/-- `RES_SHORT`, `UNLEARNED` and the ledger's values of the stores (07 R215, R225, R226). -/
def Blk.reserveCheck (b : Blk) : Blk :=
  let un := fun (n : Fin 48) => b.tag n != 0 && (b.axis n).learned = []
  let req := b.resReq
  let short := decide (b.reserve < req) || decide (b.stored true < b.reserve) || allAxes.any un
  let was := b.bit LEDG.STAT.RES_SHORT
  let b := { b with
    ax := Vector.ofFn fun n => (b.axis n).setB AX.LEDG_AX.UNLEARNED (un n)
    ledg := { b.ledg with e := ((b.ledg.e.set 11 (b.plan.copy.usable 0).floor).set 12 (b.plan.copy.usable 1).floor).set 13 req } }
  (b.setB LEDG.STAT.RES_SHORT short).raiseIf (short && !was) LEDG.EVT.RES_SHORT

/-! ### The decision point: what it takes and removes (07 R223, R233, 01 R25) -/

/-- The copy of all measured values (01 R25); an input blocked for overvoltage counts as one below 33 V (17 R504). The auxiliary input feeds the logic where it stands above the link (17 R508). -/
def Blk.ledgerCopy (b : Blk) : Copy :=
  let sup := fun (i : Fin 2) (f : Fld) => if b.pw.ovBlock.get i then 0 else b.r f
  { vLink := b.r MEAS.V_LINK.V, vSup := #v[sup 0 MEAS.V_SUP.A, sup 1 MEAS.V_SUP.B], vEs := #v[b.r MEAS.V_ES.ES0, b.r MEAS.V_ES.ES1]
    pLogic := b.r MEAS.P_LOGIC.P, aux := decide (10 * b.r MEAS.V_LINK.V < b.pw.auxMv)
    temp := Vector.ofFn fun i => b.rS (MEAS.TEMP0.T.skip i.val)
    cEs := #v[b.r GRAZE.ES0.C, b.r GRAZE.ES1.C], rdy := #v[b.esOk 0, b.esOk 1]
    linkC := b.r LEDG.LINK_C.C, rBrk := b.r LEDG.CHOP_R.R_BRK }

/-- An admission that ended before its start is reported (07 R248, R257). -/
def Blk.reportWithdrawn (b : Blk) (n : Fin 48) (seq : Nat) (pl : Plane) : Blk :=
  (b.raise [LEDG.EVT.WITHDRAWN]).event 0x0E n.val n.val (leBytes 2 seq ++ [BitVec.ofNat 8 pl.idx.val])

/-- The share and the credit of the present swath (15 R478); without shares the share is this module's own U. -/
def Blk.showShare (b : Blk) : Blk :=
  if !b.stacked then b else
  let (u, c) := b.casc.shareNow.getD (b.ownU (b.swath + 1), [])
  (b.set CASC.SHARE.A_SHARE (min 65535 (u.headD 0))).set CASC.SHARE.CREDIT (min 65535 (c.headD 0))

/-- The samples of remote masters that came in the swath before (06 R204, R205). -/
def Blk.remoteSwath (b : Blk) : Blk :=
  { b with casc := { b.casc with remote := b.casc.remote.map fun r =>
      match r.got with
      | some p => { r with m1 := r.m2, m2 := p, n := min 2 (r.n + 1), got := none, missing := 0 }
      | none => { r with missing := r.missing + 1 } } }

/-- What the store converters hold the link at (07 R251). -/
def Blk.holdLink (b : Blk) : Blk :=
  { b with plan := { b.plan with hold := if b.reserveOp then some (b.bud LEDG.BUD_LINK.V_LINK_LO) else none } }

/-- Steps 1 and 2 of 07 R233: the copy, the budgets, lapsed admissions, and the curves of axes that left their plan. -/
def Blk.takePlan (b : Blk) : Blk :=
  let n := b.swath
  let b := { b with
    plan := { b.plan with copy := b.ledgerCopy, budget := Vector.ofFn fun i => (b.regs[24 + i.val]?).getD 0 }
    casc := { b.casc with shareNow := b.casc.shareNext, shareNext := none } }
  let b := b.showShare.holdLink
  let b := allAxes.foldl (fun (b : Blk) n =>
    ((b.axis n).mot.lapsed.foldl (fun (b : Blk) (x : Nat × Plane) => b.reportWithdrawn n x.1 x.2) b).mapAx n fun a =>
      { a with mot := { a.mot with lapsed := [] } }) b
  { b with ax := b.ax.map (Axis.replan n) }

/-! ### Decisions (07 R234 to R241) -/

/-- What a decision gives. -/
structure Verdict where
  st : Nat
  d : Nat := 0
  q : Nat := 64
  reason : Nat := 0
  preds : List Pred := []
  tagged : Bool := false

/-- A candidate's axis takes no new profile for its temperature (17 R510). -/
def Blk.tooHot (b : Blk) (v : Env) (tagged : Bool) (ps : List Pred) : Bool :=
  ps.any (fun p => b.meas.hot.getLsbD (p.axis.val / 4)) || (b.meas.hot.getLsbD 15 && !(v.res && tagged))

/-- The candidate's curves at a factor. -/
def Blk.predictAll (b : Blk) (c : Cand) (q : Nat) : List Pred :=
  -- the members start on one tick (06 R195)
  let least := c.members.foldl (fun (t : Nat) m => max t ((b.axis m.axis).startOf b.swath m).1) 0
  c.members.map fun m => (b.axis m.axis).predict b.swath m q least

/-- The walk of a candidate's curves at a delay. -/
def Blk.tryFit (b : Blk) (v : Env) (tot : Win × Win) (ps : List Pred) (d : Nat) : Walk := v.fit tot (b.load (b.swath + 1) ps d)

/-- The least delay that fits, of those that `STAGGER` tries (07 R236). -/
def Blk.findDelay (b : Blk) (v : Env) (tot : Win × Win) (ps : List Pred) (dly : Nat) : Option Nat :=
  let step := max 1 (b.bud LEDG.PLAN_CFG.STAG_STEP)
  let most := min 3999 (if dly = 0 then b.bud LEDG.PLAN_CFG.D_MAX_DEF else dly)
  ((List.range (most / step + 1)).map (step * ·)).find? fun d => (b.tryFit v tot ps d).bad.isNone

/-- The largest factor that fits, of those that `STRETCH` tries (07 R236). -/
def Blk.findFactor (b : Blk) (v : Env) (tot : Win × Win) (c : Cand) : Option Nat :=
  let k := max 1 (b.bud LEDG.PLAN_CFG.K_MIN)
  ((List.range (65 - k)).map (64 - ·)).find? fun q => (b.tryFit v tot (b.predictAll c q) 0).bad.isNone

/-- `decide(c, n)` of 07 R237, for a candidate whose axes may take it. -/
def Blk.admission (b : Blk) (v : Env) (tot : Win × Win) (c : Cand) : Verdict :=
  let ps := b.predictAll c 64
  let tagged := ps.all b.taggedFor
  let budget := fun (r : Nat) => ({ st := 0x10, reason := r, preds := ps, tagged := tagged } : Verdict)
  if v.res && !tagged then { st := 0x11 } else
  let w := b.tryFit v tot ps 0
  if w.under then { st := 0x11 }
  else if b.tooHot v tagged ps then budget 2
  else match c.policy with
    | 3 => if b.outLimits.2.2 && w.out then budget 2 else { st := 0x01, preds := ps, tagged := tagged }
    | 1 => (match b.findDelay v tot ps c.dly with
      | some 0 => { st := 0x01, preds := ps, tagged := tagged }
      | some d => { st := 0x03, d := d, preds := ps, tagged := tagged }
      | none => budget 4)
    | 2 => (match b.findFactor v tot c with
      | some 64 => { st := 0x01, preds := ps, tagged := tagged }
      | some q => { st := 0x02, q := q, preds := b.predictAll c q, tagged := tagged }
      | none => budget 5)
    | _ => (match w.bad with
      | none => { st := 0x01, preds := ps, tagged := tagged }
      | some r => budget r)

/-- A candidate is judged from its axes' states at the decision (06 R181, R195, 07 R257, 11 R405). -/
def Blk.verdict (b : Blk) (v : Env) (tot : Win × Win) (c : Cand) : Verdict :=
  if c.stopped then { st := 0x12 }
  else match c.members.findSome? fun m => b.stateFault m.axis m.kind m.queued with
    | some st => { st := st }
    | none =>
      -- an engagement of this swath may have made the loop, or the depth (06 R203)
      if c.members.any fun m => m.kind.master.elim false (b.badMaster m.axis) then { st := 0x31 } else b.admission v tot c

/-- The candidate's own energies from swath n + 1 on. -/
def Verdict.own (x : Verdict) (n : Nat) : Win :=
  x.preds.foldl (fun (w : Win) p => Win.add w (({ start := (p.tick + 25 * x.d) / 25, sums := p.own, claim := 0 } : Curve).win (n + 1))) .zero

/-- The admission block (11 R392).  A follower's prediction has no end: its energy is free (notes/assumptions/1.md). -/
def Blk.admissionBlock (b : Blk) (c : Cand) (x : Verdict) : List Byte :=
  if !(x.st = 0x01 || x.st = 0x02 || x.st = 0x03 || x.st = 0x10) then List.replicate 16 0
  else
    let start := match x.preds with | p :: _ => (p.tick + 25 * x.d) / 25 | [] => 0
    let head := if x.st = 0x10 then List.replicate 7 0 else leBytes 4 start ++ leBytes 2 x.d ++ leBytes 1 x.q
    let follows := x.preds.any fun p => p.own = []
    let own := (x.own b.swath).1
    let e : Int := if follows then Config.freeNat b.fresh else own.foldl (· + ·) 0
    let peak : Int := if follows then x.preds.foldl (fun (y : Int) p => y + energy (25 * p.claim)) 0 else own.foldl max 0
    head ++ leBytes 1 x.reason ++ (if c.query then leBytes 4 (BitVec.ofInt 32 e).toNat ++ leBytes 4 (BitVec.ofInt 32 peak).toNat
      else List.replicate 8 0)

/-- A member is admitted: its move waits for its start, and its curve enters the plan (06 R188, R189). -/
def Blk.commitMember (b : Blk) (c : Cand) (x : Verdict) (p : Pred) : Blk :=
  let t := p.tick + 25 * x.d
  let direct := p.direct && x.d = 0
  match c.members.find? fun m => m.axis = p.axis with
  | none => b
  | some m =>
    let e := if m.kind.ends then (p.own.map energy).foldl (· + ·) 0 else 0
    let mv : Move := { kind := m.kind, lim := p.lim, ask := m.lim, q := x.q, seq := c.q.h.seq.toNat, plane := c.q.plane, group := c.group, ePred := e, tagged := x.tagged }
    let w : Waiting := if p.queued && direct then ⟨mv, 0, 0, true, 0⟩ else ⟨mv, t / 25, t % 25, p.queued, x.d⟩
    b.cell p.axis fun cl =>
      let cl := cl.written.accepted.mot fun y => if p.queued then { y with queued := some w } else { y with waiting := some w }
      cl.map fun a => { a with planned := true, plan := { a.plan.splice t direct p.sums p.claim with id := some (mv.seq, .none), held := none } }

/-- The candidate enters the plan. -/
def Blk.commitCand (b : Blk) (c : Cand) (x : Verdict) : Blk :=
  let b := (x.preds.foldl (fun (b : Blk) p => b.commitMember c x p) b).needLink
  match c.group with
  | none => b
  | some (g, stop) =>
    let ns := c.members.map (·.axis)
    { b with plan := { b.plan with groups := b.plan.groups ++ [⟨g, stop, c.q.h.seq.toNat, ns, ns, false⟩] } }

/-- The planner's counters of replies (07 R236, R239, R258). -/
def Blk.countVerdict (b : Blk) (c : Cand) (x : Verdict) : Blk :=
  if c.query then b
  else if x.st = 0x10 then b.count LEDG.PLAN_CNT0.REFUSE_CNT
  else if x.st = 0x03 then b.count LEDG.PLAN_CNT1.DEFER_CNT
  else if x.st = 0x02 then b.count LEDG.PLAN_CNT1.STRETCH_CNT
  else if x.st = 0x01 && c.policy = 3 then b.count LEDG.PLAN_CNT0.FORCE_CNT
  else b

/-- A `LOCAL_SPEED` is judged, and captures, the `LS_VMAX` in force at its admission (05 R175). -/
def Blk.captureLs (b : Blk) (m : Member) : Member :=
  match m.kind with
  | .localSpeed _ => { m with kind := .localSpeed ((b.axis m.axis).r AX.BL_LS_VMAX.LS_VMAX) }
  | _ => m

/-- Where its command names the master (11 R389, R390, R393). -/
def Cand.masterAt (c : Cand) : Nat :=
  (if c.query then 8 else 0) + (if c.members.any fun m => match m.kind with | .cam _ => true | _ => false then 8 else 4)

/-- One candidate is decided and answered. -/
def Blk.decideCand (b : Blk) (c : Cand) : Blk :=
  let c := { c with members := c.members.map b.captureLs }
  let x := b.verdict (b.planEnv (b.swath + 1)) (b.totals (b.swath + 1)) c
  let block := if x.st = 0x31 then [BitVec.ofNat 8 c.masterAt] else b.admissionBlock c x
  let admitted := x.st = 0x01 || x.st = 0x02 || x.st = 0x03
  let b := if admitted && !c.query then b.commitCand c x else b
  ((b.countVerdict c x).answer c.q x.st block).draw

/-- A candidate stands before another (07 R234, R257): groups before axes, then by sequence number, then a move before a query,
then in order of arrival. -/
def Cand.before (x y : Cand) : Bool :=
  decide (x.rank < y.rank) || (x.rank = y.rank &&
    (decide ((x.q.h.seq - y.q.h.seq).toInt < 0) || (x.q.h.seq = y.q.h.seq && (!x.query || y.query))))

def insertCand (c : Cand) : List Cand → List Cand
  | [] => [c]
  | d :: l => if d.before c then d :: insertCand c l else c :: d :: l

/-- Candidates in the order of 07 R234. -/
def orderCands (l : List Cand) : List Cand := l.foldl (fun acc c => insertCand c acc) []

/-- Step 3 of 07 R233. -/
def Blk.decideAll (b : Blk) : Blk :=
  (orderCands b.plan.cands).foldl Blk.decideCand { b with plan := { b.plan with cands := [] } }

/-! ### Withdrawals (07 R248, R252) -/

/-- The swath in which an admission that has not started would start: none where the axis holds none. -/
def Blk.pendingFrom (b : Blk) (n : Fin 48) : Option Nat :=
  let a := b.axis n
  match a.mot.waiting, a.mot.queued with
  | some w, _ => some (max w.swath (b.swath + 1))
  | none, some w => some (if w.dly = 0 then b.swath + segTicks a.mot.prof.segs / 25 else w.swath)
  -- a cam that waits to engage has not started (06 R211)
  | none, none => if a.mot.camWait.isSome then some (b.swath + 1) else none

/-- The part of an axis's curve from a swath on, zero before. -/
def Curve.winFrom (c : Curve) (s from_ : Nat) : Win :=
  let w := c.win s
  let k := from_ - s
  (List.replicate k 0 ++ w.1.drop k, w.2)

/-- The admissions of an axis that have not started are withdrawn: it stays in its mode. -/
def Blk.withdrawMove (b : Blk) (n : Fin 48) : Blk :=
  let m := (b.axis n).mot
  let b := [m.waiting, m.queued].foldl (fun (b : Blk) x =>
    match x with
    | some w => { b.reportWithdrawn n w.move.seq w.move.plane with
        plan := { b.plan with groups := b.plan.groups.filter fun r => !(w.move.group.elim false fun (g : Nat × Bool) => decide (g.1 = r.g) && decide (r.seq = w.move.seq)) } }
    | none => b) b
  let b := m.camWait.elim b fun w => b.reportWithdrawn n w.2.1 w.2.2
  b.mapAx n fun a =>
    let a := { a with mot := { a.mot with waiting := none, queued := none, camWait := none
                                          job := if m.camWait.isSome then none else a.mot.job } }
    Axis.replan b.swath { a with plan := { a.plan with id := none, held := none } }

/-- Axes by their places: those of one key together, at the lowest (07 R252). -/
def placesBy (key : Fin 48 → Option (Nat × Nat)) (ns : List (Fin 48)) : List (List (Fin 48)) :=
  let same := fun (k : Nat × Nat) (l : List (Fin 48)) => l.any fun m => decide (key m = some k)
  ns.foldl (fun (acc : List (List (Fin 48))) (n : Fin 48) =>
    match key n with
    | none => acc ++ [[n]]
    | some k => if acc.any (same k) then acc.map fun l => if same k l then l ++ [n] else l else acc ++ [[n]]) []

/-- Admissions that have not started. -/
def Blk.pendingSets (b : Blk) : List (List (Fin 48)) :=
  placesBy (fun n => (b.axis n).mot.waiting.bind fun (w : Waiting) => w.move.group.map fun (g : Nat × Bool) => (g.1, w.move.seq))
    (allAxes.filter fun n => (b.pendingFrom n).isSome)

/-- The walk of admissions already in the plan. -/
def Blk.refit (b : Blk) (ns : List (Fin 48)) : Walk :=
  let s := b.swath + 1
  let tot := b.totals s
  let own := ns.foldl (fun (w : Win) n => Win.add w ((b.axis n).plan.winFrom s ((b.pendingFrom n).getD s))) .zero
  (b.planEnv s).judge tot.1 tot.2 own

/-- Admissions that have not started and no longer fit are withdrawn, one after another (07 R248). -/
def Blk.recheck (b : Blk) : Blk :=
  b.pendingSets.foldl (fun (b : Blk) ns => if (b.refit ns).bad.isSome then ns.foldl Blk.withdrawMove b else b) b

/-! ### After the decisions -/

/-- A chopper that is faulty no more counts from the decisions on (07 R243). -/
def Blk.chopperBack (b : Blk) : Blk :=
  { b with plan := { b.plan with chopOff := b.plan.chopOff && b.bit LEDG.STAT.CHOP_FAULT } }

/-- The chopper's fault is taken over after the decisions, which see the old capacity (07 R257), and what no longer fits is withdrawn (R248). -/
def Blk.takeChopper (b : Blk) : Blk :=
  let f := b.bit LEDG.STAT.CHOP_FAULT
  let was := b.plan.chopOff
  let b := { b with plan := { b.plan with chopOff := f } }
  if f && !was then b.recheck else b

/-- The curve of a stop from the axis's state at the start of the swath (07 R249). -/
def Axis.stopCurve (n : Nat) (a : Axis) : Curve :=
  let a := if a.mot.mode = .stopping then a else { a with mot := { a.mot with prof := a.stopProf .stop } }
  let c := a.holdClaim 20
  { start := n, sums := pieceSums 0 (a.remaining true) c, claim := c.lo }

/-- Without a chopper fault every `SB_STOP` reads 0 (07 R249). -/
def Blk.clearSbStop (b : Blk) : Blk := { b with ax := b.ax.map fun a => a.setB AX.LEDG_AX.SB_STOP false }

/-- `SB_STOP` of the axes that run a profile, while the chopper is faulty (07 R249). -/
def Blk.flagStops (b : Blk) : Blk :=
  if !b.bit LEDG.STAT.CHOP_FAULT then b.clearSbStop
  else
    let s := b.swath
    let tot := b.totals s
    let v := b.planEnv s
    let bad := fun (n : Fin 48) =>
      let a := b.axis n
      let o := a.plan.win s; let w := (a.stopCurve s).win s
      a.mot.mode.running && !a.starting && (v.fit tot ⟨o, w, o.pos, w.pos, .zero⟩).surplus
    { b with ax := Vector.ofFn fun n => (b.axis n).setB AX.LEDG_AX.SB_STOP (bad n) }

/-- The stack's shares of each block, by position (15 R476, R478), and whether a block was short. -/
def Blk.stackShares (b : Blk) : List (Nat × List Nat × List Nat) × Bool :=
  let ms := (b.casc.listed.filter fun m => !m.heldOut).map (·.pos)
  let sum := fun (p : Nat) => b.casc.sums.find? fun s => s.pos = p
  let vmin := fun (f : Summary → Nat) => (b.casc.sums.map f).filter (33000 ≤ ·) |>.foldl (fun (x : Option Nat) v => some (x.elim v (min v))) none
  let lim := fun (f : Fld) (v : Option Nat) => (v.map fun mv => b.bud f * mv / 10).toList
  let a : Int := match lim LEDG.BUD_IIN.I_IN_MAX_A (vmin (·.vA)) ++ lim LEDG.BUD_IIN.I_IN_MAX_B (vmin (·.vB)) with
    | [] => 0
    | l => ((l.foldl min (1000 * b.bud LEDG.BUD_PWR.P_IN_MAX)) / 1000 : Nat) - (b.casc.sums.foldl (fun (x : Nat) s => x + s.pBase) 0 : Nat)
  let at_ := fun (l : List Nat) (k : Nat) => (l[k]?).getD 0
  let total := fun (f : Summary → List Nat) (k : Nat) => ms.foldl (fun (x : Nat) p => x + (sum p).elim 0 fun s => at_ (f s) k) 0
  let asking := ms.filter fun p => (sum p).elim false fun s => 0 < s.c
  let ps := if asking = [] then ms else asking
  let left := fun (k : Nat) => a + total (·.g) k - total (·.u) k
  let part := fun (k p : Nat) =>
    let r := (left k).toNat
    match ps.findIdx? (· = p) with
    | some i => r / ps.length + (if i < r % ps.length then 1 else 0)
    | none => 0
  let credit := fun (k p : Nat) =>
    let before := ps.takeWhile (· != p)
    if ps.contains p then min (part k p) (total (·.g) k - before.foldl (fun (x : Nat) o => x + part k o) 0) else 0
  let ks := List.range 41
  (ms.map fun p => (p, ks.map fun k => (sum p).elim 0 (fun s => at_ s.u k) + part k p, ks.map fun k => credit k p),
    ks.any fun k => left k < 0)

/-- What the planner shows (07 R223, R258), and the charge of the stores (R244). -/
def Blk.showPlan (b : Blk) : Blk :=
  let n := b.swath
  let v := b.planEnv (n + 1)
  let tot := b.totals (n + 1)
  let w := v.judge tot.1 tot.2 .zero
  let now := b.planEnv n
  let d := (b.totals n).1
  let dn := (d.1.head?).getD d.2
  let sup := (now.sup.1.head?).getD now.sup.2
  let room := (sup - dn).toNat
  let charged := (List.finRange 2).filter fun k => b.counts false k && decide (b.plan.copy.vEs.get k < 10 * b.bud LEDG.ES_CFG.V_ES_FULL)
  let each := min 3000 (min room (b.bud LEDG.ES_CFG.P_CHG_MAX) / max 1 charged.length)
  let b := b.setB LEDG.STAT.PLAN_OVER (w.broken || w.surplus || (b.master && b.stackShares.2))
  let b := (b.set LEDG.NOW.P_DEMAND (min 65535 dn.toNat)).set LEDG.NOW.P_ALLOW (min 65535 (sup + now.es).toNat)
  { b with plan := { b.plan with charge := Vector.ofFn fun k => if charged.contains k then each else 0 } }

/-! ### The swath -/

/-- E_LOSS, which balances the ledger (07 R216). -/
def Blk.loss (b : Blk) : Int :=
  let e := fun (i : Fin 14) => b.ledg.e.get i
  let axes := b.ax.foldl (fun (x : Int) a => x + a.eNet) 0
  e 0 + e 1 + e 5 + e 7 - e 2 - e 3 - e 4 - e 6 - axes - e 8 - (e 10 - b.ledg.link0.getD (e 10))

/-- The end of a swath: E_LOSS (07 R216), the supply above its budget (R245), and lifetime energy in kJ (10 R350). -/
def Blk.closeSwath (b : Blk) : Blk :=
  let excess := decide (25000 * (b.bud LEDG.BUD_PWR.P_IN_MAX : Int) < b.plan.supply)
  let b := { b with
    ledg := { b.ledg with e := b.ledg.e.set 9 b.loss }
    plan := { b.plan with supply := 0 }
    ax := b.ax.map fun a =>
      if a.life.energy < 1000000 then a
      else { a.set AX.LIFE_E.E (AX.LIFE_E.E.sat (a.r AX.LIFE_E.E + a.life.energy / 1000000)) with
        life := { a.life with energy := a.life.energy % 1000000 } } }
  if excess then (b.count LEDG.OVER_CNT.OVER_CNT).raise [LEDG.EVT.OVER] else b

/-- A cell that no side has refreshed for 50 ms stops its move and holds (01 R14). -/
def Cell.supervise (c : Cell) : Cell :=
  (c.setB AX.AX_SUPV.HELD true).orDefer .stop fun c => if c.ax.mot.mode.running then c.stop .stop else c

/-- The active side refreshes every cell, or the refresh is missing (01 R14, 14 R457).  A refresh on the swath that ends the 50 ms lies outside
them: the cell has stopped and holds (00 R6). -/
def Blk.refresh (b : Blk) : Blk :=
  if b.act.isNone then { b with ax := b.ax.map fun a => a.count AX.AX_SUPV.AGE } else
  let late := allAxes.filter fun n => let a := b.axis n; decide (49 ≤ a.r AX.AX_SUPV.AGE) && !a.b AX.AX_SUPV.HELD
  let b := b.cells late fun _ c => c.supervise
  { b with ax := b.ax.map fun a => a.set AX.AX_SUPV.AGE 0 }

/-- Hours of graze's ages and seconds of calibration (10 R348, R349, 08 R285): time is the swath count. -/
def Blk.ageSwath (b : Blk) : Blk :=
  let b := if b.swath % 64000 = 0 then b.growAges 1 else b
  let b := if b.swath % 1000 = 0 && !b.bit MEAS.CAL_STAT.BG_RUN then b.count MEAS.CAL_STAT.STOP_AGE else b
  if b.swath % 3600000 = 0 then
    let up := fun (x : Nat) => if x = 0xFFFF then x else min 0xFFFE (x + 1)
    (b.set GRAZE.PASS.LAST_H (up (b.r GRAZE.PASS.LAST_H))) |> fun b => { b with ax := b.ax.map fun a => a.set AX.GZ_AGE.AGE (up (a.r AX.GZ_AGE.AGE)) }
  else b

/-- Moves without an end of their own are predicted swath by swath, as their claims run (07 R255). -/
def Blk.growPredictions (b : Blk) : Blk :=
  { b with ax := b.ax.map fun a =>
    match a.mot.job with
    | some j =>
      (match j.move.kind with
       | .abs _ | .rel _ => a
       | _ => { a with mot := { a.mot with job := some { j with move := { j.move with ePred := j.move.ePred + energy (a.plan.sumAt b.swath) } } } })
    | none => a }

/-- The swath number and its low word. -/
def Blk.nextSwath (b : Blk) : Blk :=
  let n := b.swath + 1
  { b with swath := n, tick := 0 }.set LEDG.SWATH.SWATH_LO (n % 2 ^ 32)

/-- The decision point of the control plane (07 R233), while a side serves it. -/
def Blk.decisionPoint (b : Blk) : Blk :=
  ((((b.growPredictions.reserveCheck).chopperBack.decideAll).takeChopper).flagStops).showPlan

/-- The run of past swaths above the continuous limit (07 R235). -/
def Blk.countRun (b : Blk) : Blk :=
  let p := (b.totals b.swath).2
  let now := (p.1.head?).getD p.2
  { b with plan := { b.plan with overRun := if b.outLimits.1 < now then b.plan.overRun + 1 else 0 } }

/-- `SWATH_START`, at one instant: the swath before is closed, and the planner decides (07 R233). -/
def Blk.swathStart (b : Blk) : Blk :=
  let b := b.closeSwath.nextSwath.drainAll.refresh.ageSwath.remoteSwath
  if b.act.isSome then b.takePlan.countRun.decisionPoint else b

def execSwathStart (s : State) : Host.Outcome State Fault Refusal := onBlk (fun b => if !b.running then b else b.swathStart.atOnce b) s

/-! ### Reserve operation (07 R251 to R254) -/

/-- The predicted energy that remains of an axis within the horizon. -/
def Blk.remainOf (b : Blk) (n : Fin 48) : Int :=
  let w := (b.axis n).plan.win (b.swath + 1)
  (w.1.take 4000).foldl (· + ·) 0 + ((4000 - w.1.length : Nat) : Int) * w.2

/-- Running moves that are not tagged, by their places: a group at its lowest axis. -/
def Blk.runningSets (b : Blk) (tagged : Bool) : List (List (Fin 48)) :=
  let ns := allAxes.filter fun n =>
    let m := (b.axis n).mot
    m.mode.running && m.mode != .stopping && m.job.elim false fun j => j.move.tagged = tagged
  placesBy (fun n => (b.axis n).mot.group.map fun (g : Nat × Bool) => (g.1, 0)) ns

/-- What waits at entry: untagged moves are withdrawn, tagged ones judged again (07 R252, R253). -/
def Blk.reserveWaiting (b : Blk) : Blk :=
  b.pendingSets.foldl (fun (b : Blk) ns =>
    let tagged := ns.all fun n =>
      let m := (b.axis n).mot
      ([m.waiting, m.queued].all fun w => w.elim true fun x => x.move.tagged) && (m.camWait.isNone || m.job.elim false (·.move.tagged))
    if !tagged || (b.refit ns).bad.isSome then ns.foldl Blk.withdrawMove b else b) b

/-- The running moves that are not tagged, one after another, against the energy above the reserve (07 R252). -/
def Blk.reserveRunning (b : Blk) : Blk :=
  let sum := fun (b : Blk) (ns : List (Fin 48)) => ns.foldl (fun (x : Int) n => x + b.remainOf n) 0
  let have_ : Rat := b.above true - ((b.runningSets true).foldl (fun (x : Int) ns => x + sum b ns) 0 : Int)
  ((b.runningSets false).foldl (fun (x : Blk × Rat) ns =>
    let (b, left) := x
    if (sum b ns : Rat) ≤ left then (b, left - sum b ns)
    else
      let b := b.cells ns fun _ c => c.orDefer .stop (·.stop .stop)
      let b := ns.foldl (fun (b : Blk) n => b.mapAx n (Axis.replan b.swath)) b
      (b, left - sum b ns)) (b, have_)).1

/-- `RESERVE_ENTER` (07 R251, R252). -/
def execReserveEnter (s : State) : Host.Outcome State Fault Refusal := onBlk (fun b =>
  if !b.running || b.reserveOp || b.supOk 0 || b.supOk 1 then b else
  let b := ((b.setB LEDG.STAT.RES_OP true).raise [LEDG.EVT.RES_ENTER]).event 0x10 0xFE 0xFE []
  b.holdLink.reserveWaiting.reserveRunning) s

/-- `RESERVE_EXIT` (07 R254, 17 R504). -/
def execReserveExit (s : State) : Host.Outcome State Fault Refusal := onBlk (fun b =>
  if !b.reserveOp || !((List.finRange 2).any fun i => 36000 ≤ b.pw.supMv.get i && !b.pw.ovBlock.get i) then b
  else ((b.setB LEDG.STAT.RES_OP false).holdLink.raise [LEDG.EVT.RES_EXIT]).event 0x11 0xFE 0xFE []) s

/-! ### Chopper and short-brake (07 R246 to R250) -/

/-- `CHOPPER_ON`: the link stands at 78.0 V or more (07 R246). -/
def execChopperOn (mV : Nat) (s : State) : Host.Outcome State Fault Refusal :=
  onBlk (fun b => if 78000 ≤ mV && b.pw.gd then b.setB LEDG.STAT.CHOP_ON true else b) s

def execChopperOff (mV : Nat) (s : State) : Host.Outcome State Fault Refusal :=
  onBlk (fun b => if mV < 77000 then b.setB LEDG.STAT.CHOP_ON false else b) s

/-- The chopper is found faulty (07 R247). -/
def Blk.chopperFails (b : Blk) : Blk :=
  if b.bit LEDG.STAT.CHOP_FAULT then b
  else ((b.setB LEDG.STAT.CHOP_FAULT true).raise [LEDG.EVT.CHOP_FAULT]).event 0x12 0xFE 0xFE []

def execChopFault (s : State) : Host.Outcome State Fault Refusal := onBlk Blk.chopperFails s

/-- An axis whose commanded acceleration opposes its velocity short-brakes (07 R250). -/
def Cell.sb82 (c : Cell) : Cell :=
  let m := c.ax.mot
  if !m.mode.running || c.ax.starting || !decide (m.prof.v * m.prof.a < 0) then c else
  let c := (c.homeFail.raise AX.MOT_EVT.ABANDONED).event 0x0C
  let c := ((c.discard.endJob false).count AX.MOT_CNT.STOPS).mot fun x => { x with left := true }
  (if c.ax.brushless then c else c.setUnc).startBrake .sb82

def execShortBrake82V (s : State) : Host.Outcome State Fault Refusal :=
  onBlk (fun b => (b.raise [LEDG.EVT.SB82]).cells allAxes fun _ c => c.sb82) s

/-! ### Supervision (01 R14) -/

/-- `SUPERVISION_TIMEOUT`: the AGE of a cell counts the 50 ms in swaths. -/
def execSupervisionTimeout (n : Fin 48) (s : State) : Host.Outcome State Fault Refusal := onBlk (fun b =>
  b.cell n fun c => if c.ax.r AX.AX_SUPV.AGE < 50 then c else c.supervise) s

end Sys2Proof.Machine
end

