-- ==== Sys2Proof/Machine/Ticks.lean ====
section
/-!
DEFINITION. The motion tick (06 R184): profiles, followers in the order of their depth (R203), the loops and tests of each drive
(04, 05), groups (R195, R196), the cover of the supply's excess (07 R245), capture records (16 R497) and hours (10 R350).
-/

namespace Sys2Proof.Machine

/-! ### Groups (06 R195, R196) -/

/-- A member still runs, or waits for, the group's move. -/
def Blk.inGroup (b : Blk) (r : GrpRun) (n : Fin 48) : Bool :=
  let m := (b.axis n).mot
  let of := fun (x : Move) => x.seq = r.seq && x.group.elim false fun (g : Nat × Bool) => decide (g.1 = r.g)
  m.job.elim false (fun j => of j.move) || m.waiting.elim false (fun w => of w.move) || m.queued.elim false (fun w => of w.move)

/-- A member that left its profile by an event stops every other (06 R196). -/
def Blk.groupStop (b : Blk) (r : GrpRun) : Blk :=
  if r.stop && r.running.any fun n => (b.axis n).mot.left then
    b.cells (r.running.filter fun n => (b.axis n).mot.group.isSome && !(b.axis n).mot.left) fun _ c => c.orDefer .stop (·.stop .stop)
  else b

/-- A group whose last member has ended is reported once (06 R195, 11 R401). -/
def Blk.groupDone (b : Blk) (r : GrpRun) : Blk :=
  if r.running != [] || !r.started then b
  else (r.members.foldl (fun (b : Blk) n => b.raiseAx n [AX.MOT_EVT.GRP_DONE]) b).event 0x03 0xFE (0xF0 + r.g)
    (leBytes 1 r.g ++ leBytes 2 r.seq)

def Blk.sweepGroups (b : Blk) : Blk :=
  let b := b.plan.groups.foldl Blk.groupStop b
  let rs := b.plan.groups.map fun r => { r with running := r.running.filter (b.inGroup r) }
  rs.foldl Blk.groupDone { b with plan := { b.plan with groups := rs.filter fun r => r.running != [] } }

/-! ### The tick of the axes -/

/-- An axis that an orphaned session left running holds with `ORPHAN` set, however it came to rest (10 R341). -/
def Cell.orphanRest (c : Cell) : Cell :=
  if c.ax.mot.orphan && c.ax.mot.mode == .hold then (c.setB AX.RST_STAT.ORPHAN true).mot fun m => { m with orphan := false } else c

/-- The part of the tick after P_cmd: what it shows, and the loops and tests of the drive. -/
def Cell.driveTick (wasMoving : Bool) (c : Cell) : Cell :=
  let c := c.showTick
  let c := if c.ax.brushless then c.blTick else if c.ax.stepper then c.stepperTick wasMoving else c
  c.orphanRest.mot fun m => { m with homeTicks := if c.ax.homing then m.homeTicks + 1 else 0 }

/-- Axes that have a motor. -/
def Blk.driven (b : Blk) : List (Fin 48) := allAxes.filter fun n => decide ((b.axis n).motor ≠ Motor.none)

/-- The AUXB readings (05 R173, R174). -/
def Blk.auxTick (b : Blk) (l : List (Fin 48 × LsIn)) : Blk := l.foldl (fun (b : Blk) x => b.cell x.1 fun c => c.lsTick (some x.2)) b

/-- Profiles first, then followers of depth 1, 2 and 3, each from its master's value of this tick (06 R203). -/
def Blk.positionTick (b : Blk) : Blk :=
  let follows := fun (b : Blk) (n : Fin 48) => (b.axis n).mot.engage.isSome
  let b := { b with ax := Vector.ofFn fun n =>
    let a := b.axis n
    if a.mot.engage.isSome then { a with mot := { a.mot with depth := b.depthOf 4 n (all := false) } } else a }
  let b := b.cells (b.driven.filter fun n => !follows b n) fun _ c => c.profileTick.measure
  [1, 2, 3].foldl (fun (b : Blk) d =>
    (b.driven.filter fun n => follows b n && min 3 (max 1 (b.axis n).mot.depth) = d).foldl (fun (b : Blk) n =>
      let mp := b.masters; let tab := b.cams.get
      b.cell n fun c => (c.followTick mp tab).measure) b) b

/-! ### The rest of the tick -/

/-- The cover of the supply's excess by the stores that stand ready (07 R245, 17 R510, R519): energy above the reserve, or all of it in
reserve operation. -/
def Blk.supplyTick (b : Blk) (mw : Int) : Blk :=
  let res := b.reserveOp
  let k := if !res && decide (b.above false ≤ 0) then 0
    else ((List.finRange 2).filter fun i => b.counts res i && b.esOk i && decide (0 < b.plan.copy.usable i)).length
  let excess := max 0 (mw - 1000 * b.bud LEDG.BUD_PWR.P_IN_MAX)
  { b with plan := { b.plan with supply := b.plan.supply + mw, cover := min excess (3000000 * k : Nat) } }

/-- A capture record of the selected axis every `DIV` + 1 ticks (16 R497). -/
def Blk.captureTick (b : Blk) : Blk :=
  let n := b.r LOG.CAP.AXIS
  if !b.bit LOG.CAP.EN then { b with capTicks := 0 }
  else if b.capTicks < b.r LOG.CAP.DIV then { b with capTicks := b.capTicks + 1 }
  else if h : n < 48 then
    let a := b.axis ⟨n, h⟩
    let f := if a.brushless then a.rS AX.BL_FORCE.F_EST else a.rS AX.ST_FORCE.F_EST
    { b with capTicks := 0 }.logEntry 7 0x7F n 0 (leBytes 4 (BitVec.ofInt 32 a.mot.pCmd).toNat ++ leBytes 2 (roundAway a.reg.amp).toNat
      ++ leBytes 4 (BitVec.ofInt 32 f).toNat ++ leBytes 2 (b.r MEAS.V_LINK.V))
  else { b with capTicks := 0 }

/-- Thermal cycles that a cell's estimate closes at this tick (10 R350), and the module's hours awake. -/
def Blk.lifeTick (b : Blk) (ns : List (Fin 48)) : Blk :=
  let b := ns.foldl (fun (b : Blk) n => b.mapAx n fun a => a.count AX.LIFE_TC.TC) b
  if b.onTicks + 1 = 90000000 then { b with onTicks := 0 }.count GRAZE.LIFE_H.H else { b with onTicks := b.onTicks + 1 }

/-- Positions at tick 0 for the followers on other modules (15 R474). -/
def Blk.sampleTick (b : Blk) : Blk :=
  if !b.stacked || b.tick != 1 then b else
  let at_ := fun (n : Fin 48) =>
    let m := (b.axis n).mot
    #v[m.pCmd, m.pMeas, if m.mode = .followStep then m.stepTgt else m.pCmd]
  { b with casc := { b.casc with tick0 := Vector.ofFn at_ } }

/-- The delay of nap (09 R304): a failure of any condition restarts it. -/
def Blk.napTick (b : Blk) : Blk := { b with napTicks := if b.napWait 0 = 0 then b.napTicks + 1 else 0 }

/-- `MOTION_TICK`, at one instant. -/
def Blk.motionTick (b : Blk) (x : TickIn) : Blk :=
  let b := (({ b.yieldNow with tick := min 25 (b.tick + 1) }).sweepInterleaves.sweepGroups).auxTick x.aux
  let moving := b.ax.map Axis.moving
  let b := b.positionTick
  let b := b.cells b.driven fun n c => c.driveTick (moving.get n)
  (((b.sweepGroups.supplyTick x.supply).captureTick.sampleTick).lifeTick x.thermal).napTick

def execMotionTick (x : TickIn) (s : State) : Host.Outcome State Fault Refusal := onBlk (fun b =>
  if !b.running then b else (b.motionTick x).atOnce b) s

end Sys2Proof.Machine
end

