-- ==== Sys2Proof/Machine/MeasRows.lean ====
section
/-!
DEFINITION. The integrating converters (08 R274 to R279): data registers, reported quantities, the ledger's counters
(07 R216 to R219), the temperature reactions (17 R510), and the ledger in nap.
-/

namespace Sys2Proof.Machine

/-! ### The ledger (07 R216) -/

/-- A counter grows by an energy in 10^-7 mJ. -/
def Ledger.add (l : Ledger) (i : Fin 14) (x : Int) : Ledger :=
  let s := l.sub.get i + x
  { l with e := l.e.set i (l.e.get i + s / 10 ^ 7), sub := l.sub.set i (s % 10 ^ 7) }

/-- A signed energy goes to one of two counters. -/
def Ledger.addTo (l : Ledger) (pos neg : Fin 14) (x : Int) : Ledger := if 0 ≤ x then l.add pos x else l.add neg (-x)

/-- What a conversion adds to the ledger: current times the voltage last reported, over its length T_INT, `len` in 0.1 µs
(07 R216, 08 R275). -/
def Blk.ledgerConv (b : Blk) (x : IcIn) (len : Nat) : Blk :=
  let e := fun (v : Fld) => x.eng * (b.r v : Int) * len / 10
  let put := fun (l : Ledger) => { b with ledg := l }
  match x.ch.val with
  | 0 => put (b.ledg.addTo 0 2 (e MEAS.V_SUP.A))
  | 1 => put (b.ledg.addTo 1 3 (e MEAS.V_SUP.B))
  | 2 => put (b.ledg.addTo 4 5 (e MEAS.V_ES.ES0))
  | 3 => put (b.ledg.addTo 6 7 (e MEAS.V_ES.ES1))
  | 4 =>
    -- E_LINK, from the link voltage just converted (07 R217)
    let w : Int := (b.plan.copy.linkC : Int) * x.eng ^ 2 / (2 * 10 ^ 7)
    put { b.ledg with e := b.ledg.e.set 10 w, link0 := some (b.ledg.link0.getD w) }
  | 9 => put (b.ledg.add 8 (e MEAS.V_LINK.V))
  | _ => b

/-! ### Reported quantities (08 R279, R294) -/

/-- The register of a channel, and whether it is signed; a winding voltage has none. -/
def channelReg (ch : Nat) : Option (Fld × Bool) :=
  match ch with
  | 0 => some (MEAS.I_SUP.A, true) | 1 => some (MEAS.I_SUP.B, true)
  | 2 => some (MEAS.I_ES.ES0, true) | 3 => some (MEAS.I_ES.ES1, true)
  | 4 => some (MEAS.V_LINK.V, false) | 5 => some (MEAS.V_SUP.A, false) | 6 => some (MEAS.V_SUP.B, false)
  | 7 => some (MEAS.V_ES.ES0, false) | 8 => some (MEAS.V_ES.ES1, false) | 9 => some (MEAS.I_BRK.I, false)
  | 10 => some (MEAS.P_LOGIC.P, false) | 11 => some (MEAS.P_LOGIC.V_AUX, false)
  | k => if 16 ≤ k && k < 32 then some (MEAS.TEMP0.T.skip (k - 16), true) else none

/-- The converter that carries a channel (08 R274). -/
def channelOf (ch : Nat) : Option Nat :=
  if ch < 4 then some ch else if ch < 9 then some 4 else if ch = 9 then some 5 else if 16 ≤ ch then some 6
  else if ch < 13 then some 7 else none

/-- The data register of a converter (08 R271, R279), and the quantity reported. -/
def Blk.report (b : Blk) (i : Fin 8) (x : IcIn) : Blk :=
  let f := fun (g : Fld) => g.skip i.val
  let was := b.bit (f MEAS.IC_DATA0.NEW)
  let b := ((b.setS (f MEAS.IC_DATA0.RAW) x.raw).set (f MEAS.IC_DATA0.CH) x.ch.val).setB (f MEAS.IC_DATA0.NEW) true
  let b := if was then b.setB (f MEAS.IC_DATA0.OVR) true else b
  match channelReg x.ch.val with
  | some (g, true) => b.setS g x.eng
  | some (g, false) => b.set g (g.sat x.eng)
  | none => b

/-! ### Temperature (17 R510) -/

/-- The lower and the upper threshold of a sensor, 0.01 °C: the baseplate's, by the variant (17 R526), is one for both; TS14 has none. -/
def tempLimits (variant i : Nat) : Option (Int × Int) :=
  if i ≤ 13 then some (10000, 11500) else if i = 15 then (if variant = 2 then some (9000, 9000) else some (7500, 7500)) else none

/-- A condition stands from its threshold until the sensor has fallen 5 K below it. -/
def stands (was : Bool) (t lim : Int) : Bool := decide (lim ≤ t) || (was && decide (lim - 500 < t))

/-- The axes that a sensor stops. -/
def tempAxes (i : Nat) : List (Fin 48) := allAxes.filter fun n => i = 15 || n.val / 4 = i

/-- A running profile stops under 06 R197, and its axis goes fallow at rest. -/
def Cell.tempStop (c : Cell) : Cell := if c.ax.mot.mode.running && !c.ax.mot.fallowAfter then c.fallowCmd else c

/-- The reactions to a sensor's temperature. -/
def Blk.tempWatch (b : Blk) (i : Nat) (t : Int) : Blk :=
  match tempLimits (b.r MOD.ID.VARIANT) i with
  | none => b
  | some (lo, hi) =>
    let hot := stands (b.meas.hot.getLsbD i) t lo; let hotter := stands (b.meas.hotter.getLsbD i) t hi
    let b := { b with meas := { b.meas with hot := bitSet b.meas.hot i hot, hotter := bitSet b.meas.hotter i hotter } }
    if !hotter || i = 12 || i = 13 then b
    else
      let exempt := fun (n : Fin 48) => i = 15 && b.reserveOp && (b.axis n).mot.job.elim false fun j => j.move.tagged
      b.cells ((tempAxes i).filter fun n => !exempt n) fun _ c => c.orDefer .fallow Cell.tempStop

/-! ### The rows -/

/-- T_INT selected, 0.1 µs (08 R275). -/
def Blk.tSelected (b : Blk) : Nat :=
  match b.r MEAS.IC_CFG.T_SEL with | 0 => 200000 | 1 => 166667 | _ => 100 * b.r MEAS.IC_CFG.T_PROG

/-- T_INT in nap, 0.1 µs: 1024 cycles of the slow clock (08 R277). -/
def napTInt : Nat := 156250

/-- The reading of a channel after the calibration set in force (08 R279, R289): gain 2^-15, offset in 0.001 % of full scale, or 0.01 °C. -/
def Blk.calibrated (b : Blk) (x : IcIn) : Int :=
  let e := (b.meas.copies.get b.meas.inUse).entry (480 + x.ch.val)
  let ofs := (BitVec.ofNat 16 (e.toNat >>> 16)).toInt
  let o : Rat := if ofs = 0 then 0 else if 16 ≤ x.ch.val then ofs else ofs * Config.fullScale x.ch.val / 100000
  roundAway ((x.eng : Rat) * (e.toNat % 65536 : Nat) / 32768 + o)

/-- The next enabled sensor after a place of IC6's rotation (08 R276). -/
def nextSensor (en pos : Nat) : Option Nat :=
  ((List.range 16).map fun d => (pos + d) % 16).find? fun k => en.testBit k

/-- The channel that a converter converts next, by its place in its rotation (08 R274, R276). -/
def Blk.icNext (b : Blk) (i : Fin 8) : Option Nat :=
  let p := b.meas.icPos.get i
  match i with
  | 4 => [4, 5, 4, 6, 4, 7, 4, 8][p % 8]?
  | 5 => some 9
  | 6 => (nextSensor (b.r MEAS.IC6_CFG.EN) p).map (16 + ·)
  | 7 => some (10 + p % 2)
  | k => some k.val

/-- The place after a conversion. -/
def icAfter (i : Fin 8) (ch p : Nat) : Nat := if i = 6 then (ch - 15) % 16 else if i = 4 || i = 7 then (p + 1) % 8 else p

/-- A conversion may end now (08 R274, R276, R280): the channel is the rotation's next; IC6 keeps `INTV` ms from start to start; IC7 runs its rotation, a
shot whose start has come, or a winding measurement. -/
def Blk.icMay (b : Blk) (i : Fin 8) (x : IcIn) : Bool :=
  -- an ordinary request: it ends before a shot that waits (08 R278)
  if i = 7 && x.ch.val = 12 then b.meas.rw.elim false (·.integrates x.startUs)
    && b.meas.ic7Shot.elim true fun t => decide (x.startUs + b.meas.tInt.get i / 10 < t)
  else b.icNext i = some x.ch.val
    && (i != 6 || b.meas.ic6At.elim true fun t => decide (t + 1000 * b.r MEAS.IC6_CFG.INTV ≤ x.startUs))
    && (i != 7 || b.meas.ic7Rot || b.meas.ic7Shot.elim false fun t => decide (t ≤ x.startUs))

/-- A conversion ends (08 R275, R277): a change of T_INT is in force for the next. -/
def Blk.convert (b : Blk) (i : Fin 8) (x : IcIn) : Blk :=
  let len := b.meas.tInt.get i
  let x := { x with eng := b.calibrated x }
  let b := ((b.ledgerConv x len).report i x)
  let winding := x.ch.val = 12
  let m := b.meas
  let b := { b with meas := { m with
    tInt := m.tInt.set i (if b.nap == .napping then napTInt else b.tSelected)
    icPos := if winding then m.icPos else m.icPos.set i (icAfter i x.ch.val (m.icPos.get i))
    icEnd := if b.nap == .napping then m.icEnd else m.icEnd.set i (x.startUs + len / 10)
    rw := if winding then m.rw.map fun w => { w with volt := some x.eng } else m.rw
    ic6At := if i = 6 then some x.startUs else m.ic6At
    ic7Shot := if i = 7 && !winding && !m.ic7Rot then none else m.ic7Shot
    ic7Rot := if i = 7 && !winding then b.r MEAS.IC7_CFG.TRIG = 0 else m.ic7Rot } }
  if 16 ≤ x.ch.val then b.tempWatch (x.ch.val - 16) x.eng else b

/-- `IC_CONVERSION_DONE`: no conversion of a converter begins before its last one has ended (08 R278). -/
def execIcConversionDone (i : Fin 8) (x : IcIn) (s : State) : Host.Outcome State Fault Refusal := onBlk (fun b =>
  if !b.running || x.startUs < b.meas.icEnd.get i || !b.icMay i x then b else b.convert i x) s

/-- In nap the ledger updates every 1024 cycles of the slow clock from IC0 to IC5 (07 R219, 08 R277). -/
def execNapLedgerUpdate (xs : List IcIn) (s : State) : Host.Outcome State Fault Refusal := onBlk (fun b =>
  if b.nap != .napping then b else
  let b := xs.foldl (fun (b : Blk) x =>
    match channelOf x.ch.val with
    | some i => if h : i < 6 then (if b.icMay ⟨i, by omega⟩ x then b.convert ⟨i, by omega⟩ x else b) else b
    | none => b) b
  { b with ledg := { b.ledg with e := b.ledg.e.set 9 b.loss }, napCyc := b.napCyc + 1024 }) s

end Sys2Proof.Machine
end

