-- ==== Sys2Proof/Machine/SideRows.lean ====
section
/-!
DEFINITION. The clocks (09 R297 to R303), the control sides (10 R324 to R336), stream records (11 R394), graze (10 R347 to
R349) and the store of the lifetime counters (R350).
-/

namespace Sys2Proof.Machine

/-! ### Clocks -/

/-- `SCK1_TRIM` (09 R298): the trim moves the frequency of SCK1, and nothing that software or a command sees. -/
def execSck1Trim (s : State) : Host.Outcome State Fault Refusal := onBlk (fun b => b) s

/-- `SCK0_FAIL` (09 R297, R298): SCK0 is tested again at the next power-up only. -/
def execSck0Fail (s : State) : Host.Outcome State Fault Refusal := onBlk (fun b =>
  if !b.pw.powered || b.bit CLK.STAT.SCK_SRC then b
  else ((b.setB CLK.STAT.SCK_SRC true).setB CLK.STAT.SCK_DEG true).raise [CLK.EVT.SCK_FAIL]) s

def fckOk : Side → Fld | .a => CLK.STAT.FCK_A_OK | .b => CLK.STAT.FCK_B_OK
def fckFail : Side → Flag | .a => CLK.EVT.FCK_FAIL_A | .b => CLK.EVT.FCK_FAIL_B

/-- `XTAL_FAIL` (09 R299): without SCK0, a mere disagreement fails neither crystal. -/
def execXtalFail (i : Side) (noEdge : Bool) (s : State) : Host.Outcome State Fault Refusal := onBlk (fun b =>
  if !b.pw.powered then b
  else if b.bit CLK.STAT.SCK_SRC && !noEdge then b.raise [CLK.EVT.FCK_FAIL_A, CLK.EVT.FCK_FAIL_B]
  else ((b.mapSide i fun x => { x with sick := true }).setB (fckOk i) false).raise [fckFail i]) s

/-- `STBY_PLL_UNLOCK` (09 R300). -/
def execStbyPllUnlock (s : State) : Host.Outcome State Fault Refusal := onBlk (fun b =>
  if b.bit CLK.STAT.STBY_LOCK then (b.setB CLK.STAT.STBY_LOCK false).raise [CLK.EVT.STBY_UNLOCK] else b) s

/-- A side stands by. -/
def Blk.standby (b : Blk) : Bool := b.act.elim false fun s => (b.side s.other).st == .standby

/-- `STBY_PLL_LOCK` (09 R300, R303). -/
def execStbyPllLock (s : State) : Host.Outcome State Fault Refusal := onBlk (fun b =>
  if b.standby then b.setB CLK.STAT.STBY_LOCK true else b) s

/-- The cells run on their local oscillators (09 R302): each completes its present period, and stops at its boundary. -/
def Blk.localClk (b : Blk) : Blk :=
  if b.bit CLK.STAT.LOCAL_CLK || !b.running then b
  else (({ b with ax := b.ax.map fun (a : Axis) => { a with pwm := { a.pwm with osc := .due, late := true } } }).setB CLK.STAT.LOCAL_CLK true).raise
    [CLK.EVT.LOCAL_CLK]

/-- `MISSING_CLOCK_EDGE` (09 R301): with the standby input locked, the time base runs on unchanged. -/
def execMissingClockEdge (s : State) : Host.Outcome State Fault Refusal := onBlk (fun b =>
  if b.bit CLK.STAT.STBY_LOCK && b.standby then b else b.localClk) s

/-- `LOCAL_CLK_SELECT` (09 R302). -/
def execLocalClkSelect (s : State) : Host.Outcome State Fault Refusal := onBlk Blk.localClk s

/-- `LOCAL_CLK_RETURN` (09 R302): a side with a sound crystal is active again, and the cells return to its clock at a boundary, at which
one that had still to stop stops. -/
def execLocalClkReturn (s : State) : Host.Outcome State Fault Refusal := onBlk (fun b =>
  if !b.bit CLK.STAT.LOCAL_CLK || b.act.elim true (fun s => (b.side s).sick) then b
  else ((b.cells allAxes fun _ c => c.oscStop.pwm fun p => { p with osc := .side, late := true }).setB CLK.STAT.LOCAL_CLK false).rwCheck) s

/-! ### The state exchange -/

/-- Entries taken into a side's buffer (16 R498). -/
def SideLog.take (l : SideLog) (es : List LogEntry) : SideLog :=
  es.foldl (fun (l : SideLog) e =>
    if l.buf.length < (if e.cls = 7 then 960 else 1024) then { l with buf := l.buf ++ [e] } else l) l

/-- What the active side passes (10 R324): the journal then holds nothing that the standby does not. -/
def Blk.exchange (b : Blk) : Blk :=
  match b.act with
  | none => b
  | some s =>
    let o := s.other
    if (b.side o).st != .standby then { b with logFresh := [] } else
    let x : Exchange := {
      sess := b.sess, l := b.planes.map (·.l), streams := b.streams
      plans := b.ax.toList.map fun a => AxPlan.mk ([a.mot.waiting, a.mot.queued].filterMap id) a.mot.job a.mot.lapsed a.plan
      graze := b.graze, fw := b.fw, mods := b.casc.mods }
    let b := b.mapPlanes fun p => { p with acc := p.acc.map fun y => { y with fresh := false } }
    let b := b.mapSide o fun z => { z with fit := z.img.isSome }
    { b with xchg := some x, logs := b.logs.set o.idx ((b.logs.get o.idx).take b.logFresh), logFresh := [] }

/-- `STATE_EXCHANGE`. -/
def execStateExchange (s : State) : Host.Outcome State Fault Refusal := onBlk (fun b => if b.running then b.exchange else b) s

/-- `SIDE_SWITCH_ACT` (10 R332): at the end of the exchange the sides change places, and the new side replies. -/
def execSideSwitchAct (s : State) : Host.Outcome State Fault Refusal := onBlk (fun b =>
  match b.switchReq, b.act with
  | some q, some a =>
    let b := { b with switchReq := none }
    if !b.stbyOk then b.refusedState q
    else
      let b := (b.mapSide a fun x => { x with st := .standby, fit := true }).mapSide a.other fun x => { x with st := .active }
      ({ b with act := some a.other }.count SIDE.SW_CNT.SWITCH_CNT).ok q
  | _, _ => b) s

/-! ### Failures of a side (10 R327 to R331) -/

/-- A side that failed: it restarts, or is held out; what its port was about is cut (16 R485). -/
def Blk.sideDown (b : Blk) (s : Side) : Blk :=
  let b := b.smCut s
  let fails := ((b.side s).fails.filter fun t => decide (b.swath < t + 86400000)) ++ [b.swath]
  let out := decide (3 ≤ fails.length) || !b.bit SIDE.CTRL.AUTO_REJOIN
  let b := b.mapSide s fun x => { x with st := if out then .out else .booting, fit := false, fails := fails }
  { b with logs := b.logs.set s.idx { b.logs.get s.idx with buf := [] } }.raiseIf out SIDE.EVT.OUT

/-- A load that a failure cut (10 R329): its bank is invalid, and its next command is answered `BUSY`. -/
def Blk.dropLoad (b : Blk) : Blk :=
  match b.fw with
  | none => b
  | some f => { f.sides.foldl (fun (b : Blk) s => b.setBank s f.bank 1) b with fw := none, fwCut := true }

/-- Replies journaled since the last exchange go again, in the order of their commands (10 R327, R328). -/
def Blk.resend (b : Blk) : Blk :=
  b.planes.toList.foldl (fun (b : Blk) p =>
    (p.acc.reverse.filter (·.fresh)).foldl (fun (b : Blk) x => x.reply.elim b fun o => b.sendVia x.q.via o) b) b

/-- The `AXIS_RESET`s whose leg checks a takeover stopped run from their start (10 R353). -/
def Blk.resetsAgain (b : Blk) : Blk :=
  let rs := b.resets
  let b := { b with resets := [], ax := b.ax.map fun (a : Axis) => { a with legs := { a.legs with checking := false } } }
  rs.foldl (fun (b : Blk) r => runAxisReset b r.q) b

/-- The standby takes over from the active side (10 R327 to R330). -/
def Blk.takeover (b : Blk) (old : Side) : Blk :=
  let new := old.other
  let b := { b with act := some new, logFresh := [], xchg := none, skipStreams := b.swath + 2 }
  let b := ((b.mapSide new fun x => { x with st := .active }).sideDown old).setB CLK.STAT.STBY_LOCK false
  let b := (b.count SIDE.SW_CNT.TAKE_CNT).raise [SIDE.EVT.TAKEOVER]
  let b := b.event 0x14 0xFE 0xFE [BitVec.ofNat 8 new.idx.val]
  let b := (b.mapPlanes fun p => { p with armed := false }).resend.grazeBack.dropLoad.resetsAgain
  match b.switchReq with
  | some q => { b with switchReq := none }.refusedState q
  | none => b

/-- `SIDE_TAKEOVER`: it needs a fit standby. -/
def execSideTakeover (s : State) : Host.Outcome State Fault Refusal := onBlk (fun b =>
  match b.act with
  | some a => if b.stbyOk then b.takeover a else b
  | none => b) s

/-- The active side fails with no fit standby (10 R331): the session and what the sides held of commands and plan are gone; the
cells go on with what they hold. -/
def Blk.unprotected (b : Blk) (a : Side) : Blk :=
  let b := (b.raise [SIDE.EVT.UNPROT]).sideDown a
  let b := (b.withdrawAll.endSession.grazeBack.dropLoad).mapPlanes fun p => { p with acc := [] }
  { b.setB CLK.STAT.STBY_LOCK false with act := none, switchReq := none, xchg := none, logFresh := [], resets := [] }

/-- `UNPROTECTED_FAILURE`. -/
def execUnprotectedFailure (s : State) : Host.Outcome State Fault Refusal := onBlk (fun b =>
  match b.act with
  | some a => if b.stbyOk then b else b.unprotected a
  | none => b) s

/-! ### A side comes back (10 R330, R331, R334, R335) -/

/-- The side that rejoins, or that ends an outage: the first that runs firmware. -/
def Blk.rejoining (b : Blk) : Option Side :=
  let is := fun (s : Side) (t : SideSt) => (b.side s).st == t
  match b.act with
  | some a => if is a.other .booting then some a.other else none
  | none =>
    if is .a .standby && (b.side .a).img.isSome then some .a
    else if is .b .standby && (b.side .b).img.isSome then some .b
    else if is .a .booting then some .a
    else if is .b .booting then some .b
    else none

/-- A restarted side: its port checks its devices, it loads its firmware, and its crystal is tested afresh. -/
def Blk.restart (b : Blk) (s : Side) : Blk :=
  if (b.side s).st != .booting then b
  else
    let b := ((b.mapSide s fun x => { x with sick := false }).setB (fckOk s) true).bootSide s true (b.smp s).answers
    b.mapSide s fun x => { x with st := .standby }

/-- It joins as standby, fit by a full exchange: its log starts at the present `HEAD`, and it writes its cam library again
(16 R496, R500). -/
def Blk.joinStandby (b : Blk) (s a : Side) : Blk :=
  let x := b.side s
  let done := x.swap.elim false fun k => decide (x.bank ≠ k)
  let b := b.exchange
  let m := b.logs.get a.idx; let l := b.logs.get s.idx
  let l := if l.head = m.head then l else { l with head := m.head, tail := m.head, wrapped := false }
  let dirty : BitVec 64 := (List.finRange 64).foldl (fun v t => bitSet v t.val (b.cams.get t).valid) 0
  let b := { b with logs := b.logs.set s.idx { l with buf := m.buf }, camDirty := b.camDirty.set s.idx dirty }
  let b := (b.mapSide s fun x => { x with swap := none }).raise (SIDE.EVT.REJOIN :: if done then [SIDE.EVT.FW_DONE] else [])
  if done then b.event 0x15 0xFE 0xFE [BitVec.ofNat 8 s.idx.val] else b

/-- `SIDE_REJOIN`: a side without a valid bank waits in its ROM (16 R494). -/
def execSideRejoin (s : State) : Host.Outcome State Fault Refusal := onBlk (fun b =>
  if !b.ready then b else
  match b.rejoining with
  | none => b
  | some s =>
    let b := b.restart s
    if (b.side s).img.isNone then b
    else match b.act with
      | some a => b.joinStandby s a
      | none => { b.mapSide s fun x => { x with st := .active, swap := none } with act := some s }) s

/-- `FW_REVERT` (10 R335). -/
def execFwRevert (s : State) : Host.Outcome State Fault Refusal := onBlk (fun b =>
  [Side.a, Side.b].foldl (fun (b : Blk) s =>
    match (b.side s).swap with
    | some k =>
      if (b.side s).st != .booting then b else
      let b := b.setRec s fun r => { r with next := k }
      let b := (b.mapSide s fun x => { x with swap := none }).raise [SIDE.EVT.FW_REVERT]
      b.event 0x16 0xFE 0xFE [BitVec.ofNat 8 s.idx.val]
    | none => b) b) s

/-! ### Stream records (11 R394) -/

/-- Byte 7 of a record. -/
def Axis.streamFlags (a : Axis) : Nat :=
  let bl := a.brushless
  let b := fun (st br : Fld) => a.b (if bl then br else st)
  Bool.bit (b AX.ST_STAT.POS_UNC AX.BL_STAT.POS_UNC) + 2 * Bool.bit (b AX.ST_STAT.STALLED AX.BL_STAT.LOCKED)
    + 4 * Bool.bit (b AX.ST_STAT.OBST AX.BL_STAT.OBST) + 8 * Bool.bit a.trip.latch + 16 * Bool.bit a.legs.spareUsed
    + 32 * Bool.bit (b AX.ST_STAT.V_SAT AX.BL_STAT.V_SAT)
    + 64 * Bool.bit (if bl then a.bl.estValid else a.b AX.ST_STAT.LA_VALID)

/-- The standard record of an axis. -/
def Blk.record (b : Blk) (n : Fin 48) : List Byte :=
  let a := b.axis n
  let f := if a.brushless then a.r AX.BL_FORCE.F_EST else a.r AX.ST_FORCE.F_EST
  leBytes 1 n.val ++ leBytes 1 (b.tick - 1) ++ leBytes 4 (b.swath % 2 ^ 32) ++ leBytes 1 a.mot.mode.num ++ leBytes 1 a.streamFlags
    ++ leBytes 4 (BitVec.ofInt 32 a.mot.pCmd).toNat ++ leBytes 4 (a.r AX.MOT_VCMD.V_CMD) ++ leBytes 2 (roundAway a.reg.amp).toNat
    ++ leBytes 4 f ++ leBytes 2 (b.r MEAS.V_LINK.V)

/-- Two records to a frame, one in an odd last frame. -/
def pairUp : List (List Byte) → List (List Byte)
  | a :: b :: t => (a ++ b) :: pairUp t
  | [a] => [a]
  | [] => []

/-- A capture of stream k: every frame uses its sequence number, sent or not (10 R329, 12 R417). -/
def Blk.capture (b : Blk) (k : Fin 4) (x : Stream) : Blk :=
  let rs := (allAxes.filter fun n => x.mask.getLsbD n.val).map b.record
  let (b, x) := (pairUp rs).foldl (fun (y : Blk × Stream) body =>
    let (b, x) := y
    let o : OutPkt := { cls := 3, dest := x.dest, src := b.addr, major := x.major, async := true, reply := false, sid := x.sid
                        seq := x.seq, opc := 0x60, tgt := BitVec.ofNat 8 k.val, body := body }
    (if b.swath < b.skipStreams then b else b.send x.port o, { x with seq := x.seq + 1 })) (b, x)
  { b with streams := b.streams.set k (some x) }

/-- `STREAM_CAPTURE`: at tick 0 of the swaths whose number is a multiple of the interval. -/
def execStreamCapture (k : Fin 4) (s : State) : Host.Outcome State Fault Refusal := onBlk (fun b =>
  match b.streams.get k with
  | some x => if b.running && b.act.isSome && b.tick ≤ 1 && b.swath % x.k = 0 then b.capture k x else b
  | none => b) s

/-! ### Graze (10 R347 to R349) -/

/-- An item of graze: its code, and its axis for the items of the axes. -/
abbrev GrazeItem : Type := Fin 11 × Option (Fin 48)

/-- The place of an item in a pass: the axis items of each axis in turn, then the module's. -/
def grazeAt (p : Nat) : Option GrazeItem :=
  if h : p < 288 then some (⟨p % 6, by omega⟩, some ⟨p / 6, by omega⟩)
  else if h : p < 293 then some (⟨p - 282, by omega⟩, none)
  else none

/-- The place of the pass as the state holds it: the axis, or 48, and the item. -/
def Graze.pos (g : Graze) : Nat := if g.axis < 48 then 6 * g.axis + g.item else 282 + g.item

def Graze.setPos (g : Graze) (p : Nat) : Graze :=
  if p < 288 then { g with axis := p / 6, item := p % 6 } else { g with axis := 48, item := p - 282 }

/-- The resource of an item is free (10 R348). -/
def Blk.grazeFree (b : Blk) (x : GrazeItem) : Bool :=
  let idle := fun (n : Fin 48) => let m := (b.axis n).mot; m.mode == .fallow && m.waiting.isNone
  let still := b.plan.charge.all (· == 0) && b.plan.cover = 0
  match x.2 with
  | some n => idle n && (x.1 != 5 || b.freeSpares != [])
  | none =>
    if x.1 = 6 then allAxes.all idle && still
    else if x.1 = 7 then still
    else if x.1 = 8 then allAxes.all idle
    else if x.1 = 9 then b.supOk 0 && b.supOk 1
    else true

/-- An item that `ITEMS` enables. -/
def Blk.grazeOn (b : Blk) (x : GrazeItem) : Bool := (b.r GRAZE.CTRL.ITEMS).testBit x.1.val

/-- The next item of the pass whose resource is free, with the busy ones before it, and the place after it; disabled items are
left out. -/
def Blk.grazeScan (b : Blk) : Nat → Nat → List GrazeItem → Option GrazeItem × List GrazeItem × Nat
  | 0, p, busy => (none, busy, p)
  | fuel + 1, p, busy =>
    match grazeAt p with
    | none => (none, busy, p)
    | some x =>
      if !b.grazeOn x then b.grazeScan fuel (p + 1) busy
      else if b.grazeFree x then (some x, busy, p + 1)
      else b.grazeScan fuel (p + 1) (busy ++ [x])

/-- The item that graze takes up next, with its place after it (10 R348, R349): the one requested, as soon as its resource is free; after an
item of the pass, the first one passed over whose resource is free; the next item of the pass; and at the end of the pass those left. -/
def Blk.grazeNext (b : Blk) : Option (GrazeItem × Graze) :=
  let g := b.graze
  let again := (g.skipped.find? fun x => b.grazeOn x && b.grazeFree x).map fun x => (x, { g with skipped := g.skipped.erase x, turn := false })
  match g.req.filter b.grazeFree with
  | some x => some (x, { g with req := none })
  | none =>
    match (if g.turn then again else none) with
    | some y => some y
    | none =>
      let (y, busy, p) := b.grazeScan 294 g.pos []
      match y with
      | some x => some (x, { g with skipped := g.skipped ++ busy, turn := true }.setPos p)
      | none => again

/-- Graze may run a slice: none once nap is due (10 R353), none while it is paused or not enabled (R357). -/
def Blk.grazeMay (b : Blk) : Bool :=
  b.running && b.act.isSome && b.bit GRAZE.CTRL.EN && !b.bit GRAZE.CTRL.PAUSE

/-- Graze takes up an item, where it is the next. -/
def Blk.grazeStart (b : Blk) (x : GrazeItem) : Blk :=
  if !b.grazeMay || b.graze.run.isSome || b.napDue then b
  else match b.grazeNext with
    | none => b
    | some (y, g) =>
      if y != x then b else
      let b := { b with graze := { g with run := some x, banks := 0 }, yieldDue := false }
      ((b.setB GRAZE.STAT.RUN true).set GRAZE.STAT.ITEM x.1.val).set GRAZE.STAT.AXIS (x.2.elim 63 (·.val))

/-- Failed legs of a fallow cell (02 R67): the spare is judged first, then every working leg. -/
def Cell.grazeLegs (c : Cell) (bad : Fin 5 → Bool) : Cell :=
  if c.ax.legs.phase != .normal then c
  else [(4 : Fin 5), 0, 1, 2, 3].foldl (fun (c : Cell) k => if bad k then c.grazeLeg k else c) c

/-- A tap that fails leaves the spare unhealthy. -/
def Cell.tapBad (c : Cell) : Cell :=
  if c.ax.legs.spareBad then c
  else (c.markLegs fun l => { l with spareBad := true }).raise AX.LEG_EVT.SPARE_BAD

/-- The results of an axis item, and whether a part of it failed. -/
def Blk.grazeAxis (b : Blk) (n : Fin 48) (x : GrazeRes) : Blk × Bool :=
  let age := fun (b : Blk) => b.mapAx n fun a => a.set AX.GZ_AGE.AGE 0
  let put := fun (f : Fld) (v : Nat) => age (b.mapAx n fun a => a.set f v)
  let legs := fun (b : Blk) (bad : Fin 5 → Bool) => (b.cell n fun c => c.grazeLegs bad, (List.finRange 5).any bad)
  let byMask := fun (k : Fin 5) => !x.legs.getLsbD k.val
  match x.item.val with
  | 0 => legs (put AX.GZ_SW.SW_OK x.sw.toNat) fun k => !(x.sw.getLsbD (2 * k.val) && x.sw.getLsbD (2 * k.val + 1))
  | 1 =>
    let b := (put AX.GZ_SW.ISO_OK x.iso.toNat).mapAx n fun a => a.set AX.GZ_SW.TAP_OK x.tap.toNat
    -- a failed tap leaves no spare for a leg whose isolator fails
    let b := if x.tap = 0xF then b else b.cell n Cell.tapBad
    let (b, bad) := legs b fun k => decide (k.val < 4) && !x.iso.getLsbD k.val
    (b, bad || x.tap != 0xF)
  | 2 =>
    let b := (put AX.GZ_AGE.GATE_OK x.legs.toNat).mapAx n fun a =>
      ((((a.set AX.GZ_DIDT01.L0 (x.didt.get 0)).set AX.GZ_DIDT01.L1 (x.didt.get 1)).set AX.GZ_DIDT23.L2 (x.didt.get 2)).set
        AX.GZ_DIDT23.L3 (x.didt.get 3)).set AX.GZ_DIDT4.L4 (x.didt.get 4)
    legs b byMask
  | 3 => legs (put AX.GZ_SW.DIDT_OK x.legs.toNat) byMask
  | 4 => legs (put AX.GZ_SW.CMP_OK x.legs.toNat) byMask
  | _ =>
    let bad := [(0 : Fin 2), 1].filter fun s => !x.slices.getLsbD s.val && !((b.axis n).r AX.SLC_STAT.FAIL).testBit s.val
    (bad.foldl (fun (b : Blk) s => (b.sliceFailed n s).needSpare n s) (age b), !(x.slices = 3))

/-- A side whose fetch or device check fails has failed (16 R488, R500, 01 R16, 10 R330, R331). -/
def Blk.fetchFails (b : Blk) (s : Side) : Blk :=
  if b.act = some s then (if b.stbyOk then b.takeover s else b.unprotected s)
  else if (b.side s).st == .standby then b.sideDown s
  else b

/-- The results of a module item, and whether it failed. -/
def Blk.grazeModule (b : Blk) (x : GrazeRes) : Blk × Bool :=
  match x.item.val with
  | 6 => (b.set LEDG.LINK_C.C (LEDG.LINK_C.C.sat x.value), decide (x.value < 960))
  | 7 =>
    let (c, r) := if x.store = 0 then (GRAZE.ES0.C, GRAZE.ES0.ESR) else (GRAZE.ES1.C, GRAZE.ES1.ESR)
    (((b.set c (c.sat x.value)).set r (r.sat x.esr)).raiseIf (!x.ok) GRAZE.EVT.ES_DEGR, !x.ok)
  | 8 =>
    let b := b.set LEDG.CHOP_R.R_BRK (LEDG.CHOP_R.R_BRK.sat x.value)
    (if x.ok then (b.setB LEDG.STAT.CHOP_FAULT false).clearSbStop else b.chopperFails, !x.ok)
  | 9 => (b.raiseIf (!x.ok) GRAZE.EVT.DIODE, !x.ok)
  | _ =>
    let b := ((b.count GRAZE.SCRUB.CORR x.corr).count GRAZE.SCRUB.UNCORR x.uncorr).raiseIf (x.uncorr != 0) GRAZE.EVT.SCRUB_UE
    -- a bank that a load is writing is passed over (16 R501)
    let s : Side := if x.store = 0 then .a else .b
    let b := b.smIdentify s x.ids
    let k := toFin2 x.value
    let loading := b.fw.elim false fun f => f.bank = k && f.sides.contains s
    if x.ok || loading then (b, false) else ((b.setBank s k 1).raise [SIDE.EVT.BANK_BAD], true)

/-- The pass ends when every item of it has run. -/
def Blk.grazePass (b : Blk) : Blk :=
  let p := (b.grazeScan 294 b.graze.pos []).2
  let left := b.graze.skipped.filter b.grazeOn
  let ended := (b.grazeScan 294 b.graze.pos []).1.isNone && p.1 = [] && left = []
  if ended then
    let b := { b with graze := { b.graze with item := 0, axis := 0, skipped := [] } }
    ((b.count GRAZE.PASS.PASS_CNT).set GRAZE.PASS.LAST_H 0).set GRAZE.STAT.PROG 0 |>.raise [GRAZE.EVT.PASS_DONE]
  else b.set GRAZE.STAT.PROG (100 * (b.graze.pos - b.graze.skipped.length) / 293)

/-- The running item ends with its results; the item of the stores goes on to ES 1 (10 R348). -/
def Blk.grazeEnd (b : Blk) (x : GrazeRes) : Blk :=
  let (b', bad) := match x.axis with
    | some n => b.grazeAxis n x
    | none => b.grazeModule x
  let side := b.act.elim 0 (·.idx.val)
  let b' := if bad then
      (b'.raise [GRAZE.EVT.FAIL]).event 0x17 (x.axis.elim 0xFE (·.val)) (x.axis.elim 0xFE (·.val)) [BitVec.ofNat 8 side, BitVec.ofNat 8 x.item.val]
    else b'
  -- a scrub ends with the fourth bank; those of a side without its device 0 have nothing to read
  let gone := fun (s : Side) => Bool.bit ((b'.smp s).absent.getLsbD 0)
  let banks := b'.graze.banks ||| BitVec.ofNat 4 (2 ^ (2 * x.store.val + (toFin2 x.value).val)) ||| BitVec.ofNat 4 (3 * gone .a + 12 * gone .b)
  let b' := if x.item = 7 && x.store = 0 && b'.esOk 1 then b'
    else if x.item = 10 && banks != 15 then { b' with graze := { b'.graze with banks := banks } }
    else b'.grazeIdle.grazePass
  -- a side without its device 0 has failed (16 R488, R500)
  let s : Side := if x.store = 0 then .a else .b
  if x.item = 10 && (b'.smp s).absent.getLsbD 0 then b'.fetchFails s else b'

/-- `GRAZE_SLICE`: a slice of an item, with the item's results where it ends on a resource that is still free.  A pause, or the end of `EN`, lets
no further slice of the running item begin (10 R357; notes/assumptions/148.md). -/
def execGrazeSlice (x : GrazeRes) (s : State) : Host.Outcome State Fault Refusal := onBlk (fun b =>
  let it : GrazeItem := (x.item, x.axis)
  let b := b.yieldNow
  if !b.grazeMay then b.grazeBack else
  let b := b.grazeStart it
  if x.done && b.graze.run = some it && b.grazeFree it then b.grazeEnd x else b) s

/-- `GRAZE_YIELD` (10 R347): 20 µs after the command at the latest. -/
def execGrazeYield (s : State) : Host.Outcome State Fault Refusal := onBlk Blk.yieldNow s

/-- `GRAZE_PASS_LATE` (10 R349). -/
def execGrazePassLate (s : State) : Host.Outcome State Fault Refusal := onBlk (fun b =>
  if b.running then b.raise [GRAZE.EVT.LATE] else b) s

/-! ### Lifetime (10 R350) -/

/-- The lifetime counters go to the nonvolatile store, with the parts below their units: a loss of power loses 10 min at most. -/
def Blk.saveLife (b : Blk) : Blk :=
  { b with
    lifeHSaved := BitVec.ofNat 32 (b.r GRAZE.LIFE_H.H)
    onSaved := b.onTicks
    ax := b.ax.map fun a => { a with lifeRest := a.life, lifeSaved := #v[BitVec.ofNat 32 (a.r AX.LIFE_CYC.CYC), BitVec.ofNat 32 (a.r AX.LIFE_E.E),
                                                     BitVec.ofNat 32 (a.r AX.LIFE_TC.TC), BitVec.ofNat 32 (a.r AX.LIFE_H.H)] } }

/-- `LIFE_SAVE`. -/
def execLifeSave (s : State) : Host.Outcome State Fault Refusal := onBlk (fun b => if b.pw.powered then b.saveLife else b) s

end Sys2Proof.Machine
end

