-- ==== Sys2Proof/Machine/BusRows.lean ====
section
/-!
DEFINITION. The bus ports frame by frame: acceptance (12 R411), transmission (12 R413 to R417), bus-off and load; and nap with its wake queue (09 R304 to R313).
-/

namespace Sys2Proof.Machine

/-! ### The opcodes (11 R364) -/

/-- What runs a command of an opcode; none for an unknown one. -/
def runOpc (opc : Nat) : Option (Blk → Req → Blk) :=
  match opc with
  | 0x01 => some runHello | 0x02 => some runOpenSession | 0x03 => some runCloseSession | 0x04 => some runTakeover
  | 0x05 => some runHeartbeat | 0x06 => some runIdentify | 0x08 => some runModuleReset | 0x09 => some runAxisReset
  | 0x10 => some runRegRd | 0x11 => some runRegWr | 0x12 => some runRegRdBlk | 0x13 => some runRegWrBlk
  | 0x14 => some runMbxRd | 0x20 => some runAxisConfig | 0x21 => some runMotorModel | 0x22 => some runZoneTable
  | 0x30 => some (runMove 0x30 0) | 0x31 => some (runMove 0x31 0) | 0x32 => some (runMove 0x32 0) | 0x33 => some (runMove 0x33 0)
  | 0x34 => some runHold | 0x35 => some (runStops .fallow) | 0x36 => some runBrake | 0x37 => some (runMove 0x37 0)
  | 0x38 => some (runMove 0x38 0) | 0x39 => some (runMove 0x39 0) | 0x3A => some runCamLoad | 0x3B => some (runMove 0x3B 0)
  | 0x3C => some runCamDisengage | 0x40 => some (runStops .stop) | 0x41 => some (runStops .qstop) | 0x42 => some runStopAll
  | 0x50 => some runBudgetSet | 0x51 => some runReserveSet | 0x52 => some runLedgerRead | 0x53 => some runPlanQuery
  | 0x60 => some runStreamStart | 0x61 => some runStreamStop | 0x62 => some runLogRead
  | 0x70 => some runGrazeCtrl | 0x71 => some runCalSelf | 0x72 => some runCalWrite | 0x73 => some runCalRead
  | 0x78 => some runFwLoad | 0x79 => some runFwSwap | 0x7A => some runSideSwitch | 0x7C => some runCascadeEnum
  | 0x7D => some runCascadeRoute
  | _ => none

/-- A complete packet from a port is judged and run. -/
def Blk.runPacket (b : Blk) (h : Hdr) (opc : Nat) (body : List Byte) : Blk :=
  (b.served h).serve (fun b q => ((runOpc opc).getD fun b _ => b) b q) ⟨h, opc, body, .port h.port⟩

/-! ### Acceptance (12 R411, R412) -/

/-- What filter j does with a frame: accepts it, and routes it high. -/
def Blk.filter (b : Blk) (f : Frame) (j : Nat) : Option Bool :=
  let at_ := fun (g : Fld) => b.r ((g.port f.port).skip (2 * j))
  let dest := match at_ MB.FLTA.DMODE with
    | 0 => f.dest = b.addr
    | 1 => f.dest = 0xFF
    | 2 => f.dest = b.addr || f.dest = 0xFF
    | _ => f.dest.toNat = at_ MB.FLTA.DEST
  let m := at_ MB.FLTB.SRC_MASK
  if at_ MB.FLTA.EN = 1 && (at_ MB.FLTA.CLS).testBit f.cls && dest && (f.src.toNat &&& m) = (at_ MB.FLTB.SRC &&& m)
  then some (at_ MB.FLTA.HIGH = 1 || f.cls = 0) else none

/-- The filters of a port: whether a frame is accepted, and routed high. -/
def Blk.accepts (b : Blk) (f : Frame) : Option Bool :=
  match (List.range 16).filterMap (b.filter f) with
  | [] => none
  | l => some (l.any id)

/-- A port may send (09 R314, R315, 12 R415, R419), also what `MODULE_RESET` leaves to go first (09 R318). -/
def Blk.sending (b : Blk) (p : Fin 6) : Bool :=
  (b.phase = 4 || b.phase = 1) && b.pw.powered && !b.pw.held && b.pw.resetDue != some true && b.nap != .napping && !b.bit (MB.STAT.BUSOFF.port p)

/-- A port takes part in its bus: no reset is due. -/
def Blk.listening (b : Blk) (p : Fin 6) : Bool := b.sending p && b.pw.resetDue.isNone

/-! ### Bit timing (12 R408, R421) -/

/-- A new timing goes into force at a bus idle, after the reply that goes first and after a packet in progress. -/
def Blk.settle (b : Blk) (p : Fin 6) : Blk :=
  let t := b.ports.get p
  match t.timingNext with
  | none => b
  | some (w, rep) =>
    let begun := t.tx.any fun x => x.cur.elim false fun c => c.idx != 0
    let waits := rep.elim false fun s => t.tx.any fun x =>
      (x.cur.toList ++ x.wait).any fun c => c.pkt.reply && c.pkt.seq = s
    if begun || waits then b else { b with ports := b.ports.set p { t with timing := w, timingNext := none } }

/-! ### The rows of reception -/

/-- `FRAME_RX`: a frame ends on a bus. -/
def execFrameRx (f : Frame) (s : State) : Host.Outcome State Fault Refusal := onBlk (fun b =>
  if !f.ext || f.rtr || !b.listening f.port then b else
  match b.accepts f with
  | none => b
  | some high =>
    if b.nap == .waking then
      if f.early then b
      else if b.rx.wake.length < 8 then { b with rx := { b.rx with wake := b.rx.wake ++ [f] } }
      else (b.count CLK.WAKE_SRC.WAKE_DROP).raise [CLK.EVT.WAKE_DROP]
    else
      (b.settle f.port).take1 f high) s

/-- `REASSEMBLY_TIMEOUT` (11 R361): 10 ms have passed since the end of the packet's first frame, in which the plane has served its queue. -/
def execReassemblyTimeout (port : Fin 6) (src : Byte) (us : Nat) (s : State) : Host.Outcome State Fault Refusal := onBlk (fun b =>
  let b := b.serveQueue port us
  if (b.rx.ports.get port).re.any fun x => x.src = src && decide (x.firstEnd + 10000 ≤ us) then b.dropPart port src else b) s

/-! ### Transmission (12 R413 to R417) -/

/-- A packet is held by congestion, before its first frame (11 R403, 12 R417); no record goes while it lasts. -/
def Blk.heldBack (b : Blk) (p : Fin 6) (c : TxCur) : Bool :=
  b.bit (MB.STAT.CONG.port p) && (c.pkt.cls = 3 || (decide (4 ≤ c.pkt.cls.val) && c.idx = 0 && !c.released))

/-- A held packet leaves its buffer to the first that waits and is not held (11 R403): replies and events of class 2 go on. -/
def TxBuf.pass (t : TxBuf) (held : TxCur → Bool) : TxBuf :=
  match t.cur with
  | none => t
  | some c =>
    if !held c then t
    else match t.wait.find? fun d => !held d with
      | some d => { cur := some d, wait := c :: t.wait.filter (·.ord != d.ord) }
      | none => t

def Blk.passHeld (b : Blk) (p : Fin 6) : Blk :=
  let t := b.ports.get p
  { b with ports := b.ports.set p { t with tx := t.tx.map fun (x : TxBuf) => x.pass (b.heldBack p) } }

/-- The buffer whose frame is offered next (12 R414). -/
def Blk.offered (b : Blk) (p : Fin 6) : Option (Fin 3) :=
  let t := b.ports.get p
  let ready := ([0, 1, 2] : List (Fin 3)).filterMap fun i =>
    (t.tx.get i).cur.bind fun c => if b.heldBack p c then none else some (i, c.pkt.id c.idx)
  let best := if b.bit (MB.CFG.TORD.port p) then ready.head?
    else ready.foldl (fun (x : Option (Fin 3 × Nat)) y => x.elim (some y) fun z => if y.2 < z.2 then some y else some z) none
  best.map (·.1)

/-- The next packet that waits enters its buffer. -/
def TxBuf.next (t : TxBuf) : TxBuf :=
  match t.wait with
  | [] => {}
  | c :: cs => { cur := some c, wait := cs }

/-- The frame of buffer i is sent: with bit rate switching, unless the timing in force has one rate (12 R406). -/
def Blk.sendFrame (b : Blk) (p : Fin 6) (i : Fin 3) : Blk :=
  let t := b.ports.get p
  let x := t.tx.get i
  match x.cur with
  | none => b
  | some c =>
    let f : Frame := { port := p, id := BitVec.ofNat 29 (c.pkt.id c.idx), ext := true, fd := true, rtr := false
                       brs := t.timing.toNat / 4 % 8 != 0, early := false, data := c.pkt.frameData c.idx, endUs := 0 }
    let x := if c.idx + 1 < c.pkt.frames then { x with cur := some { c with idx := c.idx + 1 } } else x.next
    { b with ports := b.ports.set p { t with lastTx := some f, tx := t.tx.set i x } }

/-- `FRAME_TX`: the next frame is offered; a lost arbitration is counted, and the choice made afresh. -/
def execFrameTx (port : Fin 6) (won : Bool) (s : State) : Host.Outcome State Fault Refusal := onBlk (fun b =>
  if !b.sending port || b.nap == .waking || b.outside then b else
  let b := (b.settle port).passHeld port
  match b.offered port with
  | none => b
  | some i => if won then (b.sendFrame port i).settle port else b.count (MB.CNT.LOST_ARB.port port)) s

/-- The packet whose hold has ended. -/
def TxCur.release (c d : TxCur) : TxCur := if d.ord = c.ord then { d with released := true } else d

/-- The packets of a port, being sent or waiting. -/
def Port.packets (t : Port) : List TxCur := t.tx.toList.flatMap fun x => x.cur.toList ++ x.wait

/-- `HELD_PACKET_RELEASE` (12 R417): the packet held longest has been held for 100 ms. -/
def execHeldPacketRelease (port : Fin 6) (s : State) : Host.Outcome State Fault Refusal := onBlk (fun b =>
  let t := b.ports.get port
  let held := t.packets.filter fun c => b.heldBack port c && c.pkt.cls != 3
  match held.foldl (fun (x : Option TxCur) y => x.elim (some y) fun z => if y.ord < z.ord then some y else some z) none with
  | some c => { b with ports := b.ports.set port { t with tx := t.tx.map fun (x : TxBuf) =>
      { cur := x.cur.map c.release, wait := x.wait.map c.release } } }
  | none => b) s

/-! ### Bus-off and load (12 R415, R416) -/

/-- `BUS_OFF`: the transmit error counter passes 255, and with it the level of error passive. -/
def execBusOff (port : Fin 6) (s : State) : Host.Outcome State Fault Refusal := onBlk (fun b =>
  if b.bit (MB.STAT.BUSOFF.port port) then b else
  let ep := b.bit (MB.STAT.EPASS.port port)
  let b := ((b.setB (MB.STAT.BUSOFF.port port) true).setB (MB.STAT.EPASS.port port) true).set (MB.STAT.TEC.port port) 255
  (b.count (MB.CNT2.BUSOFF_CNT.port port)).raise
    (MB.EVT.BUSOFF.skip port.val :: if ep then [] else [MB.EVT.EPASS.skip port.val])) s

/-- `BUS_OFF_END`: the port recovers, its error counters at 0 (ISO 11898-1). -/
def execBusOffEnd (port : Fin 6) (s : State) : Host.Outcome State Fault Refusal := onBlk (fun b =>
  if !b.bit (MB.STAT.BUSOFF.port port) then b else
  let b := (((b.setB (MB.STAT.BUSOFF.port port) false).setB (MB.STAT.EPASS.port port) false).set (MB.STAT.TEC.port port) 0).set
    (MB.STAT.REC.port port) 0
  b.raise [MB.EVT.BUSOFF_END.skip port.val]) s

/-- `LOAD_WINDOW_END`: the load of the last window, %. -/
def execLoadWindowEnd (port : Fin 6) (busy : Nat) (s : State) : Host.Outcome State Fault Refusal := onBlk (fun b =>
  let b := b.set (MB.STAT.LOAD.port port) (MB.STAT.LOAD.sat busy)
  let thr := b.r (MB.CONG.CONG_THR.port port)
  let cong := b.bit (MB.STAT.CONG.port port)
  if !cong && decide (thr < busy) then
    -- records that wait for TXB2 are discarded before they enter it (12 R417)
    let t := b.ports.get port
    let x := t.tx.get 2
    let b := { b with ports := b.ports.set port { t with tx := t.tx.set 2 { x with wait := x.wait.filter (·.pkt.cls != 3) } } }
    (b.setB (MB.STAT.CONG.port port) true).raise [MB.EVT.CONG_ON.skip port.val]
  else if cong && decide (busy + 10 ≤ thr) then (b.setB (MB.STAT.CONG.port port) false).raise [MB.EVT.CONG_OFF.skip port.val]
  else b) s

/-! ### Nap (09 R304 to R313) -/

/-- Pumps in nap (02 R40): a spare that is not used runs on. -/
def Axis.napPumps (a : Axis) : Axis :=
  let l := a.legs
  { a with legs := { l with pumpHold := if l.subRole.isSome then l.pumpOn else bitSet l.pumpOn 4 false } }

/-- The cell in nap (09 R308): its clocks stand, and its legs are off. -/
def Axis.sleep (a : Axis) (free : Nat) : Axis :=
  let x := a.counter free
  { a.napPumps with pwm := { a.pwm.dark with cnt := x.1, down := x.2, napped := true, late := true } }

/-- `NAP_ENTER` (09 R307, R308): every condition has held; a last exchange, and the lifetime counters are saved. -/
def execNapEnter (s : State) : Host.Outcome State Fault Refusal := onBlk (fun b =>
  if !b.napDue then b else
  let pw := { b.pw with okA := b.okOut .a, okB := b.okOut .b }
  let b := (b.exchange.saveLife).count CLK.NAP_CNT.N
  -- the converters start their nap conversions (08 R277), and the pumps of the working legs go to HOLD (02 R40)
  { b with nap := .napping, napCyc := 0, pw := pw, meas := { b.meas with tInt := Vector.replicate 8 napTInt }
           napTicks := 0, ax := Vector.ofFn fun n => (b.axis n).sleep (Config.freeNat (b.fresh + n.val)) }.draw 48) s

/-- The code and the port of a wake source (09 R323), and whether it is enabled (R309). -/
def Blk.wakeOf (b : Blk) : WakeSrc → Nat × Nat × Bool
  | .bus p => (1, p.val, (b.r CLK.WAKE_CFG.BUS).testBit p.val)
  | .fomin p => (2, p.val, b.bit CLK.WAKE_CFG.CASC)
  | .sto => (3, 0, true)
  | .ext => (4, 0, true)
  | .timer => (5, 0, b.bit CLK.WAKE_CFG.TMR_EN && b.r CLK.NAP_TMR.CYC != 0 && decide (b.napCyc ≤ b.r CLK.NAP_TMR.CYC))
  | .supply => (6, 0, b.bit CLK.WAKE_CFG.SUP_EN)
  | .cartridge => (7, 0, b.bit CLK.WAKE_CFG.ES_EN)
  | .sck0 => (8, 0, b.bit CLK.STAT.SCK_SRC)

/-- The enabled source of the lowest code among those that come at one instant (09 R321): its code and port. -/
def Blk.wakeFirst (b : Blk) (srcs : List WakeSrc) : Option (Nat × Nat) :=
  ((srcs.map b.wakeOf).filter (·.2.2)).foldl (fun (x : Option (Nat × Nat)) y =>
    match x with | some z => some (if y.1 < z.1 then (y.1, y.2.1) else z) | none => some (y.1, y.2.1)) none

/-- `NAP_WAKE` (09 R307, R309, R310, R321): a source wakes the module, or aborts its entry, after which the delay starts again. -/
def execNapWake (srcs : List WakeSrc) (s : State) : Host.Outcome State Fault Refusal := onBlk (fun b =>
  match b.wakeFirst srcs with
  | none => b
  | some (c, p) =>
    if !b.pw.powered || b.pw.held || b.pw.resetDue.isSome then b
    else match b.nap with
    | .napping =>
      let b := (((b.set CLK.WAKE_SRC.SRC c).set CLK.WAKE_SRC.PORT p).set CLK.WAKE_SRC.QUEUED 0).raise [CLK.EVT.WAKE]
      { b with nap := .waking, rx := { b.rx with wake := [] } }
    | .awake => if b.napDue then { b with napTicks := 0 }.raise [CLK.EVT.NAP_ABORT] else b
    | .waking => b) s

/-- A queued frame at ready (09 R312). -/
def Blk.wakeFrame (b : Blk) (f : Frame) : Blk :=
  let b := if f.good then b.heard f.src f.hdr.sid f.port f.endUs else b
  match b.reassemble f with
  | (b, some body) => if f.idle b.addr then b else b.runPacket f.hdr f.opc body
  | (b, none) => b

/-- `WAKE_READY` (09 R306, R310 to R313, R321): the filters start from their beginning, the trip inputs act, and so does a sensor supply that
shut down in nap (17 R527).  The queued commands count as of the swath before W, which the next `SWATH_START` begins. -/
def execWakeReady (x : WakeIn) (s : State) : Host.Outcome State Fault Refusal := onBlk (fun b =>
  if b.nap != .waking then b else
  let q := b.rx.wake
  let b := { b.sleptFor x.slow with nap := .awake, rx := { b.rx with wake := [] } }
  let w := b.wide
  let b := b.cells allAxes fun _ c =>
    let lost := c.ax.bl.supplyNap
    let c := if lost then (c.bl fun x => { x with supplyNap := false }).supplyFails else c
    (((c.legs fun l => { l with pumpHold := 0 }).pwm fun p => { p with napped := false }).restartWindows w x.cyc).takeStanding w x.cyc
  let b := b.set CLK.WAKE_SRC.QUEUED q.length
  let b := { b with sess := b.sess.map fun x => { x with hbFrom := max x.hbFrom (1000 * (b.swath + 1)) } }
  q.foldl Blk.wakeFrame b) s

end Sys2Proof.Machine
end

