-- ==== Sys2Proof/Machine/SerialRows.lean ====
section
/-!
DEFINITION. The serial memory ports (16 R481 to R490): window reads and writes, the page buffer, polls and retries; the cam
library (R496) and the log (R498).
-/

namespace Sys2Proof.Machine

/-! ### The port -/

/-- The contents once an operation has ended. -/
def SmOp.apply (m : List Host.Cell) : SmOp → List Host.Cell
  | .program dev base bs => memProgram m dev base bs
  | .erase dev base => memErase m (devKey dev base)

/-- The contents as a frame that waits for the operation in progress finds them. -/
def SmPort.view (p : SmPort) : List Host.Cell := if p.cut then p.mem else p.op.elim p.mem fun o => o.apply p.mem

/-- `PROG` reads 1 until the poll of a flush ends (16 R489). -/
def Blk.smShow (b : Blk) (s : Side) : Blk := b.setB (SMP.STAT.PROG.smp s) ((b.smp s).op.any SmOp.writes)

/-- The operation in progress ends as done: a load's block is erased (16 R490, R495). -/
def Blk.smEnd (b : Blk) (s : Side) : Blk :=
  match (b.smp s).op with
  | none => b
  | some o =>
    let b := b.mapSm s fun p => { p with mem := o.apply p.mem, op := none, cut := false }
    match b.fw, o with
    | some f, .erase _ base =>
      let e := f.erased.get s.idx
      if f.sides.contains s && base = bankBase f.bank + 65536 * e then { b with fw := some { f with erased := f.erased.set s.idx (e + 1) } } else b
    | _, _ => b

/-- The operation in progress ends, and the port goes on with a load's next block. -/
def Blk.smDone (b : Blk) (s : Side) : Blk :=
  if (b.smp s).op.isNone then b else (b.smEnd s).fwErase.smShow s

/-- The page buffer is flushed; it waits for the operation in progress, and goes ahead of a load's next block. -/
def Blk.smWrite (b : Blk) (s : Side) : Blk :=
  match (b.smp s).page with
  | none => b
  | some _ => (b.smEnd s).smFlush s

/-- The device of an access: a fetch takes device 0 (16 R488). -/
def Blk.smDev (b : Blk) (s : Side) (fetch : Bool) : Fin 8 :=
  let n := b.r (SMP.WIN.SEL.smp s)
  if fetch then 0 else ⟨n % 8, by omega⟩

/-- The addresses that the window's address bytes reach (16 R488). -/
def Blk.smSpan (b : Blk) (s : Side) : Nat := 2 ^ (8 * b.r (SMP.WIN2.ABYTES.smp s))

def Blk.smReach (b : Blk) (s : Side) (off : Nat) : Bool := decide (off < b.smSpan s)

/-- A failed frame counts (16 R485). -/
def Blk.smErr (b : Blk) (s : Side) (f : Flag) : Blk := (b.count (SMP.STAT.ERR.smp s)).raise [smpFlag f s]

/-- What a read leaves: the line asked for and the one prefetched, past the reach of the address bytes zero. -/
def SmPort.took (p : SmPort) (data : List Byte) : SmPort :=
  { p with line := padTo 64 data, ahead := padTo 64 (data.drop 64), retry := none }

/-- A read frame over a line and the next (16 R486, R488; notes/assumptions/110.md): answered busy it ends after its first byte and is
repeated. -/
def Blk.smRead (b : Blk) (s : Side) (dev : Fin 8) (addr n : Nat) (fetch gone : Bool) : Blk :=
  let mem := if gone then [] else (b.smp s).view
  let data := memBytes mem (devKey dev addr) (min 128 (b.smSpan s - addr))
  let busy := b.bit (SMP.WIN2.BUSY_EN.smp s) && (memGet mem (devKey dev addr)).toNat = b.r (SMP.WIN2.BUSY_PAT.smp s)
  let b := (b.set (SMP.STAT.RETRY.smp s) (min 255 n)).smSend s [b.readFrame s dev addr (if busy then data.take 1 else data)]
  if !busy then b.mapSm s (·.took data)
  else if n < b.r (SMP.WIN2.RETRY_MAX.smp s) then b.mapSm s fun p => { p with line := [], ahead := [], retry := some (dev, addr, n, fetch) }
  else
    let b := (b.mapSm s fun p => { p with line := [], ahead := [], retry := none }).smErr s SMP.EVT.RETRY_MAX
    if fetch then b.fetchFails s else b

/-- Bits received of a run of bytes: those of a byte cut short are kept right-aligned (16 R485). -/
def bitsOf (bs : List Byte) (n : Nat) : List Byte :=
  bs.take (n / 8) ++ (if n % 8 = 0 then [] else ((bs[n / 8]?).map fun (v : Byte) => v >>> (8 - n % 8)).toList)

/-- A side loads its firmware: as the module boots, or beside a side that runs (09 R314, 10 R330). -/
def Blk.loads (b : Blk) (s : Side) : Bool := b.booting || (b.side s).st == .booting

/-- A read on both edges whose strobe is lost after n bits (16 R482, R485): the frame fails and keeps what it received.  The boot load
repeats it once (R501). -/
def Blk.smStrobeLost (b : Blk) (s : Side) (dev : Fin 8) (addr n : Nat) (fetch : Bool) : Blk :=
  let data := memBytes (b.smp s).view (devKey dev addr) (min 128 (b.smSpan s - addr))
  let n := min n (8 * data.length)
  let got := bitsOf data n
  let b := b.smSend s [{ b.readFrame s dev addr got with bits := n }]
  let b := (b.mapSm s fun p => { p with line := got.take 64, ahead := got.drop 64, retry := none }).smErr s SMP.EVT.DQS_LOSS
  if !fetch then b else if b.loads s then b.mapSm s fun p => { p with lost := p.lost + 1 } else b.fetchFails s

/-- The port's side uses it: the module is powered and awake, and the side is not held out. -/
def Blk.smOn (b : Blk) (s : Side) : Bool := b.pw.powered && !b.pw.held && b.nap == .awake && (b.side s).st != .out

/-- `SM_WINDOW_READ` (16 R488): the page buffer goes first; a device that has been removed answers ones (R501). -/
def execSmWindowRead (i : Side) (off : Nat) (fetch : Bool) (x : SmIn) (s : State) : Host.Outcome State Fault Refusal := onBlk (fun b =>
  if !b.smOn i then b else
  -- a fetch while the module boots is the load of its firmware (09 R314; notes/assumptions/144.md)
  let b := if fetch && b.booting && b.phase = 0 then b.set MOD.STATE.PHASE 2 else b
  let dev := b.smDev i fetch
  let addr := off - off % 64
  let b := b.smWrite i
  let none_ := fun (b : Blk) => b.mapSm i fun p => { p.took [] with frames := [] }
  if !b.smReach i off then none_ b
  else if (b.smp i).absent.getLsbD dev.val then
    let b := (none_ b).raise [smpFlag SMP.EVT.DEV_ABSENT i]
    if fetch then b.fetchFails i else b
  else match (if b.bit (SMP.CFG.DDR.smp i) && b.bit (SMP.CFG.DQS.smp i) then x.dqsLost else none) with
    | some n => b.smStrobeLost i dev addr n fetch
    | none =>
      -- the repeated frame of a boot load has come whole (R501)
      let b := if fetch && b.loads i then b.mapSm i fun p => { p with lost := p.lost / 2 * 2 } else b
      let b := b.smRead i dev addr 0 fetch x.gone
      -- it fails the next identification too
      let b := if x.gone then b.mapSm i fun p => { p with answers := p.answers.set dev 0xFFFFFF } else b
      if fetch && x.gone && (b.smp i).retry.isNone then b.fetchFails i else b) s

/-- `SM_BUSY_RETRY`: after `RETRY_DLY` the frame is repeated (16 R486). -/
def execSmBusyRetry (i : Side) (s : State) : Host.Outcome State Fault Refusal := onBlk (fun b =>
  match (b.smp i).retry with
  | some (dev, addr, n, fetch) => if b.smOn i then b.smRead i dev addr (n + 1) fetch false else b
  | none => b) s

/-- A byte of the page buffer, by rising offset. -/
def pagePut (l : List (Nat × Byte)) (o : Nat) (v : Byte) : List (Nat × Byte) :=
  l.filter (fun x => decide (x.1 < o)) ++ (o, v) :: l.filter (fun x => decide (o < x.1))

/-- `SM_WINDOW_WRITE` (16 R488, R489). -/
def execSmWindowWrite (i : Side) (off : Nat) (v : Byte) (s : State) : Host.Outcome State Fault Refusal := onBlk (fun b =>
  if !b.smOn i then b else
  let dev := b.smDev i false
  if !b.smReach i off then b.raise [smpFlag SMP.EVT.PROG_FAIL i]
  else if (b.smp i).absent.getLsbD dev.val then b.raise [smpFlag SMP.EVT.DEV_ABSENT i]
  else
    let base := off - off % 256
    let other := (b.smp i).page.elim false fun g => g.dev != dev || g.base != base
    let b := if other then b.smWrite i else b
    b.mapSm i fun p =>
      let g := p.page.getD ⟨dev, base, []⟩
      { p with page := some { g with bytes := pagePut g.bytes (off % 256) v } }) s

/-- `SM_PAGE_FLUSH`: no window write for `idle` µs, of which the flush takes 20 (16 R489); what was written to a device found absent since is ignored
(R488). -/
def execSmPageFlush (i : Side) (idle : Nat) (s : State) : Host.Outcome State Fault Refusal := onBlk (fun b =>
  match (b.smp i).page with
  | none => b
  | some g =>
    if !b.smOn i || decide (idle < 20) then b
    else if (b.smp i).absent.getLsbD g.dev.val then (b.mapSm i fun p => { p with page := none }).raise [smpFlag SMP.EVT.DEV_ABSENT i]
    else b.smWrite i) s

/-- An operation of the port is being polled: the side that would repeat a cut one has to run first. -/
def SmPort.polls (p : SmPort) : Bool := p.op.isSome && !p.cut

/-- `SM_POLL_DONE` (16 R490): a poll of one data byte; the operation ends once its bit `BUSY_BIT` differs from `BUSY_POL`. -/
def execSmPollDone (x : PollIn) (s : State) : Host.Outcome State Fault Refusal := onBlk (fun b =>
  let i := x.side
  match (b.smp i).op with
  | none => b
  | some o =>
    if !(b.smp i).polls then b else
    let dev := match o with | .program dev .. => dev | .erase dev _ => dev
    let b := b.smSend i [b.serFrame i dev (b.r (SMP.WIN.STAT_CMD.smp i)) none 0 [x.status] true]
    if x.status.getLsbD (b.r (SMP.WIN.BUSY_BIT.smp i)) = b.bit (SMP.WIN.BUSY_POL.smp i) then b else b.smDone i) s

/-- `SM_POLL_TIMEOUT` (16 R490): the operation counts as not done. -/
def execSmPollTimeout (i : Side) (s : State) : Host.Outcome State Fault Refusal := onBlk (fun b =>
  if !(b.smp i).polls then b
  else ((b.mapSm i fun p => { p with op := none }).smErr i SMP.EVT.PROG_FAIL).smShow i) s

/-! ### The cam library and the log -/

/-- A side that runs, with its device 0. -/
def Blk.stores (b : Blk) (s : Side) : Bool :=
  b.smOn s && ((b.side s).st == .active || (b.side s).st == .standby) && !(b.smp s).absent.getLsbD 0

/-- `CAM_SLOT_WRITE` (16 R496). -/
def execCamSlotWrite (i : Side) (t : Fin 64) (s : State) : Host.Outcome State Fault Refusal := onBlk (fun b =>
  let tab := b.cams.get t
  if !b.stores i || !(b.camDirty.get i.idx).getLsbD t.val || !tab.valid then b
  else
    let b := b.smSend i (b.opFrames i (.erase 0 (camSlot t)) ++ b.putFrames i (camSlot t) tab.slotBytes)
    let b := b.mapSm i fun p => { p with mem := memPut (memErase p.mem (camSlot t)) (camSlot t) tab.slotBytes }
    { b with camDirty := b.camDirty.set i.idx (bitSet (b.camDirty.get i.idx) t.val false) }) s

/-- `HEAD` enters a block: the next is erased, and `TAIL` goes past what it held (16 R498). -/
def Blk.logEnter (b : Blk) (i : Side) : Blk :=
  let l := b.logs.get i.idx
  let k := l.head / logPerBlock
  let base := logAddr (logPerBlock * (k + 1))
  let b := b.mapSm i fun p => { p with mem := memErase p.mem base, frames := p.frames ++ b.opFrames i (.erase 0 base) }
  let tail := logPerBlock * (k + 2 - logBlocks)
  if k + 1 < logBlocks || tail ≤ l.tail then b
  else
    let first := !l.wrapped
    { b with logs := b.logs.set i.idx { l with tail := tail, wrapped := true } }.raiseIf (first && b.act = some i) LOG.EVT.WRAP

/-- A page of the log is written: the entries of the buffer up to the page's end. -/
def Blk.logPage (b : Blk) (i : Side) : Blk :=
  let l := b.logs.get i.idx
  let n := min l.buf.length (8 - l.head % 8)
  let bytes := (l.buf.take n).zipIdx.flatMap fun x => x.1.bytes (l.head + x.2)
  let b := b.smSend i (b.putFrames i (logAddr l.head) bytes)
  let b := b.mapSm i fun p => { p with mem := memProgram p.mem 0 (logAddr l.head) (bytes.zipIdx.map fun x => (x.2, x.1)) }
  let b := { b with logs := b.logs.set i.idx { l with buf := l.buf.drop n, head := l.head + n } }
  if (l.head + n) % logPerBlock = 0 then b.logEnter i else b

/-- `LOG_ENTRY_WRITE` (16 R498, R499): a failed write leaves its entries in the buffer. -/
def execLogEntryWrite (i : Side) (ok : Bool) (s : State) : Host.Outcome State Fault Refusal := onBlk (fun b =>
  let l := b.logs.get i.idx
  if l.buf = [] || !b.smOn i then b
  else if !ok || !b.stores i then b.raise [LOG.EVT.MEM_FAIL]
  else b.logPage i) s

end Sys2Proof.Machine
end

