-- ==== Sys2Proof/Machine/CascRows.lean ====
section
/-!
DEFINITION. The stack (15): hops and wraps (R461, R462), roles and positions (R463 to R468), cascade frames with what they carry
(R460, R469 to R478), and the loss of the master (R468).
-/

namespace Sys2Proof.Machine

/-- The cascade ports are in use, on a module that runs (15 R459). -/
def Blk.cascOn (b : Blk) : Bool := b.running && b.bit CASC.CFG.EN

def Blk.mapCasc (b : Blk) (f : Casc → Casc) : Blk := { b with casc := f b.casc }

/-- The entry of this module. -/
def Casc.mapSelf (c : Casc) (f : StackMod → StackMod) : Casc :=
  { c with mods := c.mods.map fun m => if !m.heldOut && m.pos = c.selfPos then f m else m }

/-- This module's own wraps, as its state shows them. -/
def Casc.showWrap (c : Casc) : Casc := c.mapSelf fun m => { m with wrap := c.lostUp || c.lostDown }

/-! ### Hops (15 R461, R462) -/

def Casc.setHop (c : Casc) (up lost clean : Bool) : Casc :=
  (if up then { c with lostUp := lost, cleanUp := clean } else { c with lostDown := lost, cleanDown := clean }).showWrap

def Casc.lost (c : Casc) (up : Bool) : Bool := if up then c.lostUp else c.lostDown

/-- `HOP_LOST`. -/
def execHopLost (up : Bool) (s : State) : Host.Outcome State Fault Refusal := onBlk (fun b =>
  if !b.cascOn then b
  else
    let was := b.casc.lost up
    let b := b.mapCasc (·.setHop up true false)
    if was then b else b.raise [CASC.EVT.LINK_LOSS, CASC.EVT.WRAP]) s

/-- `HOP_RESTORED`: 1 ms of clean signal; the wrap goes at the next frame 0. -/
def execHopRestored (up : Bool) (s : State) : Host.Outcome State Fault Refusal := onBlk (fun b =>
  if b.cascOn && b.casc.lost up then b.mapCasc (·.setHop up true true) else b) s

/-- The start of frame 0 removes the wraps of restored hops. -/
def Blk.unwrap (b : Blk) : Blk :=
  let one := fun (b : Blk) (up clean : Bool) => if clean then (b.mapCasc (·.setHop up false false)).raise [CASC.EVT.UNWRAP] else b
  one (one b true b.casc.cleanUp) false b.casc.cleanDown

/-! ### Roles and positions (15 R463 to R465) -/

/-- The module of the lowest serial number. -/
def lowest (l : List (ModInfo × Nat)) : Option (ModInfo × Nat) :=
  l.foldl (fun (z : Option (ModInfo × Nat)) y => z.elim (some y) fun x => if y.1.serial < x.1.serial then some y else some x) none

def stackEntry (pos : Nat) (x : ModInfo) (master alt conflict : Bool) : StackMod :=
  { addr := BitVec.ofNat 8 (0x40 + pos), pos := pos, serial := x.serial, lmax := x.linkMax, master := master, alt := alt
    ready := x.ready, wrap := false, heldOut := false, conflict := conflict, noSync := false, missed := 0 }

/-- Roles of the connected modules: the places of the master and of the alternate in the ring. -/
def stackRoles (ms : List ModInfo) : Option (Nat × Option Nat) :=
  let l := ms.zipIdx
  match lowest (l.filter (·.1.mstr)) with
  | some m => some (m.2, (lowest (l.filter fun x => x.1.alt && x.2 != m.2)).map (·.2))
  | none => (lowest (l.filter (·.1.alt))).map fun m => (m.2, none)

/-- The stack that forms, with this module's place: ready modules in ring order from the master. -/
def formStack (ms : List ModInfo) (self : Nat) : Option (List StackMod × Nat) :=
  match stackRoles ms with
  | none => none
  | some (mi, ai) =>
    let l := ms.zipIdx
    let ring := (l.drop mi ++ l.take mi).filter (·.1.ready)
    let es := ring.zipIdx.map fun x => stackEntry x.2 x.1.1 (x.1.2 = mi) (ai = some x.1.2) (x.1.1.mstr && x.1.2 != mi)
    match ring.findIdx? (·.2 = self) with
    | some p => if (ring.head?).elim false (·.2 = mi) && 2 ≤ ms.length then some (es, p) else none
    | none => none

/-- The lowest of the highest link versions (15 R479). -/
def linkVersion (es : List StackMod) : Nat := (es.foldl (fun (v : Option Nat) m => some (v.elim m.lmax (min m.lmax))) none).getD 0

/-- `VER_LOW` of a module that could run a higher version (15 R479). -/
def Blk.verLow (b : Blk) : Blk :=
  b.raiseIf (b.casc.mods.any fun m => !m.heldOut && m.pos = b.casc.selfPos && decide (b.casc.lver < m.lmax)) CASC.EVT.VER_LOW

/-- This module takes its place in a stack: one that forms, or one that it joins. -/
def Blk.enter (b : Blk) (es : List StackMod) (pos lver : Nat) (joined : Bool) : Blk :=
  let c := b.casc
  (b.mapCasc fun _ => ({
    mods := es, selfPos := pos, formed := true, lver := lver, lostUp := c.lostUp, lostDown := c.lostDown
    cleanUp := c.cleanUp, cleanDown := c.cleanDown, joined := joined } : Casc).showWrap).verLow

/-- `STACK_FORM`. -/
def execStackForm (ms : List ModInfo) (self : Nat) (s : State) : Host.Outcome State Fault Refusal := onBlk (fun b =>
  if !b.cascOn then b
  else match formStack ms self with
    | some (es, p) => b.enter es p (linkVersion es) false
    | none => b) s

/-- The lowest free position. -/
def freePos (used : List Nat) : Nat := ((List.range 8).find? fun p => !used.contains p).getD 8

/-- A module is held out (15 R465). -/
def heldEntry (x : ModInfo) : StackMod := { stackEntry 0xFF x false false false with addr := 0, heldOut := true }

/-- `MODULE_JOIN`: of this module, with the stack that it joins, or of another. -/
def execModuleJoin (x : ModInfo) (stack : Option StackInfo) (s : State) : Host.Outcome State Fault Refusal := onBlk (fun b =>
  if !b.cascOn then b
  else match stack with
    | some t =>
      if x.linkMax < t.lver || 8 ≤ t.mods.length then b.mapCasc fun c => { c with formed := false, mods := [], heldOut := true }
      else
        let es := t.mods.map fun m => stackEntry m.1 m.2 (m.1 = 0) (t.altPos = some m.1) (m.2.mstr && m.1 != 0)
        let p := freePos (t.mods.map (·.1))
        (b.enter (es ++ [stackEntry p x false false x.mstr]) p t.lver true).raise [CASC.EVT.JOIN]
    | none =>
      if !b.stacked then b else
      let rest := b.casc.mods.filter fun m => !(m.heldOut && m.serial = x.serial)
      let inside := rest.filter (!·.heldOut)
      if x.linkMax < b.casc.lver || 8 ≤ inside.length then b.mapCasc fun c => { c with mods := rest ++ [heldEntry x] }
      else
        let p := freePos (inside.map (·.pos))
        (b.mapCasc fun c => { c with mods := rest ++ [stackEntry p x false false x.mstr] }).raise [CASC.EVT.JOIN]) s

/-- `MODULE_LEAVE` (15 R467, R470): the master finds three frames missed; routed commands to the module are refused.  A slave
that hears nothing may be the module that left: it has no place then, until it is enumerated again. -/
def execModuleLeave (addr : Byte) (s : State) : Host.Outcome State Fault Refusal := onBlk (fun b =>
  if b.cascOn && b.under && b.casc.alone && (b.casc.mods.any fun m => !m.heldOut && m.addr = addr && m.pos = b.casc.selfPos) then
    (b.mapCasc fun c => { c with formed := false, mods := [], heldOut := true, parted := true }).raise [CASC.EVT.LEAVE]
  else if !b.cascOn || !b.casc.formed || !(b.casc.mods.any fun m => !m.heldOut && m.addr = addr && m.pos != b.casc.selfPos && (b.under || 3 ≤ m.missed)) then b
  else
    let gone := b.casc.routes.filter (·.1 = addr)
    let b := (b.mapCasc fun c => { c with
      mods := c.mods.filter fun m => m.heldOut || m.addr != addr, routes := c.routes.filter (·.1 != addr) }).raise [CASC.EVT.LEAVE]
    gone.foldl (fun (b : Blk) r => b.refusedState r.2) b) s

/-! ### The session of the stack (15 R468, R469) -/

/-- The registers that `BUDGET_SET` writes, in the order of frame 0. -/
def budgetRegs : List Nat := stackRegs.dropLast

/-- What the master publishes in frame 0. -/
def Blk.ownFrame0 (b : Blk) : Frame0 :=
  let s := b.sess
  { sid := s.elim 0 (·.sid), owner := s.elim 0 (·.owner), open_ := s.isSome, orphan := s.elim false (·.orphan), tmo := s.elim 0 (·.tmo)
    keyCrc := s.elim 0 (·.keyCrc), base := s.elim 0 (·.base), l := b.planes.map (·.l)
    budget := budgetRegs.map fun i => (b.regs[i]?).getD 0
    margin := BitVec.ofNat 8 (b.r LEDG.RES_CFG.RES_MARGIN) }

/-- The session as a slave holds it: routed commands come at version 2.1 only. -/
def Frame0.session (f : Frame0) : Session :=
  { sid := f.sid, owner := f.owner, version := 0x21, tmo := f.tmo, events := true, keyCrc := f.keyCrc
    keyZero := f.keyCrc = crc32 (List.replicate 8 0), orphan := f.orphan, base := f.base, hbFrom := 0 }

def Blk.setL (b : Blk) (l : Vector (BitVec 16) 3) : Blk :=
  { b with planes := Vector.ofFn fun i => { b.planes.get i with l := l.get i, armed := false } }

/-- A slave follows the session that the master publishes: it opens, closes, expires and passes with it.  Its own L runs from the
SEQ of the `OPEN_SESSION`, or from the base of a claim; on a module that joins, from 0. -/
def Blk.adopt (b : Blk) (f : Frame0) : Blk :=
  let joined := b.casc.joined
  let own := if joined then Vector.replicate 3 0 else Vector.replicate 3 f.base
  let b := b.mapCasc fun c => { c with joined := false }
  let close := fun (b : Blk) => match b.sess with
    | some s => if s.orphan then b.endSession else b.closeSession
    | none => b
  if !f.open_ then close b
  else match b.sess with
    | some s =>
      if s.sid != f.sid then
        ({ (close b).mapPlanes fun p => { p with acc := [] } with sess := some (Frame0.session f) }.setL own).raise [ MOD.EVT.SESS_OPEN]
      else if !joined && (s.owner != f.owner || s.base != f.base || (s.orphan && !f.orphan)) then
        let ax := b.ax.map fun (a : Axis) => { a.setB AX.RST_STAT.ORPHAN false with mot := { a.mot with orphan := false } }
        let z := { s with owner := f.owner, orphan := f.orphan, base := f.base }
        ({ b with sess := some z, ax := ax, orphanAt := none }.setL own).raise [ MOD.EVT.CLAIM]
      else
        let b := if joined then { b.setL own with sess := some { s with owner := f.owner, base := f.base } } else b
        if !s.orphan && f.orphan then b.orphan.raise [ MOD.EVT.SESS_EXP] else b
    | none => ({ b.mapPlanes fun p => { p with acc := [] } with sess := some (Frame0.session f) }.setL own).raise [ MOD.EVT.SESS_OPEN]

/-- The stack's budget and margin go into the registers of a slave, in force from its next swath (15 R475). -/
def Blk.adoptBudget (b : Blk) (f : Frame0) : Blk :=
  let b := (budgetRegs.zip f.budget).foldl (fun (b : Blk) x => { b with regs := b.regs.setIfInBounds x.1 x.2 }) b
  b.set LEDG.RES_CFG.RES_MARGIN f.margin.toNat

/-! ### What frames carry -/

/-- The modules heard, their wraps and their alignment (15 R466, R467). -/
def Casc.heardBy (c : Casc) (x : CascIn) : Casc :=
  { c with mods := c.mods.map fun m =>
      if m.heldOut || m.pos = c.selfPos then m
      else { m with missed := if x.heard.contains m.addr then 0 else m.missed + 1
                    wrap := if x.heard.contains m.addr then x.wraps.contains m.addr else m.wrap
                    noSync := if x.heard.contains m.addr then x.noSync.contains m.addr else m.noSync } }

/-- The swath offset (15 R473): aligned again once it has stayed within 1 µs from one frame 0 to the next. -/
def Blk.align (b : Blk) (x : CascIn) : Blk :=
  let b := (b.setS CASC.SYNC.OFS x.ofs).mapCasc fun c => { c with swathOfs := (x.swath : Int) - b.swath }
  let bad := decide (1000 < x.ofs.natAbs)
  let n := if bad then 0 else b.casc.okFrames + 1
  let sync := !bad && (b.casc.inSync || decide (2 ≤ n))
  (b.mapCasc fun c => ({ c with inSync := sync, okFrames := min n 2 }).mapSelf fun m => { m with noSync := !sync }).raiseIf bad CASC.EVT.SYNC_LOSS

/-- Frame 0: alignment, and what the master publishes. -/
def Blk.frame0 (b : Blk) (x : CascIn) : Blk :=
  let b := b.align x
  if b.master then b.mapCasc fun c => { c with pub := some b.ownFrame0 }
  else match x.frame0 with
    | some f => ((b.adopt f).adoptBudget f).mapCasc fun c => { c with pub := some f }
    | none => b

/-- The session that two publications tell of is the same. -/
def Frame0.sameSession (f g : Frame0) : Bool :=
  f.sid = g.sid && f.owner = g.owner && f.open_ = g.open_ && f.orphan = g.orphan && f.base = g.base

/-- A change of the session goes with the next frame of the swath in which the master made it (15 R469; notes/assumptions/142.md). -/
def Blk.sessionPart (b : Blk) (x : CascIn) : Blk :=
  let own := b.ownFrame0
  let news := fun (f : Frame0) => if Frame0.sameSession f own then f else { own with l := f.l, budget := f.budget, margin := f.margin }
  if b.master then b.mapCasc fun c => { c with pub := c.pub.map news }
  else x.frame0.elim b b.adopt

/-- Remote masters that this module's followers name. -/
def Blk.remoteNames (b : Blk) : List (Byte × Fin 48 × Fin 3) :=
  (allAxes.filterMap fun n => match (b.axis n).master with
    | some (.remote a m k) => some (a, m, k)
    | _ => none).eraseDups

/-- Frame 1 (15 R474): positions published and received; those of a module out of alignment count as missing. -/
def Blk.frame1 (b : Blk) (x : CascIn) : Blk :=
  let names := b.remoteNames
  let mute := fun (a : Byte) => b.casc.mods.any fun m => m.addr = a && m.noSync
  let kept := b.casc.remote.filter fun r => names.contains (r.addr, r.axis, r.src)
  let new := names.filter fun y => !kept.any fun r => r.addr = y.1 && r.axis = y.2.1 && r.src = y.2.2
  let all := kept ++ new.map fun y => ({ addr := y.1, axis := y.2.1, src := y.2.2, m1 := 0, m2 := 0, n := 0, got := none, missing := 0 } : RemoteSample)
  let got := fun (r : RemoteSample) => if mute r.addr then none else
    (x.remote.find? fun p => p.addr = r.addr && p.axis = r.axis && p.src = r.src).map (·.pos)
  b.mapCasc fun c => { c with
    remote := all.map fun r => { r with got := got r }
    published := x.asks.map fun y => { addr := b.addr, axis := y.1, src := y.2, pos := (c.tick0.get y.1).get y.2 } }

/-- This module's summary for the decisions of the next swath (15 R477). -/
def Blk.summary (b : Blk) : Summary :=
  let c := b.plan.copy
  { pos := b.casc.selfPos, u := b.ownU (b.swath + 2), g := b.ownG (b.swath + 2), c := b.plan.cands.length
    pBase := if c.aux then 0 else (c.pLogic + 99) / 100, vA := 10 * c.vSup.get 0, vB := 10 * c.vSup.get 1 }

/-- Frame 4: summaries; a missing one keeps its last figures, with no candidates (15 R478). -/
def Blk.frame4 (b : Blk) (x : CascIn) : Blk :=
  let own := b.summary
  let b := b.mapCasc fun c => { c with own := some own }
  if !b.master then b
  else
    let c := b.casc
    let of := fun (m : StackMod) =>
      if m.pos = c.selfPos then some own
      else match x.summaries.find? (·.pos = m.pos) with
        | some s => some s
        | none => (c.sums.find? (·.pos = m.pos)).map fun s => { s with c := 0 }
    { b with casc := { c with sums := (c.mods.filter (!·.heldOut)).filterMap of } }

/-- Frame 7: the shares and credits of every module for the next swath (07 R256, 15 R478), and this module's own among them. -/
def Blk.frame7 (b : Blk) (x : CascIn) : Blk :=
  let all := if b.master then b.stackShares.1.map fun y => ⟨y.1, y.2.1, y.2.2⟩ else x.shares
  b.mapCasc fun c => { c with shares := all, shareNext := (all.find? (·.pos = c.selfPos)).map fun s => (s.share, s.credit) }

/-- A slave's event goes to the owner as a class-5 frame with the slave's address (15 R471). -/
def Blk.forward (b : Blk) (addr : Byte) (bytes : List Byte) : Blk :=
  match b.sess with
  | none => b
  | some s =>
    if !b.master || s.orphan || s.version < 0x20 || !s.events then b else
    let body := bytes.drop 8
    let code := (body.headD 0).toNat
    let mgmt := 0x14 ≤ code && code ≤ 0x17
    let pair : Fin 3 := if mgmt then 2 else 0
    let dflt : Fin 6 := if mgmt then 4 else 0
    let o : OutPkt := {
      cls := 5, dest := s.owner, src := b.addr, major := ⟨s.version / 16 % 16, by omega⟩, async := true, reply := false, sid := s.sid
      seq := s.evSeq, opc := 0, tgt := (bytes[5]?).getD 0xFE, body := body.take 2 ++ addr :: body.drop 3 }
    let b := { b with sess := some { s with evSeq := s.evSeq + 1 } }
    b.send ((s.last.get pair).getD dflt) o

/-- A slave's reply answers the routed command that it belongs to (15 R470). -/
def Blk.routed (b : Blk) (addr : Byte) (bytes : List Byte) : Blk :=
  let of := fun (r : Byte × Req) =>
    let inner := r.2.body.drop 8
    r.1 = addr && (inner.drop 2).take 3 = (bytes.drop 2).take 3
  match b.casc.routes.find? of with
  | some r => (b.mapCasc fun c => { c with routes := c.routes.erase r }).ok r.2 (List.replicate 7 0 ++ bytes)
  | none => b

/-- A slave judges and runs an inner packet behind its plane byte (15 R470). -/
def Blk.inner (b : Blk) (bytes : List Byte) : Blk :=
  if !b.slave || b.pw.resetDue.isSome then b else
  let p := bytes.drop 1
  let d := fun (i : Nat) => (p[i]?).getD 0
  let opc := (d 4).toNat
  let named : Plane := match (bytes.headD 0).toNat with | 0 => .ctrl | 1 => .data | _ => .mgmt
  let pl := (opcode opc).elim named fun o => o.1.getD named
  let port : Fin 6 := match pl with | .ctrl => 0 | .data => 2 | .mgmt => 4
  let h : Hdr := {
    port := port, cls := 1, dest := b.addr, src := b.sess.elim 0 (·.owner), major := ⟨(d 0).toNat / 16 % 16, by omega⟩
    sid := d 1, seq := BitVec.ofNat 16 (leNat ((p.drop 2).take 2)), tgt := d 5, endUs := 0 }
  b.serve (fun b q => ((runOpc opc).getD fun b _ => b) b q) ⟨h, opc, p.drop 8, .ring⟩

/-- A cascade frame (15 R460): what this module had to place goes with it. -/
def Blk.cascFrame (b : Blk) (x : CascIn) : Blk :=
  let b := b.mapCasc fun c => { c.heardBy x with place := [], contrib := [], stopMark := none }
  let b := (b.count CASC.ERR.ERR_A x.errA).count CASC.ERR.ERR_B x.errB
  let b := match x.num.val with
    | 0 => b.frame0 x
    | 1 => b.frame1 x
    | 4 => b.frame4 x
    | 7 => b.frame7 x
    | _ => b
  let b := if x.num.val = 0 then b else b.sessionPart x
  let b := x.events.foldl (fun (b : Blk) e => b.forward e.1 e.2) b
  let b := x.replies.foldl (fun (b : Blk) r => b.routed r.1 r.2) b
  x.inners.foldl Blk.inner b

/-- `CASCADE_FRAME`: a stop goes ahead of everything, on every module (15 R472), and wraps of restored hops go at the start of frame 0
(R462).  Frames of a stack in which this module has no place leave it waiting to be enumerated (R465). -/
def execCascadeFrame (x : CascIn) (s : State) : Host.Outcome State Fault Refusal := onBlk (fun b =>
  if !b.cascOn then b
  else
    let b := x.stopAll.elim b fun v => b.stopEvery v.toNat
    let b := if x.num.val = 0 then b.unwrap else b
    if b.casc.formed then b.cascFrame x else b.mapCasc fun c => { c with heldOut := true }) s

/-! ### The master is lost (15 R468) -/

/-- The orphan policy, as though the session had expired. -/
def Blk.masterLoss (b : Blk) : Blk :=
  if b.sess.elim false (!·.orphan) then b.orphan.raise [ MOD.EVT.SESS_EXP] else b

/-- `ALT_TAKEOVER`: the alternate takes position 0, on itself with the session as last published, where it still hears every
other module. -/
def execAltTakeover (s : State) : Host.Outcome State Fault Refusal := onBlk (fun b =>
  if !b.cascOn || !b.under then b
  else match b.casc.mods.find? fun m => m.alt && !m.heldOut with
    | none => b
    | some alt =>
      let self := decide (alt.pos = b.casc.selfPos)
      let hears := b.casc.mods.all fun m => m.heldOut || m.master || m.alt || m.missed = 0
      if self && !(b.bit CASC.CFG.AUTO_ALT && hears) then b else
      let b := b.mapCasc fun c => { c with
        mods := (c.mods.filter (!·.master)).map fun m =>
          if m.alt && !m.heldOut then { m with pos := 0, addr := 0x40, master := true, alt := false } else m
        selfPos := if self then 0 else c.selfPos, routes := [] }
      let b := match b.casc.pub with | some f => if self then b.setL f.l else b | none => b
      b.masterLoss.raise [CASC.EVT.MASTER_CHG]) s

/-- `MASTER_SILENT`: three swaths after the last frame of the master, with no module in its place. -/
def execMasterSilent (s : State) : Host.Outcome State Fault Refusal := onBlk (fun b =>
  if b.cascOn && (b.under || b.casc.parted) then b.masterLoss.mapCasc fun c => { c with parted := false } else b) s

end Sys2Proof.Machine
end

