-- ==== Sys2Proof/Machine/Dispatch.lean ====
section
/-!
DEFINITION. The effect of a command on everything but the queue: one arm for each row of the table.
-/

namespace Sys2Proof.Machine

def exec (i : Instr) (s : State) : Host.Outcome State Fault Refusal :=
  match i with
  | .hello p => Sys2Proof.Machine.execHello p s
  | .openSession p => Sys2Proof.Machine.execOpenSession p s
  | .closeSession p => Sys2Proof.Machine.execCloseSession p s
  | .takeoverGrant p => Sys2Proof.Machine.execTakeoverGrant p s
  | .takeoverClaim p => Sys2Proof.Machine.execTakeoverClaim p s
  | .heartbeat p => Sys2Proof.Machine.execHeartbeat p s
  | .identify p => Sys2Proof.Machine.execIdentify p s
  | .moduleReset p => Sys2Proof.Machine.execModuleReset p s
  | .axisReset p => Sys2Proof.Machine.execAxisReset p s
  | .regRd p => Sys2Proof.Machine.execRegRd p s
  | .regWr p => Sys2Proof.Machine.execRegWr p s
  | .regRdBlk p => Sys2Proof.Machine.execRegRdBlk p s
  | .regWrBlk p => Sys2Proof.Machine.execRegWrBlk p s
  | .mbxRd p => Sys2Proof.Machine.execMbxRd p s
  | .axisConfig p => Sys2Proof.Machine.execAxisConfig p s
  | .motorModel p => Sys2Proof.Machine.execMotorModel p s
  | .zoneTableSpeed p => Sys2Proof.Machine.execZoneTableSpeed p s
  | .zoneTableForce p => Sys2Proof.Machine.execZoneTableForce p s
  | .zoneTableCorrection p => Sys2Proof.Machine.execZoneTableCorrection p s
  | .moveAbs p => Sys2Proof.Machine.execMoveAbs p s
  | .moveRel p => Sys2Proof.Machine.execMoveRel p s
  | .moveVel p => Sys2Proof.Machine.execMoveVel p s
  | .moveVelHome p => Sys2Proof.Machine.execMoveVelHome p s
  | .moveGroup p => Sys2Proof.Machine.execMoveGroup p s
  | .hold p => Sys2Proof.Machine.execHold p s
  | .fallow p => Sys2Proof.Machine.execFallow p s
  | .brake p => Sys2Proof.Machine.execBrake p s
  | .followStep p => Sys2Proof.Machine.execFollowStep p s
  | .gear p => Sys2Proof.Machine.execGear p s
  | .localSpeed p => Sys2Proof.Machine.execLocalSpeed p s
  | .camLoad p => Sys2Proof.Machine.execCamLoad p s
  | .camEngage p => Sys2Proof.Machine.execCamEngage p s
  | .camDisengage p => Sys2Proof.Machine.execCamDisengage p s
  | .stop p => Sys2Proof.Machine.execStop p s
  | .qstop p => Sys2Proof.Machine.execQstop p s
  | .stopAll p => Sys2Proof.Machine.execStopAll p s
  | .budgetSet p => Sys2Proof.Machine.execBudgetSet p s
  | .reserveSet p => Sys2Proof.Machine.execReserveSet p s
  | .ledgerRead p => Sys2Proof.Machine.execLedgerRead p s
  | .planQuery p => Sys2Proof.Machine.execPlanQuery p s
  | .streamStart p => Sys2Proof.Machine.execStreamStart p s
  | .streamStop p => Sys2Proof.Machine.execStreamStop p s
  | .logRead p => Sys2Proof.Machine.execLogRead p s
  | .grazeCtrl p => Sys2Proof.Machine.execGrazeCtrl p s
  | .calSelf p => Sys2Proof.Machine.execCalSelf p s
  | .calWrite p => Sys2Proof.Machine.execCalWrite p s
  | .calRead p => Sys2Proof.Machine.execCalRead p s
  | .fwLoadBegin p => Sys2Proof.Machine.execFwLoadBegin p s
  | .fwLoadData p => Sys2Proof.Machine.execFwLoadData p s
  | .fwLoadEnd p => Sys2Proof.Machine.execFwLoadEnd p s
  | .fwSwap p => Sys2Proof.Machine.execFwSwap p s
  | .sideSwitch p => Sys2Proof.Machine.execSideSwitch p s
  | .cascadeEnum p => Sys2Proof.Machine.execCascadeEnum p s
  | .cascadeRoute p => Sys2Proof.Machine.execCascadeRoute p s
  | .modUnlock h upper => Sys2Proof.Machine.execModUnlock h upper s
  | .mbxSelWrite h id => Sys2Proof.Machine.execMbxSelWrite h id s
  | .mbxCaptureDone pl => Sys2Proof.Machine.execMbxCaptureDone pl s
  | .loadAll h sel => Sys2Proof.Machine.execLoadAll h sel s
  | .tripClr h n => Sys2Proof.Machine.execTripClr h n s
  | .slcSingleReq h n req dsrc => Sys2Proof.Machine.execSlcSingleReq h n req dsrc s
  | .singleSampleTaken n s_ x => Sys2Proof.Machine.execSingleSampleTaken n s_ x s
  | .slcDataRead h n s_ => Sys2Proof.Machine.execSlcDataRead h n s_ s
  | .icDataRead h i_ => Sys2Proof.Machine.execIcDataRead h i_ s
  | .evtWriteBack h e v => Sys2Proof.Machine.execEvtWriteBack h e v s
  | .rwReqGo h axis pair iTest => Sys2Proof.Machine.execRwReqGo h axis pair iTest s
  | .rwMeasureDone o => Sys2Proof.Machine.execRwMeasureDone o s
  | .ic7Arm h cfg => Sys2Proof.Machine.execIc7Arm h cfg s
  | .sideRetry h v => Sys2Proof.Machine.execSideRetry h v s
  | .ctrClrMod h => Sys2Proof.Machine.execCtrClrMod h s
  | .ctrClrAxes h axis => Sys2Proof.Machine.execCtrClrAxes h axis s
  | .mbTimingWrite h i_ v => Sys2Proof.Machine.execMbTimingWrite h i_ v s
  | .mbFilterWrite h i_ j b v => Sys2Proof.Machine.execMbFilterWrite h i_ j b v s
  | .powerUp x => Sys2Proof.Machine.execPowerUp x s
  | .moduleReady x => Sys2Proof.Machine.execModuleReady x s
  | .nrst low => Sys2Proof.Machine.execNrst low s
  | .resetSequence straps => Sys2Proof.Machine.execResetSequence straps s
  | .logicPowerLoss => Sys2Proof.Machine.execLogicPowerLoss s
  | .holdUpExpiry => Sys2Proof.Machine.execHoldUpExpiry s
  | .nvStoreWrite n => Sys2Proof.Machine.execNvStoreWrite n s
  | .stoAssert a b => Sys2Proof.Machine.execStoAssert a b s
  | .stoRelease => Sys2Proof.Machine.execStoRelease s
  | .stoDiscordance => Sys2Proof.Machine.execStoDiscordance s
  | .tripExtChange high cyc seen => Sys2Proof.Machine.execTripExtChange high cyc seen s
  | .supplyOvBlock i_ mV => Sys2Proof.Machine.execSupplyOvBlock i_ mV s
  | .supplyReverseBlock i_ mV => Sys2Proof.Machine.execSupplyReverseBlock i_ mV s
  | .cartridgeChange k pres rdy => Sys2Proof.Machine.execCartridgeChange k pres rdy s
  | .reserveEnter => Sys2Proof.Machine.execReserveEnter s
  | .reserveExit => Sys2Proof.Machine.execReserveExit s
  | .periodBoundary n x => Sys2Proof.Machine.execPeriodBoundary n x s
  | .i2tClamp n => Sys2Proof.Machine.execI2tClamp n s
  | .didtDetect n leg => Sys2Proof.Machine.execDidtDetect n leg s
  | .bootUvEvent n leg => Sys2Proof.Machine.execBootUvEvent n leg s
  | .openEdge n x => Sys2Proof.Machine.execOpenEdge n x s
  | .substIsoOpenDone n => Sys2Proof.Machine.execSubstIsoOpenDone n s
  | .substTapCloseDone n => Sys2Proof.Machine.execSubstTapCloseDone n s
  | .substConfirmTimeout n => Sys2Proof.Machine.execSubstConfirmTimeout n s
  | .drainEnd x => Sys2Proof.Machine.execDrainEnd x s
  | .legCheckDone n x => Sys2Proof.Machine.execLegCheckDone n x s
  | .preTrip n src cyc seen => Sys2Proof.Machine.execPreTrip n src cyc seen s
  | .tripConfirm n src cyc => Sys2Proof.Machine.execTripConfirm n src cyc s
  | .debugHalt => Sys2Proof.Machine.execDebugHalt s
  | .debugRelease => Sys2Proof.Machine.execDebugRelease s
  | .motionTick x => Sys2Proof.Machine.execMotionTick x s
  | .stall n => Sys2Proof.Machine.execStall n s
  | .stallHoldExpiry n => Sys2Proof.Machine.execStallHoldExpiry n s
  | .restCeilingExpiry n => Sys2Proof.Machine.execRestCeilingExpiry n s
  | .obstacle n => Sys2Proof.Machine.execObstacle n s
  | .homeFound n => Sys2Proof.Machine.execHomeFound n s
  | .homeTimeout n => Sys2Proof.Machine.execHomeTimeout n s
  | .stepEdge n x => Sys2Proof.Machine.execStepEdge n x s
  | .hallEdge n x cyc => Sys2Proof.Machine.execHallEdge n x cyc s
  | .sensorSupplyOverload n => Sys2Proof.Machine.execSensorSupplyOverload n s
  | .testPulses n peaks => Sys2Proof.Machine.execTestPulses n peaks s
  | .initAngleDone n => Sys2Proof.Machine.execInitAngleDone n s
  | .bemfHandover n => Sys2Proof.Machine.execBemfHandover n s
  | .sensorlessGripEnd n => Sys2Proof.Machine.execSensorlessGripEnd n s
  | .lockedRotor n => Sys2Proof.Machine.execLockedRotor n s
  | .lockedBrakeEnd n => Sys2Proof.Machine.execLockedBrakeEnd n s
  | .rotorAtRest n => Sys2Proof.Machine.execRotorAtRest n s
  | .catchObserveDone n x => Sys2Proof.Machine.execCatchObserveDone n x s
  | .catchFail n => Sys2Proof.Machine.execCatchFail n s
  | .lsSignalLoss n => Sys2Proof.Machine.execLsSignalLoss n s
  | .moveStart n => Sys2Proof.Machine.execMoveStart n s
  | .queueStart n => Sys2Proof.Machine.execQueueStart n s
  | .masterLost n => Sys2Proof.Machine.execMasterLost n s
  | .camAtEngage n => Sys2Proof.Machine.execCamAtEngage n s
  | .camAtDisengage n => Sys2Proof.Machine.execCamAtDisengage n s
  | .camEccError t => Sys2Proof.Machine.execCamEccError t s
  | .swathStart => Sys2Proof.Machine.execSwathStart s
  | .supervisionTimeout n => Sys2Proof.Machine.execSupervisionTimeout n s
  | .stateExchange => Sys2Proof.Machine.execStateExchange s
  | .sideSwitchAct => Sys2Proof.Machine.execSideSwitchAct s
  | .streamCapture k => Sys2Proof.Machine.execStreamCapture k s
  | .chopperOn mV => Sys2Proof.Machine.execChopperOn mV s
  | .chopperOff mV => Sys2Proof.Machine.execChopperOff mV s
  | .chopFault => Sys2Proof.Machine.execChopFault s
  | .shortBrake82V => Sys2Proof.Machine.execShortBrake82V s
  | .linkWindowTrip high cyc seen => Sys2Proof.Machine.execLinkWindowTrip high cyc seen s
  | .icConversionDone i_ x => Sys2Proof.Machine.execIcConversionDone i_ x s
  | .napLedgerUpdate xs => Sys2Proof.Machine.execNapLedgerUpdate xs s
  | .bgCalItemStart spare => Sys2Proof.Machine.execBgCalItemStart spare s
  | .sliceCalDone id x => Sys2Proof.Machine.execSliceCalDone id x s
  | .calSelfDone => Sys2Proof.Machine.execCalSelfDone s
  | .calWriteDone => Sys2Proof.Machine.execCalWriteDone s
  | .grazeSlice x => Sys2Proof.Machine.execGrazeSlice x s
  | .grazeYield => Sys2Proof.Machine.execGrazeYield s
  | .grazePassLate => Sys2Proof.Machine.execGrazePassLate s
  | .lifeSave => Sys2Proof.Machine.execLifeSave s
  | .sck1Trim => Sys2Proof.Machine.execSck1Trim s
  | .sck0Fail => Sys2Proof.Machine.execSck0Fail s
  | .xtalFail s_ noEdge => Sys2Proof.Machine.execXtalFail s_ noEdge s
  | .stbyPllUnlock => Sys2Proof.Machine.execStbyPllUnlock s
  | .missingClockEdge => Sys2Proof.Machine.execMissingClockEdge s
  | .localClkSelect => Sys2Proof.Machine.execLocalClkSelect s
  | .localClkReturn => Sys2Proof.Machine.execLocalClkReturn s
  | .sideTakeover => Sys2Proof.Machine.execSideTakeover s
  | .unprotectedFailure => Sys2Proof.Machine.execUnprotectedFailure s
  | .sideRejoin => Sys2Proof.Machine.execSideRejoin s
  | .fwRevert => Sys2Proof.Machine.execFwRevert s
  | .sessionExpiry us => Sys2Proof.Machine.execSessionExpiry us s
  | .orphanHoldExpiry => Sys2Proof.Machine.execOrphanHoldExpiry s
  | .grantExpiry us => Sys2Proof.Machine.execGrantExpiry us s
  | .claimLockoutEnd us => Sys2Proof.Machine.execClaimLockoutEnd us s
  | .napEnter => Sys2Proof.Machine.execNapEnter s
  | .napWake srcs => Sys2Proof.Machine.execNapWake srcs s
  | .wakeReady x => Sys2Proof.Machine.execWakeReady x s
  | .frameRx f => Sys2Proof.Machine.execFrameRx f s
  | .reassemblyTimeout port src us => Sys2Proof.Machine.execReassemblyTimeout port src us s
  | .frameTx port won => Sys2Proof.Machine.execFrameTx port won s
  | .busOff port => Sys2Proof.Machine.execBusOff port s
  | .busOffEnd port => Sys2Proof.Machine.execBusOffEnd port s
  | .loadWindowEnd port busy => Sys2Proof.Machine.execLoadWindowEnd port busy s
  | .heldPacketRelease port => Sys2Proof.Machine.execHeldPacketRelease port s
  | .hopLost up => Sys2Proof.Machine.execHopLost up s
  | .hopRestored up => Sys2Proof.Machine.execHopRestored up s
  | .stackForm ms self => Sys2Proof.Machine.execStackForm ms self s
  | .cascadeFrame x => Sys2Proof.Machine.execCascadeFrame x s
  | .moduleJoin x stack => Sys2Proof.Machine.execModuleJoin x stack s
  | .moduleLeave addr => Sys2Proof.Machine.execModuleLeave addr s
  | .altTakeover => Sys2Proof.Machine.execAltTakeover s
  | .masterSilent => Sys2Proof.Machine.execMasterSilent s
  | .smWindowRead s_ off fetch x => Sys2Proof.Machine.execSmWindowRead s_ off fetch x s
  | .smWindowWrite s_ off v => Sys2Proof.Machine.execSmWindowWrite s_ off v s
  | .smPageFlush s_ idle => Sys2Proof.Machine.execSmPageFlush s_ idle s
  | .smBusyRetry s_ => Sys2Proof.Machine.execSmBusyRetry s_ s
  | .smPollDone x => Sys2Proof.Machine.execSmPollDone x s
  | .smPollTimeout s_ => Sys2Proof.Machine.execSmPollTimeout s_ s
  | .camSlotWrite s_ t => Sys2Proof.Machine.execCamSlotWrite s_ t s
  | .logEntryWrite s_ ok => Sys2Proof.Machine.execLogEntryWrite s_ ok s
  | .bootstrapCharged n leg => Sys2Proof.Machine.execBootstrapCharged n leg s
  | .comparatorInside k cyc => Sys2Proof.Machine.execComparatorInside k cyc s
  | .cellClockLoss n => Sys2Proof.Machine.execCellClockLoss n s
  | .cellClockReturn x => Sys2Proof.Machine.execCellClockReturn x s
  | .supplyReturn i_ mV => Sys2Proof.Machine.execSupplyReturn i_ mV s
  | .aux24Change mV => Sys2Proof.Machine.execAux24Change mV s
  | .stbyPllLock => Sys2Proof.Machine.execStbyPllLock s
  | .calStale n k => Sys2Proof.Machine.execCalStale n k s
  | .stoLineRise a => Sys2Proof.Machine.execStoLineRise a s

end Sys2Proof.Machine
end

