-- ==== Sys2Proof/WellFormed.lean ====
section
/-!
DEFINITION. Which terms stand for a command that the spec's rows describe: packets of a length that a packet can carry
(11 R358, R360), frames of the lengths of CAN (12 R406), and rows that share an opcode told apart by their first byte
(11 R378, R386, R388, R396).
-/

namespace Sys2Proof

/-- Bytes that a CAN FD frame may carry (12 R406). -/
def frameLengths : List Nat := [0, 1, 2, 3, 4, 5, 6, 7, 8, 12, 16, 20, 24, 32, 48, 64]

/-- A packet carries at most 1,016 bytes of payload (11 R360). -/
def Pkt.wf (p : Pkt) : Bool := decide (p.body.length ≤ 1016)

def Pkt.byte (p : Pkt) (i : Nat) : Nat := (p.body[i]?).elim 0 BitVec.toNat

def Frame.wf (f : Frame) : Bool := frameLengths.contains f.data.length && (f.fd || decide (f.data.length ≤ 8)) && !(f.fd && f.rtr)

/-- The packet of a packet row. -/
def Instr.pkt? : Instr → Option Pkt
  | .hello p | .openSession p | .closeSession p | .takeoverGrant p | .takeoverClaim p | .heartbeat p | .identify p
  | .moduleReset p | .axisReset p | .regRd p | .regWr p | .regRdBlk p | .regWrBlk p | .mbxRd p | .axisConfig p
  | .motorModel p | .zoneTableSpeed p | .zoneTableForce p | .zoneTableCorrection p | .moveAbs p | .moveRel p | .moveVel p
  | .moveVelHome p | .moveGroup p | .hold p | .fallow p | .brake p | .followStep p | .gear p | .localSpeed p | .camLoad p
  | .camEngage p | .camDisengage p | .stop p | .qstop p | .stopAll p | .budgetSet p | .reserveSet p | .ledgerRead p
  | .planQuery p | .streamStart p | .streamStop p | .logRead p | .grazeCtrl p | .calSelf p | .calWrite p | .calRead p
  | .fwLoadBegin p | .fwLoadData p | .fwLoadEnd p | .fwSwap p | .sideSwitch p | .cascadeEnum p | .cascadeRoute p => some p
  | _ => none

/-- The byte that tells rows of one opcode apart. -/
def Instr.selOk : Instr → Bool
  | .takeoverGrant p => p.byte 0 = 0
  | .takeoverClaim p => p.byte 0 = 1
  | .zoneTableSpeed p => p.byte 0 = 0
  | .zoneTableForce p => p.byte 0 = 1
  | .zoneTableCorrection p => p.byte 0 = 2
  | .fwLoadBegin p => p.byte 0 = 0
  | .fwLoadData p => p.byte 0 = 1
  | .fwLoadEnd p => p.byte 0 = 2
  | .moveVel p => !(p.byte 1).testBit 1
  | .moveVelHome p => (p.byte 1).testBit 1
  | _ => true

/-- Figures of events that lie in their range: a memory window offset of 64 MiB (16 R488), a load of at most 100%
(12 R417), fillings of the stack (15 R463). -/
def Instr.figuresOk : Instr → Bool
  | .frameRx f => f.wf
  | .smWindowRead _ off _ _ => decide (off < 0x4000000)
  | .smWindowWrite _ off _ => decide (off < 0x4000000)
  | .loadWindowEnd _ busy => decide (busy ≤ 100)
  | .stackForm ms self => decide (ms.length ≤ 8) && decide (self < ms.length)
  | _ => true

def Instr.wf (i : Instr) : Bool := (i.pkt?.elim true Pkt.wf) && i.selOk && i.figuresOk

end Sys2Proof
end

