-- ==== Sys2Proof/Safety.lean ====
section
/-!
DEFINITION. The terms in which claims are made: the contents of the serial memories in their canonical form, a run that never
stops, a command that completes, when the module accepts a packet (11 R365), and what an answer leaves.
-/

namespace Sys2Proof.Safety

open Sys2Proof.Machine

/-- Both serial memories hold their contents in canonical form. -/
def MemInv (s : State) : Prop := (memWf (s.blk.sm.get 0).mem = true) ∧ (memWf (s.blk.sm.get 1).mem = true)

/-- The state answers k steps without a fault or a refusal. -/
def Runs : Nat → State → Prop
  | 0, _ => True
  | k + 1, s => ∃ t, step s = .next t ∧ Runs k t

/-- A command completes: it answers a next state with the queue as it was, of whose module P holds. -/
def Does (c : Instr) (s : State) (P : Blk → Prop) : Prop := ∃ t, exec c s = .next t ∧ t.pending = s.pending ∧ P t.blk

end Sys2Proof.Safety

namespace Sys2Proof

/-- The plane of a header, in the order of the planes. -/
def Hdr.pl (h : Hdr) : Fin 3 := (Sys2Proof.Machine.portPlane h.port).idx

/-- The opcode of a packet row (11 R364). -/
def Instr.opcode? : Instr → Option Nat
  | .hello _ => some 0x01
  | .openSession _ => some 0x02
  | .closeSession _ => some 0x03
  | .takeoverGrant _ | .takeoverClaim _ => some 0x04
  | .heartbeat _ => some 0x05
  | .identify _ => some 0x06
  | .moduleReset _ => some 0x08
  | .axisReset _ => some 0x09
  | .regRd _ => some 0x10
  | .regWr _ => some 0x11
  | .regRdBlk _ => some 0x12
  | .regWrBlk _ => some 0x13
  | .mbxRd _ => some 0x14
  | .axisConfig _ => some 0x20
  | .motorModel _ => some 0x21
  | .zoneTableSpeed _ | .zoneTableForce _ | .zoneTableCorrection _ => some 0x22
  | .moveAbs _ => some 0x30
  | .moveRel _ => some 0x31
  | .moveVel _ | .moveVelHome _ => some 0x32
  | .moveGroup _ => some 0x33
  | .hold _ => some 0x34
  | .fallow _ => some 0x35
  | .brake _ => some 0x36
  | .followStep _ => some 0x37
  | .gear _ => some 0x38
  | .localSpeed _ => some 0x39
  | .camLoad _ => some 0x3A
  | .camEngage _ => some 0x3B
  | .camDisengage _ => some 0x3C
  | .stop _ => some 0x40
  | .qstop _ => some 0x41
  | .stopAll _ => some 0x42
  | .budgetSet _ => some 0x50
  | .reserveSet _ => some 0x51
  | .ledgerRead _ => some 0x52
  | .planQuery _ => some 0x53
  | .streamStart _ => some 0x60
  | .streamStop _ => some 0x61
  | .logRead _ => some 0x62
  | .grazeCtrl _ => some 0x70
  | .calSelf _ => some 0x71
  | .calWrite _ => some 0x72
  | .calRead _ => some 0x73
  | .fwLoadBegin _ | .fwLoadData _ | .fwLoadEnd _ => some 0x78
  | .fwSwap _ => some 0x79
  | .sideSwitch _ => some 0x7A
  | .cascadeEnum _ => some 0x7C
  | .cascadeRoute _ => some 0x7D
  | _ => none

end Sys2Proof

namespace Sys2Proof.Machine

/-- Step 1 of 11 R365, and what the module must be for it: ready with an active side, powered, awake and with no reset due, and
not held out of a stack; the packet comes in a class for commands, to the module's own address. -/
def Blk.reached (b : Blk) (h : Hdr) : Bool :=
  b.ready && b.act.isSome && b.pw.powered && !b.pw.held && b.pw.resetDue.isNone && b.nap == .awake && !b.outside
    && (h.cls = 1 || h.cls = 4 || h.cls = 6 || h.cls = 7) && h.dest = b.addr

/-- Steps 2 to 5 for the owner's command: the live session's owner, ID and major version, an opcode that the version knows and the
plane serves (11 R365, R369). -/
def Blk.owned (b : Blk) (h : Hdr) (opc : Nat) : Bool :=
  b.sess.elim false fun z => !z.orphan && z.owner = h.src && z.sid = h.sid && z.version / 16 = h.major.val
    && (opcode opc).elim false fun o => decide (o.2 ≤ z.version) && o.1.elim true (· == portPlane h.port)

/-- Step 6 for a new command, on a plane that holds fewer than 128 unanswered ones (11 R366, R368). -/
def Blk.inTurn (b : Blk) (h : Hdr) : Bool :=
  let p := b.planes.get (portPlane h.port).idx
  h.seq = p.l + 1 && decide (p.open_ < 128)

/-- A packet passes steps 1 to 6 of 11 R365 as the owner's next command on its plane. -/
def Blk.fits (b : Blk) (h : Hdr) (opc : Nat) : Bool := b.reached h && b.owned h opc && b.inTurn h

/-- The module once it has taken a command into its plane's sequence: its frames left the port, the heartbeat window restarted, L took
its SEQ, and it waits for its answer. -/
def Blk.begun (b : Blk) (q : Req) : Blk := (((b.served q.h).heard q.h.src q.h.sid q.h.port q.h.endUs)).take q

/-- A packet is in the transmit buffers of a port: being sent, or waiting (12 R413). -/
def Blk.carries (b : Blk) (p : Fin 6) (o : OutPkt) : Prop :=
  let t := (b.ports.get p).tx.get (txIndex o.cls)
  (∃ c, t.cur = some c ∧ c.pkt = o) ∨ ∃ c ∈ t.wait, c.pkt = o

/-- A command is answered on its port: with its opcode, target and SEQ, to its source, with a status and bytes after it (11 R363,
R398). -/
def Blk.answers (b : Blk) (h : Hdr) (opc st : Nat) (extra : List Byte) : Prop :=
  ∃ o : OutPkt, b.carries h.port o ∧ o.reply = true ∧ o.async = false ∧ o.dest = h.src ∧ o.seq = h.seq ∧ o.tgt = h.tgt
    ∧ o.opc = BitVec.ofNat 8 opc ∧ o.body = BitVec.ofNat 8 st :: extra

/-- A packet whose length a packet may have passes steps 1 to 6 as the owner's next command. -/
def Blk.takes (b : Blk) (p : Pkt) (opc : Nat) : Prop := p.wf = true ∧ b.fits p.toHdr opc = true

/-! ### Frames -/

/-- The module without its axes, registers, log, ports, the time since it last sent, sequence, session and draws: what a command to an axis leaves alone. -/
def Blk.rest (b : Blk) : Blk :=
  { b with ax := Blk.reset.ax, regs := Blk.reset.regs, stamps := Blk.reset.stamps, logs := Blk.reset.logs, logFresh := [], rx := {}
           planes := Blk.reset.planes, ports := Blk.reset.ports, sess := none, fresh := 0, napTicks := 0, yieldDue := false, casc := { b.casc with contrib := [] } }

/-- The owner, ID, version and orphaned mark of the session. -/
def Blk.owning (b : Blk) : Option (Byte × Byte × Nat × Bool) := b.sess.map fun z => (z.owner, z.sid, z.version, z.orphan)

/-- Every module register but the event registers reads as it did. -/
def Blk.sameRegs (b t : Blk) : Prop := ∀ i : Fin 356, i.val ∉ modEvRegs → t.regs.get i = b.regs.get i

/-- Nothing of the module changes but its axes, flags, log, ports, sequence and draws. -/
def Blk.still (b t : Blk) : Prop := t.rest = b.rest ∧ t.owning = b.owning ∧ b.sameRegs t

/-- Of the axes, only one changes. -/
def Blk.only (b t : Blk) (n : Fin 48) : Prop := ∀ m, m ≠ n → t.axis m = b.axis m

/-- Every register of an axis but its event registers and those listed reads as it did. -/
def Axis.sameRegs (a t : Axis) (but : List Nat) : Prop := ∀ i : Fin 131, i.val ∉ axEvRegs → i.val ∉ but → t.regs.get i = a.regs.get i

/-! ### Register writes (13 R425, R436, R439) -/

/-- The bits of a register that a write from its plane changes: `RW` and `RB`; on a bench also the bits of no mask, and the keyed
bits of an unlocked plane. -/
def RegDef.writable (d : RegDef) (keyed bench : Bool) : Word :=
  let m := fun (n : Nat) => BitVec.ofNat 32 n
  m d.rw ||| m d.rb ||| (if keyed then m d.rk else 0)
    ||| (if bench then ~~~ (m d.rw ||| m d.rb ||| m d.rk ||| m d.rc ||| m d.wo ||| m d.ro) else 0)

/-- The word that a write leaves: the written value where it may change. -/
def RegDef.stored (d : RegDef) (keyed bench : Bool) (cur v : Word) : Word :=
  (cur &&& ~~~ d.writable keyed bench) ||| (v &&& d.writable keyed bench)

/-! ### Flags (13 R440) -/

/-- The sequence of an event register's word. -/
def evSeqOf (w : Word) : Nat := w.toNat / 2 ^ 24

/-- A flag's stamp is at or before a written sequence: (`SEQ` − stamp) mod 256 is not below (`SEQ` − s) mod 256 (13 R441). -/
def stampSeen (seq stamp s : Nat) : Bool := decide (((seq : Int) - (s : Int)) % 256 ≤ ((seq : Int) - (stamp : Int)) % 256)

/-- A flag of the module pages stands. -/
def Blk.flagged (b : Blk) (f : Flag) : Prop := ((b.regs[(modEvRegs[f.ev]?).getD 0]?).getD 0).getLsbD f.bit = true

/-- A flag of an axis stands. -/
def Axis.flagged (a : Axis) (f : Flag) : Prop := ((a.regs[(axEvRegs[f.ev]?).getD 0]?).getD 0).getLsbD f.bit = true

end Sys2Proof.Machine
end

