-- ==== Sys2Proof/Certificates/Slice0/Obligations.lean ====
section
/-!
DEFINITION. The statements: what the commands of the module do, family by family, what they leave alone, and what every step
keeps.  Each docstring names the rules of spec/ that the statement comes from, and the model's choices that it rests on.
-/

open Sys2Proof Sys2Proof.Machine Sys2Proof.Safety

/-! ### The step and the queue -/

/-- A step takes the command at the front of the queue and is `exec` of it on the state with the queue's rest.  The queue is the
model's own (notes/assumptions/2.md). -/
def Obligations.StepRunsFrontCommand : Prop :=
  ∀ (c : Instr) (s : State),
    step { s with pending := c :: s.pending } = exec c s

/-- On an empty queue a step leaves the state as it is: the model's choice (notes/assumptions/12.md). -/
def Obligations.StepIdlesOnEmptyQueue : Prop :=
  ∀ (s : State),
    s.pending = [] →
    step s = .next s

/-- The rows that carry a voltage beyond the absolute maximum ratings of 17 R502, in mV. -/
def Sys2Proof.Instr.beyond : Instr → Bool
  | .powerUp x => decide (100000 < x.supA) || decide (100000 < x.supB) || decide (36000 < x.aux)
  | .supplyOvBlock _ mV | .supplyReverseBlock _ mV | .supplyReturn _ mV => decide (100000 < mV)
  | .aux24Change mV => decide (36000 < mV)
  | _ => false

/-- 17 R502 holds no rule beyond its ratings: a row with such a voltage stops with `beyondRatings` (the stop is the model's form of
that), and every other command answers a next state and leaves the queue as it is. -/
def Obligations.CommandsStopOnlyBeyondRatings : Prop :=
  ∀ (c : Instr) (s : State),
    if c.beyond then exec c s = .fault .beyondRatings else Does c s fun _ => True

/-! ### What every step keeps -/

/-- The serial memories hold their contents in canonical form at reset: nothing is listed, and an unlisted byte reads as erased flash,
0xFF (the model's choice, notes/assumptions/7.md). -/
def Obligations.MemoryCanonicalAtReset : Prop :=
  MemInv State.reset ∧ ∀ (i : Fin 2) (a : Nat), memGet (State.reset.blk.sm.get i).mem a = 0xFF

/-- Every step keeps the canonical form of the serial memories: addresses strictly rising, no entry listed that reads as erased flash
(the erased value is the model's choice, notes/assumptions/7.md), whatever command runs: firmware loads, bank records, page
programs and erases, cam slots and log entries. -/
def Obligations.StepKeepsMemoryCanonical : Prop :=
  ∀ (s t : State),
    MemInv s → step s = .next t →
    MemInv t

/-! ### The sequence (11 R365 to R368) -/

/-- A command that passes steps 1 to 6 of R365 moves L of its plane to its SEQ, whatever status it receives; L of the other planes
stays (11 R366).  `takes` says the conditions of steps 1 to 6 for the owner's next command. -/
def Obligations.AcceptedCommandTakesItsPlace : Prop :=
  ∀ (c : Instr) (p : Pkt) (s : State) (opc : Nat),
    c.opcode? = some opc → c.pkt? = some p → (Pkt.req p opc).exempt = false → opc ≠ 0x02 → s.blk.takes p opc →
    Does c s fun t => (t.planes.get p.toHdr.pl).l = p.seq ∧ ∀ i, i ≠ p.toHdr.pl → (t.planes.get i).l = (s.blk.planes.get i).l

/-- A packet that steps 1 to 6 of R365 drop, refuse, or answer from the record of a command before (a retransmission) leaves L of every
plane, every axis, and everything else of the module as it is, but for its log entry and the replies it sends (11 R366, R367). -/
def Obligations.RefusedCommandDoesNothing : Prop :=
  ∀ (c : Instr) (p : Pkt) (s : State) (opc : Nat),
    c.opcode? = some opc → c.pkt? = some p → s.blk.judged (Pkt.req p opc) ≠ .go →
    Does c s fun t => (∀ i, (t.planes.get i).l = (s.blk.planes.get i).l ∧ (t.planes.get i).armed = (s.blk.planes.get i).armed)
      ∧ t.ax = s.blk.ax ∧ s.blk.still t

/-- On a plane that holds 128 unanswered commands or more, the owner's next command is answered `BUSY` at once, so that the plane holds no
more of them than before, and nothing of it is executed. -/
def Obligations.CommandBeyond128IsBusy : Prop :=
  ∀ (c : Instr) (p : Pkt) (s : State) (opc : Nat),
    c.opcode? = some opc → c.pkt? = some p → p.wf = true → (Pkt.req p opc).exempt = false → opc ≠ 0x02 →
    s.blk.reached p.toHdr = true → s.blk.owned p.toHdr opc = true → p.seq = (s.blk.planes.get p.toHdr.pl).l + 1 →
    128 ≤ (s.blk.planes.get p.toHdr.pl).open_ →
    Does c s fun t => t.answers p.toHdr opc 0x40 [] ∧ (t.planes.get p.toHdr.pl).open_ ≤ (s.blk.planes.get p.toHdr.pl).open_
      ∧ t.ax = s.blk.ax ∧ s.blk.still t

/-! ### Sessions and takeover (11 R373 to R383, 10 R340 to R345) -/

/-- `OPEN_SESSION` where no session stands, or to its owner or an orphaned session's place (11 R374, R375): the session as the payload
asks, its version the highest in common, L of all three planes the SEQ of the packet, no command before it recorded; without a session before it, every axis keeps
its state, else every reset mark goes with the old session.  A session with a live owner refuses another source, and a slave
refuses every source, with status 0x20.  The two reserved bytes at the end of the reply are the model's choice.
`CLOSE_SESSION`: answered `OK`, then the session is gone, with it waiting candidates, streams, unlocked planes, and every reset mark
(11 R377, 10 R341, R343). -/
def Obligations.SessionOpensAndCloses : Prop :=
  (∀ (s : State) (p : Pkt) (v : Nat),
    s.blk.reached p.toHdr = true → portPlane p.port = .ctrl → p.wf = true → p.tgt = 0xFE → p.major ≠ 0 →
    (if p.major.val = 1 then 8 else 16) ≤ p.body.length → commonVersion (u p.body 0 1) (u p.body 1 1) = some v →
    (u p.body 2 2 = 0 ∨ (20 ≤ u p.body 2 2 ∧ u p.body 2 2 ≤ 10000)) →
    (∀ z ∈ s.blk.sess, (z.owner = p.src ∧ z.version / 16 = p.major.val ∨ z.owner ≠ p.src ∧ z.orphan = true) ∧ z.version ∈ spoken) →
    s.blk.slave = false →
    Does (.openSession p) s fun t =>
      (∃ z ∈ t.sess, z.sid = s.blk.nextSid ∧ z.owner = p.src ∧ z.version = v ∧ z.orphan = false ∧ z.grant = none
      ∧ z.tmo = (if u p.body 2 2 = 0 then 500 else u p.body 2 2) ∧ z.keyCrc = crc32 ((p.body.drop 8).take 8) ∧ z.hbFrom = p.endUs
      ∧ z.events = (u p.body 4 1).testBit 0 ∧ z.base = p.seq)
      ∧ t.lastSid = some s.blk.nextSid
      ∧ (∀ i, (t.planes.get i).l = p.seq ∧ (∀ x ∈ (t.planes.get i).acc, x.q = Pkt.req p 0x02) ∧ (t.planes.get i).armed = false)
      ∧ t.flagged MOD.EVT.SESS_OPEN
      ∧ t.answers p.toHdr 0x02 0 ([s.blk.nextSid, BitVec.ofNat 8 v, 0] ++ leBytes 2 (if u p.body 2 2 = 0 then 500 else u p.body 2 2)
      ++ leBytes 2 p.seq.toNat ++ [0, 0])
      ∧ (s.blk.sess = none → t.ax = s.blk.ax) ∧ (s.blk.sess ≠ none → ∀ n, (t.axis n).b AX.RST_STAT.SESS_RST = false) ∧ t.sm = s.blk.sm) ∧
  (∀ (s : State) (p : Pkt),
    s.blk.reached p.toHdr = true → p.major ≠ 0 → p.wf = true →
    (s.blk.slave = true ∨ ∃ z ∈ s.blk.sess, z.orphan = false ∧ z.owner ≠ p.src) → (∀ z ∈ s.blk.sess, z.owner ≠ p.src) →
    Does (.openSession p) s fun t => t.answers p.toHdr 0x02 0x20 [] ∧ t.ax = s.blk.ax ∧ t.planes = s.blk.planes ∧ t.sess = s.blk.sess) ∧
  (∀ (s : State) (p : Pkt),
    s.blk.takes p 0x03 → p.tgt = 0xFE →
    Does (.closeSession p) s fun t => t.answers p.toHdr 0x03 0 [] ∧ t.sess = none ∧ t.plan.cands = []
      ∧ t.streams = Vector.replicate 4 none ∧ (∀ n, (t.axis n).b AX.RST_STAT.SESS_RST = false ∧ (t.axis n).mot.waiting = none)
      ∧ (∀ i, (t.planes.get i).armed = false) ∧ t.sm = s.blk.sm ∧ t.ledg = s.blk.ledg ∧ t.pw = s.blk.pw)

/-- `TAKEOVER` with GRANT: the named successor may claim until 1000 ms after the GRANT's end, the owner keeps the session, and a GRANT
to itself or to 0xFF is refused (11 R378).
`TAKEOVER` with CLAIM (11 R379, R380, 10 R342): with a GRANT that stands for the claimant, or on an orphaned session whose key is not
zero with the key's check, the claimant becomes the owner of the same session; every `ORPHAN` flag clears, and L of all three planes
is the claim's base.  A claim that fails leaves the session as it is, is answered 0x20 and raises `CLAIM_FAIL`. -/
def Obligations.TakeoverMovesSession : Prop :=
  (∀ (s : State) (p : Pkt),
    s.blk.takes p 0x04 → p.tgt = 0xFE → 16 ≤ p.body.length → u p.body 0 1 = 0 → BitVec.ofNat 8 (u p.body 1 1) ≠ p.src →
    u p.body 1 1 ≠ 0xFF →
    Does (.takeoverGrant p) s fun t => t.answers p.toHdr 0x04 0 []
      ∧ (∃ z ∈ t.sess, z.grant = some ⟨BitVec.ofNat 8 (u p.body 1 1), p.endUs + 1000000⟩) ∧ t.ax = s.blk.ax ∧ s.blk.still t) ∧
  (∀ (s : State) (p : Pkt),
    s.blk.takes p 0x04 → p.tgt = 0xFE → 16 ≤ p.body.length → u p.body 0 1 = 0 →
    (BitVec.ofNat 8 (u p.body 1 1) = p.src ∨ u p.body 1 1 = 0xFF) →
    Does (.takeoverGrant p) s fun t => t.answers p.toHdr 0x04 0x31 [1] ∧ t.ax = s.blk.ax ∧ s.blk.still t) ∧
  (∀ (s : State) (p : Pkt) (z : Session),
    s.blk.reached p.toHdr = true → portPlane p.port = .ctrl → p.wf = true → p.tgt = 0xFE → 16 ≤ p.body.length →
    p.body.head? = some 1 → s.blk.sess = some z → z.sid = p.sid → z.version / 16 = p.major.val → 0x20 ≤ z.version →
    s.blk.lockedOut p.endUs = false →
    ((∃ g ∈ z.grant, g.to_ = p.src ∧ p.endUs < g.endUs) ∨ (z.orphan = true ∧ z.keyZero = false ∧ crc32 ((p.body.drop 8).take 8) = z.keyCrc)) →
    Does (.takeoverClaim p) s fun t =>
      (∃ y ∈ t.sess, y.sid = z.sid ∧ y.owner = p.src ∧ y.orphan = false ∧ y.grant = none ∧ y.version = z.version ∧ y.hbFrom = p.endUs
      ∧ y.base = BitVec.ofNat 16 (u p.body 2 2))
      ∧ (∀ i, (t.planes.get i).l = BitVec.ofNat 16 (u p.body 2 2)) ∧ (∀ n, (t.axis n).b AX.RST_STAT.ORPHAN = false)
      ∧ t.flagged MOD.EVT.CLAIM
      ∧ t.answers p.toHdr 0x04 0 ([z.sid, BitVec.ofNat 8 z.version] ++ s.blk.planes.toList.flatMap fun x => leBytes 2 x.l.toNat)
      ∧ t.orphanAt = none ∧ { t with orphanAt := s.blk.orphanAt }.rest = s.blk.rest) ∧
  (∀ (s : State) (p : Pkt) (z : Session),
    s.blk.reached p.toHdr = true → portPlane p.port = .ctrl → p.wf = true → p.body.head? = some 1 → s.blk.sess = some z →
    0x20 ≤ z.version → z.owner ≠ p.src → s.blk.claimOk (Pkt.req p 0x04) = false →
    Does (.takeoverClaim p) s fun t => t.sess = some z ∧ t.answers p.toHdr 0x04 0x20 [] ∧ t.flagged MOD.EVT.CLAIM_FAIL ∧ t.ax = s.blk.ax
      ∧ t.planes = s.blk.planes)

/-- What `HELLO` and `IDENTIFY` answer to any source, and `HEARTBEAT` to its owner, whose window it restarts unless it comes at its end or later (00 R6, 11 R373, R376, R383, 10
R340); none of them takes a place in the sequence or changes an axis (11 R365).  A `HELLO`
without a version in common is answered 0x24 with the range (11 R370), and the rest of its reply as R373 lays it out, which is the model's
choice (notes/assumptions/147.md). -/
def Obligations.SessionReadsAnswer : Prop :=
  (∀ (s : State) (p : Pkt),
    s.blk.reached p.toHdr = true → portPlane p.port = .ctrl → p.wf = true → p.tgt = 0xFE → p.major ≠ 0 → 6 ≤ p.body.length →
    (∀ z ∈ s.blk.sess, z.version ∈ spoken) →
    Does (.hello p) s fun t => t.ax = s.blk.ax ∧ t.planes = s.blk.planes ∧ s.blk.still t ∧
      t.answers p.toHdr 0x01 (if (commonVersion (u p.body 0 1) (u p.body 1 1)).isSome then 0 else 0x24)
      ([0x10, 0x21, BitVec.ofNat 8 ((commonVersion (u p.body 0 1) (u p.body 1 1)).getD 0)]
      ++ leBytes 4 (15 + 16 * Bool.bit s.blk.pw.straps.bench) ++ [s.blk.addr, 4,
      BitVec.ofNat 8 (Bool.bit (s.blk.sess.elim false fun z => !z.orphan) + 2 * Bool.bit s.blk.master + 4 * Bool.bit s.blk.slave)])) ∧
  (∀ (s : State) (p : Pkt),
    s.blk.reached p.toHdr = true → p.wf = true → p.tgt = 0xFE → p.major ≠ 0 → (∀ z ∈ s.blk.sess, z.version ∈ spoken) →
    Does (.identify p) s fun t => t.ax = s.blk.ax ∧ t.planes = s.blk.planes ∧ s.blk.still t ∧
      t.answers p.toHdr 0x06 0 (leBytes 4 (s.blk.modWord 0 MOD.ID.PART.reg).toNat ++ leBytes 4 (s.blk.modWord 0 MOD.VER.PROTO_MIN.reg).toNat
      ++ leBytes 8 Config.serial ++ [s.blk.addr, BitVec.ofNat 8 (if s.blk.stacked then s.blk.casc.selfPos else 0), 4]
      ++ leBytes 2 (s.blk.modWord 0 SIDE.FW_A.VER.reg).toNat ++ leBytes 2 (s.blk.modWord 0 SIDE.FW_B.VER.reg).toNat)) ∧
  (∀ (s : State) (p : Pkt) (z : Session),
    s.blk.reached p.toHdr = true → s.blk.owned p.toHdr 0x05 = true → p.wf = true → p.tgt = 0xFE → s.blk.sess = some z →
    Does (.heartbeat p) s fun t => t.ax = s.blk.ax ∧ t.planes = s.blk.planes ∧ s.blk.still t ∧ (∃ y ∈ t.sess, y.hbFrom =
      if s.blk.slave = false ∧ z.hbFrom + 1000 * z.tmo ≤ p.endUs then z.hbFrom else max z.hbFrom p.endUs)
      ∧ t.answers p.toHdr 0x05 0 (leBytes 2 ((s.blk.modWord 0 MOD.STATE.PHASE.reg).toNat % 65536) ++ leBytes 4 s.blk.swath
      ++ (s.blk.planes.toList.flatMap fun x => leBytes 2 x.l.toNat) ++ leBytes 2 z.evSeq.toNat))

/-- `MODULE_RESET` is answered first and its sequence is then due, once its reply has left (11 R383, 09 R318); a winding measurement that it cuts
ends with outcome 5 (08 R280; that it shows so after the reset, notes/assumptions/145.md); `RESET_SEQUENCE` and nRST leave the module booting,
without session, candidates or streams, its axes without a motor and their positions uncertain, and the swath number, ledger and
calibration copies as they were (09 R318, R319, R321, 07 R221); only nRST samples the straps (09 R318). -/
def Obligations.ModuleResets : Prop :=
  (∀ (s : State) (p : Pkt),
    s.blk.takes p 0x08 → p.tgt = 0xFE → 2 ≤ p.body.length → u p.body 0 1 = 0x5A → u p.body 1 1 = 0xA5 →
    Does (.moduleReset p) s fun t => t.answers p.toHdr 0x08 0 [] ∧ t.pw = { s.blk.pw with resetDue := some false } ∧ t.meas = s.blk.meas
      ∧ t.owning = s.blk.owning ∧ t.ax = s.blk.ax ∧ s.blk.sameRegs t ∧ (t.resetReplyWaits ∨ s.blk.bit (MB.STAT.BUSOFF.port p.port) = true)) ∧
  (∀ (s : State) (x : Straps) (pin : Bool),
    s.blk.pw.resetDue = some pin → s.blk.pw.powered = true → s.blk.pw.held = false →
    (pin = true ∨ s.blk.resetReplyWaits = false) →
    Does (.resetSequence x) s fun t => t.phase = 0 ∧ t.pw.resetDue = none ∧ t.sess = none ∧ t.plan.cands = []
      ∧ t.streams = Vector.replicate 4 none ∧ t.act = none ∧ (s.blk.nap = .awake → t.swath = s.blk.swath) ∧ t.ledg = s.blk.ledg
      ∧ t.meas.copies = s.blk.meas.copies ∧ t.pw.straps = (if pin then x else s.blk.pw.straps)
      ∧ (∀ i, (t.sm.get i).mem = (s.blk.sm.get i).mem) ∧ (pin = false → s.blk.meas.rw ≠ none → t.r MEAS.RW_RES.ST = 5)
      ∧ ∀ n, (t.axis n).motor = Motor.none ∧ (t.axis n).mot.mode = .unconfigured ∧ (t.axis n).b AX.ST_STAT.POS_UNC = true
      ∧ (t.axis n).b AX.BL_STAT.POS_UNC = true ∧ (t.axis n).eOut = (s.blk.axis n).eOut) ∧
  (∀ (s : State) (x : Straps),
    s.blk.pw.resetDue = some false → s.blk.resetReplyWaits = true →
    Does (.resetSequence x) s fun t => t = s.blk) ∧
  (∀ (s : State),
    Does (.nrst true) s fun t => t.pw.held = true
      ∧ (s.blk.pw.powered = true → t.phase = 0 ∧ t.sess = none ∧ ∀ n, (t.axis n).mot.mode = .unconfigured)
      ∧ (s.blk.pw.powered = false → t = { s.blk with pw := { s.blk.pw with held := true } })) ∧
  (∀ (s : State),
    s.blk.pw.held = true →
    Does (.nrst false) s fun t => t = { s.blk with pw := { s.blk.pw with held := false, resetDue := some true } })

/-- `AXIS_RESET` on an axis that is not LOST (10 R343 to R345): without `KEEP_POS` it is fallow (or, without a motor, UNCONFIGURED) at
position 0, holds no waiting or queued move, and carries its reset mark, every other axis as before; with `KEEP_POS` an axis in
FALLOW, HOLD or PARK keeps its position and shows `CARRIED`, and any other is refused.  On a LOST axis the leg check runs first
and the reply waits for it (02 R66). -/
def Obligations.AxisResetReaches : Prop :=
  (∀ (s : State) (p : Pkt) (n : Fin 48),
    s.blk.takes p 0x09 → p.tgt.toNat = n.val → p.body ≠ [] → (u p.body 0 1).testBit 0 = false →
    (s.blk.axis n).legs.phase ≠ .lost →
    Does (.axisReset p) s fun t => t.answers p.toHdr 0x09 0 []
      ∧ (t.axis n).mot.mode = (if (s.blk.axis n).motor = Motor.none then .unconfigured else .fallow) ∧ (t.axis n).mot.pCmd = 0
      ∧ (t.axis n).mot.waiting = none ∧ (t.axis n).mot.queued = none ∧ (t.axis n).mot.engage = none
      ∧ (t.axis n).b AX.RST_STAT.SESS_RST = true ∧ (t.axis n).b AX.RST_STAT.CARRIED = false ∧ s.blk.only t n ∧ s.blk.still t) ∧
  (∀ (s : State) (p : Pkt) (n : Fin 48),
    s.blk.takes p 0x09 → p.tgt.toNat = n.val → p.body ≠ [] → (u p.body 0 1).testBit 0 = true → 0x21 ≤ s.blk.version →
    (s.blk.axis n).legs.phase ≠ .lost →
    Does (.axisReset p) s fun t => s.blk.only t n ∧ s.blk.still t
      ∧ (if (s.blk.axis n).mot.mode ∈ [.fallow, .hold, .park] then t.answers p.toHdr 0x09 0 []
      ∧ (t.axis n).mot.pCmd = (if (s.blk.axis n).brushless then (s.blk.axis n).mot.pMeas else (s.blk.axis n).mot.pCmd)
      ∧ (t.axis n).b AX.RST_STAT.SESS_RST = true ∧ (t.axis n).b AX.RST_STAT.CARRIED = true
      else t.answers p.toHdr 0x09 0x12 [] ∧ t.axis n = s.blk.axis n)) ∧
  (∀ (s : State) (p : Pkt) (n : Fin 48),
    s.blk.takes p 0x09 → p.tgt.toNat = n.val → p.body ≠ [] → (u p.body 0 1).testBit 0 = false →
    (s.blk.axis n).legs.phase = .lost →
    Does (.axisReset p) s fun t => (t.axis n).legs.checking = true ∧ (t.axis n).legs.phase = .lost ∧ (∃ r ∈ t.resets, r.left = [n]) ∧ s.blk.only t n)

/-- A heartbeat window that ends orphans the session, withdraws the candidates (10 R341) and disarms the locks (13 R437), `HOLD_T`
after it closes a session that is still orphaned (10 R342), a GRANT lapses (11 R378), and the lockout of claims ends (11 R379); before their time none of them does anything. -/
def Obligations.SessionTimersExpire : Prop :=
  (∀ (s : State) (us : Nat) (z : Session),
    s.blk.sess = some z → z.orphan = false → s.blk.slave = false → s.blk.nap = .awake →
    Does (.sessionExpiry us) s fun t => if us < z.hbFrom + z.tmo * 1000 then t = s.blk else
      (∃ y ∈ t.sess, y.orphan = true ∧ y.sid = z.sid ∧ y.owner = z.owner) ∧ t.plan.cands = []
      ∧ t.streams = Vector.replicate 4 none ∧ t.ledg = s.blk.ledg ∧ t.sm = s.blk.sm ∧ t.flagged MOD.EVT.SESS_EXP
      ∧ t.orphanAt = some s.blk.ticks ∧ (∀ i, (t.planes.get i).armed = false)
      ∧ ∀ n, (t.axis n).mot.waiting = none ∧ ((t.axis n).mot.mode = .hold → (t.axis n).b AX.RST_STAT.ORPHAN = true)) ∧
  (∀ (s : State) (at_ : Nat) (z : Session),
    s.blk.r MOD.ORPHAN.HOLD_T ≠ 0xFFFF → s.blk.sess = some z → z.orphan = true → s.blk.orphanAt = some at_ →
    Does .orphanHoldExpiry s fun t => if s.blk.ticks < at_ + 2500 * s.blk.r MOD.ORPHAN.HOLD_T then t = s.blk else
      t.sess = none ∧ t.orphanAt = none ∧ (∀ n, (t.axis n).b AX.RST_STAT.SESS_RST = false
      ∧ ((s.blk.axis n).b AX.RST_STAT.ORPHAN = true → (t.axis n).mot.mode.enabled = false)) ∧ t.sm = s.blk.sm ∧ t.ledg = s.blk.ledg) ∧
  (∀ (s : State) (us : Nat) (z : Session) (g : Grant),
    s.blk.sess = some z → z.grant = some g →
    Does (.grantExpiry us) s fun t => t = if g.endUs ≤ us then { s.blk with sess := some { z with grant := none } } else s.blk) ∧
  (∀ (s : State) (us x : Nat),
    s.blk.lockout = some x →
    Does (.claimLockoutEnd us) s fun t => t = if x ≤ us then { s.blk with lockout := none } else s.blk)

/-! ### Registers and the mailbox (13, 14) -/

/-- `REG_RD` of a register of an axis page (11 R384, 13 R424): the word as the register stands, without its write-only bits; a register of
the other motor type, and an address that names nothing, read as 0 (13 R423, 14 R456).  Nothing changes but that a data register's
`NEW` and `OVR` clear (13 R430).  The count that `PWM_STAT` shows and `AWAKE` are free values (notes/assumptions/1.md). -/
def Obligations.RegisterReadShows : Prop :=
  (∀ (s : State) (p : Pkt) (n : Fin 48) (i : Nat) (d : RegDef),
    s.blk.takes p 0x10 → p.tgt = 0xFE → 4 ≤ p.body.length → axDefs[i]? = some d → u p.body 0 3 = axAddr n d.addr →
    Does (.regRd p) s fun t =>
      t.answers p.toHdr 0x10 0 (leBytes 4 (if (s.blk.axis n).foreign i then 0
      else (s.blk.axis n).word (Config.freeNat s.blk.fresh) i &&& ~~~ (BitVec.ofNat 32 d.wo)).toNat)
      ∧ s.blk.only t n ∧ s.blk.still t ∧ (t.axis n).sameRegs (s.blk.axis n) [AX.SLC_DATA0.I.reg, AX.SLC_DATA0.I.reg + 1]
      ∧ (i ≠ AX.SLC_DATA0.I.reg ∧ i ≠ AX.SLC_DATA0.I.reg + 1 → t.ax = s.blk.ax)) ∧
  (∀ (s : State) (p : Pkt),
    s.blk.takes p 0x10 → p.tgt = 0xFE → 4 ≤ p.body.length → u p.body 0 3 % 4 = 0 → locate (u p.body 0 3) = .none →
    Does (.regRd p) s fun t => t.answers p.toHdr 0x10 0 [0, 0, 0, 0] ∧ t.ax = s.blk.ax ∧ s.blk.still t)

/-- `REG_WR` of a register from the plane that writes it (11 R384, 13 R425, R439): the `RW` and `RB` bits take the written value, limited to
the range of its fields, every other bit stays; on a bench the reserved bits are open too, and keyed bits on an unlocked plane (13
R436).  Another plane's write to an axis register changes nothing but, perhaps, the count of violations (13 R427, R443).  A slave
ignores writes to the budget registers and the margin of the reserve (15 R475).  Event registers, the lock and the mailbox have their
own statements. -/
def Obligations.RegisterWriteStores : Prop :=
  (∀ (s : State) (p : Pkt) (n : Fin 48) (i : Nat) (d : RegDef),
    s.blk.takes p 0x11 → p.tgt = 0xFE → 8 ≤ p.body.length → axDefs[i]? = some d → u p.body 0 3 = axAddr n d.addr →
    d.writer = portPlane p.port → i ∉ axEvRegs → i ≠ AX.AX_SUPV.HELD.reg → (s.blk.axis n).foreign i = false →
    (s.blk.axis n).locked i = false →
    Does (.regWr p) s fun t => t.answers p.toHdr 0x11 0 []
      ∧ (t.axis n).regs[i]? = some (d.stored false s.blk.pw.straps.bench (((s.blk.axis n).regs[i]?).getD 0)
      (clampWord axClamps i (BitVec.ofNat 32 (u p.body 4 4))))
      ∧ (t.axis n).b AX.AX_SUPV.HELD = false ∧ (t.axis n).motor = (s.blk.axis n).motor ∧ (t.axis n).mot = (s.blk.axis n).mot
      ∧ (t.axis n).legs = (s.blk.axis n).legs ∧ (t.axis n).force = (s.blk.axis n).force ∧ s.blk.only t n ∧ t.rest = s.blk.rest) ∧
  (∀ (s : State) (p : Pkt) (i : Nat) (d : RegDef),
    s.blk.takes p 0x11 → p.tgt = 0xFE → 8 ≤ p.body.length → modDefs[i]? = some d → u p.body 0 3 = d.addr →
    d.writer = portPlane p.port → i ∉ modEvRegs → i ≠ MOD.VIOL.CTRL.reg → i ≠ MOD.PWM_LOAD_LO.SEL.reg →
    i ≠ MOD.PWM_LOAD_HI.SEL.reg → (s.blk.slave = false ∨ i ∉ stackRegs) →
    Does (.regWr p) s fun t => t.answers p.toHdr 0x11 0 []
      ∧ t.regs[i]? = some (d.stored ((s.blk.planes.get p.toHdr.pl).armed && s.blk.pw.straps.bench) s.blk.pw.straps.bench ((s.blk.regs[i]?).getD 0)
      (s.blk.modClamp i (BitVec.ofNat 32 (u p.body 4 4))))
      ∧ (t.planes.get p.toHdr.pl).armed = false ∧ t.sm.map (·.mem) = s.blk.sm.map (·.mem) ∧ t.plan = s.blk.plan ∧ t.owning = s.blk.owning) ∧
  (∀ (s : State) (p : Pkt) (n : Fin 48) (i : Nat) (d : RegDef),
    s.blk.takes p 0x11 → p.tgt = 0xFE → 8 ≤ p.body.length → axDefs[i]? = some d → u p.body 0 3 = axAddr n d.addr →
    d.writer ≠ portPlane p.port →
    Does (.regWr p) s fun t => t.answers p.toHdr 0x11 0 [] ∧ t.ax = s.blk.ax ∧ t.rest = s.blk.rest) ∧
  (∀ (s : State) (p : Pkt) (i : Nat) (d : RegDef),
    s.blk.takes p 0x11 → p.tgt = 0xFE → 8 ≤ p.body.length → s.blk.slave = true → i ∈ stackRegs → modDefs[i]? = some d →
    u p.body 0 3 = d.addr →
    Does (.regWr p) s fun t => t.answers p.toHdr 0x11 0 [] ∧ t.regs[i]? = s.blk.regs[i]? ∧ t.ax = s.blk.ax ∧ t.rest = s.blk.rest)

/-- `REG_RD_BLK` answers the words of a run of axis registers that a read does not change, in order, with 0 for addresses that name nothing
or lie past the page (11 R384, 13 R429, R431).  `REG_WR_BLK` writes each register of its run: here the four motion limits of an axis,
`V_MAX` limited to its range.  A count of 0 or above 253 is refused at byte 3, and nothing is written. -/
def Obligations.RegisterBlocksTransfer : Prop :=
  (∀ (s : State) (p : Pkt),
    s.blk.takes p 0x12 → p.tgt = 0xFE → 4 ≤ p.body.length → u p.body 0 3 % 4 = 0 → 1 ≤ u p.body 3 1 → u p.body 3 1 ≤ 253 →
    (∀ k < u p.body 3 1, ∀ x ∈ runAddr (u p.body 0 3) k, locate x = .none ∨ ∃ n : Fin 48, ∃ i : Fin 131, locate x = .axis n i.val ∧ i.val ∉ [AX.SLC_DATA0.I.reg, AX.SLC_DATA0.I.reg + 1, AX.PWM_STAT.CNT.reg, AX.SLC_STAT.ILV.reg]) →
    Does (.regRdBlk p) s fun t => t.ax = s.blk.ax ∧ s.blk.still t ∧ t.answers p.toHdr 0x12 0
      ((List.range (u p.body 3 1)).flatMap fun k => leBytes 4 ((runAddr (u p.body 0 3) k).elim 0 fun x =>
      (s.blk.show (portPlane p.port) 1 (locate x)).toNat))) ∧
  (∀ (s : State) (p : Pkt) (n : Fin 48),
    s.blk.takes p 0x13 → portPlane p.port = .ctrl → p.tgt = 0xFE → 20 ≤ p.body.length → u p.body 0 3 = axAddr n 0x604 →
    u p.body 3 1 = 4 →
    Does (.regWrBlk p) s fun t => t.answers p.toHdr 0x13 0 [] ∧ (t.axis n).limits =
      ⟨min (u p.body 4 4) 85899345, u p.body 8 4, u p.body 12 4, u p.body 16 4⟩
      ∧ (t.axis n).sameRegs (s.blk.axis n) [AX.MOT_VMAX.V_MAX.reg, AX.MOT_AMAX.A_MAX.reg, AX.MOT_DMAX.D_MAX.reg, AX.MOT_JERK.JERK.reg, AX.AX_SUPV.HELD.reg]
      ∧ (t.axis n).mot = (s.blk.axis n).mot ∧ s.blk.only t n ∧ s.blk.still t) ∧
  (∀ (s : State) (p : Pkt),
    s.blk.takes p 0x13 → p.tgt = 0xFE → 4 ≤ p.body.length → u p.body 0 3 % 4 = 0 → (u p.body 3 1 = 0 ∨ 253 < u p.body 3 1) →
    Does (.regWrBlk p) s fun t => t.answers p.toHdr 0x13 0x31 [3] ∧ t.ax = s.blk.ax ∧ s.blk.still t)

/-- A write of the key to `UNLOCK` arms the plane that writes it and no other (13 R436); with the other bits as they read nothing else changes.
A write of `LOAD_ALL` captures the PWM registers of every selected cell as they stand, and of no other (03 R86); it then reads 1 until the
last of them has applied them, or 0 at once with none selected (03 R87). -/
def Obligations.UnlockAndLoadAll : Prop :=
  (∀ (h : Hdr) (upper : BitVec 16) (s : State),
    s.blk.fits h 0x11 = true → h.tgt = 0xFE →
    Does (.modUnlock h upper) s fun t => t.answers h 0x11 0 [] ∧ (t.planes.get h.pl).armed = true
      ∧ (∀ i, i ≠ h.pl → t.planes.get i = s.blk.planes.get i) ∧ t.ax = s.blk.ax ∧ t.rest = s.blk.rest
      ∧ (upper = BitVec.ofNat 16 (Bool.bit (s.blk.planes.get h.pl).armed) → s.blk.still t)) ∧
  (∀ (h : Hdr) (sel : BitVec 16) (s : State),
    s.blk.fits h 0x11 = true → portPlane h.port = .ctrl → h.tgt = 0xFE → s.blk.bit MOD.PWM_LOAD_HI.LOAD_ALL = false →
    Does (.loadAll h sel) s fun t => t.answers h 0x11 0 []
      ∧ (∀ n, t.axis n = if (s.blk.r MOD.PWM_LOAD_LO.SEL + 2 ^ 32 * sel.toNat).testBit n.val
      then { s.blk.axis n with pwm := { (s.blk.axis n).pwm with capt := some (s.blk.axis n).regs } } else s.blk.axis n)
      ∧ t.bit MOD.PWM_LOAD_HI.LOAD_ALL = decide ((s.blk.r MOD.PWM_LOAD_LO.SEL + 2 ^ 32 * sel.toNat) % 2 ^ 48 ≠ 0) ∧ t.rest = s.blk.rest)

/-- A write to `MBX.SEL` clears `VALID` of its plane's mailbox, whose data registers read 0 then, and starts a capture; the capture ends with
`VALID` = 1, `WORDS` = 2, the value in D0 and D1, and 0 in D2 and D3, or, for an ID that names no value, with `UNKNOWN` and the four data registers 0 (13
R433, R434, 14 R458); where none was begun nothing is captured.  `MBX_RD` of 1 to 32 IDs answers the count and, for each ID, the ID and the
16 bytes of its value, 0 for an unknown one, and leaves the last ID captured in its plane's mailbox (11 R385, 13 R435); a count of 0 or above 32 is refused at
byte 0. -/
def Obligations.MailboxCaptures : Prop :=
  (∀ (h : Hdr) (id : Word) (s : State),
    s.blk.fits h 0x11 = true → h.tgt = 0xFE →
    Does (.mbxSelWrite h id) s fun t => t.answers h 0x11 0 [] ∧ (t.planes.get h.pl).sel = id ∧ (t.planes.get h.pl).valid = false
      ∧ (t.planes.get h.pl).due = true ∧ (∀ j : Fin 4, t.show (portPlane h.port) 1 (.mbxD j) = 0) ∧ (∀ i, i ≠ h.pl → t.planes.get i = s.blk.planes.get i) ∧ t.ax = s.blk.ax ∧ s.blk.still t) ∧
  (∀ (pl : Plane) (s : State),
    (s.blk.planes.get pl.idx).due = true →
    Does (.mbxCaptureDone pl) s fun t =>
      (∀ v ∈ s.blk.wideValue (s.blk.planes.get pl.idx).sel.toNat, t = { s.blk with planes := s.blk.planes.set pl.idx { s.blk.planes.get pl.idx with
      valid := true, unknown := false, words := 2, due := false, d := #v[BitVec.ofInt 32 v, BitVec.ofNat 32 (wide64 v / 2 ^ 32), 0, 0] } })
      ∧ (s.blk.wideValue (s.blk.planes.get pl.idx).sel.toNat = none → (t.planes.get pl.idx).valid = true
      ∧ (t.planes.get pl.idx).unknown = true ∧ (t.planes.get pl.idx).d = Vector.replicate 4 0 ∧ (t.planes.get pl.idx).due = false
      ∧ (∀ i, i ≠ pl.idx → t.planes.get i = s.blk.planes.get i) ∧ t.ax = s.blk.ax ∧ t.rest = s.blk.rest)) ∧
  (∀ (pl : Plane) (s : State),
    (s.blk.planes.get pl.idx).due = false →
    Does (.mbxCaptureDone pl) s fun t => t = s.blk) ∧
  (∀ (p : Pkt) (s : State),
    s.blk.takes p 0x14 → p.tgt = 0xFE → 1 ≤ u p.body 0 1 → u p.body 0 1 ≤ 32 → 4 + 4 * u p.body 0 1 ≤ p.body.length →
    Does (.mbxRd p) s fun t => t.ax = s.blk.ax ∧ s.blk.still t
      ∧ (t.planes.get p.toHdr.pl).sel = BitVec.ofNat 32 (u p.body (4 * u p.body 0 1) 4) ∧ (t.planes.get p.toHdr.pl).valid = true
      ∧ (t.planes.get p.toHdr.pl).unknown = (s.blk.wideValue (u p.body (4 * u p.body 0 1) 4)).isNone
      ∧ (t.planes.get p.toHdr.pl).d.get 0 = BitVec.ofInt 32 ((s.blk.wideValue (u p.body (4 * u p.body 0 1) 4)).getD 0)
      ∧ t.answers p.toHdr 0x14 0 ([BitVec.ofNat 8 (u p.body 0 1), 0, 0] ++ (List.range (u p.body 0 1)).flatMap fun k =>
      leBytes 4 (u p.body (4 + 4 * k) 4) ++ leBytes 8 ((s.blk.wideValue (u p.body (4 + 4 * k) 4)).elim 0 wide64) ++ leBytes 8 0)) ∧
  (∀ (p : Pkt) (s : State),
    s.blk.takes p 0x14 → p.tgt = 0xFE → 1 ≤ p.body.length → (u p.body 0 1 = 0 ∨ 32 < u p.body 0 1) →
    Does (.mbxRd p) s fun t => t.answers p.toHdr 0x14 0x31 [0] ∧ t.ax = s.blk.ax ∧ s.blk.still t)

/-- A write of `TRIP_CLR` with a trip latched requests a clear, tested at the next boundary, and without one does nothing (03 R98, R101); a single-sample request waits at its slices, wakes them
and stores `DSRC` (08 R267, R268); the sample, taken at the first instant 200 ns after the request or later at which the slice is idle and the conversion is over
before every urgent instant, of the slice or the
spare that serves it, ends the request and, with `DSRC` 1, arrives in the data register with `NEW` (08 R271, R283); a read of a data register answers it and clears `NEW` and `OVR` (13 R430). -/
def Obligations.AxisRequestRows : Prop :=
  (∀ (h : Hdr) (n : Fin 48) (s : State),
    s.blk.fits h 0x11 = true → portPlane h.port = .ctrl → h.tgt = 0xFE →
    Does (.tripClr h n) s fun t => t.answers h 0x11 0 [] ∧ (t.axis n).trip =
      { (s.blk.axis n).trip with clearReq := (s.blk.axis n).trip.clearReq || (s.blk.axis n).trip.latch }
      ∧ (t.axis n).mot = (s.blk.axis n).mot ∧ (t.axis n).legs = (s.blk.axis n).legs ∧ s.blk.only t n ∧ s.blk.still t) ∧
  (∀ (h : Hdr) (n : Fin 48) (req : BitVec 2) (dsrc : Bool) (s : State),
    s.blk.fits h 0x11 = true → portPlane h.port = .ctrl → h.tgt = 0xFE →
    Does (.slcSingleReq h n req dsrc) s fun t => t.answers h 0x11 0 [] ∧ (t.axis n).r AX.SLC_CFG.DSRC = Bool.bit dsrc
      ∧ (∀ k : Fin 2, ((t.axis n).slc.get k).single = (if req.getLsbD k.val = true then some ((s.blk.axis n).pwm.start.getD 0) else ((s.blk.axis n).slc.get k).single))
      ∧ (∀ k : Fin 2, req.getLsbD k.val = true → ∀ free : Nat, (t.axis n).awake k free = true)
      ∧ (t.axis n).mot = (s.blk.axis n).mot ∧ (t.axis n).trip = (s.blk.axis n).trip ∧ s.blk.only t n ∧ s.blk.still t) ∧
  (∀ (n : Fin 48) (k : Fin 2) (x : SingleIn) (r : Nat) (s : State),
    ((s.blk.axis n).slc.get k).single = some r → r ≤ x.reqAt8 → (s.blk.axis n).legs.phase ≠ .drain →
    x.at8 = (s.blk.axis n).singleAt k x.reqAt8 →
    Does (.singleSampleTaken n k x) s fun t => ((t.axis n).slc.get k).single = none
      ∧ ((s.blk.axis n).r AX.SLC_CFG.DSRC = 1 → (t.axis n).r (AX.SLC_DATA0.CODE.skip k.val) =
      (if ((s.blk.axis n).server k).isSome then x.conv.spare else x.conv.own).toNat ∧ (t.axis n).b (AX.SLC_DATA0.NEW.skip k.val) = true)
      ∧ (t.axis n).mot = (s.blk.axis n).mot ∧ s.blk.only t n ∧ t.rest = s.blk.rest
      ∧ (((s.blk.axis n).slc.get k).stand = none → t.regs = s.blk.regs)) ∧
  (∀ (s : State) (n : Fin 48) (k : Fin 2) (x : SingleIn),
    (((s.blk.axis n).slc.get k).single = none ∨ (s.blk.axis n).legs.phase = .drain ∨ x.at8 < x.reqAt8 + 640) →
    Does (.singleSampleTaken n k x) s fun t => t = s.blk) ∧
  (∀ (h : Hdr) (n : Fin 48) (k : Fin 2) (s : State),
    s.blk.fits h 0x10 = true → h.tgt = 0xFE →
    Does (.slcDataRead h n k) s fun t =>
      t.answers h 0x10 0 (leBytes 4 (((s.blk.axis n).regs[AX.SLC_DATA0.I.reg + k.val]?).getD 0).toNat)
      ∧ (t.axis n).b (AX.SLC_DATA0.NEW.skip k.val) = false ∧ (t.axis n).b (AX.SLC_DATA0.OVR.skip k.val) = false
      ∧ (t.axis n).r (AX.SLC_DATA0.I.skip k.val) = (s.blk.axis n).r (AX.SLC_DATA0.I.skip k.val)
      ∧ (t.axis n).r (AX.SLC_DATA0.CODE.skip k.val) = (s.blk.axis n).r (AX.SLC_DATA0.CODE.skip k.val) ∧ s.blk.only t n ∧ s.blk.still t) ∧
  (∀ (h : Hdr) (i : Fin 8) (s : State),
    s.blk.fits h 0x10 = true → h.tgt = 0xFE →
    Does (.icDataRead h i) s fun t =>
      t.answers h 0x10 0 (leBytes 4 ((s.blk.regs[MEAS.IC_DATA0.RAW.reg + i.val]?).getD 0).toNat)
      ∧ t.regs = s.blk.regs.setIfInBounds (MEAS.IC_DATA0.RAW.reg + i.val) (((s.blk.regs[MEAS.IC_DATA0.RAW.reg + i.val]?).getD 0) &&& 0x3FFFFFFF)
      ∧ t.ax = s.blk.ax ∧ t.rest = s.blk.rest)

/-- A write to an event register clears flag i when bit i of the value is 1 and the flag's stamp is at or before the written sequence s,
(`SEQ` − stamp) mod 256 ≥ (`SEQ` − s) mod 256; every other flag stays, and `SEQ` never changes.  For the module's own `EVT` and the
log's, a write that would change a reserved bit raises a flag of its own besides (00 R8), and is left out there. -/
def Obligations.EventWriteBackClears : Prop :=
  (∀ (h : Hdr) (n : Fin 48) (k : Fin 6) (r : Nat) (d : RegDef) (v : Word) (s : State),
    s.blk.fits h 0x11 = true → portPlane h.port = .ctrl → h.tgt = 0xFE → axEvRegs[k.val]? = some r → axDefs[r]? = some d →
    (s.blk.axis n).foreign r = false →
    Does (.evtWriteBack h (.axis n k) v) s fun t => t.answers h 0x11 0 []
      ∧ evSeqOf (((t.axis n).regs[r]?).getD 0) = evSeqOf (((s.blk.axis n).regs[r]?).getD 0)
      ∧ (∀ i : Fin 24, d.rc.testBit i.val = true → (((t.axis n).regs[r]?).getD 0).getLsbD i.val = ((((s.blk.axis n).regs[r]?).getD 0).getLsbD i.val &&
      !(v.getLsbD i.val && stampSeen (evSeqOf (((s.blk.axis n).regs[r]?).getD 0)) (((s.blk.axis n).stamps.get k).get i) (evSeqOf v))))
      ∧ (t.axis n).sameRegs (s.blk.axis n) [AX.AX_SUPV.HELD.reg] ∧ s.blk.only t n) ∧
  (∀ (h : Hdr) (k : Fin 16) (r : Nat) (d : RegDef) (v : Word) (s : State),
    s.blk.fits h 0x11 = true → h.tgt = 0xFE → modEvRegs[k.val]? = some r → modDefs[r]? = some d → d.writer = portPlane h.port →
    (k = 0 ∨ k = 15 → s.blk.pw.straps.bench = true ∨ (((s.blk.regs[r]?).getD 0) ^^^ v) &&& ~~~ (BitVec.ofNat 32 d.rc) = 0) →
    Does (.evtWriteBack h (.mod k) v) s fun t => t.answers h 0x11 0 []
      ∧ evSeqOf ((t.regs[r]?).getD 0) = evSeqOf ((s.blk.regs[r]?).getD 0)
      ∧ (∀ i : Fin 24, d.rc.testBit i.val = true → ((t.regs[r]?).getD 0).getLsbD i.val = (((s.blk.regs[r]?).getD 0).getLsbD i.val &&
      !(v.getLsbD i.val && stampSeen (evSeqOf ((s.blk.regs[r]?).getD 0)) ((s.blk.stamps.get k).get i) (evSeqOf v))))
      ∧ t.ax = s.blk.ax ∧ s.blk.still t)

/-- A write of `RW_REQ` with `GO` (08 R280): on a fallow axis that is NORMAL, with no latched trip and gate-drive power, the measurement runs:
its cell regulates the current, limited to 100 to 3000 mA, through the pair; otherwise it is refused with `ST` 3 and `RW_DONE`, and while one runs the request
only stores its fields.  Its end, once IC7 has integrated the voltage, gives `ST` 2 with V / I in µΩ, V with the two node dividers corrected and I the mean of the
slices at the ends of the pair (notes/assumptions/23.md and 143.md), and before IC7 has, nothing; without the current `ST` is 4, aborted 5. -/
def Obligations.WindingMeasurement : Prop :=
  (∀ (h : Hdr) (axis : BitVec 6) (pair : BitVec 2) (iTest : BitVec 16) (s : State),
    s.blk.fits h 0x11 = true → portPlane h.port = .mgmt → h.tgt = 0xFE →
    Does (.rwReqGo h axis pair iTest) s fun t => t.answers h 0x11 0 []
      ∧ t.r MEAS.RW_REQ.AXIS = axis.toNat ∧ t.r MEAS.RW_REQ.I_TEST = max 100 (min 3000 iTest.toNat)
      ∧ (if s.blk.meas.rw.isSome then t.meas = s.blk.meas ∧ t.ax = s.blk.ax
      else if h : axis.toNat < 48 then
      (if (s.blk.axis ⟨axis.toNat, h⟩).mot.mode = .fallow ∧ (s.blk.axis ⟨axis.toNat, h⟩).legs.phase = .normal
      ∧ (s.blk.axis ⟨axis.toNat, h⟩).trip.latch = false ∧ s.blk.pw.gd = true
      then t.r MEAS.RW_RES.ST = 1 ∧ t.meas.rw = some {
      axis := ⟨axis.toNat, h⟩, pair := (if (s.blk.axis ⟨axis.toNat, h⟩).stepper = true ∧ pair = 2 then 0 else pair.toNat), mA := max 100 (min 3000 iTest.toNat) }
      ∧ t.ax = (s.blk.mapAx ⟨axis.toNat, h⟩ fun a => { a with reg := { a.reg with test := some (Fin.ofNat 3
      (if (s.blk.axis ⟨axis.toNat, h⟩).stepper = true ∧ pair = 2 then 0 else pair.toNat), max 100 (min 3000 iTest.toNat)) } }).ax
      else t.r MEAS.RW_RES.ST = 3 ∧ t.flagged MEAS.EVT.RW_DONE ∧ t.meas = s.blk.meas ∧ t.ax = s.blk.ax)
      else t.r MEAS.RW_RES.ST = 3 ∧ t.flagged MEAS.EVT.RW_DONE ∧ t.meas = s.blk.meas ∧ t.ax = s.blk.ax)) ∧
  (∀ (w : Winding) (uV : Int) (node : Vector Int 2) (code : Vector (Nat × Nat) 2) (s : State),
    s.blk.meas.rw = some w → w.volt = some uV →
    Does (.rwMeasureDone (.done node code)) s fun t => t.meas = { s.blk.meas with rw := none } ∧ t.flagged MEAS.EVT.RW_DONE
      ∧ t.ax = (s.blk.mapAx w.axis fun a => { a with reg := a.reg.endTest }).ax ∧ t.r MEAS.RW_RES.ST = 2
      ∧ ((s.blk.windingVI w uV node code).2 ≠ 0 → t.r MEAS.RW_RES.R =
      min (roundAway ((s.blk.windingVI w uV node code).1 * 1000 / (s.blk.windingVI w uV node code).2)).toNat (2 ^ MEAS.RW_RES.R.w - 1))) ∧
  (∀ (w : Winding) (o : RwOut) (s : State),
    s.blk.meas.rw = some w → (o = .notReached ∨ o = .aborted) →
    Does (.rwMeasureDone o) s fun t => t.meas = { s.blk.meas with rw := none } ∧ t.flagged MEAS.EVT.RW_DONE
      ∧ t.ax = (s.blk.mapAx w.axis fun a => { a with reg := a.reg.endTest }).ax
      ∧ t.r MEAS.RW_RES.ST = (if o = .aborted then 5 else 4)) ∧
  (∀ (node : Vector Int 2) (code : Vector (Nat × Nat) 2) (s : State),
    (∀ w ∈ s.blk.meas.rw, w.volt = none) →
    Does (.rwMeasureDone (.done node code)) s fun t => t = s.blk)

/-- Management registers whose write acts (12 R408, R409, 08 R276, R278, 10 R330, 07 R221): the shot of IC7 is armed for trigger 1, and its rotation runs for trigger 0; a side that is
OUT boots again; counters clear to zero, so that a move in progress counts from there (07 R257), and nothing else does; a port's timing waits for its next idle where a packet is being sent or the reply to the write
goes first, and else acts at once (notes/assumptions/31.md); and a filter stores its writable bits, filter 0 none. -/
def Obligations.ManagementRegisterRows : Prop :=
  (∀ (h : Hdr) (cfg : BitVec 26) (s : State),
    s.blk.fits h 0x11 = true → portPlane h.port = .mgmt → h.tgt = 0xFE →
    Does (.ic7Arm h cfg) s fun t => t.answers h 0x11 0 [] ∧ t.ax = s.blk.ax
      ∧ t.meas = { s.blk.meas with ic7Armed := t.meas.ic7Armed, ic7Rot := s.blk.meas.ic7Rot || t.r MEAS.IC7_CFG.TRIG = 0 }
      ∧ (if t.r MEAS.IC7_CFG.TRIG = 1 then t.meas.ic7Armed.isSome = true else t.meas.ic7Armed = s.blk.meas.ic7Armed)
      ∧ t.r MEAS.IC7_CFG.TRIG = min 2 (cfg.toNat % 4) ∧ t.r MEAS.IC7_CFG.AXIS = cfg.toNat / 4 % 64 ∧ t.r MEAS.IC7_CFG.EVT = cfg.toNat / 256 % 4
      ∧ t.r MEAS.IC7_CFG.DELAY = cfg.toNat / 1024) ∧
  (∀ (h : Hdr) (v : BitVec 3) (s : State),
    s.blk.fits h 0x11 = true → portPlane h.port = .mgmt → h.tgt = 0xFE →
    Does (.sideRetry h v) s fun t => t.answers h 0x11 0 [] ∧ t.ax = s.blk.ax
      ∧ t.side .a = (if v.getLsbD 0 = true ∧ (s.blk.side .a).st = .out then { s.blk.side .a with st := .booting } else s.blk.side .a)
      ∧ t.side .b = (if v.getLsbD 1 = true ∧ (s.blk.side .b).st = .out then { s.blk.side .b with st := .booting } else s.blk.side .b)) ∧
  (∀ (h : Hdr) (s : State),
    s.blk.fits h 0x11 = true → portPlane h.port = .mgmt → h.tgt = 0xFE →
    Does (.ctrClrMod h) s fun t => t.answers h 0x11 0 [] ∧ t.ax = s.blk.ax ∧ t.owning = s.blk.owning
      ∧ (s.blk.pw.straps.bench = false → s.blk.sameRegs t)
      ∧ (∀ i : Fin 14, t.ledg.e.get i = if i.val < 10 then 0 else s.blk.ledg.e.get i) ∧ t.ledg.link0 = s.blk.ledg.link0) ∧
  (∀ (h : Hdr) (axis : BitVec 6) (s : State),
    s.blk.fits h 0x11 = true → portPlane h.port = .mgmt → h.tgt = 0xFE →
    Does (.ctrClrAxes h axis) s fun t => t.answers h 0x11 0 [] ∧ t.rest = s.blk.rest ∧ (s.blk.pw.straps.bench = false → s.blk.sameRegs t)
      ∧ (∀ n : Fin 48, if n.val = axis.toNat ∨ axis = 63 then
      (t.axis n).eOut = 0 ∧ (t.axis n).eRegen = 0 ∧ (t.axis n).r AX.LEDG_LEARN.E_LEARN = 0
      ∧ (t.axis n).sameRegs (s.blk.axis n) [AX.LEDG_LEARN.E_LEARN.reg] ∧ (t.axis n).mot = { (s.blk.axis n).mot with job := (s.blk.axis n).mot.job.map fun j => { j with eStart := 0 } }
      else t.axis n = s.blk.axis n)) ∧
  (∀ (h : Hdr) (i : Fin 6) (v : Word) (s : State),
    s.blk.fits h 0x11 = true → portPlane h.port = .mgmt → h.tgt = 0xFE →
    Does (.mbTimingWrite h i v) s fun t => t.answers h 0x11 0 [] ∧ t.ax = s.blk.ax ∧ t.rest = s.blk.rest
      ∧ (if h.port = i ∨ ((s.blk.ports.get i).tx.any fun x => x.cur.elim false fun c => c.idx != 0) = true then
      (t.ports.get i).timing = (s.blk.ports.get i).timing
      ∧ (t.ports.get i).timingNext = some ((t.regs[MB.CFG.NRATE.reg + 38 * i.val]?).getD 0, if h.port = i then some h.seq else none)
      else (t.ports.get i).timing = (t.regs[MB.CFG.NRATE.reg + 38 * i.val]?).getD 0 ∧ (t.ports.get i).timingNext = none)
      ∧ t.r (MB.CFG.NRATE.port i) = v.toNat % 4 ∧ t.r (MB.CFG.DRATE.port i) ≤ 4) ∧
  (∀ (h : Hdr) (i : Fin 6) (j : Fin 16) (second : Bool) (v : Word) (s : State) (r : Nat) (d : RegDef),
    s.blk.fits h 0x11 = true → portPlane h.port = .mgmt → h.tgt = 0xFE →
    r = (if second then MB.FLTB.SRC.reg else MB.FLTA.CLS.reg) + 38 * i.val + 2 * j.val → modDefs[r]? = some d →
    Does (.mbFilterWrite h i j second v) s fun t => t.answers h 0x11 0 [] ∧ t.ax = s.blk.ax ∧ t.rest = s.blk.rest
      ∧ t.regs[r]? = some (d.stored false s.blk.pw.straps.bench ((s.blk.regs[r]?).getD 0) v))

/-! ### Configuration (11 R386) -/

/-- `AXIS_CONFIG` (11 R386): the motor type, and the travel limits of 06 R193; a new type leaves the axis fallow, or UNCONFIGURED without a
motor (06 R180), and is refused with 0x12 unless the axis is fallow or UNCONFIGURED; limits out of order are refused at byte 8.
No other axis changes. -/
def Obligations.AxisConfigSets : Prop :=
  (∀ (s : State) (p : Pkt) (n : Fin 48) (m : Motor),
    s.blk.takes p 0x20 → p.tgt.toNat = n.val → 24 ≤ p.body.length → motorOf (u p.body 0 1) = some m →
    sI p.body 8 8 ≤ sI p.body 16 8 →
    Does (.axisConfig p) s fun t => s.blk.only t n ∧ s.blk.still t ∧
      (if (s.blk.axis n).motor = m ∨ (s.blk.axis n).mot.mode = .fallow ∨ (s.blk.axis n).mot.mode = .unconfigured then
      t.answers p.toHdr 0x20 0 [] ∧ (t.axis n).motor = m ∧ (t.axis n).mot.posMin = sI p.body 8 8 ∧ (t.axis n).mot.posMax = sI p.body 16 8
      ∧ (t.axis n).b AX.AX_SUPV.HELD = false ∧ (t.axis n).mot.pCmd = (s.blk.axis n).mot.pCmd
      ∧ (t.axis n).mot.mode = (if (s.blk.axis n).motor = m then (s.blk.axis n).mot.mode else if m = Motor.none then .unconfigured else .fallow)
      else t.answers p.toHdr 0x20 0x12 [] ∧ t.ax = s.blk.ax)) ∧
  (∀ (s : State) (p : Pkt) (n : Fin 48) (m : Motor),
    s.blk.takes p 0x20 → p.tgt.toNat = n.val → 24 ≤ p.body.length → motorOf (u p.body 0 1) = some m →
    sI p.body 16 8 < sI p.body 8 8 →
    Does (.axisConfig p) s fun t => t.answers p.toHdr 0x20 0x31 [8] ∧ t.ax = s.blk.ax ∧ s.blk.still t)

/-- Each of these commands ends the hold of 01 R14 (14 R457).  `MOTOR_MODEL` with no zero resistance, inductance or torque constant, and `ZONE_TABLE` with rising entries (11 R386, 06 R191, 04
R131), store what they carry on their axis and leave its motion; part 0 of the correction table waits for part 1, which completes
the table for the next boundary, its trims limited (04 R117), on an axis without a brushless motor. -/
def Obligations.TablesLoad : Prop :=
  (∀ (s : State) (p : Pkt) (n : Fin 48),
    s.blk.takes p 0x21 → p.tgt.toNat = n.val → 24 ≤ p.body.length → u p.body 0 4 ≠ 0 → u p.body 4 4 ≠ 0 → u p.body 8 4 ≠ 0 →
    Does (.motorModel p) s fun t => t.answers p.toHdr 0x21 0 []
      ∧ (t.axis n).b AX.AX_SUPV.HELD = false
      ∧ (t.axis n).model = some ⟨u p.body 0 4, u p.body 4 4, u p.body 8 4, u p.body 12 4, u p.body 16 4, u p.body 20 4⟩
      ∧ (t.axis n).mot = (s.blk.axis n).mot ∧ (t.axis n).motor = (s.blk.axis n).motor ∧ s.blk.only t n ∧ s.blk.still t) ∧
  (∀ (s : State) (p : Pkt) (n : Fin 48) (k : Nat),
    s.blk.takes p 0x22 → p.tgt.toNat = n.val → 8 ≤ p.body.length → u p.body 0 1 = 0 → zoneEntries p.body true = .ok k →
    Does (.zoneTableSpeed p) s fun t => t.answers p.toHdr 0x22 0 []
      ∧ t.axis n = { s.blk.axis n with
      speedZones := (List.range k).map fun i => ⟨sI p.body (8 + 16 * i) 8, u p.body (16 + 16 * i) 4⟩ }.setB AX.AX_SUPV.HELD false ∧ s.blk.only t n ∧ s.blk.still t) ∧
  (∀ (s : State) (p : Pkt) (n : Fin 48) (k : Nat),
    s.blk.takes p 0x22 → p.tgt.toNat = n.val → 8 ≤ p.body.length → u p.body 0 1 = 1 → zoneEntries p.body false = .ok k →
    Does (.zoneTableForce p) s fun t => t.answers p.toHdr 0x22 0 []
      ∧ t.axis n = { s.blk.axis n with
      forceZones := (List.range k).map fun i => ⟨sI p.body (8 + 16 * i) 8, u p.body (16 + 16 * i) 2, u p.body (18 + 16 * i) 2,
      (u p.body (20 + 16 * i) 2).testBit 0⟩ }.setB AX.AX_SUPV.HELD false ∧ s.blk.only t n ∧ s.blk.still t) ∧
  (∀ (s : State) (p : Pkt) (n : Fin 48),
    s.blk.takes p 0x22 → p.tgt.toNat = n.val → 520 ≤ p.body.length → u p.body 0 1 = 2 → u p.body 1 1 ≤ 1 →
    (u p.body 1 1 = 1 → (s.blk.axis n).corrLoad ≠ []) → (s.blk.axis n).brushless = false →
    Does (.zoneTableCorrection p) s fun t => t.answers p.toHdr 0x22 0 [] ∧ s.blk.only t n ∧ s.blk.still t
      ∧ (if u p.body 1 1 = 0 then t.axis n = { s.blk.axis n with corrLoad := (p.body.drop 8).take 512 }.setB AX.AX_SUPV.HELD false
      else t.axis n = { s.blk.axis n with corrLoad := [], corrNext := some ((List.range 256).map fun i =>
      (sI ((s.blk.axis n).corrLoad ++ (p.body.drop 8).take 512) (4 * i) 2,
      max (-8192) (min (sI ((s.blk.axis n).corrLoad ++ (p.body.drop 8).take 512) (4 * i + 2) 2) 8191))) }.setB AX.AX_SUPV.HELD false))

/-! ### Motion packets (06, 11 R387 to R392) -/

/-- `MOVE_ABS`, `MOVE_REL`, `MOVE_VEL` (homing or not), `MOVE_GROUP`, `FOLLOW_STEP`, `GEAR`, `LOCAL_SPEED` and `CAM_ENGAGE`: what passes steps
1 to 8 waits as the last candidate of the planner, with what it asks, and is not answered yet (07 R233); it cancels a pending `FALLOW`
of its axes (06 R200), and nothing else of them changes.  `PLAN_QUERY` of such a command becomes a query that touches no axis (07
R241).  What passes no step 7 or 8 is answered with its status, and does not wait.
What `MOVE_ABS`, `MOVE_REL` and `MOVE_VEL` ask of one axis (11 R387): policy, `D_MAX`, position, distance or velocity, carried limits,
queue and home options, where the block has no byte of its own to refuse; a target outside the travel limits is refused at byte 4
(06 R193), and so is a stepper's homing velocity below the estimate's speed (04 R133). -/
def Obligations.MovesBecomeCandidates : Prop :=
  (∀ (c : Instr) (s : State) (p : Pkt) (opc : Nat) (a : Ask),
    c.pkt? = some p → c.opcode? = some opc → opc ∈ [0x30, 0x31, 0x32, 0x33, 0x37, 0x38, 0x39, 0x3B] → s.blk.takes p opc →
    s.blk.ask opc p.tgt p.body = .ok a → s.blk.askFault a = none →
    Does c s fun t => t.plan = { s.blk.plan with
      cands := s.blk.plan.cands ++ [⟨Pkt.req p opc, false, a.policy, a.dly, a.members, a.rank, a.group, false⟩] }
      ∧ t.ports = s.blk.ports ∧ t.regs = s.blk.regs
      ∧ (∀ n, t.axis n = if a.members.any (fun m => m.axis = n) then
      { s.blk.axis n with mot := { (s.blk.axis n).mot with fallowAfter := false } } else s.blk.axis n)) ∧
  (∀ (s : State) (p : Pkt) (opc : Nat) (a : Ask),
    s.blk.takes p 0x53 → 8 ≤ p.body.length → opc = u p.body 0 1 → opc ∈ [0x30, 0x31, 0x32, 0x33, 0x37, 0x38, 0x39, 0x3B] →
    s.blk.ask opc p.tgt (p.body.drop 8) = .ok a → s.blk.askFault a = none →
    Does (.planQuery p) s fun t => t.plan = { s.blk.plan with
      cands := s.blk.plan.cands ++ [⟨Pkt.req p 0x53, true, a.policy, a.dly, a.members, a.rank, a.group, false⟩] }
      ∧ t.ports = s.blk.ports ∧ t.regs = s.blk.regs ∧ t.ax = s.blk.ax) ∧
  (∀ (c : Instr) (s : State) (p : Pkt) (opc : Nat) (a : Ask) (st : Nat) (x : List Byte),
    c.pkt? = some p → c.opcode? = some opc → opc ∈ [0x30, 0x31, 0x32, 0x33, 0x37, 0x38, 0x39, 0x3B] → s.blk.takes p opc →
    s.blk.ask opc p.tgt p.body = .ok a → s.blk.askFault a = some (st, x) →
    Does c s fun t => t.answers p.toHdr opc st x ∧ t.plan = s.blk.plan ∧ s.blk.still t) ∧
  (∀ (c : Instr) (s : State) (p : Pkt) (opc : Nat) (st : Nat) (x : List Byte),
    c.pkt? = some p → c.opcode? = some opc → opc ∈ [0x30, 0x31, 0x32, 0x33, 0x37, 0x38, 0x39, 0x3B] → s.blk.takes p opc →
    s.blk.ask opc p.tgt p.body = .error (st, x) →
    Does c s fun t => t.answers p.toHdr opc st x ∧ t.plan = s.blk.plan ∧ t.ax = s.blk.ax ∧ s.blk.still t) ∧
  (∀ (b : Blk) (opc : Nat) (t : Byte) (n : Fin 48) (bs : List Byte),
    opc ∈ [0x30, 0x31, 0x32] → t.toNat = n.val → 32 ≤ bs.length → (moveBlock opc bs).bad opc b.version = none →
    b.ask opc t bs =
      (let k : MoveK := if opc = 0x30 then .abs (sI bs 4 8) else if opc = 0x31 then .rel (sI bs 4 8) else .vel (sI bs 4 4) ((u bs 1 1).testBit 1);
      if (b.axis n).outside k ((u bs 1 1).testBit 0) = true
      ∨ ((u bs 1 1).testBit 1 = true ∧ (b.axis n).stepper = true ∧ (sI bs 4 4).natAbs < 4096 * (b.axis n).r AX.LA_GAIN.V_EST) then
      .error (0x31, [4])
      else .ok ⟨u bs 0 1, u bs 2 2, [⟨n, k, ⟨u bs 12 4, u bs 16 4, u bs 20 4, u bs 24 4⟩, (u bs 1 1).testBit 0⟩], none, 16 + n.val⟩))

/-- `HOLD` (06 R180, R181): every axis of its target that step 8 does not refuse holds where it stands; one that it refuses only loses a pending
`FALLOW` (06 R200), and every other axis is as before.
`BRAKE` on a brushless axis in HOLD or STOPPING, as which an axis with a pending `FALLOW` is judged, short-brakes it in PARK; in every other case it is
refused with 0x12 (05 R165), and cancels a pending `FALLOW` too. -/
def Obligations.HoldAndBrake : Prop :=
  (∀ (s : State) (p : Pkt) (ns : List (Fin 48)),
    s.blk.takes p 0x34 → s.blk.targets .many p.tgt = some ns →
    Does (.hold p) s fun t => s.blk.still t ∧ (∀ n,
      if n ∈ ns ∧ s.blk.stateFault n .hold false = none then (t.axis n).mot.mode = .hold ∧ (t.axis n).mot.pCmd = (s.blk.axis n).mot.pCmd
      ∧ (t.axis n).trip.live = true ∧ (t.axis n).mot.fallowAfter = false
      else t.axis n = if n ∈ ns then { s.blk.axis n with mot := { (s.blk.axis n).mot with fallowAfter := false } } else s.blk.axis n)
      ∧ (∀ n : Fin 48, p.tgt.toNat = n.val → t.answers p.toHdr 0x34 ((s.blk.stateFault n .hold false).getD 0) [])) ∧
  (∀ (s : State) (p : Pkt) (n : Fin 48),
    s.blk.takes p 0x36 → p.tgt.toNat = n.val →
    Does (.brake p) s fun t => s.blk.only t n ∧ t.rest = s.blk.rest ∧ t.owning = s.blk.owning ∧
      (if (s.blk.axis n).brushless = true ∧ ((s.blk.axis n).mot.judged = .hold ∨ (s.blk.axis n).mot.judged = .stopping) then
      t.answers p.toHdr 0x36 0 [] ∧ (t.axis n).mot.mode = .park ∧ (t.axis n).bl.brake = .park ∧ (t.axis n).b AX.BL_STAT.BRAKE = true
      ∧ (t.axis n).mot.job = none ∧ (t.axis n).mot.pCmd = (s.blk.axis n).mot.pCmd
      else t.answers p.toHdr 0x36 0x12 []
      ∧ t.axis n = { s.blk.axis n with mot := { (s.blk.axis n).mot with fallowAfter := false } }))

/-- Short-circuit handling in which a stop waits (02 R69). -/
def Sys2Proof.Machine.Axis.handling (a : Axis) : Bool :=
  match a.legs.phase with | .hold | .isoWait _ | .tapWait _ => true | _ => false

/-- A stepper whose profile, which no stop has met, a stop of a kind ends with a ramp. -/
def Sys2Proof.Machine.Axis.ramps (a : Axis) (q : Bool) : Bool :=
  a.stepper && a.mot.mode.running && a.mot.mode != .stopping && !a.b AX.LEDG_AX.SB_STOP && a.mot.stopFrom.isNone && (q || a.mot.mode != .position || decide (a.seg < 5))

/-- `STOP`, `QSTOP` and `FALLOW` (06 R197 to R200): in short-circuit handling they wait for its end (02 R69); an axis that runs no profile
drops its waiting and queued moves and keeps its mode, a fallow axis stays so, and from HOLD or PARK `FALLOW` leaves it fallow; a
stepper that runs, without `SB_STOP` and met by no stop before, ramps down (or, at rest already, comes to its end), a position move in its last ramp running on
under `STOP`.  Other axes are as before; candidates of the axes are marked (11 R405).  The reply gives a status for each (11 R382). -/
def Obligations.StopsAct : Prop :=
  (∀ (s : State) (p : Pkt) (ns : List (Fin 48)) (q : Bool),
    s.blk.takes p (if q then 0x41 else 0x40) → s.blk.targets .many p.tgt = some ns →
    Does (if q then .qstop p else .stop p) s fun t => t.rest = { s.blk with plan := t.plan }.rest
      ∧ t.plan.cands = s.blk.plan.cands.map (fun c =>
      if !c.query && c.members.any (fun m => ns.contains m.axis) then { c with stopped := true } else c)
      ∧ (∀ n, n ∉ ns → t.axis n = s.blk.axis n)
      ∧ (∀ n ∈ ns, if (s.blk.axis n).handling = true then
      (t.axis n).legs.deferred = (s.blk.axis n).legs.deferred ++ [if q then .qstop else .stop] ∧ (t.axis n).mot = (s.blk.axis n).mot
      else if (s.blk.axis n).mot.mode.running = false then
      (t.axis n).mot.mode = (s.blk.axis n).mot.mode ∧ (t.axis n).mot.waiting = none ∧ (t.axis n).mot.queued = none
      ∧ (t.axis n).mot.pCmd = (s.blk.axis n).mot.pCmd
      else if (s.blk.axis n).ramps q = true then (t.axis n).mot.mode ∈ [.stopping, .hold, .fallow] ∧ (t.axis n).mot.waiting = none
      ∧ (t.axis n).mot.left = true ∧ (t.axis n).mot.pCmd = (s.blk.axis n).mot.pCmd
      else True)
      ∧ t.answers p.toHdr (if q then 0x41 else 0x40) 0 (if p.tgt.toNat < 48 then [] else axisMask ns ++ List.replicate ns.length 0)) ∧
  (∀ (s : State) (p : Pkt) (ns : List (Fin 48)),
    s.blk.takes p 0x35 → s.blk.targets .many p.tgt = some ns →
    Does (.fallow p) s fun t => t.rest = { s.blk with plan := t.plan }.rest
      ∧ (∀ n, n ∉ ns → t.axis n = s.blk.axis n)
      ∧ (∀ n ∈ ns, if (s.blk.axis n).handling = true then
      (t.axis n).legs.deferred = (s.blk.axis n).legs.deferred ++ [.fallow] ∧ (t.axis n).mot = (s.blk.axis n).mot
      else if (s.blk.axis n).mot.mode = .fallow ∨ (s.blk.axis n).mot.mode = .unconfigured then
      (t.axis n).mot.mode = (s.blk.axis n).mot.mode ∧ (t.axis n).mot.waiting = none
      else if (s.blk.axis n).mot.mode = .hold ∨ (s.blk.axis n).mot.mode = .park then (t.axis n).mot.mode.enabled = false ∧ (t.axis n).mot.waiting = none
      ∧ (t.axis n).trip.live = false ∧ (t.axis n).reg.amp = 0
      else if (s.blk.axis n).mot.mode = .stopping then
      (t.axis n).mot = { (s.blk.axis n).mot with fallowAfter := true }
      else True)
      ∧ t.answers p.toHdr 0x35 0 (if p.tgt.toNat < 48 then [] else axisMask ns ++ List.replicate ns.length 0)) ∧
  (∀ (s : State) (p : Pkt),
    s.blk.judged (Pkt.req p 0x42) = .go → (p.tgt = 0xFE ∨ p.tgt = 0xFF) →
    Does (.stopAll p) s fun t =>
      t.plan.cands = s.blk.plan.cands.map (fun c => if !c.query && !c.members.isEmpty then { c with stopped := true } else c)
      ∧ (∀ n, if (s.blk.axis n).mot.mode.running = false then
      (t.axis n).mot.mode = (s.blk.axis n).mot.mode ∧ (t.axis n).mot.waiting = none ∧ (t.axis n).mot.queued = none
      else if (s.blk.axis n).handling = true then
      (t.axis n).legs.deferred = (s.blk.axis n).legs.deferred ++ [if u p.body 0 1 = 1 then .stop else .qstop] ∧ (t.axis n).mot = (s.blk.axis n).mot
      else if (s.blk.axis n).ramps (u p.body 0 1 ≠ 1) = true then (t.axis n).mot.mode ∈ [.stopping, .hold, .fallow] else True)
      ∧ (s.blk.isOwner p.src = true → (∀ z ∈ s.blk.sess, z.sid = p.sid) → t.answers p.toHdr 0x42 0 [])
      ∧ t.sm = s.blk.sm ∧ t.ledg = s.blk.ledg ∧ (∀ i, (t.planes.get i).l = (s.blk.planes.get i).l ∧ (t.planes.get i).armed = (s.blk.planes.get i).armed)
      ∧ t.pw = s.blk.pw)

/-- `CAM_LOAD` (11 R391, 06 R206, R207): the points of its run are written into its table, which is valid when all of them have come and
pass the check; with a descriptor the table begins empty and its slots in the libraries are erased (16 R496), other tables stay; a
table in use is refused with 0x12.  `CAM_DISENGAGE` (06 R211, R212) cancels a pending `FALLOW` (06 R200), refused or not: a cam that waits to engage is dropped; an engaged axis stops
along its ramp, or waits for the position at which it disengages. -/
def Obligations.CamCommands : Prop :=
  (∀ (s : State) (p : Pkt) (k : Fin 64) (tab : CamTable),
    s.blk.takes p 0x3A → p.tgt = 0xFE → 8 ≤ p.body.length → u p.body 0 1 = k.val → u p.body 4 2 ≤ 125 →
    (if (u p.body 1 1).testBit 0 then 16 else 8) + 8 * u p.body 4 2 ≤ p.body.length →
    (if (u p.body 1 1).testBit 0 then camDesc p.body else .ok (s.blk.cams.get k)) = .ok tab →
    u p.body 2 2 + u p.body 4 2 ≤ tab.count →
    Does (.camLoad p) s fun t => t.ax = s.blk.ax ∧ t.plan = s.blk.plan ∧ (∀ j, j ≠ k → t.cams.get j = s.blk.cams.get j) ∧
      (if s.blk.ax.any (·.usesTable k) = true ∨ s.blk.plan.cands.any (fun c => c.members.any fun m =>
      match m.kind with | .cam x => x.table == k | _ => false) = true then
      t.answers p.toHdr 0x3A 0x12 [] ∧ t.cams = s.blk.cams ∧ t.sm = s.blk.sm
      else
      t.cams.get k = (tab.write (u p.body 2 2) (camPoints (u p.body 4 2) (p.body.drop (if (u p.body 1 1).testBit 0 then 16 else 8)))).1
      ∧ (if (tab.write (u p.body 2 2) (camPoints (u p.body 4 2) (p.body.drop (if (u p.body 1 1).testBit 0 then 16 else 8)))).2 = true
      then t.answers p.toHdr 0x3A 0x31 [0xFF] else t.answers p.toHdr 0x3A 0 [])
      ∧ ((u p.body 1 1).testBit 0 = false → t.sm = s.blk.sm)
      ∧ (∀ i a, ¬ (camSlot k ≤ a ∧ a < camSlot k + 0x10000) → memGet (t.sm.get i).mem a = memGet (s.blk.sm.get i).mem a)
      ∧ ((u p.body 1 1).testBit 0 = true → ∀ i a, camSlot k ≤ a → a < camSlot k + 0x10000 → (s.blk.sm.get i).absent.getLsbD 0 = false →
      memGet (t.sm.get i).mem a = 0xFF))) ∧
  (∀ (s : State) (p : Pkt) (n : Fin 48),
    s.blk.takes p 0x3C → p.tgt.toNat = n.val → 16 ≤ p.body.length → u p.body 0 1 ≤ 1 →
    Does (.camDisengage p) s fun t => s.blk.only t n ∧ t.rest = s.blk.rest ∧
      (if (s.blk.axis n).mot.camWait.isSome then t.answers p.toHdr 0x3C 0 []
      ∧ t.axis n = { s.blk.axis n with mot := { (s.blk.axis n).mot with camWait := none, job := none, fallowAfter := false } }.setB AX.AX_SUPV.HELD false
      else if ¬ (2 ≤ (s.blk.axis n).mot.judged.num ∧ (s.blk.axis n).mot.judged.num ≤ 7) ∨ (u p.body 0 1 = 1 ∧ (s.blk.axis n).mot.engage = none) then
      t.answers p.toHdr 0x3C 0x12 [] ∧ t.axis n = { s.blk.axis n with mot := { (s.blk.axis n).mot with fallowAfter := false } }
      else t.answers p.toHdr 0x3C 0 [] ∧ (∀ e ∈ (s.blk.axis n).mot.engage, u p.body 0 1 = 1 →
      t.axis n = { s.blk.axis n with mot := { (s.blk.axis n).mot with
      engage := some { e with offAt := some (sI p.body 8 8, !(u p.body 1 1).testBit 1) }, fallowAfter := false } }.setB AX.AX_SUPV.HELD false)
      ∧ (u p.body 0 1 = 0 → (s.blk.axis n).handling = false → (s.blk.axis n).ramps false = true → (t.axis n).mot.mode ∈ [.stopping, .hold, .fallow])))

/-! ### Settings of the planner, data and management (07, 08, 11 R393 to R397) -/

/-- `BUDGET_SET` stores every field of the budget at once, each limited as a register write limits it (07 R222, R223, R258), `RESERVE_SET`
the margin and the tags of the axes (07 R225); no axis, and nothing else of the module, changes.  On a slave of a stack `BUDGET_SET` is
refused with 0x12, and `RESERVE_SET` stores the tags alone (15 R475). -/
def Obligations.BudgetSettingsStore : Prop :=
  (∀ (s : State) (p : Pkt),
    s.blk.takes p 0x50 → p.tgt = 0xFE → 26 ≤ p.body.length → s.blk.slave = false →
    Does (.budgetSet p) s fun t => t.answers p.toHdr 0x50 0 [] ∧ t.ax = s.blk.ax ∧ t.rest = s.blk.rest
      ∧ t.r LEDG.BUD_PWR.P_IN_MAX = min 12000 (u p.body 0 2) ∧ t.r LEDG.BUD_PWR.P_ES_MAX = min 6000 (u p.body 2 2)
      ∧ t.r LEDG.BUD_IIN.I_IN_MAX_A = min 1000 (u p.body 4 2) ∧ t.r LEDG.BUD_IIN.I_IN_MAX_B = min 1000 (u p.body 6 2)
      ∧ t.r LEDG.BUD_LINK.V_LINK_LO = max 330 (min 600 (u p.body 8 2))
      ∧ t.r LEDG.BUD_LINK.V_LINK_HI = max (max 330 (min 600 (u p.body 8 2))) (min 760 (u p.body 10 2))
      ∧ t.r LEDG.BUD_RES.E_RES = min 60000 (u p.body 12 4)
      ∧ t.r LEDG.BUD_RET.RET_A = u p.body 16 1 % 2 ∧ t.r LEDG.BUD_RET.RET_B = u p.body 16 1 / 2 % 2 ∧ t.r LEDG.BUD_RET.P_RET_MAX = u p.body 18 2
      ∧ t.r LEDG.ES_CFG.P_CHG_MAX = min 6000 (u p.body 20 2) ∧ t.r LEDG.ES_CFG.V_ES_FULL = max 160 (min 750 (u p.body 22 2))
      ∧ t.r LEDG.BRK_CFG.P_BRK_MAX = min 3000 (u p.body 24 2)) ∧
  (∀ (s : State) (p : Pkt),
    s.blk.takes p 0x50 → p.tgt = 0xFE → 26 ≤ p.body.length → s.blk.slave = true →
    Does (.budgetSet p) s fun t => t.answers p.toHdr 0x50 0x12 [] ∧ t.ax = s.blk.ax ∧ s.blk.still t) ∧
  (∀ (s : State) (p : Pkt),
    s.blk.takes p 0x51 → p.tgt = 0xFE → 16 ≤ p.body.length →
    Does (.reserveSet p) s fun t => t.answers p.toHdr 0x51 0 [] ∧ t.ax = s.blk.ax ∧ t.rest = s.blk.rest
      ∧ t.regs[LEDG.RES_TAG0.TAG0.reg]? = some (BitVec.ofNat 32 (u p.body 4 4))
      ∧ t.regs[LEDG.RES_TAG1.TAG0.reg]? = some (BitVec.ofNat 32 (u p.body 8 4))
      ∧ t.regs[LEDG.RES_TAG2.TAG0.reg]? = some (BitVec.ofNat 32 (u p.body 12 4))
      ∧ t.r LEDG.RES_CFG.RES_MARGIN = (if s.blk.slave = true then s.blk.r LEDG.RES_CFG.RES_MARGIN else u p.body 0 1 % 2 ^ LEDG.RES_CFG.RES_MARGIN.w))

/-- `LEDGER_READ` answers the values of its IDs, 0 for an ID outside 07 R215 (11 R393; that reading is the model's); `LOG_READ` the entries
from the oldest one that stands, as the log's memory holds them (16 R499); `CAL_READ` a run of entries of the copy in use (08 R291).
None of them changes anything. -/
def Obligations.DataPlaneReads : Prop :=
  (∀ (s : State) (p : Pkt),
    s.blk.takes p 0x52 → p.tgt = 0xFE → 1 ≤ u p.body 0 1 → u p.body 0 1 ≤ 32 → 4 + 4 * u p.body 0 1 ≤ p.body.length →
    Does (.ledgerRead p) s fun t => t.ax = s.blk.ax ∧ s.blk.still t
      ∧ t.answers p.toHdr 0x52 0 ([BitVec.ofNat 8 (u p.body 0 1), 0, 0] ++ (List.range (u p.body 0 1)).flatMap fun k =>
      leBytes 4 (u p.body (4 + 4 * k) 4) ++ leBytes 8 ((s.blk.ledgerId (u p.body (4 + 4 * k) 4)).elim 0 wide64))) ∧
  (∀ (s : State) (p : Pkt),
    s.blk.takes p 0x62 → p.tgt = 0xFE → 5 ≤ p.body.length → 1 ≤ u p.body 4 1 → u p.body 4 1 ≤ 30 →
    Does (.logRead p) s fun t => t.ax = s.blk.ax ∧ s.blk.still t
      ∧ t.answers p.toHdr 0x62 0 (leBytes 4 (max (u p.body 0 4) s.blk.log.tail)
      ++ [BitVec.ofNat 8 (min (u p.body 4 1) (s.blk.log.head - max (u p.body 0 4) s.blk.log.tail)), 0, 0]
      ++ (List.range (min (u p.body 4 1) (s.blk.log.head - max (u p.body 0 4) s.blk.log.tail))).flatMap fun i =>
      memBytes (s.blk.sm.get (s.blk.act.elim 0 (·.idx))).mem (logAddr (max (u p.body 0 4) s.blk.log.tail + i)) 32)) ∧
  (∀ (s : State) (p : Pkt),
    s.blk.takes p 0x73 → p.tgt = 0xFE → 4 ≤ p.body.length → 1 ≤ u p.body 2 2 → u p.body 2 2 ≤ 252 →
    u p.body 0 2 + u p.body 2 2 ≤ 1024 →
    Does (.calRead p) s fun t => t.ax = s.blk.ax ∧ s.blk.still t
      ∧ t.answers p.toHdr 0x73 0 (leBytes 2 (u p.body 0 2) ++ leBytes 2 (u p.body 2 2) ++ [0, 0, 0]
      ++ (List.range (u p.body 2 2)).flatMap fun k => leBytes 4 ((s.blk.meas.copies.get s.blk.meas.inUse).entry (u p.body 0 2 + k)).toNat))

/-- `STREAM_START` (11 R394): a free stream begins, on the data port that it names or came in on, unless the streams of that port would then
pass its share of the bus (12 R418); a running stream is refused with 0x12.  `STREAM_STOP` ends the stream, running or not. -/
def Obligations.StreamsStartAndStop : Prop :=
  (∀ (s : State) (p : Pkt) (i : Fin 4) (x : Fin 6),
    s.blk.takes p 0x60 → p.tgt = 0xFE → 10 ≤ p.body.length → u p.body 0 1 = i.val → u p.body 1 1 = 0 → 1 ≤ u p.body 2 1 →
    u p.body 2 1 ≤ 250 → x = (if u p.body 3 1 = 0 then p.port else if u p.body 3 1 = 2 then 2 else 3) →
    u p.body 3 1 ∈ [0, 2, 3] →
    Does (.streamStart p) s fun t => t.ax = s.blk.ax ∧ (∀ j, j ≠ i → t.streams.get j = s.blk.streams.get j) ∧
      (let z : Stream := ⟨BitVec.ofNat 48 (u p.body 4 6), u p.body 2 1, x, p.src, s.blk.sess.elim 0 (·.sid), p.major, 0⟩;
      let w := (s.blk.ports.get x).timing;
      if (s.blk.r (MB.CONG.STRM_MAX.port x) : Rat) * 10000
      < ((((s.blk.streams.toList.filterMap id).filter fun y => y.port = x).map fun y => y.load w).foldl (· + ·) (z.load w)) then
      t.answers p.toHdr 0x60 0x31 [0xFF] ∧ t.streams = s.blk.streams
      else if (s.blk.streams.get i).isSome = true then t.answers p.toHdr 0x60 0x12 [] ∧ t.streams = s.blk.streams
      else t.answers p.toHdr 0x60 0 [] ∧ t.streams.get i = some z)) ∧
  (∀ (s : State) (p : Pkt) (i : Fin 4),
    s.blk.takes p 0x61 → p.tgt = 0xFE → 1 ≤ p.body.length → u p.body 0 1 = i.val →
    Does (.streamStop p) s fun t => t.answers p.toHdr 0x61 0 [] ∧ t.ax = s.blk.ax
      ∧ t.rest = { s.blk with streams := s.blk.streams.set i none }.rest ∧ s.blk.sameRegs t)

/-- `GRAZE_CTRL` sets enable, pause and items, and requests an item, of an axis where the item has one (10 R349).  `CAL_SELF` on fallow axes
starts the run, once no background calibration works on a slice of them, and is answered at its end; otherwise it is refused with 0x12 (08 R287, R292).  `CAL_WRITE` on
the unlocked management plane, for entries of fallow axes, starts the write and locks the plane (08 R290, 13 R436). -/
def Obligations.GrazeAndCalibrationStart : Prop :=
  (∀ (s : State) (p : Pkt),
    s.blk.takes p 0x70 → p.tgt = 0xFE → 6 ≤ p.body.length → (u p.body 4 1 = 0xFF ∨ u p.body 4 1 < 11) →
    (u p.body 4 1 ≤ 5 → u p.body 5 1 < 48) →
    Does (.grazeCtrl p) s fun t => t.answers p.toHdr 0x70 0 [] ∧ t.ax = s.blk.ax ∧ t.r GRAZE.CTRL.EN = u p.body 0 4 % 2
      ∧ t.r GRAZE.CTRL.PAUSE = u p.body 0 4 / 2 % 2 ∧ t.r GRAZE.CTRL.ITEMS = u p.body 0 4 / 256 % 2048
      ∧ (if u p.body 4 1 = 0xFF then t.graze = s.blk.graze
      else t.graze.req.map (fun x => (x.1.val, x.2.map (·.val))) = some (u p.body 4 1, if u p.body 4 1 ≤ 5 then some (u p.body 5 1) else none))) ∧
  (∀ (s : State) (p : Pkt),
    s.blk.takes p 0x71 → p.tgt = 0xFE → 6 ≤ p.body.length → s.blk.meas.calSelf = none → s.blk.meas.calWrite = none →
    (∀ r ∈ s.blk.meas.rw, r.axis ∉ maskAxes (u p.body 0 6)) →
    Does (.calSelf p) s fun t =>
      if (∀ n ∈ maskAxes (u p.body 0 6), (s.blk.axis n).mot.mode = .fallow) then
      t.meas.calSelf = some (Pkt.req p 0x71, maskAxes (u p.body 0 6))
      ∧ (if (∃ n ∈ maskAxes (u p.body 0 6), ((s.blk.axis n).slc.any fun x => x.direct || x.stand.isSome) = true)
      then t.meas.selfRun = false ∧ t.bit MEAS.CAL_STAT.SELF_BUSY = s.blk.bit MEAS.CAL_STAT.SELF_BUSY
      else t.meas.selfRun = true ∧ t.bit MEAS.CAL_STAT.SELF_BUSY = true)
      ∧ (∀ n, (t.axis n).calSelf = ((s.blk.axis n).calSelf || (maskAxes (u p.body 0 6)).contains n) ∧ (t.axis n).mot = (s.blk.axis n).mot)
      ∧ t.ports = s.blk.ports
      else t.answers p.toHdr 0x71 0x12 [] ∧ t.ax = s.blk.ax ∧ s.blk.still t) ∧
  (∀ (s : State) (p : Pkt),
    s.blk.takes p 0x72 → p.tgt = 0xFE → 1 ≤ u p.body 2 2 → u p.body 2 2 ≤ 253 → 4 + 4 * u p.body 2 2 ≤ p.body.length →
    u p.body 0 2 + u p.body 2 2 ≤ 1023 →
    (∀ k, k < u p.body 2 2 → calGain (u p.body 0 2 + k) = true → u p.body (4 + 4 * k) 4 % 65536 ≠ 0) →
    (∀ k, k < u p.body 2 2 → calStored (u p.body 0 2 + k) (BitVec.ofNat 32 (u p.body (4 + 4 * k) 4)) = calLookup (s.blk.meas.copies.get s.blk.meas.inUse).ent (u p.body 0 2 + k) ∨ ∀ n ∈ calAxis (u p.body 0 2 + k), (s.blk.axis n).mot.mode = .fallow) →
    (s.blk.planes.get 2).armed = true → s.blk.meas.calSelf = none → s.blk.meas.calWrite = none →
    Does (.calWrite p) s fun t => t.ax = s.blk.ax ∧ t.ports = s.blk.ports ∧ t.regs = s.blk.regs ∧ (t.planes.get 2).armed = false
      ∧ t.meas = { s.blk.meas with calWrite := some (Pkt.req p 0x72, u p.body 0 2,
      (List.range (u p.body 2 2)).map fun k => calStored (u p.body 0 2 + k) (BitVec.ofNat 32 (u p.body (4 + 4 * k) 4))) })

/-- `FW_LOAD` (11 R396, 16 R494, R495): BEGIN takes a load of at most a bank for the sides and bank that it may write, and the erase of its
first block starts; DATA in order, over erased blocks, is written there and nowhere else; END checks the image and ends the load.
`FW_SWAP` (10 R333, R334) restarts the standby from its other bank, where a valid image there serves the versions in use. -/
def Obligations.FirmwareLoads : Prop :=
  (∀ (s : State) (p : Pkt) (sides : List Side) (k : Fin 2),
    s.blk.takes p 0x78 → p.tgt = 0xFE → 8 ≤ p.body.length → u p.body 0 1 = 0 → u p.body 4 4 ≤ bankSize →
    s.blk.fwTarget = some (sides, k) →
    Does (.fwLoadBegin p) s fun t => t.answers p.toHdr 0x78 0 [0, 0, 0, 0] ∧ t.ax = s.blk.ax
      ∧ t.fw = some ⟨sides, k, u p.body 4 4, 0, #v[0, 0]⟩
      ∧ (∀ d ∈ sides, (s.blk.smp d).op = none → (t.smp d).op = some (.erase 0 (bankBase k)))
      ∧ (∀ d, d ∉ sides → t.smp d = s.blk.smp d)) ∧
  (∀ (s : State) (p : Pkt) (f : FwLoad),
    MemInv s → s.blk.takes p 0x78 → p.tgt = 0xFE → 8 ≤ p.body.length → u p.body 0 1 = 1 → s.blk.fw = some f →
    u p.body 4 4 = f.got → f.got + ((p.body.drop 8).take 1008).length ≤ bankSize →
    (∀ d ∈ f.sides, f.got + ((p.body.drop 8).take 1008).length ≤ f.erased.get d.idx * 65536) →
    Does (.fwLoadData p) s fun t => t.answers p.toHdr 0x78 0 (leBytes 4 (f.got + ((p.body.drop 8).take 1008).length)) ∧ t.ax = s.blk.ax
      ∧ t.fw = some { f with got := f.got + ((p.body.drop 8).take 1008).length }
      ∧ (∀ d ∈ f.sides, ∀ i, i < ((p.body.drop 8).take 1008).length →
      memGet (t.smp d).mem (bankBase f.bank + f.got + i) = (((p.body.drop 8).take 1008)[i]?).getD 0)
      ∧ (∀ d a, d ∉ f.sides ∨ a < bankBase f.bank + f.got ∨ bankBase f.bank + f.got + ((p.body.drop 8).take 1008).length ≤ a →
      memGet (t.smp d).mem a = memGet (s.blk.smp d).mem a)) ∧
  (∀ (s : State) (p : Pkt) (f : FwLoad),
    s.blk.takes p 0x78 → p.tgt = 0xFE → 8 ≤ p.body.length → u p.body 0 1 = 2 → s.blk.fw = some f →
    Does (.fwLoadEnd p) s fun t => t.ax = s.blk.ax ∧ t.fw = none ∧ t.phase = s.blk.phase ∧
      (if f.sides ≠ [] ∧ ∀ d ∈ f.sides, fwPasses (s.blk.smp d).mem f (u p.body 4 4) = true then t.answers p.toHdr 0x78 0 (leBytes 4 f.got)
      else t.answers p.toHdr 0x78 0x31 [0xFF])) ∧
  (∀ (s : State) (p : Pkt) (d : Side) (im : Image) (k : Fin 2),
    s.blk.takes p 0x79 → p.tgt = 0xFE → s.blk.act = some d → (s.blk.side d.other).st = .standby →
    k = (if (s.blk.side d.other).img.isNone then 0 else 1 - (s.blk.side d.other).bank) →
    (bankRec (s.blk.smp d.other).mem).st.get k = 0 → imageAt (s.blk.smp d.other).mem k = some im → s.blk.xver ≠ 0 →
    (im.xmin ≤ s.blk.xver ∧ s.blk.xver ≤ im.xmax) → (∀ z ∈ s.blk.sess, im.pmin ≤ z.version ∧ z.version ≤ im.pmax) →
    (s.blk.stacked = true → im.lmin ≤ s.blk.casc.lver ∧ s.blk.casc.lver ≤ im.lmax) → s.blk.fw = none →
    Does (.fwSwap p) s fun t => t.answers p.toHdr 0x79 1 [] ∧ t.ax = s.blk.ax ∧ t.side d = s.blk.side d
      ∧ t.side d.other = { s.blk.side d.other with st := .booting, fit := false, swap := some (s.blk.side d.other).bank }
      ∧ t.smp d = s.blk.smp d)

/-- `SIDE_SWITCH` with a fit standby waits for the exchange, and its reply comes from the new side (10 R332); otherwise it is refused with
0x12.  `CASCADE_ENUM` answers the modules of the stack, held-out ones last, or none without a stack (15 R466).  `CASCADE_ROUTE` on a
stack's master puts its inner packet on the rings for a slave, and is answered when the slave's reply comes (15 R470). -/
def Obligations.SideAndStackRequests : Prop :=
  (∀ (s : State) (p : Pkt),
    s.blk.takes p 0x7A → p.tgt = 0xFE → s.blk.switchReq = none →
    Does (.sideSwitch p) s fun t => t.ax = s.blk.ax ∧ t.sides = s.blk.sides ∧
      (if s.blk.stbyOk = true then t.switchReq = some (Pkt.req p 0x7A) ∧ t.ports = s.blk.ports
      else t.switchReq = none ∧ t.answers p.toHdr 0x7A 0x12 [])) ∧
  (∀ (s : State) (p : Pkt),
    s.blk.takes p 0x7C → p.tgt = 0xFE →
    Does (.cascadeEnum p) s fun t => t.ax = s.blk.ax ∧ s.blk.still t ∧ t.answers p.toHdr 0x7C 0
      (if s.blk.stacked = true then [BitVec.ofNat 8 s.blk.casc.listed.length, 0, 0] ++ s.blk.casc.listed.flatMap fun m =>
      [if m.heldOut then 0 else m.addr, BitVec.ofNat 8 (if m.heldOut then 0xFF else m.pos), BitVec.ofNat 8 m.lmax, BitVec.ofNat 8 m.state]
      else [0, 0, 0])) ∧
  (∀ (s : State) (p : Pkt),
    s.blk.takes p 0x7D → p.tgt = 0xFE → 16 ≤ p.body.length → s.blk.master = true →
    (∃ m ∈ s.blk.casc.mods, m.heldOut = false ∧ m.addr = BitVec.ofNat 8 (u p.body 0 1) ∧ m.pos ≠ s.blk.casc.selfPos) →
    u p.body 1 1 ≤ 2 → u p.body 14 2 + 16 = p.body.length → u p.body 14 2 ≤ 1000 → u p.body 12 1 ∉ [0x42, 0x02, 0x04, 0x7D] →
    Does (.cascadeRoute p) s fun t => t.ax = s.blk.ax ∧ t.ports = s.blk.ports
      ∧ t.casc = { s.blk.casc with
      place := s.blk.casc.place ++ [(BitVec.ofNat 8 (u p.body 0 1), BitVec.ofNat 8 (u p.body 1 1) :: p.body.drop 8)],
      routes := s.blk.casc.routes ++ [(BitVec.ofNat 8 (u p.body 0 1), Pkt.req p 0x7D)] })

/-! ### Power, resets and pins (09 R314 to R321, 03 R103, R104, 10 R339, 17) -/

/-- At reset the module boots (`PHASE` 0, 09 R314): every module register and every register of an axis page at the reset value of its
table (14 R448, R456), `AX_CFG.AXIS` apart, which names its axis; no session, no candidate, no stream, axes without a motor; the queue
is empty.  (Positions of 0 and a swath number of 0 are the model's choice, notes/assumptions/2.md and 9.md.) -/
def Obligations.ResetState : Prop :=
  State.reset.pending = [] ∧ State.reset.blk.phase = 0 ∧ State.reset.blk.sess = none ∧ State.reset.blk.plan.cands = []
    ∧ State.reset.blk.streams = Vector.replicate 4 none ∧ State.reset.blk.act = none
    ∧ (∀ (i : Fin 356) (d : RegDef), modDefs[i.val]? = some d → State.reset.blk.regs.get i = BitVec.ofNat 32 d.reset)
    ∧ (∀ (n : Fin 48) (i : Fin 131) (d : RegDef), axDefs[i.val]? = some d → i.val ≠ AX.AX_CFG.AXIS.reg →
      (State.reset.blk.axis n).regs.get i = BitVec.ofNat 32 d.reset)
    ∧ (∀ n : Fin 48, (State.reset.blk.axis n).r AX.AX_CFG.AXIS = n.val ∧ (State.reset.blk.axis n).motor = Motor.none
      ∧ (State.reset.blk.axis n).mot.mode = .unconfigured ∧ (State.reset.blk.axis n).mot.pCmd = 0)

/-- Power-up from the unpowered state begins as a supply rises through 34.0 V or the auxiliary input through 20.0 V (09 R314), samples the
straps and takes the lines as they stand (09 R316); below both nothing happens.  Boot ends READY on the first side that loads, side A
before side B (09 R315), or in the ROM phase; a side whose device 0 answers as absent does not load (16 R488, R501; the statement is about
sides whose device 0 the model holds no bytes of).  Loss of the logic supply ends everything but the always-on domain and what is written
(09 R317, R320), unless the auxiliary input feeds the logic (01 R12), and the end of the hold-up that domain too. -/
def Obligations.PowerUpAndReady : Prop :=
  (∀ (s : State) (x : PowerIn),
    x.supA ≤ 100000 → x.supB ≤ 100000 → x.aux ≤ 36000 → (s.blk.pw.powered = false ∨ s.blk.phase = 0) →
    Does (.powerUp x) s fun t => if 34000 ≤ x.supA ∨ 34000 ≤ x.supB ∨ 20000 ≤ x.aux then
      t.phase = 0 ∧ t.pw.powered = true ∧ t.pw.aon = true ∧ t.pw.straps = x.straps ∧ t.pw.stoA = x.stoA ∧ t.pw.stoB = x.stoB
      ∧ t.pw.gd = (x.stoA && x.stoB) ∧ t.pw.ext = x.ext ∧ t.pw.supMv = #v[x.supA, x.supB] ∧ t.pw.auxMv = x.aux ∧ t.sess = none
      ∧ t.plan.cands = [] ∧ (∀ i, (t.sm.get i).mem = (s.blk.sm.get i).mem)
      ∧ ∀ n, (t.axis n).motor = Motor.none ∧ (t.axis n).mot.mode = .unconfigured ∧ ((s.blk.axis n).nvPending = false →
      (t.axis n).legs.fail = (s.blk.axis n).nv.fail ∧ ((t.axis n).legs.phase = .lost ↔ (s.blk.axis n).nv.lost = true))
      else t = s.blk) ∧
  (∀ (s : State) (x : ReadyIn),
    s.blk.pw.powered = true → s.blk.pw.held = false → s.blk.pw.resetDue = none → (s.blk.phase ≠ 1 ∧ s.blk.phase ≠ 4) →
    (∀ i : Fin 2, (s.blk.sm.get i).lost < 4) → (∀ i : Fin 2, ∀ c ∈ (s.blk.sm.get i).mem, 2 ^ 32 ≤ c.1) →
    Does (.moduleReady x) s fun t =>
      if x.aOk = true ∧ noDevice ((x.ids.get 0).get 0) = false then t.phase = 4 ∧ t.act = some .a ∧ (t.side .a).st = .active ∧ t.flagged MOD.EVT.READY
      else if x.bOk = true ∧ noDevice ((x.ids.get 1).get 0) = false then t.phase = 4 ∧ t.act = some .b ∧ (t.side .b).st = .active ∧ t.flagged MOD.EVT.READY
      else t.phase = 1 ∧ t.act = s.blk.act) ∧
  (∀ (s : State),
    s.blk.pw.powered = true → s.blk.pw.auxMv < 18000 →
    Does .logicPowerLoss s fun t => t.pw.powered = false ∧ t.pw.gd = false ∧ t.phase = 0 ∧ t.sess = none ∧ t.plan.cands = []
      ∧ (s.blk.nap = .awake → t.swath = s.blk.swath) ∧ t.ledg = s.blk.ledg ∧ (∀ i, (t.sm.get i).mem = (s.blk.sm.get i).mem)
      ∧ ∀ n, (t.axis n).mot.mode = .unconfigured ∧ (t.axis n).nvPending = false
      ∧ (t.axis n).nv = (if (s.blk.axis n).nvPending then (s.blk.axis n).marks else (s.blk.axis n).nv)) ∧
  (∀ (s : State),
    18000 ≤ s.blk.pw.auxMv →
    Does .logicPowerLoss s fun t => t = s.blk) ∧
  (∀ (s : State),
    Does .holdUpExpiry s fun t => t = if s.blk.pw.powered = true then s.blk else { s.blk with pw := { s.blk.pw with aon := false } }) ∧
  (∀ (s : State) (n : Fin 48),
    Does (.nvStoreWrite n) s fun t => t = s.blk.mapAx n fun a => if a.nvPending then { a with nv := a.marks, nvPending := false } else a)

/-- A low STO line takes the gate-drive power: every axis abandons its profile and is fallow, and an enabled stepper loses its position, and the chopper's leg is off (03
R103); power returns when both lines are released (03 R104), and one line alone changes only its level.  Lines that disagree for 100 ms
raise `STO_DISC`: `SEQ` rises by one, the flag is set and stamped, the other flags stay (13 R440).  `TRIP_EXT` low pre-trips every cell
that it is enabled for (03 R95, R96), but none in nap (09 R321); as it rises, a window of its that is still open ends (03 R97). -/
def Obligations.SafeTorqueOff : Prop :=
  (∀ (s : State) (a b : Bool),
    (a = true ∨ b = true) →
    Does (.stoAssert a b) s fun t => t.pw = { s.blk.pw with stoA := s.blk.pw.stoA && !a, stoB := s.blk.pw.stoB && !b, gd := false }
      ∧ (∀ n, (t.axis n).mot.mode.enabled = false ∧ (t.axis n).mot.waiting = none
      ∧ ((s.blk.axis n).stepper = true → (s.blk.axis n).mot.mode.enabled = true → (t.axis n).b AX.ST_STAT.POS_UNC = true)
      ∧ (t.axis n).legs = { (s.blk.axis n).legs with forced := (t.axis n).legs.forced })
      ∧ t.bit LEDG.STAT.CHOP_ON = false ∧ t.sm = s.blk.sm ∧ t.plan = s.blk.plan ∧ t.planes = s.blk.planes ∧ t.owning = s.blk.owning) ∧
  (∀ (s : State),
    Does .stoRelease s fun t => t.pw = { s.blk.pw with stoA := true, stoB := true, gd := s.blk.pw.powered } ∧ t.ax = s.blk.ax
      ∧ t.planes = s.blk.planes ∧ s.blk.sameRegs t) ∧
  (∀ (s : State) (a : Bool),
    Does (.stoLineRise a) s fun t => t.pw = { s.blk.pw with stoA := s.blk.pw.stoA || a, stoB := s.blk.pw.stoB || !a } ∧ t.ax = s.blk.ax
      ∧ t.planes = s.blk.planes ∧ s.blk.sameRegs t) ∧
  (∀ (s : State),
    s.blk.pw.stoA ≠ s.blk.pw.stoB →
    Does .stoDiscordance s fun t => t.ax = s.blk.ax ∧ s.blk.still t
      ∧ evSeqOf ((t.regs[6]?).getD 0) = (evSeqOf ((s.blk.regs[6]?).getD 0) + 1) % 256
      ∧ (∀ i : Fin 24, ((t.regs[6]?).getD 0).getLsbD i.val = (((s.blk.regs[6]?).getD 0).getLsbD i.val || decide (i.val = MOD.EVT.STO_DISC.bit)))
      ∧ (∀ i : Fin 24, (t.stamps.get 0).get i = if i.val = MOD.EVT.STO_DISC.bit then (evSeqOf ((s.blk.regs[6]?).getD 0) + 1) % 256
      else (s.blk.stamps.get 0).get i)) ∧
  (∀ (s : State) (high : Bool) (cyc : Nat) (seen : Bool),
    s.blk.pw.ext ≠ high →
    Does (.tripExtChange high cyc seen) s fun t => t.pw = { s.blk.pw with ext := high } ∧ t.flagged MOD.EVT.EXT_CHG
      ∧ (∀ n, (t.axis n).legs = { (s.blk.axis n).legs with forced := (t.axis n).legs.forced }
      ∧ (high = false → s.blk.nap = .awake → (s.blk.axis n).inForce AX.TRIP_CFG.EXT_EN ≠ 0 → (t.axis n).trip.pre = true)
      ∧ (high = false → s.blk.nap ≠ .awake ∨ (s.blk.axis n).inForce AX.TRIP_CFG.EXT_EN = 0 → (t.axis n).trip = (s.blk.axis n).trip ∧ (t.axis n).mot = (s.blk.axis n).mot)
      ∧ (high = true → (t.axis n).trip.win.ext = none ∧ ((∀ e ∈ (s.blk.axis n).trip.win.ext, cyc < e) →
      (t.axis n).mot = (s.blk.axis n).mot ∧ (t.axis n).trip.pre = (s.blk.axis n).trip.pre ∧ (t.axis n).trip.latch = (s.blk.axis n).trip.latch))))

/-- An input is blocked above 76.0 V and released below 75.5 V (17 R504); an input below the link or below 33.0 V is blocked in reverse unless
it takes return current, by the budget in force (07 R223), and stands at 33.0 V, and returns at 33.0 V (10 R339); a cartridge's loops stand as they are, and an open PRES
stops its converter (17 R519); the
auxiliary input holds its voltage (17 R522).  Voltages beyond the ratings stop (17 R502).  The other input, axes, registers and
everything else stay. -/
def Obligations.SuppliesChange : Prop :=
  (∀ (s : State) (i : Input) (mV : Nat),
    mV ≤ 100000 →
    Does (.supplyOvBlock i mV) s fun t => t = { s.blk with pw := { s.blk.pw with
      supMv := s.blk.pw.supMv.set i.idx mV,
      ovBlock := s.blk.pw.ovBlock.set i.idx (if 76000 < mV then true else if mV < 75500 then false else s.blk.pw.ovBlock.get i.idx),
      revBlock := s.blk.pw.revBlock.set i.idx (s.blk.pw.revBlock.get i.idx) } }) ∧
  (∀ (s : State) (i : Input) (mV : Nat),
    mV ≤ 100000 →
    Does (.supplyReverseBlock i mV) s fun t => t.ax = s.blk.ax ∧ t.regs = s.blk.regs ∧ t.pw.supMv = s.blk.pw.supMv.set i.idx mV
      ∧ t.pw.ovBlock.get i.idx = (if 76000 < mV then true else if mV < 75500 then false else s.blk.pw.ovBlock.get i.idx)
      ∧ (∀ j, j ≠ i.idx → t.pw.ovBlock.get j = s.blk.pw.ovBlock.get j)
      ∧ t.pw.revBlock.get i.idx = !(decide (s.blk.bud (match i with | .a => LEDG.BUD_RET.RET_A | .b => LEDG.BUD_RET.RET_B) ≠ 0) && decide (33000 ≤ mV))
      ∧ ∀ j, j ≠ i.idx → t.pw.revBlock.get j = s.blk.pw.revBlock.get j) ∧
  (∀ (s : State) (i : Input) (mV : Nat),
    mV ≤ 100000 →
    Does (.supplyReturn i mV) s fun t => t.ax = s.blk.ax ∧ t.regs = s.blk.regs ∧
      if 33000 ≤ mV then t.pw.supMv = s.blk.pw.supMv.set i.idx mV ∧ t.pw.revBlock.get i.idx = false
      ∧ t.pw.ovBlock.get i.idx = (if 76000 < mV then true else if mV < 75500 then false else s.blk.pw.ovBlock.get i.idx) else t = s.blk) ∧
  (∀ (s : State) (k : Fin 2) (pres rdy : Bool),
    Does (.cartridgeChange k pres rdy) s fun t => t = { s.blk with
      pw := { s.blk.pw with cart := s.blk.pw.cart.set k ⟨pres, rdy⟩ },
      plan := { s.blk.plan with charge := if pres = true then s.blk.plan.charge else s.blk.plan.charge.set k 0 } }) ∧
  (∀ (s : State) (mV : Nat),
    mV ≤ 36000 →
    Does (.aux24Change mV) s fun t => t = { s.blk with pw := { s.blk.pw with auxMv := mV } })

/-! ### The cell (02, 03) -/

/-- Another axis, as a spare that changes hands may leave it (08 R284, R292): its slices with their status and flags may differ. -/
def Sys2Proof.Machine.Axis.spared (a t : Axis) : Prop :=
  t = { a with regs := t.regs, stamps := t.stamps, slc := t.slc } ∧ a.sameRegs t [53]

/-- `PERIOD_BOUNDARY` of a cell: nothing comes about in a cell whose counter is stopped (03 R88, R89, 09 R308).  At the end of a down-count, or
where its grid places the first boundary and that of a fill period (03 R73, R79), the PWM registers in force
become the captured ones, or stay without a capture (03 R86, 13 R425), the capture is done, a new `PER` or `STAG_EN` begins a fill
period (03 R80), a requested trip clear has been tested (03 R101), and the period starts.  A down-count that ends in a fill period before
the grid leaves the counter at 0 with every command as it stands (03 R80); a report that fits none of these changes nothing in the cell
(the model's choice, notes/assumptions/131.md).  In another axis only slices change, and only as a spare changes hands; no memory, plan or session changes. -/
def Obligations.PeriodBoundaryTakesValues : Prop :=
  ∀ (s : State) (n : Fin 48) (x : BoundaryIn),
    s.blk.pw.powered = true → s.blk.pw.held = false → s.blk.nap ≠ .napping →
    Does (.periodBoundary n x) s fun t => (∀ m, m ≠ n → (s.blk.axis m).spared (t.axis m)) ∧ t.sm = s.blk.sm ∧ t.plan = s.blk.plan ∧ t.ledg = s.blk.ledg ∧ t.pw = { s.blk.pw with link := t.pw.link }
      ∧ (s.blk.pw.link ≠ .unarmed → t.pw = s.blk.pw)
      ∧ t.planes = s.blk.planes ∧ t.owning = s.blk.owning ∧ t.sides = s.blk.sides ∧ t.streams = s.blk.streams ∧
      (if (s.blk.axis n).pwm.stopped = true then t.axis n = s.blk.axis n
      else if (s.blk.axis n).boundaryAt n x.at8 = false then
      t.axis n = if (s.blk.axis n).pwm.fill = true ∧ (s.blk.axis n).downEnds x.at8 = true then
      { s.blk.axis n with pwm := { (s.blk.axis n).pwm with fillHold := true, cnt := 0, down := false } } else s.blk.axis n
      else (t.axis n).pwm.start = some x.at8 ∧ (t.axis n).pwm.fillHold = false ∧ (t.axis n).pwm.capt = none ∧ (t.axis n).trip.clearReq = false
      ∧ (∀ i : Fin 131, isPwmReg i.val = true → (t.axis n).force.get i =
      ((s.blk.axis n).pwm.capt.getD (s.blk.axis n).force).get i)
      ∧ (t.axis n).pwm.fill = ((s.blk.axis n).pwm.capt.elim false fun v => AX.PWM_PER.PER.get v != AX.PWM_PER.PER.get (s.blk.axis n).force
      || AX.PWM_CTRL.STAG_EN.get v != AX.PWM_CTRL.STAG_EN.get (s.blk.axis n).force))

/-- The cell runs the test pulses of a start. -/
def Sys2Proof.Machine.Axis.testing (a : Axis) : Bool :=
  match a.bl.start with | .testPulses .. => true | _ => false

/-- A detection on a leg with gate-drive power (02 R48), and a bootstrap that falls on a leg with a role (02 R53, R43): from NORMAL, with no
other role's fault counted, the cell enters the fault hold, its switches off and its profile running (02 R54); with another role's, or from
another leg's hold, it enters DRAIN and abandons its profile (02 R61).  An open edge, at a current above 0.5 A in its switch's direction, only
counts its role's fault (10 R337).  A bootstrap that rises is marked while its pump runs (02 R42).  Only that axis changes. -/
def Obligations.LegFaultsAreHandled : Prop :=
  (∀ (s : State) (n : Fin 48) (leg : Fin 5),
    s.blk.pw.gd = false →
    Does (.didtDetect n leg) s fun t => t = s.blk) ∧
  (∀ (s : State) (n : Fin 48) (leg : Fin 5),
    s.blk.pw.gd = true →
    Does (.didtDetect n leg) s fun t => s.blk.only t n ∧ t.rest = s.blk.rest ∧ t.owning = s.blk.owning ∧
      (if (s.blk.axis n).legs.phase = .normal ∧ (s.blk.axis n).otherCount ((s.blk.axis n).roleOf leg) = false then
      (t.axis n).legs.phase = .hold ∧ (t.axis n).legs.holdLeg = some leg ∧ ((s.blk.axis n).testing = false → (t.axis n).mot = (s.blk.axis n).mot)
      ∧ (t.axis n).pwm.pulses = Vector.replicate 4 .off ∧ (t.axis n).pwm.carry = Vector.replicate 4 0 ∧ (t.axis n).flagged AX.LEG_EVT.SC
      ∧ (∀ k ∈ (s.blk.axis n).roleOf leg, (t.axis n).legs.hit.getLsbD k.val = true)
      else if (s.blk.axis n).legs.phase = .normal ∨ ((s.blk.axis n).legs.phase = .hold ∧ (s.blk.axis n).legs.holdLeg ≠ some leg) then
      (t.axis n).legs.phase = .drain ∧ (t.axis n).mot.mode.enabled = false ∧ (t.axis n).flagged AX.LEG_EVT.SC
      ∧ (t.axis n).pwm.pulses = Vector.replicate 4 .off
      else t.axis n = s.blk.axis n)) ∧
  (∀ (s : State) (n : Fin 48) (leg : Fin 5),
    Does (.bootUvEvent n leg) s fun t => s.blk.only t n ∧ t.rest = s.blk.rest ∧ t.owning = s.blk.owning ∧
      (if (s.blk.axis n).legs.bootOk.getLsbD leg.val = false then t.axis n = s.blk.axis n
      else (t.axis n).legs.bootOk.getLsbD leg.val = false ∧ (t.axis n).flagged AX.LEG_EVT.BOOT_UV
      ∧ ((s.blk.axis n).roleOf leg ≠ none → (s.blk.axis n).legs.phase = .normal →
      (t.axis n).legs.phase = (if (s.blk.axis n).otherCount ((s.blk.axis n).roleOf leg) then .drain else .hold))
      ∧ ((s.blk.axis n).roleOf leg = none → (t.axis n).legs.phase = (s.blk.axis n).legs.phase ∧ (t.axis n).mot = (s.blk.axis n).mot
      ∧ (leg = 4 → (s.blk.axis n).legs.spareUsed = false → (s.blk.axis n).legs.subRole = none →
      (t.axis n).legs.spareBad = true ∧ (t.axis n).nvPending = true)))) ∧
  (∀ (s : State) (n : Fin 48) (leg : Fin 5) (high : Bool) (mA : Int),
    Does (.openEdge n ⟨leg, high, mA⟩) s fun t => s.blk.only t n ∧ s.blk.still t ∧ (t.axis n).mot = (s.blk.axis n).mot
      ∧ (t.axis n).legs.phase = (s.blk.axis n).legs.phase
      ∧ (if (s.blk.axis n).roleOf leg ≠ none ∧ (s.blk.axis n).legs.phase = .normal
      ∧ (if high then 500 < mA ∧ (s.blk.axis n).legs.bootOk.getLsbD leg.val = true else mA < -500) then
      (∀ k ∈ (s.blk.axis n).roleOf leg, (t.axis n).legs.hit.getLsbD k.val = true) ∧ (t.axis n).flagged AX.LEG_EVT.SC
      else t.axis n = s.blk.axis n)) ∧
  (∀ (s : State) (n : Fin 48) (leg : Fin 5),
    Does (.bootstrapCharged n leg) s fun t => s.blk.only t n ∧ s.blk.still t
      ∧ t.axis n = (if (s.blk.axis n).legs.pumpOn.getLsbD leg.val then
      { s.blk.axis n with legs := { (s.blk.axis n).legs with bootOk := (s.blk.axis n).legs.bootOk ||| BitVec.ofNat 5 (2 ^ leg.val) } }
      else s.blk.axis n))

/-- A substitution of role k: ISOk opens, then TAPk closes, the spare serves the role and its fault count starts again (02 R58), the legs take up
their commands at once (02 R59), and what waited for it acts (02 R69); a switch that misses its time ends in DRAIN (02 R61).  A debug
halt stops the sequence (02 R69).  DRAIN ends below 1 A in every terminal, or after 5 ms, in LOST: all isolators and taps open,
pumps off, the trip recorded, `AXIS_LOST` (02 R63, R64, R52).  A leg check marks the legs that fail, and the axis leaves LOST where its
roles can be covered (02 R66).  Only that axis changes. -/
def Obligations.SubstitutionRuns : Prop :=
  (∀ (s : State) (n : Fin 48),
    Does (.substIsoOpenDone n) s fun t => s.blk.only t n ∧ s.blk.still t
      ∧ (∀ k : Fin 4, (s.blk.axis n).legs.phase = .isoWait k → (s.blk.axis n).pwm.halted = false → (t.axis n).legs = { (s.blk.axis n).legs with
      phase := .tapWait k, iso := (s.blk.axis n).legs.iso &&& ~~~ (BitVec.ofNat 4 (2 ^ k.val)) })
      ∧ ((∀ k : Fin 4, (s.blk.axis n).legs.phase ≠ .isoWait k) ∨ (s.blk.axis n).pwm.halted = true → t.axis n = s.blk.axis n)) ∧
  (∀ (s : State) (n : Fin 48),
    (s.blk.axis n).pwm.halted = true →
    Does (.substTapCloseDone n) s fun t => (t.axis n).legs.phase = (s.blk.axis n).legs.phase ∧ (t.axis n).legs.tap = (s.blk.axis n).legs.tap
      ∧ (t.axis n).legs.spareUsed = (s.blk.axis n).legs.spareUsed ∧ (t.axis n).pwm.halted = true ∧ s.blk.only t n) ∧
  (∀ (s : State) (n : Fin 48) (k : Fin 4),
    (s.blk.axis n).legs.phase = .tapWait k → (s.blk.axis n).pwm.halted = false →
    Does (.substTapCloseDone n) s fun t => s.blk.only t n ∧ t.rest = s.blk.rest ∧ t.owning = s.blk.owning ∧ (t.axis n).legs.phase = .normal
      ∧ (t.axis n).legs.tap.getLsbD k.val = true ∧ (t.axis n).legs.spareUsed = true ∧ (t.axis n).legs.count.get k = 0
      ∧ (t.axis n).legs.deferred = [] ∧ (t.axis n).flagged AX.LEG_EVT.SUBST
      ∧ ((s.blk.axis n).legs.deferred = [] → (t.axis n).mot = (s.blk.axis n).mot
      ∧ (t.axis n).pwm.pulses = (if (s.blk.axis n).enabled = true ∧ (s.blk.axis n).trip.pre = false ∧ (s.blk.axis n).trip.latch = false ∧ s.blk.pw.gd = true
      then (s.blk.axis n).pwm.cmd else Vector.replicate 4 .off))) ∧
  (∀ (s : State) (n : Fin 48) (k : Fin 4),
    ((s.blk.axis n).legs.phase = .isoWait k ∨ (s.blk.axis n).legs.phase = .tapWait k) → (s.blk.axis n).pwm.halted = false →
    Does (.substConfirmTimeout n) s fun t => s.blk.only t n ∧ t.rest = s.blk.rest ∧ (t.axis n).legs.phase = .drain
      ∧ (t.axis n).legs.inTime = false ∧ (t.axis n).mot.mode.enabled = false ∧ (t.axis n).flagged AX.LEG_EVT.ISO_FAULT) ∧
  (∀ (s : State) (n : Fin 48) (x : DrainIn),
    x.cell = n → (s.blk.axis n).legs.phase = .drain →
    (x.expired = true ∨ ∀ r : Fin 4, Rat.abs' ((s.blk.axis n).drainCurrent (s.blk.cellCal n) x.codes r) < 1000) →
    Does (.drainEnd x) s fun t => s.blk.only t n ∧ t.rest = { s.blk with meas := t.meas }.rest ∧ (t.axis n).legs.phase = .lost ∧ (t.axis n).legs.iso = 0
      ∧ (t.axis n).legs.tap = 0 ∧ (t.axis n).legs.pumpOn = 0 ∧ (t.axis n).trip.latch = true ∧ (t.axis n).trip.srcDidt = true
      ∧ (t.axis n).nvPending = true ∧ (t.axis n).flagged AX.LEG_EVT.AXIS_LOST
      ∧ ((s.blk.axis n).stepper = true → (t.axis n).b AX.ST_STAT.POS_UNC = true)) ∧
  (∀ (s : State) (n : Fin 48) (x : DrainIn) (r : Fin 4),
    x.cell = n → x.expired = false → 1000 ≤ Rat.abs' ((s.blk.axis n).drainCurrent (s.blk.cellCal n) x.codes r) →
    Does (.drainEnd x) s fun t => t.axis n = s.blk.axis n ∧ s.blk.only t n) ∧
  (∀ (s : State) (n : Fin 48) (x : LegCheck) (bad : Bool) (miss : List (Fin 4)),
    (s.blk.axis n).legs.checking = true → (s.blk.axis n).legs.phase = .lost → bad = !(x.legs.getLsbD 4 && x.tap = 0xF) →
    (miss = (s.blk.axis n).roles.filter fun k => !(x.legs.getLsbD k.val) || !(x.iso.getLsbD k.val)) →
    Does (.legCheckDone n x) s fun t => s.blk.only t n ∧ (t.axis n).legs.checking = false ∧ (t.axis n).legs.spareBad = bad
      ∧ (∀ leg : Fin 5, (t.axis n).legs.fail.getLsbD leg.val = (!(x.legs.getLsbD leg.val) || (decide (leg.val < 4) && !(x.iso.getLsbD leg.val))))
      ∧ (t.axis n).legs.phase = (if (s.blk.axis n).motor ≠ Motor.none ∧ (miss = [] ∨ (miss.length = 1 ∧ bad = false)) then .normal else .lost)
      ∧ (∀ k : Fin 4, miss = [k] → bad = false → (s.blk.axis n).motor ≠ Motor.none → (t.axis n).legs.subRole = some k)
      ∧ (t.axis n).b AX.RST_STAT.SESS_RST = true ∧ t.sm = s.blk.sm ∧ t.plan = s.blk.plan)

/-- An enabled source pre-trips the cell: its switches are off and `PRE` is raised (03 R96); beyond `TRIP_CHAT` within 1 ms, or with no filter,
it confirms at once (03 R99, R97); a window that ends with its source active confirms the trip: it latches, the profile is abandoned
and the axis is fallow (03 R100); one whose source goes inside before ends without (03 R97).  The link comparator, once armed, is high or low,
and pre-trips every cell (03 R93, R94).  A thermal accumulator at its limit clamps the current ceiling to 12 A (04 R114, 05 R154).  A winding
measurement on the cell ends with the trip (08 R280). -/
def Obligations.TripsActOnCells : Prop :=
  (∀ (s : State) (n : Fin 48) (src : TripSrc) (cyc : Nat) (seen : Bool),
    Does (.preTrip n src cyc seen) s fun t => s.blk.only t n ∧ t.rest = { s.blk with meas := t.meas }.rest ∧ t.owning = s.blk.owning
      ∧ (t.axis n).legs = { (s.blk.axis n).legs with forced := (t.axis n).legs.forced }
      ∧ (if s.blk.wide.stands src = false then t.ax = s.blk.ax
      else if (s.blk.axis n).srcEnabled src = true then (t.axis n).trip.pre = true ∧ (t.axis n).pwm.pulses = Vector.replicate 4 .off
      ∧ (t.axis n).flagged AX.TRIP_EVT.PRE
      ∧ ((s.blk.axis n).inForce AX.TRIP_CFG.TRIP_CHAT < ((s.blk.axis n).trip.pres.filter fun u => cyc < u + 25000).length + 1
      ∨ (seen = true ∧ (s.blk.axis n).pwm.stopped = false ∧ (s.blk.axis n).inForce AX.TRIP_CFG.TRIP_FLT = 0) → (t.axis n).trip.latch = true)
      ∧ ((s.blk.axis n).trip.latch = false → (t.axis n).trip.latch = true → (t.axis n).mot.mode.enabled = false)
      else (t.axis n).mot = (s.blk.axis n).mot ∧ (t.axis n).trip.pre = (s.blk.axis n).trip.pre ∧ (t.axis n).trip.latch = (s.blk.axis n).trip.latch)) ∧
  (∀ (s : State) (n : Fin 48) (src : TripSrc) (cyc : Nat),
    Does (.tripConfirm n src cyc) s fun t => s.blk.only t n ∧ t.rest = { s.blk with meas := t.meas }.rest ∧ t.owning = s.blk.owning
      ∧ (t.axis n).legs = { (s.blk.axis n).legs with forced := (t.axis n).legs.forced }
      ∧ (if (∃ e ∈ (s.blk.axis n).trip.win.get src, e ≤ cyc) ∧ (s.blk.axis n).pwm.stopped = false
      ∧ ((s.blk.axis n).srcActive s.blk.wide).get src = true then
      (t.axis n).trip.latch = true ∧ (t.axis n).trip.win.get src = none
      ∧ ((s.blk.axis n).trip.latch = false → (t.axis n).mot.mode.enabled = false ∧ (t.axis n).mot.waiting = none
      ∧ (t.axis n).flagged AX.TRIP_EVT.CONF ∧ (t.axis n).pwm.pulses = Vector.replicate 4 .off)
      else t.axis n = s.blk.axis n)) ∧
  (∀ (s : State) (high : Bool) (cyc : Nat) (seen : Bool),
    Does (.linkWindowTrip high cyc seen) s fun t => t.pw = { s.blk.pw with link := if s.blk.pw.link = .unarmed then .unarmed else if high then .high else .low }
      ∧ t.sm = s.blk.sm ∧ t.planes = s.blk.planes ∧ t.plan = s.blk.plan
      ∧ ∀ n, (t.axis n).trip.pre = true ∧ (t.axis n).flagged AX.TRIP_EVT.PRE ∧ (t.axis n).legs = { (s.blk.axis n).legs with forced := (t.axis n).legs.forced }
      ∧ (t.axis n).pwm.pulses = Vector.replicate 4 .off) ∧
  (∀ (s : State) (n : Fin 48) (r : Fin 4) (cyc : Nat),
    Does (.comparatorInside (.leg n r) cyc) s fun t => s.blk.only t n ∧ t.rest = { s.blk with meas := t.meas }.rest ∧ t.owning = s.blk.owning
      ∧ ((s.blk.axis n).trip.live = false → t.axis n = s.blk.axis n)
      ∧ ((∀ e ∈ (s.blk.axis n).trip.win.comp, cyc < e) → (t.axis n).mot = (s.blk.axis n).mot ∧ (t.axis n).trip.latch = (s.blk.axis n).trip.latch
      ∧ (t.axis n).trip.pre = (s.blk.axis n).trip.pre ∧ ((s.blk.axis n).trip.live = true → (t.axis n).trip.cmp.get r = .inside))) ∧
  (∀ (s : State) (cyc : Nat),
    Does (.comparatorInside .link cyc) s fun t => t.rest = { s.blk with pw := t.pw, meas := t.meas }.rest ∧ t.owning = s.blk.owning
      ∧ t.pw = { s.blk.pw with link := .inside }
      ∧ ∀ n, (t.axis n).trip.win.link = none
      ∧ (if (∃ e ∈ (s.blk.axis n).trip.win.link, e ≤ cyc) ∧ (s.blk.axis n).pwm.stopped = false ∧ s.blk.pw.link ≠ .inside then (t.axis n).trip.latch = true
      else (t.axis n).mot = (s.blk.axis n).mot ∧ (t.axis n).trip.latch = (s.blk.axis n).trip.latch ∧ (t.axis n).trip.pre = (s.blk.axis n).trip.pre)) ∧
  (∀ (s : State) (n : Fin 48),
    Does (.i2tClamp n) s fun t => s.blk.only t n ∧ s.blk.still t ∧ (t.axis n).mot = (s.blk.axis n).mot ∧ (t.axis n).legs = (s.blk.axis n).legs ∧
      (if (s.blk.axis n).reg.clamp = true ∨ (s.blk.axis n).motor = Motor.none ∨ (∀ k, (s.blk.axis n).reg.acc.get k < i2tLimit) then t.axis n = s.blk.axis n
      else (t.axis n).reg.clamp = true ∧ (t.axis n).reg.amp ≤ 12000 ∧ (t.axis n).ceiling ≤ 12000
      ∧ (t.axis n).flagged (if (s.blk.axis n).brushless then AX.BL_EVT.I2T else AX.ST_EVT.I2T)))

/-- The cell as its clock runs again at a cycle: its filter has started from its beginning. -/
def Sys2Proof.Machine.Axis.resumed (a t : Axis) (w : Wide) (cyc : Nat) : Prop :=
  (a.inForce AX.TRIP_CFG.TRIP_FLT = 0 → (a.srcActive w).any = true → t.trip.latch = true) ∧
  (a.inForce AX.TRIP_CFG.TRIP_FLT ≠ 0 ∨ (a.srcActive w).any = false →
    t.mot = a.mot ∧ t.legs = a.legs ∧ t.trip.latch = a.trip.latch ∧ t.trip.pre = a.trip.pre
    ∧ ∀ src : TripSrc, t.trip.win.get src = if (a.srcActive w).get src then some (cyc + a.inForce AX.TRIP_CFG.TRIP_FLT) else none)

/-- A debug halt, with the bench strap and `DBG_EN` only, stops every cell's counter within its period, its switches off where `HALT_MODE` says
so, and ends with its release (03 R88); a lost clock freezes one cell until it returns (03 R89).  Where the cell's clock then runs, its filter
starts from its beginning with the sources that are active: a whole window for each, or, without a filter, a trip at once (03 R90, R97).  No
operand dates a release, so that its windows count from cycle 0 (the model's choice, notes/assumptions/51.md).  Motion and legs otherwise stay. -/
def Obligations.StoppedClocksFreezeCells : Prop :=
  (∀ (s : State),
    Does .debugHalt s fun t => s.blk.still t ∧
      (if s.blk.pw.straps.bench = true ∧ s.blk.bit MOD.CTRL.DBG_EN = true then
      ∀ n, (t.axis n).pwm.halted = true ∧ ((s.blk.axis n).pwm.still = false → (t.axis n).pwm.cnt ≤ (s.blk.axis n).per) ∧ (t.axis n).mot = (s.blk.axis n).mot ∧ (t.axis n).legs = (s.blk.axis n).legs
      ∧ ((s.blk.axis n).inForce AX.PWM_CTRL.HALT_MODE = 1 → (t.axis n).pwm.pulses = Vector.replicate 4 .off)
      ∧ ((s.blk.axis n).inForce AX.PWM_CTRL.HALT_MODE ≠ 1 → (t.axis n).pwm.pulses = (s.blk.axis n).pwm.pulses)
      else t = s.blk)) ∧
  (∀ (s : State),
    Does .debugRelease s fun t => t.rest = { s.blk with meas := t.meas }.rest ∧ t.owning = s.blk.owning ∧ ∀ n,
      if (s.blk.axis n).pwm.halted = true then (t.axis n).pwm.halted = false
      ∧ ((s.blk.axis n).pwm.clockLost = false → (s.blk.axis n).pwm.napped = false → (s.blk.axis n).resumed (t.axis n) s.blk.wide 0)
      else t.axis n = s.blk.axis n) ∧
  (∀ (s : State) (n : Fin 48),
    Does (.cellClockLoss n) s fun t => s.blk.only t n ∧ s.blk.still t ∧ t.axis n = { s.blk.axis n with pwm := { (s.blk.axis n).pwm with
      clockLost := true, late := true, cnt := (t.axis n).pwm.cnt, down := (t.axis n).pwm.down } }
      ∧ ((s.blk.axis n).pwm.still = false → (t.axis n).pwm.cnt ≤ (s.blk.axis n).per)) ∧
  (∀ (s : State) (n : Fin 48) (cyc : Nat),
    Does (.cellClockReturn ⟨n, cyc⟩) s fun t => s.blk.only t n ∧ t.rest = { s.blk with meas := t.meas }.rest ∧ t.owning = s.blk.owning ∧
      if (s.blk.axis n).pwm.clockLost = true then (t.axis n).pwm.clockLost = false
      ∧ ((s.blk.axis n).pwm.halted = false → (s.blk.axis n).pwm.napped = false → (s.blk.axis n).resumed (t.axis n) s.blk.wide cyc)
      else t.axis n = s.blk.axis n)

/-! ### Motion and drives (04, 05, 06) -/

/-- `MOTION_TICK` of a running module (00 R5): the ticks of the swath count up to 25; an axis that follows no master and is at rest stands
where it stood; a position move is at the exact position of its pieces after one tick, rounded (06 R184), and so is a stop ramp
(06 R197); a stepper's move whose last tick this is, with no queue, ends at rest with `MOVE_DONE` (06 R186, R180); the stores cover the
supply's excess (07 R245).  A module that is not running does nothing.  Sequence, session, swath, candidates and serial memory stay. -/
def Obligations.MotionTickMoves : Prop :=
  (∀ (s : State) (x : TickIn),
    Does (.motionTick x) s fun t => if s.blk.running = false then t = s.blk else
      t.tick = min 25 (s.blk.tick + 1) ∧ t.swath = s.blk.swath ∧ t.sm = s.blk.sm ∧ t.planes = s.blk.planes ∧ t.owning = s.blk.owning
      ∧ t.plan.cands = s.blk.plan.cands ∧ t.plan.supply = s.blk.plan.supply + x.supply ∧ t.ledg = s.blk.ledg ∧ t.streams = s.blk.streams
      ∧ t.sides = s.blk.sides ∧ t.pw = s.blk.pw
      ∧ (∀ n, (t.axis n).motor = (s.blk.axis n).motor ∧ (t.axis n).legs.phase = (s.blk.axis n).legs.phase
      ∧ ((s.blk.axis n).mot.mode.running = false → (s.blk.axis n).mot.engage = none →
      (t.axis n).mot.mode = (s.blk.axis n).mot.mode ∧ (t.axis n).mot.pCmd = (s.blk.axis n).mot.pCmd))) ∧
  (∀ (s : State) (x : TickIn) (n : Fin 48),
    s.blk.running = true → (s.blk.axis n).motor ≠ Motor.none → (s.blk.axis n).mot.engage = none →
    (s.blk.axis n).mot.group = none → (s.blk.axis n).starting = false → (s.blk.axis n).mot.mode = .position →
    (s.blk.axis n).mot.prof.segs ≠ [] →
    Does (.motionTick x) s fun t => (t.axis n).mot.pCmd = roundAway (s.blk.axis n).mot.prof.tick.p
      ∧ ((s.blk.axis n).stepper = true → (s.blk.axis n).mot.prof.tick.segs ≠ [] →
      (t.axis n).mot.mode = .position ∧ (t.axis n).mot.prof = (s.blk.axis n).mot.prof.tick)
      ∧ ((s.blk.axis n).stepper = true → (s.blk.axis n).mot.prof.tick.segs = [] → (s.blk.axis n).mot.queued = none →
      (t.axis n).mot.mode.running = false ∧ (t.axis n).mot.job = none ∧ (t.axis n).flagged AX.MOT_EVT.MOVE_DONE)) ∧
  (∀ (s : State) (x : TickIn) (n : Fin 48),
    s.blk.running = true → (s.blk.axis n).motor ≠ Motor.none → (s.blk.axis n).mot.engage = none →
    (s.blk.axis n).mot.mode = .stopping → (s.blk.axis n).bl.start = .none → (s.blk.axis n).bl.brake = .none →
    (s.blk.axis n).mot.group = none →
    Does (.motionTick x) s fun t => (t.axis n).mot.pCmd = roundAway (s.blk.axis n).mot.prof.stopTick.p)

/-- A move that an axis starts without a master, and that is not at its end at once. -/
def Sys2Proof.Machine.MoveK.free (k : MoveK) (p : Int) : Bool :=
  match k with
  | .abs t => t != p
  | .rel d => d != 0
  | .gear .. | .cam _ => false
  | _ => true

/-- The first tick of a waiting move has come. -/
def Sys2Proof.Machine.Blk.startsNow (b : Blk) (w : Waiting) : Prop := 25 * w.swath + w.tick ≤ 25 * b.swath + (b.tick - 1)

/-- What the start of a move leaves on its axis: a stepper, and a brushless axis that its Halls show at rest, run it; a brushless axis without
Halls observes its rotor first. -/
def Sys2Proof.Machine.Axis.starts (a t : Axis) (w : Waiting) : Prop :=
  (a.stepper = true → a.mot.mode ≠ .localSpeed → w.move.kind.free a.mot.pCmd = true →
    t.mot.mode = w.move.kind.mode ∧ t.mot.pCmd = a.mot.pCmd ∧ t.mot.waiting = none ∧ t.trip.live = true
    ∧ t.mot.job.map (fun j => (j.move.kind, j.move.seq)) = (if w.move.kind = .hold then none else some (w.move.kind, w.move.seq))) ∧
  (a.brushless = true → a.mot.mode = .fallow ∨ a.mot.mode = .park → a.restSrc ≠ .halls →
    t.bl.start = .observe ∧ t.mot.mode = w.move.kind.mode ∧ t.b AX.BL_STAT.CATCH = true ∧ t.b AX.BL_STAT.PARK = false
    ∧ t.mot.pCmd = a.mot.pCmd ∧ t.mot.waiting = none ∧ t.trip.live = true) ∧
  (a.brushless = true → a.mot.mode = .fallow ∨ a.mot.mode = .park → a.restSrc = .halls → w.move.kind.free a.mot.pCmd = true →
    Rat.abs' a.bl.omega < (a.r AX.BL_SPEED.V_STOP : Rat) * 16 →
    t.bl.start = .none ∧ t.bl.brake = .none ∧ t.mot.mode = w.move.kind.mode ∧ t.bl.posSrc = .halls ∧ t.b AX.BL_STAT.PARK = false
    ∧ t.mot.pCmd = a.mot.pCmd ∧ t.mot.waiting = none ∧ t.trip.live = true)

/-- `MOVE_START` and `QUEUE_START` at or after the tick of a waiting move start it (06 R188, R189): a stepper takes the mode of its move at
once, `QUEUE_START` raised for a queued one; a fallow or parked brushless axis without a position from its Halls observes its rotor
first (05 R169), and one whose Halls show it at rest starts at once (05 R170).  Before its tick, or for the other kind of move, nothing
happens.  Other axes stay. -/
def Obligations.MovesStart : Prop :=
  (∀ (s : State) (n : Fin 48) (w : Waiting),
    (s.blk.axis n).mot.waiting = some w → w.queued = false → s.blk.startsNow w →
    Does (.moveStart n) s fun t => s.blk.only t n ∧ t.sm = s.blk.sm ∧ t.planes = s.blk.planes ∧ t.owning = s.blk.owning
      ∧ t.plan.cands = s.blk.plan.cands ∧ t.ledg = s.blk.ledg ∧ (s.blk.axis n).starts (t.axis n) w) ∧
  (∀ (s : State) (n : Fin 48) (w : Waiting),
    (s.blk.axis n).mot.waiting = some w → w.queued = true → s.blk.startsNow w →
    Does (.queueStart n) s fun t => s.blk.only t n ∧ t.sm = s.blk.sm ∧ t.planes = s.blk.planes ∧ t.owning = s.blk.owning
      ∧ t.plan.cands = s.blk.plan.cands ∧ t.ledg = s.blk.ledg ∧ (t.axis n).flagged AX.MOT_EVT.QUEUE_START ∧ (s.blk.axis n).starts (t.axis n) w) ∧
  (∀ (s : State) (n : Fin 48),
    (∀ w ∈ (s.blk.axis n).mot.waiting, w.queued = true ∨ ¬ s.blk.startsNow w) →
    Does (.moveStart n) s fun t => t = s.blk) ∧
  (∀ (s : State) (n : Fin 48),
    (∀ w ∈ (s.blk.axis n).mot.waiting, w.queued = false ∨ ¬ s.blk.startsNow w) →
    Does (.queueStart n) s fun t => t = s.blk)

/-- A running stepper that does not home and whose stall count has reached `STALL_N` on a valid tick is held at its estimate at the ceiling
(04 R125); the times at the ceiling end in a slew to `I_HOLD` (04 R123).  An obstacle whose count is complete is reported and reacted to as
its action says (04 R132, 05 R171); with a stall (04 R140), or under a declared locked rotor (05 R177), it is only reported.  A home found
before the timeout ends the run and sets the position to `HOME_OFS`, no longer one that was carried (04 R133, 05 R164, 10 R345); the timeout
stops the run (04 R134).  A locked rotor whose window has
run out short-brakes the axis (05 R168), and 200 ms later it is fallow.  Other axes and everything else stay; an event whose condition does
not hold does nothing. -/
def Obligations.RunsEndByEvents : Prop :=
  (∀ (s : State) (n : Fin 48),
    Does (.stall n) s fun t => s.blk.only t n ∧ s.blk.still t ∧
      (if (s.blk.axis n).stepper = true ∧ (s.blk.axis n).mot.mode.running = true ∧ (s.blk.axis n).b AX.ST_STAT.HOMING = false
      ∧ (s.blk.axis n).b AX.ST_STAT.LA_VALID = true ∧ max 1 ((s.blk.axis n).r AX.LA_CFG.STALL_N) ≤ (s.blk.axis n).reg.stallN
      ∧ (s.blk.axis n).b AX.ST_STAT.STALLED = false then
      (t.axis n).b AX.ST_STAT.STALLED = true ∧ (t.axis n).flagged AX.ST_EVT.STALL
      ∧ (t.axis n).r AX.ST_CNT.STALL_CNT = AX.ST_CNT.STALL_CNT.get (AX.ST_CNT.STALL_CNT.count (s.blk.axis n).regs)
      ∧ (t.axis n).mot.mode = .hold ∧ (t.axis n).mot.job = none ∧ (t.axis n).mot.waiting = none ∧ (t.axis n).mot.queued = none
      ∧ (t.axis n).mot.pCmd = (s.blk.axis n).estimate ∧ (t.axis n).reg.amp = (s.blk.axis n).ceiling ∧ (t.axis n).reg.rest = .ceiling 4999
      ∧ (t.axis n).legs = (s.blk.axis n).legs
      else t.axis n = s.blk.axis n)) ∧
  (∀ (s : State) (n : Fin 48) (late : Bool),
    (s.blk.axis n).stepper = true → (s.blk.axis n).mot.mode = .hold → (s.blk.axis n).reg.rest = .ceiling 0 →
    Does (if late then .restCeilingExpiry n else .stallHoldExpiry n) s fun t => s.blk.only t n ∧ s.blk.still t
      ∧ t.axis n = { s.blk.axis n with reg := { (s.blk.axis n).reg with rest := .slew } }) ∧
  (∀ (s : State) (n : Fin 48) (late : Bool),
    ((s.blk.axis n).stepper = false ∨ (s.blk.axis n).mot.mode ≠ .hold ∨ (s.blk.axis n).reg.rest ≠ .ceiling 0) →
    Does (if late then .restCeilingExpiry n else .stallHoldExpiry n) s fun t => t.ax = s.blk.ax ∧ s.blk.still t) ∧
  (∀ (s : State) (n : Fin 48),
    (s.blk.axis n).motor ≠ Motor.none → (s.blk.axis n).mot.mode.running = true → (s.blk.axis n).homing = false →
    (s.blk.axis n).bl.brake ≠ .locked → (s.blk.axis n).obstacleDue = true → (s.blk.axis n).stallDue = false →
    (s.blk.axis n).lockDue = false →
    Does (.obstacle n) s fun t => s.blk.only t n ∧ s.blk.still t ∧ (t.axis n).legs = (s.blk.axis n).legs
      ∧ (t.axis n).flagged (if (s.blk.axis n).brushless then AX.BL_EVT.OBST else AX.ST_EVT.OBST)
      ∧ (t.axis n).b (if (s.blk.axis n).brushless then AX.BL_STAT.OBST else AX.ST_STAT.OBST) = true
      ∧ (if (s.blk.axis n).r (if (s.blk.axis n).brushless then AX.BL_OBST.OBST_ACT else AX.OBST_CFG.OBST_ACT) = 0 then
      (t.axis n).mot = (s.blk.axis n).mot
      else (t.axis n).mot.waiting = none ∧ (t.axis n).mot.queued = none)
      ∧ ((s.blk.axis n).r (if (s.blk.axis n).brushless then AX.BL_OBST.OBST_ACT else AX.OBST_CFG.OBST_ACT) = 3 →
      (t.axis n).mot.mode = .hold ∧ (t.axis n).mot.pCmd = (s.blk.axis n).estimate ∧ (t.axis n).mot.job = none)) ∧
  (∀ (s : State) (n : Fin 48),
    (s.blk.axis n).obstacleDue = false →
    Does (.obstacle n) s fun t => t.ax = s.blk.ax ∧ s.blk.still t) ∧
  (∀ (s : State) (n : Fin 48),
    (s.blk.axis n).obstacleDue = true → (s.blk.axis n).homing = false → (s.blk.axis n).stallDue = true →
    Does (.obstacle n) s fun t => s.blk.only t n ∧ s.blk.still t ∧ (t.axis n).flagged AX.ST_EVT.STALL ∧ (t.axis n).flagged AX.ST_EVT.OBST
      ∧ (t.axis n).b AX.ST_STAT.STALLED = true ∧ (t.axis n).b AX.ST_STAT.OBST = true ∧ (t.axis n).mot.mode = .hold ∧ (t.axis n).mot.job = none
      ∧ (t.axis n).mot.pCmd = (s.blk.axis n).estimate) ∧
  (∀ (s : State) (n : Fin 48),
    (s.blk.axis n).brushless = true → (s.blk.axis n).bl.brake = .locked → (s.blk.axis n).homing = false →
    (s.blk.axis n).obstacleDue = true →
    Does (.obstacle n) s fun t => s.blk.only t n ∧ s.blk.still t ∧ (t.axis n).mot = (s.blk.axis n).mot ∧ (t.axis n).bl = (s.blk.axis n).bl
      ∧ (t.axis n).flagged AX.BL_EVT.OBST ∧ (t.axis n).b AX.BL_STAT.OBST = true) ∧
  (∀ (s : State) (n : Fin 48),
    Does (.homeFound n) s fun t => s.blk.only t n ∧ s.blk.still t ∧
      (if (s.blk.axis n).homeReached = true ∧ (s.blk.axis n).mot.mode.running = true ∧ (s.blk.axis n).homeExpired = false then
      (t.axis n).homing = false ∧ (t.axis n).posUnc = false ∧ (t.axis n).mot.mode = .hold ∧ (t.axis n).mot.job = none
      ∧ (t.axis n).mot.waiting = none
      ∧ (t.axis n).b (if (s.blk.axis n).brushless then AX.BL_STAT.HOMED else AX.ST_STAT.HOMED) = true
      ∧ (t.axis n).flagged (if (s.blk.axis n).brushless then AX.BL_EVT.HOME_DONE else AX.ST_EVT.HOME_DONE)
      ∧ (t.axis n).mot.pCmd = (s.blk.axis n).rS (if (s.blk.axis n).brushless then AX.BL_HOME_OFS.HOME_OFS else AX.HOME_OFS.HOME_OFS)
      ∧ (t.axis n).mot.pMeas = (t.axis n).mot.pCmd ∧ (t.axis n).b AX.RST_STAT.CARRIED = false
      else t.axis n = s.blk.axis n)) ∧
  (∀ (s : State) (n : Fin 48),
    Does (.homeTimeout n) s fun t => s.blk.only t n ∧ s.blk.still t ∧
      (if (s.blk.axis n).homing = true ∧ (s.blk.axis n).r (if (s.blk.axis n).brushless then AX.BL_HOME.HOME_TMO else AX.HOME_CFG.HOME_TMO) ≠ 0
      ∧ 2500 * (s.blk.axis n).r (if (s.blk.axis n).brushless then AX.BL_HOME.HOME_TMO else AX.HOME_CFG.HOME_TMO) ≤ (s.blk.axis n).mot.homeTicks then
      (t.axis n).homing = false ∧ (t.axis n).mot.waiting = none ∧ (t.axis n).mot.queued = none
      ∧ (t.axis n).flagged (if (s.blk.axis n).brushless then AX.BL_EVT.HOME_FAIL else AX.ST_EVT.HOME_FAIL)
      ∧ ((s.blk.axis n).ramps false = true → (t.axis n).mot.mode ∈ [.stopping, .hold, .fallow])
      else t.axis n = s.blk.axis n)) ∧
  (∀ (s : State) (n : Fin 48),
    Does (.lockedRotor n) s fun t => s.blk.only t n ∧ s.blk.still t ∧
      (if (s.blk.axis n).brushless = true ∧ (s.blk.axis n).mot.mode.running = true ∧ (s.blk.axis n).homing = false
      ∧ (s.blk.axis n).bl.brake = .none ∧ (s.blk.axis n).starting = false
      ∧ 250 * max 1 ((s.blk.axis n).r AX.BL_LOCK.T_LOCK) ≤ (s.blk.axis n).bl.lockTicks then
      (t.axis n).mot.mode = .park ∧ (t.axis n).bl.brake = .locked ∧ (t.axis n).b AX.BL_STAT.LOCKED = true ∧ (t.axis n).b AX.BL_STAT.BRAKE = true
      ∧ (t.axis n).flagged AX.BL_EVT.LOCKED ∧ (t.axis n).mot.job = none ∧ (t.axis n).mot.waiting = none
      ∧ (t.axis n).mot.pCmd = (s.blk.axis n).mot.pCmd
      else t.axis n = s.blk.axis n)) ∧
  (∀ (s : State) (n : Fin 48),
    Does (.lockedBrakeEnd n) s fun t => s.blk.only t n ∧ s.blk.still t ∧
      (if (s.blk.axis n).bl.brake = .locked ∧ 5000 ≤ (s.blk.axis n).bl.brakeN then (t.axis n).mot.mode.enabled = false ∧ (t.axis n).bl.brake = .none ∧ (t.axis n).trip.live = false
      ∧ (t.axis n).mot.pCmd = (s.blk.axis n).mot.pCmd
      else t.axis n = s.blk.axis n))

/-- In FOLLOW_STEP, an active edge within 50 cycles of the 200 MHz domain of the last accepted one is lost: the step target stays, the count of
lost edges goes up (and stays at its largest value), and the event is raised.  One exactly 50 cycles after it, or later, is
accepted: it is the new last edge, and neither the count nor the event says that it was lost.  The registers are those of the motor. -/
def Obligations.StepEdgeWindow : Prop :=
  (∀ (s : State) (n : Fin 48) (x : StepIn) (u : Nat),
    (s.blk.axis n).mot.mode = .followStep → (s.blk.axis n).activeEdge x.rising = true → (s.blk.axis n).mot.lastStep = some u →
    u ≤ x.at200 → x.at200 < u + 50 →
    Does (.stepEdge n x) s fun t => (t.axis n).mot = (s.blk.axis n).mot ∧ s.blk.only t n
      ∧ (if (s.blk.axis n).brushless then
      (t.axis n).r AX.BL_CNT2.STEP_LOST = min ((s.blk.axis n).r AX.BL_CNT2.STEP_LOST + 1) (2 ^ AX.BL_CNT2.STEP_LOST.w - 1)
      ∧ (t.axis n).flagged AX.BL_EVT.STEP_LOST
      else (t.axis n).r AX.STEP_CNT.STEP_LOST = min ((s.blk.axis n).r AX.STEP_CNT.STEP_LOST + 1) (2 ^ AX.STEP_CNT.STEP_LOST.w - 1)
      ∧ (t.axis n).flagged AX.ST_EVT.STEP_LOST)) ∧
  (∀ (s : State) (n : Fin 48) (x : StepIn),
    (s.blk.axis n).mot.mode = .followStep → (s.blk.axis n).activeEdge x.rising = true →
    (∀ u ∈ (s.blk.axis n).mot.lastStep, u + 50 ≤ x.at200) →
    Does (.stepEdge n x) s fun t => (t.axis n).mot.lastStep = some x.at200 ∧ s.blk.only t n
      ∧ (t.axis n).r AX.BL_CNT2.STEP_LOST = (s.blk.axis n).r AX.BL_CNT2.STEP_LOST
      ∧ (t.axis n).r AX.STEP_CNT.STEP_LOST = (s.blk.axis n).r AX.STEP_CNT.STEP_LOST
      ∧ ((t.axis n).flagged AX.ST_EVT.STEP_LOST ↔ (s.blk.axis n).flagged AX.ST_EVT.STEP_LOST)
      ∧ ((t.axis n).flagged AX.BL_EVT.STEP_LOST ↔ (s.blk.axis n).flagged AX.BL_EVT.STEP_LOST))

/-- A step edge of the polarity that `EDGE` does not select does nothing (04 R136, 05 R176).  An accepted step edge moves the step target by 2^(22 − `STEP_RES`) in the direction of AUXB, unless the lag would pass one revolution
(04 R136, R138, 05 R176); outside FOLLOW_STEP nothing happens (04 R139).  The level of an unstable AUXB is a free value
(notes/assumptions/1.md).  A Hall code that has stood for `HALL_FLT` cycles (05 R144) is a sector, or fails the Halls (05 R145, R147); so does an overload of the sensor supply (17 R506,
05 R163), in nap after ready (17 R527).  A local-speed signal found invalid brings the target to 0 (05 R174). -/
def Obligations.InputsAct : Prop :=
  (∀ (s : State) (n : Fin 48) (x : StepIn),
    Does (.stepEdge n x) s fun t => s.blk.only t n ∧ t.rest = s.blk.rest ∧ t.owning = s.blk.owning
      ∧ t.fresh = s.blk.fresh + (if x.dir = none ∧ (s.blk.axis n).activeEdge x.rising = true then 1 else 0)
      ∧ ((s.blk.axis n).activeEdge x.rising = false → t = s.blk)
      ∧ ((s.blk.axis n).mot.mode ≠ .followStep → t.ax = s.blk.ax)) ∧
  (∀ (s : State) (n : Fin 48) (x : StepIn) (dir : Bool) (d : Int),
    (s.blk.axis n).stepper = true → (s.blk.axis n).mot.mode = .followStep → (s.blk.axis n).activeEdge x.rising = true →
    (∀ u ∈ (s.blk.axis n).mot.lastStep, u + 50 ≤ x.at200) → dir = x.dir.getD (Config.freeBool s.blk.fresh) →
    (d = if dir = (s.blk.axis n).b AX.STEP_CFG.DIR_INV then -(2 ^ (22 - (s.blk.axis n).r AX.STEP_CFG.STEP_RES)) else 2 ^ (22 - (s.blk.axis n).r AX.STEP_CFG.STEP_RES)) →
    Does (.stepEdge n x) s fun t => (t.axis n).mot.pCmd = (s.blk.axis n).mot.pCmd ∧ (t.axis n).mot.mode = .followStep ∧
      (if 2 ^ 24 < ((s.blk.axis n).mot.stepTgt + d - (s.blk.axis n).mot.pCmd).natAbs then
      (t.axis n).mot.stepTgt = (s.blk.axis n).mot.stepTgt ∧ (t.axis n).flagged AX.ST_EVT.STEP_OVR
      else (t.axis n).mot.stepTgt = (s.blk.axis n).mot.stepTgt + d ∧ (t.axis n).regs = (s.blk.axis n).regs)) ∧
  (∀ (s : State) (n : Fin 48) (x : HallIn) (cyc : Nat) (code : BitVec 3),
    code = BitVec.ofNat 3 (4 * Bool.bit x.h3 + 2 * Bool.bit x.h2 + Bool.bit x.h1) →
    Does (.hallEdge n x cyc) s fun t => s.blk.only t n ∧ s.blk.still t ∧ (t.axis n).legs = (s.blk.axis n).legs ∧
      (if (s.blk.axis n).brushless = false ∨ (s.blk.axis n).bl.sensorSupply = false ∨ x.stood < (s.blk.axis n).r AX.BL_HALL.HALL_FLT then t.axis n = s.blk.axis n
      else (t.axis n).bl.sector = hallSector code (s.blk.axis n).bl.hallDir ∧
      (if (s.blk.axis n).b AX.BL_STAT.HALL_FAIL = true ∨ (s.blk.axis n).bl.hallMode = 2 then (t.axis n).mot = (s.blk.axis n).mot
      else if hallSector code (s.blk.axis n).bl.hallDir = none then
      (t.axis n).b AX.BL_STAT.HALL_FAIL = true ∧ (t.axis n).b AX.BL_STAT.POS_UNC = true ∧ (t.axis n).flagged AX.BL_EVT.HALL_FAIL
      else (t.axis n).mot.pCmd = (s.blk.axis n).mot.pCmd
      ∧ ((s.blk.axis n).bl.sector = hallSector code (s.blk.axis n).bl.hallDir → t.axis n = s.blk.axis n)))) ∧
  (∀ (s : State) (n : Fin 48),
    Does (.sensorSupplyOverload n) s fun t => s.blk.only t n ∧ s.blk.still t ∧ (t.axis n).bl.sensorSupply = false ∧ (t.axis n).bl.sector = none
      ∧ ((s.blk.axis n).brushless = false → (t.axis n).mot = (s.blk.axis n).mot ∧ (t.axis n).regs = (s.blk.axis n).regs)
      ∧ (s.blk.nap ≠ .awake → (t.axis n).mot = (s.blk.axis n).mot ∧ (t.axis n).regs = (s.blk.axis n).regs
      ∧ (t.axis n).bl.supplyNap = (s.blk.axis n).bl.sensorSupply)
      ∧ (s.blk.nap = .awake → (s.blk.axis n).brushless = true → (t.axis n).b AX.BL_STAT.POS_UNC = true
      ∧ ((s.blk.axis n).bl.hallMode ≠ 2 → (t.axis n).b AX.BL_STAT.HALL_FAIL = true))) ∧
  (∀ (s : State) (n : Fin 48),
    Does (.lsSignalLoss n) s fun t => s.blk.only t n ∧ s.blk.still t ∧
      (if (s.blk.axis n).mot.mode = .localSpeed ∧ (s.blk.axis n).bl.lsLost = false ∧ (s.blk.axis n).bl.lsBad = true then
      (t.axis n).bl.lsLost = true ∧ (t.axis n).mot = { (s.blk.axis n).mot with vTarget := 0 } ∧ (t.axis n).flagged AX.BL_EVT.LS_LOSS
      else t.axis n = s.blk.axis n))

/-- The observation finds the rotor at rest (a start from rest: test pulses without Halls, 05 R157, once a stand-in on the cell's slices has
completed its step, 08 R292), or moving below the estimator's speed
without Halls (a catch brake, 05 R170); braking that goes to rest ends only there (05 R177), and a failed catch ends the move (05 R170).  Test pulses end only on
free legs, and with them their interleave (08 R272); an initial angle is accepted by its asymmetry, found once more by longer pulses, or fails the start (05 R158, R159); the
estimator takes over from grip (05 R161), grip at the end of a move
parks the axis (05 R162), and a rotor at rest ends what short-braked it (05 R166, R167).  Of other axes only slices change, as a spare
changes hands; the session stays. -/
def Obligations.SensorlessStartRuns : Prop :=
  (∀ (s : State) (n : Fin 48) (x : CatchIn),
    (s.blk.axis n).bl.start = .observe → (s.blk.axis n).mot.mode ≠ .stopping → (s.blk.axis n).restSrc ≠ .halls →
    (x.rest = true ∨ x.speed.natAbs < (s.blk.axis n).r AX.BL_SPEED.V_BEMF * 16) →
    Does (.catchObserveDone n x) s fun t => s.blk.only t n ∧ s.blk.still t ∧ (t.axis n).mot = (s.blk.axis n).mot ∧
      (if x.rest then (t.axis n).bl.start = (s.blk.axis n).testFrom 1 ((s.blk.axis n).r AX.BL_START.TP_LEN) ∧ (t.axis n).bl.catchWait = false ∧ (t.axis n).b AX.BL_STAT.INIT = true
      else (t.axis n).bl.start = .none ∧ (t.axis n).bl.brake = .catching false false ∧ (t.axis n).bl.catchWait = true ∧ (t.axis n).b AX.BL_STAT.BRAKE = true
      ∧ (t.axis n).flagged AX.BL_EVT.CATCH)) ∧
  (∀ (s : State) (n : Fin 48) (x : CatchIn),
    (s.blk.axis n).bl.start ≠ .observe →
    (∀ stopped toRest : Bool, (s.blk.axis n).bl.brake = .catching stopped toRest → toRest = true ∧ x.rest = false) →
    Does (.catchObserveDone n x) s fun t => t.ax = s.blk.ax ∧ s.blk.still t) ∧
  (∀ (s : State) (n : Fin 48),
    Does (.catchFail n) s fun t => s.blk.only t n ∧ s.blk.still t ∧
      (if (∃ stopped toRest : Bool, (s.blk.axis n).bl.brake = .catching stopped toRest) ∧ 50000 ≤ (s.blk.axis n).bl.brakeN then
      (t.axis n).mot.mode.enabled = false ∧ (t.axis n).mot.job = none ∧ (t.axis n).mot.waiting = none ∧ (t.axis n).flagged AX.BL_EVT.CATCH_FAIL
      ∧ (t.axis n).bl.brake = .none
      else t.axis n = s.blk.axis n)) ∧
  (∀ (s : State) (n : Fin 48) (peaks : Vector Int 12) (k : Nat) (len : Nat) (seq : List TestPulse),
    (s.blk.axis n).bl.start = .testPulses k len seq →
    Does (.testPulses n peaks) s fun t => t.sm = s.blk.sm ∧ t.planes = s.blk.planes ∧ t.owning = s.blk.owning
      ∧ (∀ m, m ≠ n → (s.blk.axis m).spared (t.axis m)) ∧
      (if (s.blk.axis n).legsFree = true ∧ s.blk.pw.gd = true then
      (t.axis n).bl.start = .initAngle k len peaks ∧ (s.blk.axis n).ilv = true ∧ (t.axis n).ilv = false ∧ (t.axis n).mot = (s.blk.axis n).mot
      else t = s.blk)) ∧
  (∀ (s : State) (n : Fin 48) (k : Nat) (len : Nat) (p : Vector Int 12),
    (s.blk.axis n).bl.start = .initAngle k len p →
    Does (.initAngleDone n) s fun t => t.sm = s.blk.sm ∧ t.planes = s.blk.planes ∧ t.owning = s.blk.owning
      ∧ (∀ m, m ≠ n → (s.blk.axis m).spared (t.axis m)) ∧
      (if ((s.blk.axis n).r AX.BL_START.TP_ASYM : Rat) / 1000 ≤ sqrtOf ((asymSums p).1 * (asymSums p).1 + (asymSums p).2 * (asymSums p).2) / 3 then
      (t.axis n).flagged AX.BL_EVT.INIT_DONE ∧ (t.axis n).bl.start = .none
      else if k < 2 then (t.axis n).bl.start = (s.blk.axis n).testAgain len ∧ (t.axis n).mot = (s.blk.axis n).mot
      else (t.axis n).mot.mode.enabled = false ∧ (t.axis n).mot.job = none ∧ (t.axis n).flagged AX.BL_EVT.INIT_FAIL)) ∧
  (∀ (s : State) (n : Fin 48),
    Does (.bemfHandover n) s fun t => s.blk.only t n ∧ s.blk.still t ∧
      (if (s.blk.axis n).bl.posSrc = .grip ∧ (s.blk.axis n).bl.gripEnd = false ∧ (s.blk.axis n).mot.mode.running = true ∧ (s.blk.axis n).starting = false
      ∧ (s.blk.axis n).bl.estValid = true ∧ max 1 ((s.blk.axis n).r AX.BL_START.BEMF_N) ≤ (s.blk.axis n).bl.bemfN then
      (t.axis n).bl.posSrc = .estimator ∧ (t.axis n).bl.theta = (s.blk.axis n).bl.estTheta ∧ (t.axis n).bl.omega = (s.blk.axis n).bl.estOmega
      ∧ (t.axis n).bl.vInt = 0 ∧ (t.axis n).mot.pCmd = (s.blk.axis n).mot.pCmd ∧ (t.axis n).mot.mode = (s.blk.axis n).mot.mode
      ∧ (t.axis n).regs = (s.blk.axis n).regs
      else t.axis n = s.blk.axis n)) ∧
  (∀ (s : State) (n : Fin 48),
    Does (.sensorlessGripEnd n) s fun t => s.blk.only t n ∧ s.blk.still t ∧
      (if (s.blk.axis n).bl.gripEnd = true ∧ (s.blk.axis n).mot.mode = .hold ∧ (s.blk.axis n).reg.rest = .ceiling 0 then
      (t.axis n).mot.mode = .park ∧ (t.axis n).b AX.BL_STAT.PARK = true ∧ (t.axis n).bl.brake = .park ∧ (t.axis n).bl.gripEnd = false
      ∧ (t.axis n).mot.pCmd = (s.blk.axis n).mot.pCmd
      else t.axis n = s.blk.axis n)) ∧
  (∀ (s : State) (n : Fin 48),
    (s.blk.axis n).stillTurns = true →
    Does (.rotorAtRest n) s fun t => t.ax = s.blk.ax ∧ s.blk.still t) ∧
  (∀ (s : State) (n : Fin 48),
    (s.blk.axis n).stillTurns = false →
    Does (.rotorAtRest n) s fun t => s.blk.only t n ∧ s.blk.still t
      ∧ ((s.blk.axis n).bl.brake = .locked ∨ (s.blk.axis n).bl.brake = .none → t.axis n = s.blk.axis n)
      ∧ ((s.blk.axis n).bl.brake = .park → if (s.blk.axis n).b AX.BL_STAT.PARK = true then t.axis n = s.blk.axis n
      else if (s.blk.axis n).mot.fallowAfter = true then (t.axis n).mot.mode.enabled = false ∧ (t.axis n).bl.brake = .none
      else (t.axis n).mot.mode = .park ∧ (t.axis n).b AX.BL_STAT.PARK = true ∧ (t.axis n).b AX.BL_STAT.BRAKE = false ∧ (t.axis n).bl.brake = .park)
      ∧ ((s.blk.axis n).bl.brake = .hallFail ∨ (s.blk.axis n).bl.brake = .sb82 → (t.axis n).mot.mode.enabled = false ∧ (t.axis n).bl.brake = .none)
      ∧ (∀ toRest : Bool, (s.blk.axis n).bl.brake = .catching true toRest → (t.axis n).b AX.BL_STAT.CATCH = false ∧ (t.axis n).mot.job = none)
      ∧ (∀ toRest : Bool, (s.blk.axis n).bl.brake = .catching false toRest → (s.blk.axis n).restSrc ≠ .halls →
      (t.axis n).bl.start = (s.blk.axis n).testFrom 1 ((s.blk.axis n).r AX.BL_START.TP_LEN) ∧ (t.axis n).bl.brake = .none ∧ (t.axis n).mot = (s.blk.axis n).mot))

/-- A lost master is reported, and its follower stops or no longer waits (06 R205).  A waiting cam engages as its master passes the start
position, or is refused beyond its tolerance (06 R210, R211) or where its master falls at that tick (06 R213; how its owner learns of it is
the model's choice, notes/assumptions/106.md): the axis holds.  At the position of a disengage the follower stops (06 R212).  A table with an
error is no longer valid, and every axis that uses it stops (06 R212).  Other axes and tables stay. -/
def Obligations.MastersAndCamsAct : Prop :=
  (∀ (s : State) (n : Fin 48),
    Does (.masterLost n) s fun t => s.blk.only t n ∧ s.blk.still t ∧
      ((s.blk.axis n).master = none → t.axis n = s.blk.axis n) ∧
      ∀ r ∈ (s.blk.axis n).master, if s.blk.masterGone r = false then t.axis n = s.blk.axis n
      else (t.axis n).flagged AX.MOT_EVT.MASTER_LOST
      ∧ (if (s.blk.axis n).mot.camWait = none then (t.axis n).mot.waiting = none
      ∧ ((s.blk.axis n).ramps ((s.blk.axis n).b AX.MOT_CFG.MLOSS_ACT) = true → (t.axis n).mot.mode ∈ [.stopping, .hold, .fallow] ∧ (t.axis n).mot.left = true)
      else (t.axis n).mot = { (s.blk.axis n).mot with camWait := none, job := none })) ∧
  (∀ (s : State) (n : Fin 48),
    (s.blk.axis n).mot.camWait = none →
    Does (.camAtEngage n) s fun t => t = s.blk) ∧
  (∀ (s : State) (n : Fin 48) (cp : CamP) (seq : Nat) (pl : Plane) (m : Int) (x : Int × Bool),
    (s.blk.axis n).mot.camWait = some (cp, seq, pl) → s.blk.masters cp.master = some m → cp.startAt = some x →
    Does (.camAtEngage n) s fun t => s.blk.only t n ∧ s.blk.still t ∧ (t.axis n).mot.pCmd = (s.blk.axis n).mot.pCmd ∧
      (if passedAt m x = false ∨ s.blk.masterValid cp.master = false then t.axis n = s.blk.axis n
      else if s.blk.fellNow cp.master = true then (t.axis n).mot.mode = .hold ∧ (t.axis n).mot.job = none ∧ (t.axis n).mot.camWait = none
      ∧ (t.axis n).flagged AX.MOT_EVT.CAM_REFUSED
      else (t.axis n).mot.camWait = none ∧
      (if cp.abs = true ∧ (cp.tol : Rat) < Rat.abs' ((cp.sOrg : Rat) + camOut (s.blk.cams.get cp.table) cp m - (s.blk.axis n).mot.pCmd) then
      (t.axis n).mot.mode = .hold ∧ (t.axis n).mot.job = none ∧ (t.axis n).flagged AX.MOT_EVT.CAM_REFUSED
      else (t.axis n).mot.mode = .cam ∧ (t.axis n).flagged AX.MOT_EVT.CAM_ENGAGED
      ∧ (t.axis n).mot.engage = some ⟨.cam cp, m, (s.blk.axis n).mot.pCmd, if cp.abs then (cp.sOrg : Rat) else
      ((s.blk.axis n).mot.pCmd : Rat) - camOut (s.blk.cams.get cp.table) cp m, false, false, none⟩))) ∧
  (∀ (s : State) (n : Fin 48) (e : Engage) (r : MasterRef) (m : Int) (x : Int × Bool),
    (s.blk.axis n).mot.engage = some e → (s.blk.axis n).master = some r → s.blk.masters r = some m → e.offAt = some x →
    Does (.camAtDisengage n) s fun t => s.blk.only t n ∧ s.blk.still t ∧
      (if passedAt m x = false then t = s.blk
      else if (s.blk.axis n).handling = true then
      (t.axis n).legs.deferred = (s.blk.axis n).legs.deferred ++ [.stop] ∧ (t.axis n).mot = (s.blk.axis n).mot
      else (t.axis n).mot.waiting = none
      ∧ ((s.blk.axis n).ramps false = true → (t.axis n).mot.mode ∈ [.stopping, .hold, .fallow] ∧ (t.axis n).mot.engage = none))) ∧
  (∀ (s : State) (k : Fin 64),
    Does (.camEccError k) s fun t => t.sm = s.blk.sm ∧ t.planes = s.blk.planes ∧ t.owning = s.blk.owning ∧ t.plan.cands = s.blk.plan.cands
      ∧ (t.cams.get k).valid = false ∧ (∀ p ∈ (t.cams.get k).points, p = none) ∧ (∀ j : Fin 64, j ≠ k → t.cams.get j = s.blk.cams.get j)
      ∧ (∀ n, if (s.blk.axis n).usesTable k = true then (t.axis n).flagged AX.MOT_EVT.CAM_ECC ∧ (t.axis n).mot.waiting = none
      ∧ (t.axis n).mot.camWait = none
      ∧ ((s.blk.axis n).ramps false = true → (t.axis n).mot.mode ∈ [.stopping, .hold, .fallow])
      else t.axis n = s.blk.axis n))

/-! ### The planner's events (01, 07) -/

/-- A swath start of a running module counts the swath, begins its ticks at 0, and, with an active side, refreshes every cell, takes the
budgets into force and decides every candidate (01 R14, R25, 07 R223, R233); no position moves by it.  A cell that no side has refreshed for
50 swaths stops its move and holds, one that is refreshed on the swath that ends them included (01 R14, 00 R6).  The chopper shows itself on
from 78.0 V while gate-drive power stands and off below 77.0 V (07 R246, 03 R103), and its fault is
marked once (R247).  At 82 V every running axis whose acceleration opposes its velocity short-brakes (R250).  Reserve operation begins
without a supply: the stores hold the link at `V_LINK_LO` (R251) and what waits without a tag is withdrawn (R252); it ends with a supply
at 36.0 V that is not blocked (R254).  Serial memory, session and power stay. -/
def Obligations.PlannerEventsAct : Prop :=
  (∀ (s : State),
    s.blk.running = true →
    Does .swathStart s fun t => t.swath = s.blk.swath + 1 ∧ t.tick = 0 ∧ t.r LEDG.SWATH.SWATH_LO = (s.blk.swath + 1) % 2 ^ 32
      ∧ t.plan.supply = 0 ∧ t.sm = s.blk.sm ∧ t.owning = s.blk.owning ∧ t.pw = s.blk.pw ∧ t.sides = s.blk.sides ∧ t.nap = s.blk.nap
      ∧ (∀ n, (t.axis n).mot.pCmd = (s.blk.axis n).mot.pCmd ∧
      (if s.blk.act = none ∨ (s.blk.axis n).r AX.AX_SUPV.AGE < 49 ∨ (s.blk.axis n).b AX.AX_SUPV.HELD = true then
      (t.axis n).mot.mode = (s.blk.axis n).mot.mode
      ∧ (t.axis n).legs = (s.blk.axis n).legs ∧ (t.axis n).trip = (s.blk.axis n).trip ∧ (t.axis n).pwm = (s.blk.axis n).pwm
      else ((s.blk.axis n).handling = true → (t.axis n).legs.deferred = (s.blk.axis n).legs.deferred ++ [.stop])
      ∧ ((s.blk.axis n).handling = false → (s.blk.axis n).ramps false = true → (t.axis n).mot.mode ∈ [.stopping, .hold, .fallow])
      ∧ (s.blk.plan.cands = [] → (t.axis n).b AX.AX_SUPV.HELD = true)))
      ∧ (s.blk.act = none → t.plan.cands = s.blk.plan.cands ∧ t.planes = s.blk.planes ∧ ∀ n, (t.axis n).r AX.AX_SUPV.AGE
      = min ((s.blk.axis n).r AX.AX_SUPV.AGE + 1) (2 ^ AX.AX_SUPV.AGE.w - 1))
      ∧ (s.blk.act ≠ none → t.plan.cands = [] ∧ (∀ i : Fin 12, t.plan.budget.get i = (s.blk.regs[24 + i.val]?).getD 0)
      ∧ ∀ n, (t.axis n).r AX.AX_SUPV.AGE = 0 ∧ (t.axis n).mot.lapsed = [])) ∧
  (∀ (s : State),
    s.blk.running = false →
    Does .swathStart s fun t => t = s.blk) ∧
  (∀ (s : State) (n : Fin 48),
    50 ≤ (s.blk.axis n).r AX.AX_SUPV.AGE →
    Does (.supervisionTimeout n) s fun t => s.blk.only t n ∧ s.blk.still t ∧ (t.axis n).b AX.AX_SUPV.HELD = true
      ∧ (t.axis n).mot.pCmd = (s.blk.axis n).mot.pCmd
      ∧ (if (s.blk.axis n).handling = true then (t.axis n).legs.deferred = (s.blk.axis n).legs.deferred ++ [.stop] ∧ (t.axis n).mot = (s.blk.axis n).mot
      else if (s.blk.axis n).mot.mode.running = false then (t.axis n).mot = (s.blk.axis n).mot
      else (t.axis n).mot.waiting = none ∧ ((s.blk.axis n).ramps false = true → (t.axis n).mot.mode ∈ [.stopping, .hold, .fallow]))) ∧
  (∀ (s : State) (n : Fin 48),
    (s.blk.axis n).r AX.AX_SUPV.AGE < 50 →
    Does (.supervisionTimeout n) s fun t => t.ax = s.blk.ax ∧ s.blk.still t) ∧
  (∀ (s : State) (mV : Nat),
    Does (.chopperOn mV) s fun t => t.ax = s.blk.ax ∧ t.rest = s.blk.rest ∧ t.planes = s.blk.planes ∧ t.sess = s.blk.sess
      ∧ (∀ i : Fin 356, i.val ≠ LEDG.STAT.CHOP_ON.reg → t.regs.get i = s.blk.regs.get i)
      ∧ t.bit LEDG.STAT.CHOP_FAULT = s.blk.bit LEDG.STAT.CHOP_FAULT
      ∧ t.bit LEDG.STAT.CHOP_ON = (s.blk.bit LEDG.STAT.CHOP_ON || (decide (78000 ≤ mV) && s.blk.pw.gd))) ∧
  (∀ (s : State) (mV : Nat),
    Does (.chopperOff mV) s fun t => t.ax = s.blk.ax ∧ t.rest = s.blk.rest ∧ t.planes = s.blk.planes ∧ t.sess = s.blk.sess
      ∧ (∀ i : Fin 356, i.val ≠ LEDG.STAT.CHOP_ON.reg → t.regs.get i = s.blk.regs.get i)
      ∧ t.bit LEDG.STAT.CHOP_FAULT = s.blk.bit LEDG.STAT.CHOP_FAULT
      ∧ t.bit LEDG.STAT.CHOP_ON = (s.blk.bit LEDG.STAT.CHOP_ON && decide (77000 ≤ mV))) ∧
  (∀ (s : State),
    Does .chopFault s fun t => t.ax = s.blk.ax ∧ t.rest = s.blk.rest ∧ t.owning = s.blk.owning ∧ t.bit LEDG.STAT.CHOP_FAULT = true
      ∧ t.bit LEDG.STAT.CHOP_ON = s.blk.bit LEDG.STAT.CHOP_ON
      ∧ (if s.blk.bit LEDG.STAT.CHOP_FAULT = true then t = s.blk else t.flagged LEDG.EVT.CHOP_FAULT)) ∧
  (∀ (s : State),
    Does .shortBrake82V s fun t => s.blk.still t ∧ t.flagged LEDG.EVT.SB82 ∧ ∀ n,
      if (s.blk.axis n).mot.mode.running = true ∧ (s.blk.axis n).starting = false ∧ (s.blk.axis n).mot.prof.v * (s.blk.axis n).mot.prof.a < 0 then
      (t.axis n).mot.mode = .park ∧ (t.axis n).bl.brake = .sb82 ∧ (t.axis n).mot.job = none ∧ (t.axis n).mot.waiting = none
      ∧ (t.axis n).flagged AX.MOT_EVT.ABANDONED ∧ (t.axis n).mot.pCmd = (s.blk.axis n).mot.pCmd
      ∧ ((s.blk.axis n).stepper = true → (t.axis n).posUnc = true)
      else t.axis n = s.blk.axis n) ∧
  (∀ (s : State),
    s.blk.running = true → s.blk.reserveOp = false → s.blk.supOk 0 = false → s.blk.supOk 1 = false →
    Does .reserveEnter s fun t => t.reserveOp = true ∧ t.flagged LEDG.EVT.RES_ENTER ∧ t.sm = s.blk.sm ∧ t.planes = s.blk.planes
      ∧ t.owning = s.blk.owning ∧ t.pw = s.blk.pw ∧ t.plan.cands = s.blk.plan.cands
      ∧ t.plan.hold = some (s.blk.bud LEDG.BUD_LINK.V_LINK_LO)
      ∧ (∀ n, (t.axis n).mot.pCmd = (s.blk.axis n).mot.pCmd ∧ ((s.blk.axis n).mot.mode.running = false → (t.axis n).mot.mode = (s.blk.axis n).mot.mode)
      ∧ ((∃ w ∈ (s.blk.axis n).mot.waiting, w.move.tagged = false) ∨ (∃ w ∈ (s.blk.axis n).mot.queued, w.move.tagged = false) →
      (t.axis n).mot.waiting = none ∧ (t.axis n).mot.queued = none))) ∧
  (∀ (s : State),
    (s.blk.running = false ∨ s.blk.reserveOp = true ∨ s.blk.supOk 0 = true ∨ s.blk.supOk 1 = true) →
    Does .reserveEnter s fun t => t = s.blk) ∧
  (∀ (s : State) (i : Fin 2),
    s.blk.reserveOp = true → 36000 ≤ s.blk.pw.supMv.get i → s.blk.pw.ovBlock.get i = false →
    Does .reserveExit s fun t => t.ax = s.blk.ax ∧ t.reserveOp = false ∧ t.flagged LEDG.EVT.RES_EXIT
      ∧ { t with plan := s.blk.plan }.rest = s.blk.rest ∧ t.plan = { s.blk.plan with hold := none } ∧ t.owning = s.blk.owning) ∧
  (∀ (s : State),
    (s.blk.reserveOp = false ∨ ∀ i : Fin 2, s.blk.pw.supMv.get i < 36000 ∨ s.blk.pw.ovBlock.get i = true) →
    Does .reserveExit s fun t => t = s.blk)

/-! ### Measurement, calibration and graze (08, 10) -/

/-- The waiting command of a request has its reply of a status, and none waits for one. -/
def Sys2Proof.Machine.Blk.replied (b t : Blk) (q : Req) (st : Nat) : Prop := q.exempt = false →
  (∀ x ∈ (t.planes.get q.plane.idx).acc, x.waitsFor q = false) ∧
  (∀ x ∈ (b.planes.get q.plane.idx).acc, x.waitsFor q = true →
    ∃ y ∈ (t.planes.get q.plane.idx).acc, y.q = x.q ∧ ∃ o ∈ y.reply, o.body.head? = some (BitVec.ofNat 8 st))

/-- A conversion of the channel that its converter's rotation or shot calls for, begun after its last one ended, goes, calibrated (08 R279, R289), into its data register and its
quantity, a value not taken before it marked as overrun, adds its energy over its length to the ledger, and takes a new integration time
into force (07 R216, 08 R274 to R279); in nap the ledger updates, and its loss
balances it (07 R216, R219).  A free spare takes the next item of background calibration, as stand-in of a slice in use (08 R283).
The end of a calibration gives its factors, of age 0, or marks the slice failed (R282, R284).  `CAL_SELF` and `CAL_WRITE` end with their
replies (R287, R290), `CAL_SELF` once it has begun, and an age of 10, of a slice or of the spare in its place, is a stale slice (R285).  The factors of slices of `CAL_SELF` that no command reports are free values
(notes/assumptions/26.md).  Motion, legs, session and serial memory stay. -/
def Obligations.MeasurementRuns : Prop :=
  (∀ (s : State) (i : Fin 8) (x : IcIn),
    Does (.icConversionDone i x) s fun t => t.sm = s.blk.sm ∧ t.planes = s.blk.planes ∧ t.owning = s.blk.owning ∧ t.plan = s.blk.plan ∧
      if s.blk.running = false ∨ x.startUs < s.blk.meas.icEnd.get i ∨ s.blk.icMay i x = false then t = s.blk
      else t.bit (MEAS.IC_DATA0.NEW.skip i.val) = true ∧ t.r (MEAS.IC_DATA0.CH.skip i.val) = x.ch.val
      ∧ (s.blk.bit (MEAS.IC_DATA0.NEW.skip i.val) = true → t.bit (MEAS.IC_DATA0.OVR.skip i.val) = true)
      ∧ t.ledg = (s.blk.ledgerConv { x with eng := s.blk.calibrated x } (s.blk.meas.tInt.get i)).ledg ∧ t.meas.tInt.get i = s.blk.tSelected
      ∧ (∀ g ∈ channelReg x.ch.val, t.r g.1 = (if g.2 then (s.blk.setS g.1 (s.blk.calibrated x)).r g.1 else g.1.sat (s.blk.calibrated x)))
      ∧ (x.ch.val < 16 → t.ax = s.blk.ax) ∧ (∀ n, (t.axis n).mot.pCmd = (s.blk.axis n).mot.pCmd)) ∧
  (∀ (s : State) (xs : List IcIn),
    Does (.napLedgerUpdate xs) s fun t => if s.blk.nap ≠ .napping then t = s.blk else
      t.ax = s.blk.ax ∧ t.napCyc = s.blk.napCyc + 1024 ∧ t.ledg.e.get 9 = t.loss ∧ t.nap = .napping ∧ t.sm = s.blk.sm ∧ t.planes = s.blk.planes
      ∧ t.sess = s.blk.sess ∧ t.swath = s.blk.swath) ∧
  (∀ (s : State) (k : Fin 8),
    Does (.bgCalItemStart k) s fun t => t.sm = s.blk.sm ∧ t.planes = s.blk.planes ∧ t.sess = s.blk.sess ∧ t.regs = s.blk.regs
      ∧ (∀ n, (t.axis n).mot = (s.blk.axis n).mot ∧ (t.axis n).legs = (s.blk.axis n).legs)
      ∧ (s.blk.running = false ∨ s.blk.meas.bgRun = false ∨ (s.blk.spareRec k).use ≠ 0 ∨ (s.blk.spareRec k).fail = true
      ∨ s.blk.spareBusy (s.blk.spareRec k) = true → t = s.blk)) ∧
  (∀ (s : State) (k : Fin 8) (i : Nat),
    s.blk.running = true → s.blk.meas.bgRun = true → (s.blk.spareRec k).use = 0 → (s.blk.spareRec k).fail = false →
    (s.blk.spareRec k).recheck = false → s.blk.spareBusy (s.blk.spareRec k) = false →
    s.blk.ax.any (fun a => a.slc.any (fun x => x.waits)) = false →
    ((List.range 104).map fun d => (s.blk.meas.bgPos + d) % 104).find? (fun j => (s.blk.bgItem k j).isSome) = some i →
    Does (.bgCalItemStart k) s fun t => t.meas.bgPos = (i + 1) % 104 ∧ (t.spareRec k).item = s.blk.bgItem k i
      ∧ ∀ (n : Fin 48) (sl : Fin 2), s.blk.bgItem k i = some (.axis n sl) → s.blk.only t n ∧
      if (s.blk.axis n).mot.mode.enabled then (t.spareRec k).use = 1 ∧ (t.spareRec k).serves = some (n, sl) ∧ ((t.axis n).slc.get sl).stand = some (k, 0)
      else ((t.axis n).slc.get sl).direct = true ∧ (t.spareRec k).use = 0) ∧
  (∀ (s : State) (id : SliceId) (x : CalMeas),
    Does (.sliceCalDone id x) s fun t => t.sm = s.blk.sm ∧ t.planes = s.blk.planes ∧ t.owning = s.blk.owning
      ∧ (s.blk.calRunning id = false → t = s.blk)
      ∧ (∀ n, (t.axis n).mot = (s.blk.axis n).mot ∧ (t.axis n).legs = (s.blk.axis n).legs)) ∧
  (∀ (s : State) (id : SliceId) (x : CalMeas) (n : Fin 48) (sl : Fin 2),
    s.blk.calRunning id = true → s.blk.calTarget id = .axis n sl →
    Does (.sliceCalDone id x) s fun t => (∀ m, m ≠ n → (s.blk.axis m).spared (t.axis m)) ∧ ((t.axis n).slc.get sl).direct = false
      ∧ (∀ f ∈ calFactors x, ∀ g ∈ [AX.SLC_FAC0.GAIN.skip sl.val, AX.SLC_FAC0.OFS.skip sl.val, AX.SLC_FAC0.AGE.skip sl.val],
      (t.axis n).r g = ((s.blk.axis n).putFactors sl f).r g)
      ∧ (calFactors x = none → ((t.axis n).r AX.SLC_STAT.FAIL).testBit sl.val = true ∧ (t.axis n).flagged AX.SLC_EVT.FAIL)) ∧
  (∀ (s : State) (id : SliceId) (x : CalMeas) (k : Fin 8),
    s.blk.calRunning id = true → s.blk.calTarget id = .spare k →
    Does (.sliceCalDone id x) s fun t =>
      (∀ f ∈ calFactors x, ∀ g ∈ [MEAS.SPF0.GAIN.skip k.val, MEAS.SPF0.OFS.skip k.val, MEAS.SPF0.AGE.skip k.val],
      t.r g = (s.blk.putSpareFactors k f).r g)
      ∧ (calFactors x = none → (t.spareRec k).fail = true ∧ t.flagged MEAS.EVT.SPARE_FAIL)) ∧
  (∀ (s : State),
    Does .calSelfDone s fun t => t.sm = s.blk.sm ∧ t.owning = s.blk.owning ∧ (∀ n, (t.axis n).mot = (s.blk.axis n).mot ∧ (t.axis n).legs = (s.blk.axis n).legs)
      ∧ (s.blk.meas.calSelf = none ∨ s.blk.meas.selfRun = false → t = s.blk)
      ∧ (∀ y ∈ s.blk.meas.calSelf, s.blk.meas.selfRun = true → t.meas.calSelf = none ∧ t.meas.selfRun = false ∧ t.bit MEAS.CAL_STAT.SELF_BUSY = false ∧ t.fresh = s.blk.fresh + 208
      ∧ (∀ n ∈ y.2, (t.axis n).calSelf = false) ∧ (∀ n, n ∉ y.2 → t.axis n = s.blk.axis n) ∧ s.blk.replied t y.1 0)) ∧
  (∀ (s : State),
    Does .calWriteDone s fun t => t.sm = s.blk.sm ∧ t.sess = s.blk.sess ∧ t.ax = s.blk.ax ∧ t.regs = s.blk.regs
      ∧ (s.blk.meas.calWrite = none → t = s.blk)
      ∧ (∀ y ∈ s.blk.meas.calWrite, t.meas.calWrite = none ∧ t.meas.inUse = 1 - s.blk.meas.inUse ∧ s.blk.replied t y.1 0
      ∧ ∀ c : Fin 2, (t.meas.copies.get c).ok = true ∧ (t.meas.copies.get c).written = true
      ∧ (∀ z ∈ y.2.2.zipIdx, calLookup (t.meas.copies.get c).ent (y.2.1 + z.2) = z.1)
      ∧ (∀ i, i < y.2.1 ∨ y.2.1 + y.2.2.length ≤ i →
      calLookup (t.meas.copies.get c).ent i = calLookup (s.blk.meas.copies.get s.blk.meas.inUse).ent i))) ∧
  (∀ (s : State) (n : Fin 48) (k : Fin 2),
    ((s.blk.axis n).r AX.SLC_STAT.SUB).testBit k.val = false →
    Does (.calStale n k) s fun t => s.blk.only t n ∧ t.rest = s.blk.rest ∧ t.sess = s.blk.sess ∧ t.planes = s.blk.planes
      ∧ (t.axis n).mot = (s.blk.axis n).mot ∧ (t.axis n).r (AX.SLC_FAC0.AGE.skip k.val) = max 10 ((s.blk.axis n).r (AX.SLC_FAC0.AGE.skip k.val))
      ∧ (s.blk.stale = false → t.stale = true → t.flagged MEAS.EVT.STALE)) ∧
  (∀ (s : State) (n : Fin 48) (k : Fin 2) (j : Fin 8),
    ((s.blk.axis n).r AX.SLC_STAT.SUB).testBit k.val = true →
    (s.blk.axis n).r (if k = 0 then AX.SLC_STAT.SP0 else AX.SLC_STAT.SP1) = j.val →
    Does (.calStale n k) s fun t => t.ax = s.blk.ax ∧ t.rest = s.blk.rest ∧ t.sess = s.blk.sess ∧ t.planes = s.blk.planes
      ∧ t.r (MEAS.SPF0.AGE.skip j.val) = max 10 (s.blk.r (MEAS.SPF0.AGE.skip j.val)) ∧ (s.blk.stale = false → t.stale = true → t.flagged MEAS.EVT.STALE))

/-- A slice of graze begins only the item that comes next, its resource free, while graze is enabled and not paused (10 R348, R349, R357); a
slice in a pause gives the running item back to the pass (R347; that a slice ends there is the model's choice, notes/assumptions/148.md).  It ends the
running item, its resource still free, with its results: switch tests of an axis, the link
capacity (a failure below 960 µF), the chopper, whose recovery clears `SB_STOP` (07 R249), the counts of a scrub, which ends with the
fourth bank (10 R347, R348).  Yielding gives the item back to the pass (R347); a late pass
is reported (R349); the lifetime counters, with the parts below their units, are copied into the nonvolatile store (R350).  Motion, session and sequence stay. -/
def Obligations.GrazeAndLifeRun : Prop :=
  (∀ (s : State) (x : GrazeRes),
    x.done = false → s.blk.yieldDue = false →
    Does (.grazeSlice x) s fun t => t.ax = s.blk.ax ∧ t.sm = s.blk.sm ∧ t.planes = s.blk.planes ∧ t.sess = s.blk.sess ∧
      if s.blk.grazeMay = false then t.graze.run = none ∧ (s.blk.graze.run = none → t = s.blk)
      ∧ ∀ y ∈ s.blk.graze.run, t.graze.skipped = s.blk.graze.skipped ++ [y] ∧ t.bit GRAZE.STAT.RUN = false
      else if s.blk.graze.run ≠ none ∨ s.blk.napDue = true then t = s.blk
      else (s.blk.grazeNext = none → t = s.blk) ∧ ∀ z ∈ s.blk.grazeNext, s.blk.grazeFree z.1 = true ∧
      if z.1 = (x.item, x.axis) then t.graze = { z.2 with run := some z.1, banks := 0 } ∧ t.bit GRAZE.STAT.RUN = true
      ∧ t.r GRAZE.STAT.ITEM = x.item.val ∧ t.r GRAZE.STAT.AXIS = x.axis.elim 63 (·.val)
      else t = s.blk) ∧
  (∀ (s : State) (x : GrazeRes),
    x.done = true → x.axis = none → s.blk.yieldDue = false → s.blk.grazeMay = true → s.blk.graze.run = some (x.item, none) →
    s.blk.grazeFree (x.item, none) = true → noDevice (x.ids.get 0) = false →
    Does (.grazeSlice x) s fun t => t.planes = s.blk.planes ∧ t.owning = s.blk.owning
      ∧ (∀ n, t.axis n = if x.item = 8 ∧ x.ok = true then (s.blk.axis n).setB AX.LEDG_AX.SB_STOP false else s.blk.axis n)
      ∧ (x.item ≠ 7 → x.item ≠ 10 ∨ s.blk.graze.banks ||| BitVec.ofNat 4 (2 ^ (2 * x.store.val + (toFin2 x.value).val)) = 15 →
      t.graze.run = none ∧ t.bit GRAZE.STAT.RUN = false)
      ∧ (x.item = 6 → t.r LEDG.LINK_C.C = LEDG.LINK_C.C.sat x.value ∧ (x.value < 960 → t.flagged GRAZE.EVT.FAIL))
      ∧ (x.item = 10 → t.r GRAZE.SCRUB.CORR = min (s.blk.r GRAZE.SCRUB.CORR + x.corr) (2 ^ GRAZE.SCRUB.CORR.w - 1)
      ∧ t.r GRAZE.SCRUB.UNCORR = min (s.blk.r GRAZE.SCRUB.UNCORR + x.uncorr) (2 ^ GRAZE.SCRUB.UNCORR.w - 1) ∧ (x.ok = true → ∀ i : Fin 2, (t.sm.get i).mem = (s.blk.sm.get i).mem))
      ∧ (x.item = 8 → x.ok = true → t.bit LEDG.STAT.CHOP_FAULT = false) ∧ (x.item = 8 → x.ok = false → t.bit LEDG.STAT.CHOP_FAULT = true)) ∧
  (∀ (s : State) (x : GrazeRes) (n : Fin 48),
    x.done = true → x.axis = some n → x.item = 0 → s.blk.yieldDue = false → s.blk.grazeMay = true →
    s.blk.graze.run = some (0, some n) → s.blk.grazeFree (0, some n) = true →
    Does (.grazeSlice x) s fun t => s.blk.only t n ∧ t.planes = s.blk.planes ∧ t.owning = s.blk.owning ∧ t.sm = s.blk.sm
      ∧ (t.axis n).r AX.GZ_SW.SW_OK = x.sw.toNat ∧ (t.axis n).r AX.GZ_AGE.AGE = 0 ∧ t.graze.run = none ∧ t.bit GRAZE.STAT.RUN = false
      ∧ (x.sw ≠ 0x3FF → t.flagged GRAZE.EVT.FAIL) ∧ (x.sw = 0x3FF → (t.axis n).legs = (s.blk.axis n).legs)) ∧
  (∀ (s : State),
    Does .grazeYield s fun t => t.ax = s.blk.ax ∧ t.sm = s.blk.sm ∧ t.planes = s.blk.planes ∧ t.sess = s.blk.sess ∧ t.yieldDue = false
      ∧ (s.blk.yieldDue = false → t = s.blk) ∧ (s.blk.graze.run = none → t = { s.blk with yieldDue := false })
      ∧ (s.blk.yieldDue = true → ∀ y ∈ s.blk.graze.run,
      t.graze.run = none ∧ t.graze.skipped = s.blk.graze.skipped ++ [y] ∧ t.bit GRAZE.STAT.RUN = false ∧ t.flagged GRAZE.EVT.YIELD)) ∧
  (∀ (s : State),
    Does .grazePassLate s fun t => t.ax = s.blk.ax ∧ t.sess = s.blk.sess ∧ s.blk.still t ∧ if s.blk.running then t.flagged GRAZE.EVT.LATE else t = s.blk) ∧
  (∀ (s : State),
    Does .lifeSave s fun t => if s.blk.pw.powered = false then t = s.blk else t.regs = s.blk.regs ∧ t.planes = s.blk.planes ∧ t.sess = s.blk.sess
      ∧ t.lifeHSaved = BitVec.ofNat 32 (s.blk.r GRAZE.LIFE_H.H) ∧ t.onSaved = s.blk.onTicks
      ∧ ∀ n, t.axis n = { s.blk.axis n with lifeRest := (s.blk.axis n).life, lifeSaved := #v[BitVec.ofNat 32 ((s.blk.axis n).r AX.LIFE_CYC.CYC), BitVec.ofNat 32 ((s.blk.axis n).r AX.LIFE_E.E),
      BitVec.ofNat 32 ((s.blk.axis n).r AX.LIFE_TC.TC), BitVec.ofNat 32 ((s.blk.axis n).r AX.LIFE_H.H)] })

/-! ### Clocks, nap and sides (09, 10) -/

/-- The trim of the slow clock shows nowhere; its failure selects the other source, once (09 R297, R298).  A crystal's failure marks its side,
or only raises both flags where the sources merely disagree (R299).  The standby's lock comes and goes (R300); a missing edge without
it, or the selection, puts the cells on their local clocks, each to stop at the boundary that ends its present period (R301, R302); with a
sound crystal they return.  Nap begins once its conditions have held for its delay, in cycles of the slow clock (R304, R307; their rounding is the
model's choice, notes/assumptions/140.md), its legs off (R308); the enabled source of the lowest code wakes
the module or aborts the entry (R309, R307, R321), and at ready the trip inputs act, the swath count has advanced over the nap and the queued frames are served
in order (R310, R312, R321; that they count as of the swath before W, and how the ms are carried, is the model's choice,
notes/assumptions/109.md). -/
def Obligations.ClocksAndNapAct : Prop :=
  (∀ (s : State),
    Does .sck1Trim s fun t => t = s.blk) ∧
  (∀ (s : State),
    Does .sck0Fail s fun t => t.ax = s.blk.ax ∧ t.rest = s.blk.rest ∧ t.sess = s.blk.sess ∧ t.planes = s.blk.planes ∧
      if s.blk.pw.powered = true ∧ s.blk.bit CLK.STAT.SCK_SRC = false then
      t.bit CLK.STAT.SCK_SRC = true ∧ t.bit CLK.STAT.SCK_DEG = true ∧ t.flagged CLK.EVT.SCK_FAIL else t = s.blk) ∧
  (∀ (s : State) (i : Side) (noEdge : Bool),
    Does (.xtalFail i noEdge) s fun t => t.ax = s.blk.ax ∧ t.sess = s.blk.sess ∧ t.planes = s.blk.planes ∧ t.sm = s.blk.sm ∧ t.act = s.blk.act ∧
      t.side i.other = s.blk.side i.other ∧
      if s.blk.pw.powered = false then t = s.blk
      else if s.blk.bit CLK.STAT.SCK_SRC = true ∧ noEdge = false then
      t.side i = s.blk.side i ∧ t.flagged CLK.EVT.FCK_FAIL_A ∧ t.flagged CLK.EVT.FCK_FAIL_B ∧ t.bit (fckOk i) = s.blk.bit (fckOk i)
      else t.side i = { s.blk.side i with sick := true } ∧ t.bit (fckOk i) = false ∧ t.flagged (fckFail i)) ∧
  (∀ (s : State),
    Does .stbyPllUnlock s fun t => t.ax = s.blk.ax ∧ t.rest = s.blk.rest ∧ t.sess = s.blk.sess ∧ t.bit CLK.STAT.STBY_LOCK = false
      ∧ (if s.blk.bit CLK.STAT.STBY_LOCK then t.flagged CLK.EVT.STBY_UNLOCK else t = s.blk)) ∧
  (∀ (s : State),
    Does .stbyPllLock s fun t => t.ax = s.blk.ax ∧ t.rest = s.blk.rest ∧ t.sess = s.blk.sess
      ∧ (if s.blk.standby then t.bit CLK.STAT.STBY_LOCK = true else t = s.blk)) ∧
  (∀ (s : State),
    Does .missingClockEdge s fun t => t.rest = s.blk.rest ∧ t.owning = s.blk.owning ∧
      if (s.blk.bit CLK.STAT.STBY_LOCK = true ∧ s.blk.standby = true) ∨ s.blk.bit CLK.STAT.LOCAL_CLK = true ∨ s.blk.running = false then t = s.blk
      else t.bit CLK.STAT.LOCAL_CLK = true ∧ t.flagged CLK.EVT.LOCAL_CLK
      ∧ ∀ n, t.axis n = { s.blk.axis n with pwm := { (s.blk.axis n).pwm with osc := .due, late := true } }) ∧
  (∀ (s : State),
    Does .localClkSelect s fun t => t.rest = s.blk.rest ∧ t.owning = s.blk.owning ∧
      if s.blk.bit CLK.STAT.LOCAL_CLK = true ∨ s.blk.running = false then t = s.blk
      else t.bit CLK.STAT.LOCAL_CLK = true ∧ t.flagged CLK.EVT.LOCAL_CLK
      ∧ ∀ n, t.axis n = { s.blk.axis n with pwm := { (s.blk.axis n).pwm with osc := .due, late := true } }) ∧
  (∀ (s : State),
    Does .localClkReturn s fun t => t.owning = s.blk.owning ∧
      (if s.blk.bit CLK.STAT.LOCAL_CLK = false ∨ (∀ z ∈ s.blk.act, (s.blk.side z).sick = true) then t = s.blk
      else t.bit CLK.STAT.LOCAL_CLK = false ∧ t.rest = { s.blk with meas := t.meas }.rest
      ∧ ∀ n, (t.axis n).pwm.osc = .side ∧ (t.axis n).mot.pCmd = (s.blk.axis n).mot.pCmd
      ∧ ((s.blk.axis n).pwm.osc ≠ .due → t.axis n = { s.blk.axis n with pwm := { (s.blk.axis n).pwm with osc := .side, late := true } })
      ∧ ((s.blk.axis n).pwm.osc = .due → (t.axis n).mot.mode.enabled = false))) ∧
  (∀ (s : State),
    Does .napEnter s fun t => if s.blk.running = false ∨ s.blk.act = none ∨ s.blk.napWait 0 ≠ 0
      ∨ 65536 * s.blk.napTicks / 25000 < (65536 * s.blk.r MOD.CTRL.NAP_DLY + 999) / 1000
      then t = s.blk else
      t.nap = .napping ∧ t.napCyc = 0 ∧ t.sm = s.blk.sm ∧ t.sess = s.blk.sess ∧ t.swath = s.blk.swath
      ∧ t.r CLK.NAP_CNT.N = min (s.blk.r CLK.NAP_CNT.N + 1) (2 ^ CLK.NAP_CNT.N.w - 1)
      ∧ ∀ n, (t.axis n).mot = (s.blk.axis n).mot ∧ (t.axis n).pwm.napped = true
      ∧ (t.axis n).pwm.pulses = Vector.replicate 4 .off ∧ (t.axis n).legs = (s.blk.axis n).napPumps.legs) ∧
  (∀ (s : State) (srcs : List WakeSrc) (c : Nat) (p : Nat),
    s.blk.wakeFirst srcs = some (c, p) →
    Does (.napWake srcs) s fun t => t.ax = s.blk.ax ∧ t.sess = s.blk.sess ∧ t.planes = s.blk.planes ∧ t.sm = s.blk.sm ∧ t.swath = s.blk.swath ∧
      if s.blk.pw.powered = false ∨ s.blk.pw.held = true ∨ s.blk.pw.resetDue ≠ none ∨ s.blk.nap = .waking then t = s.blk
      else if s.blk.nap = .napping then t.nap = .waking ∧ t.rx.wake = [] ∧ t.flagged CLK.EVT.WAKE
      ∧ t.r CLK.WAKE_SRC.SRC = c % 2 ^ CLK.WAKE_SRC.SRC.w ∧ t.r CLK.WAKE_SRC.PORT = p % 2 ^ CLK.WAKE_SRC.PORT.w ∧ t.r CLK.WAKE_SRC.QUEUED = 0
      else t.nap = .awake ∧ (if s.blk.napDue = true then t.flagged CLK.EVT.NAP_ABORT ∧ t.napTicks = 0 else t = s.blk)) ∧
  (∀ (s : State) (srcs : List WakeSrc),
    s.blk.wakeFirst srcs = none →
    Does (.napWake srcs) s fun t => t = s.blk) ∧
  (∀ (s : State) (slow cyc : Nat),
    Does (.wakeReady ⟨slow, cyc⟩) s fun t => (s.blk.nap ≠ .waking → t = s.blk) ∧ (s.blk.nap = .waking → ∃ u : Blk,
      u.nap = .awake ∧ u.rx.wake = [] ∧ u.swath = s.blk.swath + max 1 ((s.blk.msRest + 25000 * slow + 65536 * s.blk.tick) / 1638400) - 1 ∧ u.r CLK.WAKE_SRC.QUEUED = s.blk.rx.wake.length % 2 ^ CLK.WAKE_SRC.QUEUED.w
      ∧ u.planes = s.blk.planes ∧ u.owning = s.blk.owning ∧ u.plan = s.blk.plan ∧ u.sm = s.blk.sm
      ∧ (∀ n, (u.axis n).pwm.napped = false
      ∧ ((s.blk.axis n).bl.supplyNap = true → (s.blk.axis n).brushless = true → (u.axis n).b AX.BL_STAT.POS_UNC = true
      ∧ ((s.blk.axis n).bl.hallMode ≠ 2 → (u.axis n).b AX.BL_STAT.HALL_FAIL = true))
      ∧ ((s.blk.axis n).bl.supplyNap = false → ((s.blk.axis n).srcActive s.blk.wide).any = false →
      (u.axis n).mot = (s.blk.axis n).mot ∧ (u.axis n).legs = { (s.blk.axis n).legs with pumpHold := 0 })
      ∧ ((s.blk.axis n).bl.supplyNap = false → (s.blk.axis n).inForce AX.TRIP_CFG.TRIP_FLT ≠ 0 → ∀ src : TripSrc, ((s.blk.axis n).srcActive s.blk.wide).get src = true →
      (s.blk.axis n).trip.stand.get src = false → (u.axis n).trip.pre = true)
      ∧ ((s.blk.axis n).bl.supplyNap = false → (s.blk.axis n).inForce AX.TRIP_CFG.TRIP_FLT = 0 → (s.blk.axis n).pwm.halted = false → (s.blk.axis n).pwm.clockLost = false →
      ((s.blk.axis n).srcActive s.blk.wide).any = true → (u.axis n).trip.latch = true))
      ∧ t = s.blk.rx.wake.foldl Blk.wakeFrame u))

/-- The exchange brings the standby to what the active side holds (10 R324); a planned switch acts at its end, or is refused without a fit
standby (R332).  A failure of the active side passes to a fit standby with the session, motion untouched (R327 to R330; an `AXIS_RESET` whose leg check it stopped runs again, R353), else the session and
what waits are gone and the cells go on (R331).  A side that comes back joins as standby, or ends the outage (R330, R331, R334); a reverted
load names its bank again (R335).  A stream's capture uses a sequence number for every frame of two records (11 R394). -/
def Obligations.SidesChange : Prop :=
  (∀ (s : State),
    Does .stateExchange s fun t => t.ax = s.blk.ax ∧ t.regs = s.blk.regs ∧ t.sess = s.blk.sess ∧ t.sm = s.blk.sm ∧ t.plan = s.blk.plan ∧ t.act = s.blk.act
      ∧ (∀ i, (t.planes.get i).l = (s.blk.planes.get i).l)
      ∧ (s.blk.running = false ∨ s.blk.act = none → t = s.blk)
      ∧ (∀ z ∈ s.blk.act, s.blk.running = true → t.logFresh = [] ∧ ((s.blk.side z.other).st = .standby →
      (t.side z.other).fit = (s.blk.side z.other).img.isSome ∧ (∃ x ∈ t.xchg, x.sess = s.blk.sess ∧ x.l = s.blk.planes.map (·.l) ∧ x.streams = s.blk.streams
      ∧ x.graze = s.blk.graze ∧ x.fw = s.blk.fw ∧ x.mods = s.blk.casc.mods)
      ∧ ∀ i, ∀ x ∈ (t.planes.get i).acc, x.fresh = false))) ∧
  (∀ (s : State),
    Does .sideSwitchAct s fun t => t.ax = s.blk.ax ∧ t.sess = s.blk.sess ∧ t.sm = s.blk.sm ∧ t.plan = s.blk.plan
      ∧ (s.blk.switchReq = none ∨ s.blk.act = none → t = s.blk)
      ∧ (∀ q ∈ s.blk.switchReq, ∀ z ∈ s.blk.act, t.switchReq = none ∧
      if s.blk.stbyOk = true then t.act = some z.other ∧ (t.side z).st = .standby ∧ (t.side z).fit = true ∧ (t.side z.other).st = .active ∧ s.blk.replied t q 0
      else t.act = some z ∧ t.sides = s.blk.sides ∧ s.blk.replied t q 0x12)) ∧
  (∀ (s : State),
    Does .sideTakeover s fun t => t.swath = s.blk.swath
      ∧ (s.blk.resets = [] → t.owning = s.blk.owning ∧ t.plan = s.blk.plan ∧ ∀ n, (t.axis n).mot = (s.blk.axis n).mot
      ∧ (t.axis n).legs = { (s.blk.axis n).legs with checking := (t.axis n).legs.checking } ∧ (t.axis n).regs = (s.blk.axis n).regs)
      ∧ (s.blk.stbyOk = false → t = s.blk)
      ∧ (∀ z ∈ s.blk.act, s.blk.stbyOk = true → t.act = some z.other ∧ (t.side z.other).st = .active
      ∧ ((t.side z).st = .booting ∨ (t.side z).st = .out) ∧ t.flagged SIDE.EVT.TAKEOVER ∧ t.bit CLK.STAT.STBY_LOCK = false ∧ t.fw = none
      ∧ t.switchReq = none ∧ t.graze.run = none ∧ t.skipStreams = s.blk.swath + 2
      ∧ ∀ i, (t.planes.get i).l = (s.blk.planes.get i).l ∧ (t.planes.get i).armed = false)) ∧
  (∀ (s : State),
    Does .unprotectedFailure s fun t => (∀ n, (t.axis n).mot.mode = (s.blk.axis n).mot.mode ∧ (t.axis n).mot.pCmd = (s.blk.axis n).mot.pCmd
      ∧ (t.axis n).legs = (s.blk.axis n).legs ∧ (t.axis n).mot.prof = (s.blk.axis n).mot.prof)
      ∧ (s.blk.act = none ∨ s.blk.stbyOk = true → t = s.blk)
      ∧ (∀ z ∈ s.blk.act, s.blk.stbyOk = false → t.act = none ∧ t.sess = none ∧ t.plan.cands = [] ∧ t.streams = Vector.replicate 4 none
      ∧ t.flagged SIDE.EVT.UNPROT ∧ t.fw = none ∧ t.switchReq = none ∧ ((t.side z).st = .booting ∨ (t.side z).st = .out)
      ∧ (∀ i, (t.planes.get i).acc = []) ∧ ∀ n, (t.axis n).mot.waiting = none ∧ (t.axis n).b AX.RST_STAT.SESS_RST = false)) ∧
  (∀ (s : State),
    Does .sideRejoin s fun t => t.ax = s.blk.ax ∧ t.owning = s.blk.owning ∧ t.plan = s.blk.plan
      ∧ (s.blk.ready = false ∨ s.blk.rejoining = none → t = s.blk)
      ∧ (∀ i ∈ s.blk.rejoining, s.blk.ready = true →
      (t.act = s.blk.act ∧ (t.side i).img = none ∧ (t.side i).st = .standby)
      ∨ (s.blk.act = none ∧ t.act = some i ∧ (t.side i).st = .active)
      ∨ (s.blk.act ≠ none ∧ t.act = s.blk.act ∧ (t.side i).st = .standby ∧ (t.side i).fit = true ∧ (t.side i).swap = none ∧ t.flagged SIDE.EVT.REJOIN))) ∧
  (∀ (s : State),
    Does .fwRevert s fun t => t.ax = s.blk.ax ∧ t.owning = s.blk.owning ∧ t.plan = s.blk.plan ∧ t.planes = s.blk.planes ∧ t.act = s.blk.act
      ∧ ∀ i : Side, (if (s.blk.side i).st = .booting ∧ (s.blk.side i).swap ≠ none then (t.side i).swap = none ∧ t.flagged SIDE.EVT.FW_REVERT
      ∧ (∀ k ∈ (s.blk.side i).swap, (t.smp i).mem = putRec (s.blk.smp i).mem fun r => { r with next := k })
      else t.side i = s.blk.side i ∧ (t.smp i).mem = (s.blk.smp i).mem)) ∧
  (∀ (s : State) (k : Fin 4),
    Does (.streamCapture k) s fun t => t.ax = s.blk.ax ∧ t.regs = s.blk.regs ∧ t.sess = s.blk.sess ∧ t.planes = s.blk.planes ∧ t.sm = s.blk.sm
      ∧ (∀ j : Fin 4, j ≠ k → t.streams.get j = s.blk.streams.get j)
      ∧ (s.blk.streams.get k = none → t = s.blk)
      ∧ (∀ x ∈ s.blk.streams.get k, if s.blk.running = false ∨ s.blk.act = none ∨ 1 < s.blk.tick ∨ s.blk.swath % x.k ≠ 0 then t = s.blk
      else t.streams.get k = some { x with seq := x.seq + BitVec.ofNat 16 (((allAxes.filter fun n => x.mask.getLsbD n.val).length + 1) / 2) }))

/-! ### The bus ports, the stack and the serial memories (12, 15, 16) -/

/-- A port at the bus idle before a frame: a new bit timing is in force, and a held packet has let those behind it pass. -/
def Sys2Proof.Machine.Blk.atIdle (b : Blk) (p : Fin 6) : Blk := (b.settle p).passHeld p

/-- A frame that no filter of a listening port accepts leaves everything (12 R411); while waking, an accepted frame waits for ready, or is counted
where eight wait (09 R310, R312); no frame by itself moves an axis, the plan or a memory, and where the buffer is full after its plane's last service it is
lost with a count (12 R412; the times of service are the model's choice, notes/assumptions/146.md).
A packet in part goes after 10 ms, in which the plane has served its queue (11 R361).  A new bit timing goes into force at a bus idle (R408) and a held
packet lets those behind it pass (R417) before the frame is chosen; the offered frame is sent, or its lost arbitration counted (12 R414); bus-off and its end
set their flags and counters (12 R415; the error counters at 255 and 0 are the model's reading of ISO 11898-1, notes/assumptions/32.md); the load of a window sets
and ends congestion (R416), at whose onset the records that wait are discarded, and the packet held longest is released (R417). -/
def Obligations.BusPortsCarry : Prop :=
  (∀ (s : State) (f : Frame),
    Does (.frameRx f) s fun t => t.ax = s.blk.ax ∧ t.plan = s.blk.plan ∧ t.sm = s.blk.sm ∧ t.streams = s.blk.streams ∧ t.nap = s.blk.nap
      ∧ t.owning = s.blk.owning ∧ t.act = s.blk.act ∧ t.swath = s.blk.swath
      ∧ (f.ext = false ∨ f.rtr = true ∨ s.blk.listening f.port = false ∨ s.blk.accepts f = none → t = s.blk)
      ∧ (f.ext = true → f.rtr = false → s.blk.listening f.port = true → s.blk.accepts f ≠ none → s.blk.nap = .waking →
      if f.early = true then t = s.blk else if s.blk.rx.wake.length < 8 then t = { s.blk with rx := { s.blk.rx with wake := s.blk.rx.wake ++ [f] } }
      else t.rx = s.blk.rx ∧ t.flagged CLK.EVT.WAKE_DROP
      ∧ t.r CLK.WAKE_SRC.WAKE_DROP = min (s.blk.r CLK.WAKE_SRC.WAKE_DROP + 1) (2 ^ CLK.WAKE_SRC.WAKE_DROP.w - 1))) ∧
  (∀ (s : State) (f : Frame) (high : Bool),
    f.ext = true → f.rtr = false → s.blk.listening f.port = true → s.blk.nap = .awake → s.blk.accepts f = some high →
    Does (.frameRx f) s fun t =>
      if high then (let kept := (s.blk.rx.ports.get f.port).hpb.filter fun x => decide (f.endUs < x.endUs + 100);
      if kept.length < 8 then (t.rx.ports.get f.port).hpb = kept ++ [f]
      else (t.rx.ports.get f.port).hpb = kept ∧ t.flagged (MB.EVT.HPB_OVR.skip f.port.val)
      ∧ t.r (MB.CNT2.HPB_OVR.port f.port) = min (s.blk.r (MB.CNT2.HPB_OVR.port f.port) + 1) (2 ^ MB.CNT2.HPB_OVR.w - 1))
      else (let kept := (s.blk.rx.ports.get f.port).queue.filter fun x => decide (lastService f.port f.endUs < x.endUs);
      if kept.length < 32 then (t.rx.ports.get f.port).queue = kept ++ [f]
      else (t.rx.ports.get f.port).queue = kept ∧ t.flagged (MB.EVT.RX_OVR.skip f.port.val)
      ∧ t.r (MB.CNT.RX_OVR.port f.port) = min (s.blk.r (MB.CNT.RX_OVR.port f.port) + 1) (2 ^ MB.CNT.RX_OVR.w - 1))) ∧
  (∀ (s : State) (port : Fin 6) (src : Byte) (us : Nat),
    Does (.reassemblyTimeout port src us) s fun t => t.ax = s.blk.ax ∧ t.plan = s.blk.plan ∧ t.sm = s.blk.sm ∧ t.nap = s.blk.nap
      ∧ (∀ p : Fin 6, p ≠ port → t.rx.ports.get p = s.blk.rx.ports.get p)
      ∧ (t.rx.ports.get port).queue = (s.blk.rx.ports.get port).queue.filter (fun x => decide (us < x.endUs))
      ∧ (∀ x ∈ (t.rx.ports.get port).re, x.src = src → us < x.firstEnd + 10000)
      ∧ ((∀ x ∈ (s.blk.rx.ports.get port).queue, us < x.endUs) →
      if ∃ x ∈ (s.blk.rx.ports.get port).re, x.src = src ∧ x.firstEnd + 10000 ≤ us then
      t.regs = s.blk.regs ∧ t.sess = s.blk.sess ∧ t.planes = s.blk.planes
      ∧ (t.rx.ports.get port).re = (s.blk.rx.ports.get port).re.filter (fun x => x.src ≠ src)
      else t = s.blk)) ∧
  (∀ (s : State) (port : Fin 6) (won : Bool),
    Does (.frameTx port won) s fun t => t.ax = s.blk.ax ∧ t.sess = s.blk.sess ∧ t.planes = s.blk.planes ∧ t.rx = s.blk.rx
      ∧ (∀ p : Fin 6, p ≠ port → t.ports.get p = s.blk.ports.get p)
      ∧ (s.blk.sending port = false ∨ s.blk.nap = .waking ∨ s.blk.outside = true → t = s.blk)) ∧
  (∀ (s : State) (port : Fin 6) (won : Bool),
    s.blk.sending port = true → s.blk.nap ≠ .waking → s.blk.outside = false → (s.blk.atIdle port).offered port = none →
    Does (.frameTx port won) s fun t => t = s.blk.atIdle port) ∧
  (∀ (s : State) (port : Fin 6) (i : Fin 3) (c : TxCur),
    s.blk.sending port = true → s.blk.nap ≠ .waking → s.blk.outside = false → (s.blk.atIdle port).offered port = some i →
    (((s.blk.atIdle port).ports.get port).tx.get i).cur = some c →
    Does (.frameTx port true) s fun t => t.regs = s.blk.regs
      ∧ (t.ports.get port).lastTx.map (fun f => (f.id, f.data, f.brs))
      = some (BitVec.ofNat 29 (c.pkt.id c.idx), c.pkt.frameData c.idx, ((s.blk.atIdle port).ports.get port).timing.toNat / 4 % 8 != 0)
      ∧ (if c.idx + 1 < c.pkt.frames then ((t.ports.get port).tx.get i).cur = some { c with idx := c.idx + 1 }
      else ((t.ports.get port).tx.get i).cur = (((s.blk.atIdle port).ports.get port).tx.get i).wait.head? ∧ ((t.ports.get port).tx.get i).wait = (((s.blk.atIdle port).ports.get port).tx.get i).wait.tail)
      ∧ (∀ j : Fin 3, j ≠ i → (t.ports.get port).tx.get j = ((s.blk.atIdle port).ports.get port).tx.get j)) ∧
  (∀ (s : State) (port : Fin 6) (i : Fin 3),
    s.blk.sending port = true → s.blk.nap ≠ .waking → s.blk.outside = false → (s.blk.atIdle port).offered port = some i →
    Does (.frameTx port false) s fun t => (t.ports.get port).tx = ((s.blk.atIdle port).ports.get port).tx
      ∧ t.r (MB.CNT.LOST_ARB.port port) = min (s.blk.r (MB.CNT.LOST_ARB.port port) + 1) (2 ^ MB.CNT.LOST_ARB.w - 1)) ∧
  (∀ (s : State) (port i : Fin 6) (w : Word) (r : Option (BitVec 16)),
    (s.blk.ports.get port).timingNext = some (w, r) →
    if (∃ x ∈ (s.blk.ports.get port).tx.toList, ∃ c ∈ x.cur, c.idx ≠ 0) ∨ (∃ n ∈ r, ∃ c ∈ (s.blk.ports.get port).packets, c.pkt.reply = true ∧ c.pkt.seq = n) then s.blk.settle port = s.blk
      else ((s.blk.settle port).ports.get port).timing = w ∧ ((s.blk.settle port).ports.get port).timingNext = none ∧ ((s.blk.settle port).ports.get port).tx = (s.blk.ports.get port).tx
      ∧ (i ≠ port → (s.blk.settle port).ports.get i = s.blk.ports.get i) ∧ (s.blk.settle port).regs = s.blk.regs) ∧
  (∀ (s : State) (port : Fin 6),
    Does (.busOff port) s fun t => t.ax = s.blk.ax ∧ t.rest = s.blk.rest ∧ t.sess = s.blk.sess ∧ t.planes = s.blk.planes ∧ t.ports = s.blk.ports
      ∧ t.bit (MB.STAT.BUSOFF.port port) = true
      ∧ (if s.blk.bit (MB.STAT.BUSOFF.port port) = true then t = s.blk
      else t.flagged (MB.EVT.BUSOFF.skip port.val) ∧ (s.blk.bit (MB.STAT.EPASS.port port) = false → t.flagged (MB.EVT.EPASS.skip port.val)) ∧ t.bit (MB.STAT.EPASS.port port) = true ∧ t.r (MB.STAT.TEC.port port) = 255
      ∧ t.r (MB.CNT2.BUSOFF_CNT.port port) = min (s.blk.r (MB.CNT2.BUSOFF_CNT.port port) + 1) (2 ^ MB.CNT2.BUSOFF_CNT.w - 1))) ∧
  (∀ (s : State) (port : Fin 6),
    Does (.busOffEnd port) s fun t => t.ax = s.blk.ax ∧ t.rest = s.blk.rest ∧ t.sess = s.blk.sess ∧ t.planes = s.blk.planes ∧ t.ports = s.blk.ports
      ∧ t.bit (MB.STAT.BUSOFF.port port) = false
      ∧ (if s.blk.bit (MB.STAT.BUSOFF.port port) = false then t = s.blk
      else t.flagged (MB.EVT.BUSOFF_END.skip port.val) ∧ t.r (MB.STAT.TEC.port port) = 0 ∧ t.r (MB.STAT.REC.port port) = 0)) ∧
  (∀ (s : State) (port : Fin 6) (busy : Nat),
    Does (.loadWindowEnd port busy) s fun t => t.ax = s.blk.ax ∧ t.rest = s.blk.rest ∧ t.sess = s.blk.sess ∧ t.planes = s.blk.planes
      ∧ t.r (MB.STAT.LOAD.port port) = MB.STAT.LOAD.sat busy
      ∧ (∀ p : Fin 6, p ≠ port → t.ports.get p = s.blk.ports.get p) ∧ (∀ j : Fin 3, j ≠ 2 → (t.ports.get port).tx.get j = (s.blk.ports.get port).tx.get j)
      ∧ ((t.ports.get port).tx.get 2).cur = ((s.blk.ports.get port).tx.get 2).cur
      ∧ (if s.blk.bit (MB.STAT.CONG.port port) = false ∧ s.blk.r (MB.CONG.CONG_THR.port port) < busy then
      t.bit (MB.STAT.CONG.port port) = true ∧ t.flagged (MB.EVT.CONG_ON.skip port.val)
      ∧ ((t.ports.get port).tx.get 2).wait = ((s.blk.ports.get port).tx.get 2).wait.filter (fun c => c.pkt.cls ≠ 3)
      else if s.blk.bit (MB.STAT.CONG.port port) = true ∧ busy + 10 ≤ s.blk.r (MB.CONG.CONG_THR.port port) then
      t.bit (MB.STAT.CONG.port port) = false ∧ t.flagged (MB.EVT.CONG_OFF.skip port.val) ∧ t.ports = s.blk.ports
      else t.bit (MB.STAT.CONG.port port) = s.blk.bit (MB.STAT.CONG.port port) ∧ t.ports = s.blk.ports)) ∧
  (∀ (s : State) (port : Fin 6),
    Does (.heldPacketRelease port) s fun t => t.ax = s.blk.ax ∧ t.regs = s.blk.regs ∧ t.sess = s.blk.sess ∧ t.planes = s.blk.planes
      ∧ (∀ p : Fin 6, p ≠ port → t.ports.get p = s.blk.ports.get p)
      ∧ (if ∃ c ∈ (s.blk.ports.get port).packets, s.blk.heldBack port c = true ∧ c.pkt.cls ≠ 3 then
      ∃ c ∈ (s.blk.ports.get port).packets, s.blk.heldBack port c = true ∧ c.pkt.cls ≠ 3
      ∧ (∀ d ∈ (s.blk.ports.get port).packets, s.blk.heldBack port d = true → d.pkt.cls ≠ 3 → c.ord ≤ d.ord)
      ∧ ∀ j : Fin 3, ((t.ports.get port).tx.get j).cur = ((s.blk.ports.get port).tx.get j).cur.map (fun d => if d.ord = c.ord then { d with released := true } else d)
      ∧ ((t.ports.get port).tx.get j).wait = ((s.blk.ports.get port).tx.get j).wait.map (fun d => if d.ord = c.ord then { d with released := true } else d)
      else t = s.blk))

/-- A lost hop wraps, and its wrap goes at a frame 0 after it is restored (15 R461, R462); with both hops lost the module works alone, at address 0x40.  A stack forms
from the master in ring order (R463, R464), a module joins at the lowest free position or is held out (R465), and one that leaves takes its routed commands
along (R467, R470).  Frames of a stack in which the module has no place leave it waiting (R465).  A
cascade frame clears what was placed; frame 0 brings a slave the session, and the budgets
but not the tags, which stay its own (R468, R469, R475), a later frame of the swath a change of the session (notes/assumptions/142.md), frame 1 publishes positions
(R474), frame 7 the shares (R478).  The alternate takes position 0 and a slave without a master applies the orphan policy (R468).
That a module that joins starts at L = 0 is the model's choice (notes/assumptions/5.md). -/
def Obligations.StackRuns : Prop :=
  (∀ (s : State) (up : Bool),
    Does (.hopLost up) s fun t => t.ax = s.blk.ax ∧ t.sess = s.blk.sess ∧ t.planes = s.blk.planes ∧ t.sm = s.blk.sm ∧
      (if s.blk.cascOn = false then t = s.blk else t.casc.lost up = true ∧ t.casc.lost (!up) = s.blk.casc.lost (!up)
      ∧ (t.casc.lost (!up) = true → t.addr = 0x40)
      ∧ (if s.blk.casc.lost up = true then t.regs = s.blk.regs else t.flagged CASC.EVT.LINK_LOSS ∧ t.flagged CASC.EVT.WRAP))) ∧
  (∀ (s : State) (up : Bool),
    Does (.hopRestored up) s fun t => t.ax = s.blk.ax ∧ t.sess = s.blk.sess ∧ t.planes = s.blk.planes ∧ t.sm = s.blk.sm ∧ t.regs = s.blk.regs ∧
      (if s.blk.cascOn = true ∧ s.blk.casc.lost up = true then t.casc.lost up = true ∧ (if up then t.casc.cleanUp else t.casc.cleanDown) = true
      else t = s.blk)) ∧
  (∀ (s : State) (ms : List ModInfo) (self : Nat),
    Does (.stackForm ms self) s fun t => t.ax = s.blk.ax ∧ t.sess = s.blk.sess ∧ t.planes = s.blk.planes ∧ t.sm = s.blk.sm
      ∧ (s.blk.cascOn = false ∨ formStack ms self = none → t = s.blk)
      ∧ (s.blk.cascOn = true → ∀ y ∈ formStack ms self, t.casc.formed = true ∧ t.casc.selfPos = y.2 ∧ t.casc.lver = linkVersion y.1
      ∧ t.casc.heldOut = false ∧ t.casc.mods.map (fun m => (m.addr, m.pos, m.serial, m.master)) = y.1.map (fun m => (m.addr, m.pos, m.serial, m.master)))) ∧
  (∀ (s : State) (x : ModInfo) (stack : Option StackInfo),
    Does (.moduleJoin x stack) s fun t => t.ax = s.blk.ax ∧ t.sess = s.blk.sess ∧ t.planes = s.blk.planes ∧ t.sm = s.blk.sm ∧
      if s.blk.cascOn = false then t = s.blk
      else (stack = none → if s.blk.stacked = false then t = s.blk
      else if x.linkMax < s.blk.casc.lver ∨
      8 ≤ ((s.blk.casc.mods.filter fun m => !(m.heldOut && m.serial = x.serial)).filter fun m => !m.heldOut).length then
      t.casc.mods.getLast? = some (heldEntry x) ∧ t.regs = s.blk.regs
      else t.flagged CASC.EVT.JOIN ∧ t.casc.mods.getLast? = some (stackEntry
      (freePos (((s.blk.casc.mods.filter fun m => !(m.heldOut && m.serial = x.serial)).filter fun m => !m.heldOut).map (·.pos)))
      x false false x.mstr))
      ∧ (∀ k ∈ stack, if x.linkMax < k.lver ∨ 8 ≤ k.mods.length then t.casc = { s.blk.casc with formed := false, mods := [], heldOut := true } ∧ t.regs = s.blk.regs
      else t.casc.formed = true ∧ t.casc.selfPos = freePos (k.mods.map (·.1)) ∧ t.casc.lver = k.lver ∧ t.flagged CASC.EVT.JOIN)) ∧
  (∀ (s : State) (addr : Byte),
    Does (.moduleLeave addr) s fun t => t.ax = s.blk.ax ∧ t.sess = s.blk.sess ∧ t.sm = s.blk.sm ∧
      if s.blk.cascOn = true ∧ s.blk.under = true ∧ s.blk.casc.alone = true ∧ (∃ m ∈ s.blk.casc.mods, m.heldOut = false ∧ m.addr = addr ∧ m.pos = s.blk.casc.selfPos) then
      t.casc = { s.blk.casc with formed := false, mods := [], heldOut := true, parted := true } ∧ t.flagged CASC.EVT.LEAVE
      else if s.blk.cascOn = false ∨ s.blk.casc.formed = false ∨
      (s.blk.casc.mods.any fun m => !m.heldOut && m.addr = addr && m.pos != s.blk.casc.selfPos && (s.blk.under || decide (3 ≤ m.missed))) = false then t = s.blk
      else t.flagged CASC.EVT.LEAVE ∧ t.casc.mods = s.blk.casc.mods.filter (fun m => m.heldOut || m.addr != addr)
      ∧ t.casc.routes = s.blk.casc.routes.filter (fun r => r.1 != addr)) ∧
  (∀ (s : State) (x : CascIn),
    x.stopAll = none → x.inners = [] → x.frame0 = none → x.num ≠ 0 →
    Does (.cascadeFrame x) s fun t => t.ax = s.blk.ax ∧ t.owning = s.blk.owning ∧ t.sm = s.blk.sm ∧
      if s.blk.cascOn = false then t = s.blk
      else if s.blk.casc.formed = false then t = { s.blk with casc := { s.blk.casc with heldOut := true } }
      else t.casc.place = [] ∧ t.casc.stopMark = none
      ∧ t.r CASC.ERR.ERR_A = min (s.blk.r CASC.ERR.ERR_A + x.errA) (2 ^ CASC.ERR.ERR_A.w - 1)
      ∧ (x.num = 1 → t.casc.published = x.asks.map fun y => { addr := s.blk.addr, axis := y.1, src := y.2, pos := (s.blk.casc.tick0.get y.1).get y.2 })
      ∧ (x.num = 7 → (s.blk.slave = true → t.casc.shares = x.shares)
      ∧ t.casc.shareNext = (t.casc.shares.find? fun k => k.pos = s.blk.casc.selfPos).map fun k => (k.share, k.credit))) ∧
  (∀ (s : State) (x : CascIn) (f : Frame0),
    s.blk.cascOn = true → s.blk.slave = true → s.blk.sess = none → x.stopAll = none → x.inners = [] → x.events = [] →
    x.replies = [] → x.num = 0 → x.frame0 = some f →
    Does (.cascadeFrame x) s fun t => t.ax = s.blk.ax ∧ t.sm = s.blk.sm ∧ t.casc.pub = some f
      ∧ (∀ y ∈ [24, 25, 26, 27, 28, 29, 35].zip f.budget, t.regs[y.1]? = some y.2)
      ∧ (∀ i : Fin 356, i.val ∈ [30, 32, 33, 34] → t.regs.get i = s.blk.regs.get i)
      ∧ t.r LEDG.RES_CFG.RES_MARGIN = f.margin.toNat ∧ (t.casc.cleanUp = false ∧ t.casc.cleanDown = false)
      ∧ t.casc.lostUp = (s.blk.casc.lostUp && !s.blk.casc.cleanUp) ∧ t.casc.lostDown = (s.blk.casc.lostDown && !s.blk.casc.cleanDown)
      ∧ (s.blk.casc.cleanUp = true ∨ s.blk.casc.cleanDown = true → t.flagged CASC.EVT.UNWRAP)
      ∧ (if f.open_ = true then t.sess = some (Frame0.session f) ∧ t.flagged MOD.EVT.SESS_OPEN
      ∧ ∀ i, (t.planes.get i).l = (if s.blk.casc.joined = true then 0 else f.base) ∧ (t.planes.get i).acc = []
      else t.sess = none ∧ t.planes = s.blk.planes)) ∧
  (∀ (s : State) (x : CascIn) (f : Frame0),
    s.blk.cascOn = true → s.blk.slave = true → s.blk.sess = none → x.stopAll = none → x.inners = [] → x.num ≠ 0 →
    x.frame0 = some f → f.open_ = true →
    Does (.cascadeFrame x) s fun t => t.ax = s.blk.ax ∧ t.owning = some (f.owner, f.sid, 0x21, f.orphan) ∧ t.flagged MOD.EVT.SESS_OPEN ∧ t.casc.pub = s.blk.casc.pub) ∧
  (∀ (s : State),
    Does .altTakeover s fun t => t.sm = s.blk.sm ∧
      (s.blk.cascOn = false ∨ s.blk.under = false → t = s.blk)
      ∧ (s.blk.cascOn = true → s.blk.under = true → ∀ m ∈ s.blk.casc.mods.find? (fun (m : StackMod) => m.alt && !m.heldOut),
      if m.pos = s.blk.casc.selfPos ∧ (s.blk.bit CASC.CFG.AUTO_ALT = false ∨
      (s.blk.casc.mods.any fun m => !m.heldOut && !m.master && !m.alt && m.missed != 0) = true) then t = s.blk
      else t.flagged CASC.EVT.MASTER_CHG ∧ (∀ z ∈ t.sess, z.orphan = true) ∧ t.casc.routes = []
      ∧ (m.pos = s.blk.casc.selfPos → t.casc.selfPos = 0)
      ∧ (∀ y ∈ t.casc.mods, y.master = true → y.pos = 0 ∧ y.addr = 0x40) ∧ (m.master = false → t.casc.mods.any (·.master) = true))) ∧
  (∀ (s : State),
    Does .masterSilent s fun t => t.sm = s.blk.sm ∧ t.casc.mods = s.blk.casc.mods ∧
      (if s.blk.cascOn = true ∧ (s.blk.under = true ∨ s.blk.casc.parted = true) then t.casc.parted = false
      ∧ (if ∃ z ∈ s.blk.sess, z.orphan = false then (∃ z ∈ t.sess, z.orphan = true) ∧ t.flagged MOD.EVT.SESS_EXP ∧ t.plan.cands = []
      else t = { s.blk with casc := { s.blk.casc with parted := false } })
      else t = s.blk))

/-- The bytes of a read of the window from a device: its line and the next, as far as the address bytes reach. -/
def Sys2Proof.Machine.Blk.lineData (b : Blk) (i : Side) (dev : Fin 8) (addr : Nat) : List Byte :=
  memBytes (b.smp i).view (devKey dev addr) (min 128 (2 ^ (8 * b.r (SMP.WIN2.ABYTES.smp i)) - addr))

/-- A window access first writes the page buffer to its device (16 R488, R489).  A read of the window sends one frame of command, address, dummy cycles
and data, as the port's settings form it (R483, R484), and gives the bytes
of its line, zeros beyond the window's address bytes or of an absent device (R488); an answer of busy is repeated up to its limit
(R486), and a lost strobe ends it (R485).  A window write joins the page buffer, which 20 µs after the last becomes a program operation
(R489); `PROG` reads 1 until a poll finds the device no longer busy, or until its timeout, at which the operation counts as not done (R490).  A cam table is
written to its slot (R496), and a page of the log to its place, where the device takes it (R498, R499).  Axes, sessions and planes stay, but where a
side fails.  That a read frame takes the next line with it is the model's choice (notes/assumptions/110.md). -/
def Obligations.SerialMemoryRuns : Prop :=
  (∀ (s : State) (i : Side) (off : Nat) (x : SmIn),
    s.blk.smOn i = true →
    Does (.smWindowRead i off false x) s fun t => t.ax = s.blk.ax ∧ t.sess = s.blk.sess ∧ t.planes = s.blk.planes ∧ t.sides = s.blk.sides
      ∧ t.smp i.other = s.blk.smp i.other ∧ (t.smp i).page = none
      ∧ (∀ g ∈ (s.blk.smp i).page, (t.smp i).op = some (.program g.dev g.base g.bytes)
      ∧ (t.smp i).mem = (s.blk.smp i).op.elim (s.blk.smp i).mem (fun o => o.apply (s.blk.smp i).mem) ∧ t.bit (SMP.STAT.PROG.smp i) = true)
      ∧ ((s.blk.smp i).page = none → (t.smp i).op = (s.blk.smp i).op ∧ (t.smp i).mem = (s.blk.smp i).mem)) ∧
  (∀ (s : State) (i : Side) (off : Nat) (fetch : Bool) (x : SmIn),
    s.blk.smOn i = true → (s.blk.smp i).page = none → off < 2 ^ (8 * s.blk.r (SMP.WIN2.ABYTES.smp i)) →
    (s.blk.smp i).absent.getLsbD (s.blk.smDev i fetch).val = false → x.gone = false →
    (s.blk.bit (SMP.CFG.DDR.smp i) = false ∨ s.blk.bit (SMP.CFG.DQS.smp i) = false ∨ x.dqsLost = none) →
    s.blk.bit (SMP.WIN2.BUSY_EN.smp i) = false →
    Does (.smWindowRead i off fetch x) s fun t => t.ax = s.blk.ax ∧ (t.smp i).mem = (s.blk.smp i).mem ∧ (t.smp i).retry = none
      ∧ t.r (SMP.STAT.RETRY.smp i) = 0
      ∧ (t.smp i).line = padTo 64 (s.blk.lineData i (s.blk.smDev i fetch) (off - off % 64))
      ∧ (t.smp i).ahead = padTo 64 ((s.blk.lineData i (s.blk.smDev i fetch) (off - off % 64)).drop 64)
      ∧ (t.smp i).frames = [s.blk.readFrame i (s.blk.smDev i fetch) (off - off % 64) (s.blk.lineData i (s.blk.smDev i fetch) (off - off % 64))]) ∧
  (∀ (b : Blk) (i : Side) (dev : Fin 8) (addr : Nat) (data : List Byte) (f : SerFrame) (both : Bool),
    f = b.readFrame i dev addr data → both = (b.bit (SMP.CFG.DDR.smp i) && decide (b.r (SMP.CFG.LANES.smp i) = 3)) →
    f.dev = dev ∧ f.dummy = b.r (SMP.WIN2.DUMMY.smp i) ∧ f.data.bytes = data ∧ f.data.lanes = 2 ^ b.r (SMP.CFG.LANES.smp i)
      ∧ f.data.ddr = b.bit (SMP.CFG.DDR.smp i) ∧ f.addr.lanes = f.data.lanes ∧ f.read = true
      ∧ f.cmd.bytes = (if both then [BitVec.ofNat 8 (b.r (SMP.WIN.RD_CMD.smp i)), ~~~BitVec.ofNat 8 (b.r (SMP.WIN.RD_CMD.smp i))]
      else [BitVec.ofNat 8 (b.r (SMP.WIN.RD_CMD.smp i))])
      ∧ f.cmd.lanes = (if b.r (SMP.CFG.LANES.smp i) = 3 then 8 else 1) ∧ f.cmd.ddr = both
      ∧ f.addr.bytes.length = (if both then 4 else b.r (SMP.WIN2.ABYTES.smp i))) ∧
  (∀ (s : State) (i : Side) (off : Nat) (fetch : Bool) (x : SmIn),
    s.blk.smOn i = true → (s.blk.smp i).page = none →
    (2 ^ (8 * s.blk.r (SMP.WIN2.ABYTES.smp i)) ≤ off ∨ (fetch = false ∧ (s.blk.smp i).absent.getLsbD (s.blk.smDev i fetch).val = true)) →
    Does (.smWindowRead i off fetch x) s fun t => t.ax = s.blk.ax ∧ (t.smp i).line = List.replicate 64 0 ∧ (t.smp i).frames = []
      ∧ (off < 2 ^ (8 * s.blk.r (SMP.WIN2.ABYTES.smp i)) → t.flagged (smpFlag SMP.EVT.DEV_ABSENT i))) ∧
  (∀ (s : State) (i : Side) (off : Nat) (x : SmIn),
    s.blk.smOn i = true → (s.blk.smp i).absent.getLsbD 0 = true → off < 2 ^ (8 * s.blk.r (SMP.WIN2.ABYTES.smp i)) →
    s.blk.act = some i →
    Does (.smWindowRead i off true x) s fun t => t.act = if s.blk.stbyOk then some i.other else none) ∧
  (∀ (s : State) (i : Side) (off : Nat) (x : SmIn) (n : Nat),
    s.blk.smOn i = true → (s.blk.smp i).page = none → off < 2 ^ (8 * s.blk.r (SMP.WIN2.ABYTES.smp i)) →
    (s.blk.smp i).absent.getLsbD (s.blk.smDev i false).val = false → s.blk.bit (SMP.CFG.DDR.smp i) = true →
    s.blk.bit (SMP.CFG.DQS.smp i) = true → x.dqsLost = some n →
    Does (.smWindowRead i off false x) s fun t => t.ax = s.blk.ax ∧ (t.smp i).mem = (s.blk.smp i).mem ∧ (t.smp i).retry = none
      ∧ t.flagged (smpFlag SMP.EVT.DQS_LOSS i)
      ∧ t.r (SMP.STAT.ERR.smp i) = min (s.blk.r (SMP.STAT.ERR.smp i) + 1) (2 ^ SMP.STAT.ERR.w - 1)
      ∧ (∀ f ∈ (t.smp i).frames, f.bits ≤ n)) ∧
  (∀ (s : State) (i : Side) (off : Nat) (fetch : Bool) (x : SmIn),
    s.blk.smOn i = false →
    Does (.smWindowRead i off fetch x) s fun t => t = s.blk) ∧
  (∀ (s : State) (i : Side) (off : Nat) (v : Byte),
    Does (.smWindowWrite i off v) s fun t => t.ax = s.blk.ax ∧ t.sess = s.blk.sess ∧ t.planes = s.blk.planes
      ∧ (s.blk.smOn i = false → t = s.blk)
      ∧ (s.blk.smOn i = true → s.blk.smReach i off = false → t.flagged (smpFlag SMP.EVT.PROG_FAIL i) ∧ t.sm = s.blk.sm)
      ∧ (s.blk.smOn i = true → s.blk.smReach i off = true → (s.blk.smp i).absent.getLsbD (s.blk.smDev i false).val = true →
      t.flagged (smpFlag SMP.EVT.DEV_ABSENT i) ∧ t.sm = s.blk.sm)
      ∧ (s.blk.smOn i = true → s.blk.smReach i off = true → (s.blk.smp i).absent.getLsbD (s.blk.smDev i false).val = false →
      (∃ g ∈ (t.smp i).page, g.dev = s.blk.smDev i false ∧ g.base = off - off % 256 ∧ (off % 256, v) ∈ g.bytes)
      ∧ (if ∃ g ∈ (s.blk.smp i).page, g.dev ≠ s.blk.smDev i false ∨ g.base ≠ off - off % 256 then
      ∃ g ∈ (s.blk.smp i).page, (t.smp i).op = some (.program g.dev g.base g.bytes) ∧ t.bit (SMP.STAT.PROG.smp i) = true
      ∧ (t.smp i).mem = (s.blk.smp i).op.elim (s.blk.smp i).mem (fun o => o.apply (s.blk.smp i).mem)
      else (t.smp i).mem = (s.blk.smp i).mem ∧ (t.smp i).op = (s.blk.smp i).op ∧ t.regs = s.blk.regs))) ∧
  (∀ (s : State) (i : Side) (idle : Nat) (g : PageBuf),
    20 ≤ idle → s.blk.smOn i = true → (s.blk.smp i).page = some g →
    Does (.smPageFlush i idle) s fun t => t.ax = s.blk.ax ∧ t.sess = s.blk.sess ∧ t.planes = s.blk.planes ∧ (t.smp i).page = none
      ∧ (if (s.blk.smp i).absent.getLsbD g.dev.val = true then t.flagged (smpFlag SMP.EVT.DEV_ABSENT i) ∧ (t.smp i).op = (s.blk.smp i).op
      ∧ (t.smp i).mem = (s.blk.smp i).mem
      else (t.smp i).mem = (s.blk.smp i).op.elim (s.blk.smp i).mem (fun o => o.apply (s.blk.smp i).mem) ∧ (t.smp i).op = some (.program g.dev g.base g.bytes) ∧ t.bit (SMP.STAT.PROG.smp i) = true
      ∧ (t.smp i).frames = s.blk.opFrames i (.program g.dev g.base g.bytes))) ∧
  (∀ (s : State) (i : Side) (idle : Nat),
    ((s.blk.smp i).page = none ∨ s.blk.smOn i = false ∨ idle < 20) →
    Does (.smPageFlush i idle) s fun t => t = s.blk) ∧
  (∀ (s : State) (i : Side) (dev : Fin 8) (a n : Nat) (fetch : Bool),
    s.blk.smOn i = true → (s.blk.smp i).retry = some (dev, a, n, fetch) →
    Does (.smBusyRetry i) s fun t =>
      (fetch = false → t.ax = s.blk.ax ∧ t.sess = s.blk.sess ∧ t.planes = s.blk.planes ∧ t.sides = s.blk.sides ∧ (t.smp i).mem = (s.blk.smp i).mem)
      ∧ t.r (SMP.STAT.RETRY.smp i) = min 255 (n + 1)
      ∧ (if s.blk.bit (SMP.WIN2.BUSY_EN.smp i) = false ∨ (memGet (s.blk.smp i).view (devKey dev a)).toNat ≠ s.blk.r (SMP.WIN2.BUSY_PAT.smp i) then
      (t.smp i).line = padTo 64 (s.blk.lineData i dev a) ∧ (t.smp i).retry = none
      else if n + 1 < s.blk.r (SMP.WIN2.RETRY_MAX.smp i) then (t.smp i).retry = some (dev, a, n + 1, fetch)
      else (t.smp i).retry = none ∧ (t.smp i).line = [] ∧ t.flagged (smpFlag SMP.EVT.RETRY_MAX i))) ∧
  (∀ (s : State) (i : Side),
    ((s.blk.smp i).retry = none ∨ s.blk.smOn i = false) →
    Does (.smBusyRetry i) s fun t => t = s.blk) ∧
  (∀ (s : State) (i : Side) (st : Byte) (o : SmOp),
    (s.blk.smp i).op = some o → (s.blk.smp i).cut = false →
    Does (.smPollDone ⟨i, st⟩) s fun t => t.ax = s.blk.ax ∧ t.sess = s.blk.sess ∧ t.planes = s.blk.planes ∧ (t.smp i.other).mem = (s.blk.smp i.other).mem
      ∧ (if st.getLsbD (s.blk.r (SMP.WIN.BUSY_BIT.smp i)) = s.blk.bit (SMP.WIN.BUSY_POL.smp i) then
      (t.smp i).op = some o ∧ (t.smp i).mem = (s.blk.smp i).mem ∧ t.regs = s.blk.regs
      else (t.smp i).mem = o.apply (s.blk.smp i).mem ∧ t.bit (SMP.STAT.PROG.smp i) = false
      ∧ (if s.blk.fw = none then (t.smp i).op = none else ∀ d ∈ (t.smp i).op, d.writes = false))) ∧
  (∀ (s : State) (i : Side) (st : Byte),
    ((s.blk.smp i).op = none ∨ (s.blk.smp i).cut = true) →
    Does (.smPollDone ⟨i, st⟩) s fun t => t = s.blk) ∧
  (∀ (s : State) (i : Side),
    Does (.smPollTimeout i) s fun t => t.ax = s.blk.ax ∧ t.sess = s.blk.sess ∧ t.planes = s.blk.planes ∧ (t.smp i).mem = (s.blk.smp i).mem
      ∧ t.smp i.other = s.blk.smp i.other ∧ (if (s.blk.smp i).op = none ∨ (s.blk.smp i).cut = true then t = s.blk
      else (t.smp i).op = none ∧ t.bit (SMP.STAT.PROG.smp i) = false ∧ t.flagged (smpFlag SMP.EVT.PROG_FAIL i)
      ∧ t.r (SMP.STAT.ERR.smp i) = min (s.blk.r (SMP.STAT.ERR.smp i) + 1) (2 ^ SMP.STAT.ERR.w - 1))) ∧
  (∀ (s : State) (i : Side) (k : Fin 64),
    Does (.camSlotWrite i k) s fun t => t.ax = s.blk.ax ∧ t.regs = s.blk.regs ∧ t.sess = s.blk.sess ∧ t.planes = s.blk.planes ∧ t.cams = s.blk.cams
      ∧ t.smp i.other = s.blk.smp i.other ∧
      (if s.blk.stores i = true ∧ (s.blk.camDirty.get i.idx).getLsbD k.val = true ∧ (s.blk.cams.get k).valid = true then
      (t.smp i).mem = memPut (memErase (s.blk.smp i).mem (camSlot k)) (camSlot k) (s.blk.cams.get k).slotBytes
      ∧ (t.camDirty.get i.idx).getLsbD k.val = false ∧ t.camDirty.get i.other.idx = s.blk.camDirty.get i.other.idx
      else t = s.blk)) ∧
  (∀ (s : State) (i : Side) (ok : Bool),
    Does (.logEntryWrite i ok) s fun t => t.ax = s.blk.ax ∧ t.sess = s.blk.sess ∧ t.planes = s.blk.planes ∧ (t.smp i.other).mem = (s.blk.smp i.other).mem
      ∧ ((s.blk.logs.get i.idx).buf = [] ∨ s.blk.smOn i = false → t = s.blk)
      ∧ ((s.blk.logs.get i.idx).buf ≠ [] → s.blk.smOn i = true → ok = false ∨ s.blk.stores i = false →
      t.flagged LOG.EVT.MEM_FAIL ∧ t.sm = s.blk.sm ∧ (s.blk.logs.get i.idx).buf <+: (t.logs.get i.idx).buf)
      ∧ ((s.blk.logs.get i.idx).buf ≠ [] → ok = true → s.blk.stores i = true →
      (t.logs.get i.idx).head = (s.blk.logs.get i.idx).head + min (s.blk.logs.get i.idx).buf.length (8 - (s.blk.logs.get i.idx).head % 8)))

/-- On the conditions of normal execution, each of the eleven rows answers a next state that holds its effect: the write of `MBX.SEL` begins a capture (13 R433),
the capture ends with `VALID` (R434), `MBX_RD` leaves its last ID captured (11 R385); a window read of a present device fills the line (16 R488), a window
write joins the page buffer, the flush begins the program (R489), a repeated frame that is not answered busy fills the line (R486), a poll of a device no longer busy
ends the operation as done, its timeout as not done (R490); a changed cam table is written (R496), and entries of the log leave the buffer
(R498).  The other cases of these rows stand in `MailboxCaptures` and `SerialMemoryRuns`. -/
def Obligations.MailboxAndSerialRowsComplete : Prop :=
  (∀ (s : State) (h : Hdr) (id : Word),
    s.blk.fits h 0x11 = true → h.tgt = 0xFE →
    Does (.mbxSelWrite h id) s fun t => (t.planes.get h.pl).sel = id ∧ (t.planes.get h.pl).valid = false) ∧
  (∀ (s : State) (pl : Plane),
    (s.blk.planes.get pl.idx).due = true →
    Does (.mbxCaptureDone pl) s fun t => (t.planes.get pl.idx).valid = true ∧ (t.planes.get pl.idx).due = false) ∧
  (∀ (s : State) (p : Pkt),
    s.blk.takes p 0x14 → p.tgt = 0xFE → 1 ≤ u p.body 0 1 → u p.body 0 1 ≤ 32 → 4 + 4 * u p.body 0 1 ≤ p.body.length →
    Does (.mbxRd p) s fun t => (t.planes.get p.toHdr.pl).valid = true ∧ (t.planes.get p.toHdr.pl).sel = BitVec.ofNat 32 (u p.body (4 * u p.body 0 1) 4)) ∧
  (∀ (s : State) (i : Side) (off : Nat) (n : Option Nat),
    s.blk.smOn i = true → s.blk.smReach i off = true → (s.blk.smp i).page = none → (s.blk.smp i).op = none →
    (s.blk.smp i).absent.getLsbD (s.blk.smDev i false).val = false → s.blk.bit (SMP.CFG.DDR.smp i) = false →
    s.blk.bit (SMP.WIN2.BUSY_EN.smp i) = false →
    Does (.smWindowRead i off false ⟨false, n⟩) s fun t => (t.smp i).line = padTo 64 (memBytes (s.blk.smp i).mem (devKey (s.blk.smDev i false) (off - off % 64))
      (min 128 (s.blk.smSpan i - (off - off % 64)))) ∧ (t.smp i).retry = none) ∧
  (∀ (s : State) (i : Side) (off : Nat) (v : Byte),
    s.blk.smOn i = true → s.blk.smReach i off = true → (s.blk.smp i).absent.getLsbD (s.blk.smDev i false).val = false →
    (s.blk.smp i).page = none →
    Does (.smWindowWrite i off v) s fun t => (t.smp i).page = some ⟨s.blk.smDev i false, off - off % 256, [(off % 256, v)]⟩) ∧
  (∀ (s : State) (i : Side) (idle : Nat) (g : PageBuf),
    s.blk.smOn i = true → 20 ≤ idle → (s.blk.smp i).page = some g → (s.blk.smp i).op = none →
    (s.blk.smp i).absent.getLsbD g.dev.val = false →
    Does (.smPageFlush i idle) s fun t => (t.smp i).page = none ∧ (t.smp i).op = some (.program g.dev g.base g.bytes) ∧ t.bit (SMP.STAT.PROG.smp i) = true) ∧
  (∀ (s : State) (i : Side) (dev : Fin 8) (a n : Nat) (fetch : Bool),
    s.blk.smOn i = true → (s.blk.smp i).retry = some (dev, a, n, fetch) → s.blk.bit (SMP.WIN2.BUSY_EN.smp i) = false →
    Does (.smBusyRetry i) s fun t => (t.smp i).retry = none ∧ (t.smp i).line = padTo 64 (memBytes (s.blk.smp i).view (devKey dev a) (min 128 (s.blk.smSpan i - a)))) ∧
  (∀ (s : State) (i : Side) (st : Byte) (o : SmOp),
    (s.blk.smp i).op = some o → (s.blk.smp i).cut = false →
    st.getLsbD (s.blk.r (SMP.WIN.BUSY_BIT.smp i)) ≠ s.blk.bit (SMP.WIN.BUSY_POL.smp i) →
    Does (.smPollDone ⟨i, st⟩) s fun t => (t.smp i).mem = o.apply (s.blk.smp i).mem ∧ t.bit (SMP.STAT.PROG.smp i) = false) ∧
  (∀ (s : State) (i : Side) (o : SmOp),
    (s.blk.smp i).op = some o → (s.blk.smp i).cut = false →
    Does (.smPollTimeout i) s fun t => (t.smp i).op = none ∧ (t.smp i).mem = (s.blk.smp i).mem ∧ t.flagged (smpFlag SMP.EVT.PROG_FAIL i)) ∧
  (∀ (s : State) (i : Side) (k : Fin 64),
    s.blk.stores i = true → (s.blk.camDirty.get i.idx).getLsbD k.val = true → (s.blk.cams.get k).valid = true →
    Does (.camSlotWrite i k) s fun t => (t.smp i).mem = memPut (memErase (s.blk.smp i).mem (camSlot k)) (camSlot k) (s.blk.cams.get k).slotBytes
      ∧ (t.camDirty.get i.idx).getLsbD k.val = false) ∧
  (∀ (s : State) (i : Side),
    s.blk.stores i = true → (s.blk.logs.get i.idx).buf ≠ [] →
    Does (.logEntryWrite i true) s fun t => (s.blk.logs.get i.idx).head < (t.logs.get i.idx).head ∧ (t.logs.get i.idx).buf.length ≤ (s.blk.logs.get i.idx).buf.length)
end

