-- ==== Sys2Proof/Laws/State.lean ====
section
/-!
SUPPORT. What each plain update of the module, of an axis and of a cell leaves alone: one lemma for each field, true by rfl.
-/

namespace Sys2Proof.Machine

@[simp] theorem Blk.set_ax (b : Blk) (f : Fld) (v : Nat) : (b.set f v).ax = b.ax := rfl
@[simp] theorem Blk.set_rx (b : Blk) (f : Fld) (v : Nat) : (b.set f v).rx = b.rx := rfl
@[simp] theorem Blk.set_sm (b : Blk) (f : Fld) (v : Nat) : (b.set f v).sm = b.sm := rfl
@[simp] theorem Blk.set_planes (b : Blk) (f : Fld) (v : Nat) : (b.set f v).planes = b.planes := rfl
@[simp] theorem Blk.set_sess (b : Blk) (f : Fld) (v : Nat) : (b.set f v).sess = b.sess := rfl
@[simp] theorem Blk.set_orphanAt (b : Blk) (f : Fld) (v : Nat) : (b.set f v).orphanAt = b.orphanAt := rfl
@[simp] theorem Blk.set_lastSid (b : Blk) (f : Fld) (v : Nat) : (b.set f v).lastSid = b.lastSid := rfl
@[simp] theorem Blk.set_claimFails (b : Blk) (f : Fld) (v : Nat) : (b.set f v).claimFails = b.claimFails := rfl
@[simp] theorem Blk.set_lockout (b : Blk) (f : Fld) (v : Nat) : (b.set f v).lockout = b.lockout := rfl
@[simp] theorem Blk.set_ports (b : Blk) (f : Fld) (v : Nat) : (b.set f v).ports = b.ports := rfl
@[simp] theorem Blk.set_swath (b : Blk) (f : Fld) (v : Nat) : (b.set f v).swath = b.swath := rfl
@[simp] theorem Blk.set_tick (b : Blk) (f : Fld) (v : Nat) : (b.set f v).tick = b.tick := rfl
@[simp] theorem Blk.set_plan (b : Blk) (f : Fld) (v : Nat) : (b.set f v).plan = b.plan := rfl
@[simp] theorem Blk.set_ledg (b : Blk) (f : Fld) (v : Nat) : (b.set f v).ledg = b.ledg := rfl
@[simp] theorem Blk.set_meas (b : Blk) (f : Fld) (v : Nat) : (b.set f v).meas = b.meas := rfl
@[simp] theorem Blk.set_sides (b : Blk) (f : Fld) (v : Nat) : (b.set f v).sides = b.sides := rfl
@[simp] theorem Blk.set_act (b : Blk) (f : Fld) (v : Nat) : (b.set f v).act = b.act := rfl
@[simp] theorem Blk.set_switchReq (b : Blk) (f : Fld) (v : Nat) : (b.set f v).switchReq = b.switchReq := rfl
@[simp] theorem Blk.set_fw (b : Blk) (f : Fld) (v : Nat) : (b.set f v).fw = b.fw := rfl
@[simp] theorem Blk.set_pw (b : Blk) (f : Fld) (v : Nat) : (b.set f v).pw = b.pw := rfl
@[simp] theorem Blk.set_nap (b : Blk) (f : Fld) (v : Nat) : (b.set f v).nap = b.nap := rfl
@[simp] theorem Blk.set_cams (b : Blk) (f : Fld) (v : Nat) : (b.set f v).cams = b.cams := rfl
@[simp] theorem Blk.set_camDirty (b : Blk) (f : Fld) (v : Nat) : (b.set f v).camDirty = b.camDirty := rfl
@[simp] theorem Blk.set_streams (b : Blk) (f : Fld) (v : Nat) : (b.set f v).streams = b.streams := rfl
@[simp] theorem Blk.set_resets (b : Blk) (f : Fld) (v : Nat) : (b.set f v).resets = b.resets := rfl
@[simp] theorem Blk.set_graze (b : Blk) (f : Fld) (v : Nat) : (b.set f v).graze = b.graze := rfl
@[simp] theorem Blk.set_casc (b : Blk) (f : Fld) (v : Nat) : (b.set f v).casc = b.casc := rfl
@[simp] theorem Blk.set_napCyc (b : Blk) (f : Fld) (v : Nat) : (b.set f v).napCyc = b.napCyc := rfl
@[simp] theorem Blk.set_napRest (b : Blk) (f : Fld) (v : Nat) : (b.set f v).napRest = b.napRest := rfl
@[simp] theorem Blk.set_napTicks (b : Blk) (f : Fld) (v : Nat) : (b.set f v).napTicks = b.napTicks := rfl
@[simp] theorem Blk.set_msRest (b : Blk) (f : Fld) (v : Nat) : (b.set f v).msRest = b.msRest := rfl
@[simp] theorem Blk.set_xchg (b : Blk) (f : Fld) (v : Nat) : (b.set f v).xchg = b.xchg := rfl
@[simp] theorem Blk.set_skipStreams (b : Blk) (f : Fld) (v : Nat) : (b.set f v).skipStreams = b.skipStreams := rfl
@[simp] theorem Blk.set_capTicks (b : Blk) (f : Fld) (v : Nat) : (b.set f v).capTicks = b.capTicks := rfl
@[simp] theorem Blk.set_onTicks (b : Blk) (f : Fld) (v : Nat) : (b.set f v).onTicks = b.onTicks := rfl
@[simp] theorem Blk.set_lifeHSaved (b : Blk) (f : Fld) (v : Nat) : (b.set f v).lifeHSaved = b.lifeHSaved := rfl
@[simp] theorem Blk.set_fwCut (b : Blk) (f : Fld) (v : Nat) : (b.set f v).fwCut = b.fwCut := rfl
@[simp] theorem Blk.set_onSaved (b : Blk) (f : Fld) (v : Nat) : (b.set f v).onSaved = b.onSaved := rfl
@[simp] theorem Blk.set_yieldDue (b : Blk) (f : Fld) (v : Nat) : (b.set f v).yieldDue = b.yieldDue := rfl

@[simp] theorem Blk.setS_ax (b : Blk) (f : Fld) (v : Int) : (b.setS f v).ax = b.ax := rfl
@[simp] theorem Blk.setS_rx (b : Blk) (f : Fld) (v : Int) : (b.setS f v).rx = b.rx := rfl
@[simp] theorem Blk.setS_sm (b : Blk) (f : Fld) (v : Int) : (b.setS f v).sm = b.sm := rfl
@[simp] theorem Blk.setS_planes (b : Blk) (f : Fld) (v : Int) : (b.setS f v).planes = b.planes := rfl
@[simp] theorem Blk.setS_sess (b : Blk) (f : Fld) (v : Int) : (b.setS f v).sess = b.sess := rfl
@[simp] theorem Blk.setS_orphanAt (b : Blk) (f : Fld) (v : Int) : (b.setS f v).orphanAt = b.orphanAt := rfl
@[simp] theorem Blk.setS_lastSid (b : Blk) (f : Fld) (v : Int) : (b.setS f v).lastSid = b.lastSid := rfl
@[simp] theorem Blk.setS_claimFails (b : Blk) (f : Fld) (v : Int) : (b.setS f v).claimFails = b.claimFails := rfl
@[simp] theorem Blk.setS_lockout (b : Blk) (f : Fld) (v : Int) : (b.setS f v).lockout = b.lockout := rfl
@[simp] theorem Blk.setS_ports (b : Blk) (f : Fld) (v : Int) : (b.setS f v).ports = b.ports := rfl
@[simp] theorem Blk.setS_swath (b : Blk) (f : Fld) (v : Int) : (b.setS f v).swath = b.swath := rfl
@[simp] theorem Blk.setS_tick (b : Blk) (f : Fld) (v : Int) : (b.setS f v).tick = b.tick := rfl
@[simp] theorem Blk.setS_plan (b : Blk) (f : Fld) (v : Int) : (b.setS f v).plan = b.plan := rfl
@[simp] theorem Blk.setS_ledg (b : Blk) (f : Fld) (v : Int) : (b.setS f v).ledg = b.ledg := rfl
@[simp] theorem Blk.setS_meas (b : Blk) (f : Fld) (v : Int) : (b.setS f v).meas = b.meas := rfl
@[simp] theorem Blk.setS_sides (b : Blk) (f : Fld) (v : Int) : (b.setS f v).sides = b.sides := rfl
@[simp] theorem Blk.setS_act (b : Blk) (f : Fld) (v : Int) : (b.setS f v).act = b.act := rfl
@[simp] theorem Blk.setS_switchReq (b : Blk) (f : Fld) (v : Int) : (b.setS f v).switchReq = b.switchReq := rfl
@[simp] theorem Blk.setS_fw (b : Blk) (f : Fld) (v : Int) : (b.setS f v).fw = b.fw := rfl
@[simp] theorem Blk.setS_pw (b : Blk) (f : Fld) (v : Int) : (b.setS f v).pw = b.pw := rfl
@[simp] theorem Blk.setS_nap (b : Blk) (f : Fld) (v : Int) : (b.setS f v).nap = b.nap := rfl
@[simp] theorem Blk.setS_cams (b : Blk) (f : Fld) (v : Int) : (b.setS f v).cams = b.cams := rfl
@[simp] theorem Blk.setS_camDirty (b : Blk) (f : Fld) (v : Int) : (b.setS f v).camDirty = b.camDirty := rfl
@[simp] theorem Blk.setS_streams (b : Blk) (f : Fld) (v : Int) : (b.setS f v).streams = b.streams := rfl
@[simp] theorem Blk.setS_resets (b : Blk) (f : Fld) (v : Int) : (b.setS f v).resets = b.resets := rfl
@[simp] theorem Blk.setS_graze (b : Blk) (f : Fld) (v : Int) : (b.setS f v).graze = b.graze := rfl
@[simp] theorem Blk.setS_casc (b : Blk) (f : Fld) (v : Int) : (b.setS f v).casc = b.casc := rfl
@[simp] theorem Blk.setS_napCyc (b : Blk) (f : Fld) (v : Int) : (b.setS f v).napCyc = b.napCyc := rfl
@[simp] theorem Blk.setS_napRest (b : Blk) (f : Fld) (v : Int) : (b.setS f v).napRest = b.napRest := rfl
@[simp] theorem Blk.setS_napTicks (b : Blk) (f : Fld) (v : Int) : (b.setS f v).napTicks = b.napTicks := rfl
@[simp] theorem Blk.setS_msRest (b : Blk) (f : Fld) (v : Int) : (b.setS f v).msRest = b.msRest := rfl
@[simp] theorem Blk.setS_xchg (b : Blk) (f : Fld) (v : Int) : (b.setS f v).xchg = b.xchg := rfl
@[simp] theorem Blk.setS_skipStreams (b : Blk) (f : Fld) (v : Int) : (b.setS f v).skipStreams = b.skipStreams := rfl
@[simp] theorem Blk.setS_capTicks (b : Blk) (f : Fld) (v : Int) : (b.setS f v).capTicks = b.capTicks := rfl
@[simp] theorem Blk.setS_onTicks (b : Blk) (f : Fld) (v : Int) : (b.setS f v).onTicks = b.onTicks := rfl
@[simp] theorem Blk.setS_lifeHSaved (b : Blk) (f : Fld) (v : Int) : (b.setS f v).lifeHSaved = b.lifeHSaved := rfl
@[simp] theorem Blk.setS_fwCut (b : Blk) (f : Fld) (v : Int) : (b.setS f v).fwCut = b.fwCut := rfl
@[simp] theorem Blk.setS_onSaved (b : Blk) (f : Fld) (v : Int) : (b.setS f v).onSaved = b.onSaved := rfl
@[simp] theorem Blk.setS_yieldDue (b : Blk) (f : Fld) (v : Int) : (b.setS f v).yieldDue = b.yieldDue := rfl

@[simp] theorem Blk.setB_ax (b : Blk) (f : Fld) (v : Bool) : (b.setB f v).ax = b.ax := rfl
@[simp] theorem Blk.setB_rx (b : Blk) (f : Fld) (v : Bool) : (b.setB f v).rx = b.rx := rfl
@[simp] theorem Blk.setB_sm (b : Blk) (f : Fld) (v : Bool) : (b.setB f v).sm = b.sm := rfl
@[simp] theorem Blk.setB_planes (b : Blk) (f : Fld) (v : Bool) : (b.setB f v).planes = b.planes := rfl
@[simp] theorem Blk.setB_sess (b : Blk) (f : Fld) (v : Bool) : (b.setB f v).sess = b.sess := rfl
@[simp] theorem Blk.setB_orphanAt (b : Blk) (f : Fld) (v : Bool) : (b.setB f v).orphanAt = b.orphanAt := rfl
@[simp] theorem Blk.setB_lastSid (b : Blk) (f : Fld) (v : Bool) : (b.setB f v).lastSid = b.lastSid := rfl
@[simp] theorem Blk.setB_claimFails (b : Blk) (f : Fld) (v : Bool) : (b.setB f v).claimFails = b.claimFails := rfl
@[simp] theorem Blk.setB_lockout (b : Blk) (f : Fld) (v : Bool) : (b.setB f v).lockout = b.lockout := rfl
@[simp] theorem Blk.setB_ports (b : Blk) (f : Fld) (v : Bool) : (b.setB f v).ports = b.ports := rfl
@[simp] theorem Blk.setB_swath (b : Blk) (f : Fld) (v : Bool) : (b.setB f v).swath = b.swath := rfl
@[simp] theorem Blk.setB_tick (b : Blk) (f : Fld) (v : Bool) : (b.setB f v).tick = b.tick := rfl
@[simp] theorem Blk.setB_plan (b : Blk) (f : Fld) (v : Bool) : (b.setB f v).plan = b.plan := rfl
@[simp] theorem Blk.setB_ledg (b : Blk) (f : Fld) (v : Bool) : (b.setB f v).ledg = b.ledg := rfl
@[simp] theorem Blk.setB_meas (b : Blk) (f : Fld) (v : Bool) : (b.setB f v).meas = b.meas := rfl
@[simp] theorem Blk.setB_sides (b : Blk) (f : Fld) (v : Bool) : (b.setB f v).sides = b.sides := rfl
@[simp] theorem Blk.setB_act (b : Blk) (f : Fld) (v : Bool) : (b.setB f v).act = b.act := rfl
@[simp] theorem Blk.setB_switchReq (b : Blk) (f : Fld) (v : Bool) : (b.setB f v).switchReq = b.switchReq := rfl
@[simp] theorem Blk.setB_fw (b : Blk) (f : Fld) (v : Bool) : (b.setB f v).fw = b.fw := rfl
@[simp] theorem Blk.setB_pw (b : Blk) (f : Fld) (v : Bool) : (b.setB f v).pw = b.pw := rfl
@[simp] theorem Blk.setB_nap (b : Blk) (f : Fld) (v : Bool) : (b.setB f v).nap = b.nap := rfl
@[simp] theorem Blk.setB_cams (b : Blk) (f : Fld) (v : Bool) : (b.setB f v).cams = b.cams := rfl
@[simp] theorem Blk.setB_camDirty (b : Blk) (f : Fld) (v : Bool) : (b.setB f v).camDirty = b.camDirty := rfl
@[simp] theorem Blk.setB_streams (b : Blk) (f : Fld) (v : Bool) : (b.setB f v).streams = b.streams := rfl
@[simp] theorem Blk.setB_resets (b : Blk) (f : Fld) (v : Bool) : (b.setB f v).resets = b.resets := rfl
@[simp] theorem Blk.setB_graze (b : Blk) (f : Fld) (v : Bool) : (b.setB f v).graze = b.graze := rfl
@[simp] theorem Blk.setB_casc (b : Blk) (f : Fld) (v : Bool) : (b.setB f v).casc = b.casc := rfl
@[simp] theorem Blk.setB_napCyc (b : Blk) (f : Fld) (v : Bool) : (b.setB f v).napCyc = b.napCyc := rfl
@[simp] theorem Blk.setB_napRest (b : Blk) (f : Fld) (v : Bool) : (b.setB f v).napRest = b.napRest := rfl
@[simp] theorem Blk.setB_napTicks (b : Blk) (f : Fld) (v : Bool) : (b.setB f v).napTicks = b.napTicks := rfl
@[simp] theorem Blk.setB_msRest (b : Blk) (f : Fld) (v : Bool) : (b.setB f v).msRest = b.msRest := rfl
@[simp] theorem Blk.setB_xchg (b : Blk) (f : Fld) (v : Bool) : (b.setB f v).xchg = b.xchg := rfl
@[simp] theorem Blk.setB_skipStreams (b : Blk) (f : Fld) (v : Bool) : (b.setB f v).skipStreams = b.skipStreams := rfl
@[simp] theorem Blk.setB_capTicks (b : Blk) (f : Fld) (v : Bool) : (b.setB f v).capTicks = b.capTicks := rfl
@[simp] theorem Blk.setB_onTicks (b : Blk) (f : Fld) (v : Bool) : (b.setB f v).onTicks = b.onTicks := rfl
@[simp] theorem Blk.setB_lifeHSaved (b : Blk) (f : Fld) (v : Bool) : (b.setB f v).lifeHSaved = b.lifeHSaved := rfl
@[simp] theorem Blk.setB_fwCut (b : Blk) (f : Fld) (v : Bool) : (b.setB f v).fwCut = b.fwCut := rfl
@[simp] theorem Blk.setB_onSaved (b : Blk) (f : Fld) (v : Bool) : (b.setB f v).onSaved = b.onSaved := rfl
@[simp] theorem Blk.setB_yieldDue (b : Blk) (f : Fld) (v : Bool) : (b.setB f v).yieldDue = b.yieldDue := rfl

@[simp] theorem Blk.count_ax (b : Blk) (f : Fld) (d : Nat) : (b.count f d).ax = b.ax := rfl
@[simp] theorem Blk.count_rx (b : Blk) (f : Fld) (d : Nat) : (b.count f d).rx = b.rx := rfl
@[simp] theorem Blk.count_sm (b : Blk) (f : Fld) (d : Nat) : (b.count f d).sm = b.sm := rfl
@[simp] theorem Blk.count_planes (b : Blk) (f : Fld) (d : Nat) : (b.count f d).planes = b.planes := rfl
@[simp] theorem Blk.count_sess (b : Blk) (f : Fld) (d : Nat) : (b.count f d).sess = b.sess := rfl
@[simp] theorem Blk.count_orphanAt (b : Blk) (f : Fld) (d : Nat) : (b.count f d).orphanAt = b.orphanAt := rfl
@[simp] theorem Blk.count_lastSid (b : Blk) (f : Fld) (d : Nat) : (b.count f d).lastSid = b.lastSid := rfl
@[simp] theorem Blk.count_claimFails (b : Blk) (f : Fld) (d : Nat) : (b.count f d).claimFails = b.claimFails := rfl
@[simp] theorem Blk.count_lockout (b : Blk) (f : Fld) (d : Nat) : (b.count f d).lockout = b.lockout := rfl
@[simp] theorem Blk.count_ports (b : Blk) (f : Fld) (d : Nat) : (b.count f d).ports = b.ports := rfl
@[simp] theorem Blk.count_swath (b : Blk) (f : Fld) (d : Nat) : (b.count f d).swath = b.swath := rfl
@[simp] theorem Blk.count_tick (b : Blk) (f : Fld) (d : Nat) : (b.count f d).tick = b.tick := rfl
@[simp] theorem Blk.count_plan (b : Blk) (f : Fld) (d : Nat) : (b.count f d).plan = b.plan := rfl
@[simp] theorem Blk.count_ledg (b : Blk) (f : Fld) (d : Nat) : (b.count f d).ledg = b.ledg := rfl
@[simp] theorem Blk.count_meas (b : Blk) (f : Fld) (d : Nat) : (b.count f d).meas = b.meas := rfl
@[simp] theorem Blk.count_sides (b : Blk) (f : Fld) (d : Nat) : (b.count f d).sides = b.sides := rfl
@[simp] theorem Blk.count_act (b : Blk) (f : Fld) (d : Nat) : (b.count f d).act = b.act := rfl
@[simp] theorem Blk.count_switchReq (b : Blk) (f : Fld) (d : Nat) : (b.count f d).switchReq = b.switchReq := rfl
@[simp] theorem Blk.count_fw (b : Blk) (f : Fld) (d : Nat) : (b.count f d).fw = b.fw := rfl
@[simp] theorem Blk.count_pw (b : Blk) (f : Fld) (d : Nat) : (b.count f d).pw = b.pw := rfl
@[simp] theorem Blk.count_nap (b : Blk) (f : Fld) (d : Nat) : (b.count f d).nap = b.nap := rfl
@[simp] theorem Blk.count_cams (b : Blk) (f : Fld) (d : Nat) : (b.count f d).cams = b.cams := rfl
@[simp] theorem Blk.count_camDirty (b : Blk) (f : Fld) (d : Nat) : (b.count f d).camDirty = b.camDirty := rfl
@[simp] theorem Blk.count_streams (b : Blk) (f : Fld) (d : Nat) : (b.count f d).streams = b.streams := rfl
@[simp] theorem Blk.count_resets (b : Blk) (f : Fld) (d : Nat) : (b.count f d).resets = b.resets := rfl
@[simp] theorem Blk.count_graze (b : Blk) (f : Fld) (d : Nat) : (b.count f d).graze = b.graze := rfl
@[simp] theorem Blk.count_casc (b : Blk) (f : Fld) (d : Nat) : (b.count f d).casc = b.casc := rfl
@[simp] theorem Blk.count_napCyc (b : Blk) (f : Fld) (d : Nat) : (b.count f d).napCyc = b.napCyc := rfl
@[simp] theorem Blk.count_napRest (b : Blk) (f : Fld) (d : Nat) : (b.count f d).napRest = b.napRest := rfl
@[simp] theorem Blk.count_napTicks (b : Blk) (f : Fld) (d : Nat) : (b.count f d).napTicks = b.napTicks := rfl
@[simp] theorem Blk.count_msRest (b : Blk) (f : Fld) (d : Nat) : (b.count f d).msRest = b.msRest := rfl
@[simp] theorem Blk.count_xchg (b : Blk) (f : Fld) (d : Nat) : (b.count f d).xchg = b.xchg := rfl
@[simp] theorem Blk.count_skipStreams (b : Blk) (f : Fld) (d : Nat) : (b.count f d).skipStreams = b.skipStreams := rfl
@[simp] theorem Blk.count_capTicks (b : Blk) (f : Fld) (d : Nat) : (b.count f d).capTicks = b.capTicks := rfl
@[simp] theorem Blk.count_onTicks (b : Blk) (f : Fld) (d : Nat) : (b.count f d).onTicks = b.onTicks := rfl
@[simp] theorem Blk.count_lifeHSaved (b : Blk) (f : Fld) (d : Nat) : (b.count f d).lifeHSaved = b.lifeHSaved := rfl
@[simp] theorem Blk.count_fwCut (b : Blk) (f : Fld) (d : Nat) : (b.count f d).fwCut = b.fwCut := rfl
@[simp] theorem Blk.count_onSaved (b : Blk) (f : Fld) (d : Nat) : (b.count f d).onSaved = b.onSaved := rfl
@[simp] theorem Blk.count_yieldDue (b : Blk) (f : Fld) (d : Nat) : (b.count f d).yieldDue = b.yieldDue := rfl

@[simp] theorem Blk.draw_ax (b : Blk) (k : Nat) : (b.draw k).ax = b.ax := rfl
@[simp] theorem Blk.draw_rx (b : Blk) (k : Nat) : (b.draw k).rx = b.rx := rfl
@[simp] theorem Blk.draw_sm (b : Blk) (k : Nat) : (b.draw k).sm = b.sm := rfl
@[simp] theorem Blk.draw_planes (b : Blk) (k : Nat) : (b.draw k).planes = b.planes := rfl
@[simp] theorem Blk.draw_sess (b : Blk) (k : Nat) : (b.draw k).sess = b.sess := rfl
@[simp] theorem Blk.draw_orphanAt (b : Blk) (k : Nat) : (b.draw k).orphanAt = b.orphanAt := rfl
@[simp] theorem Blk.draw_lastSid (b : Blk) (k : Nat) : (b.draw k).lastSid = b.lastSid := rfl
@[simp] theorem Blk.draw_claimFails (b : Blk) (k : Nat) : (b.draw k).claimFails = b.claimFails := rfl
@[simp] theorem Blk.draw_lockout (b : Blk) (k : Nat) : (b.draw k).lockout = b.lockout := rfl
@[simp] theorem Blk.draw_ports (b : Blk) (k : Nat) : (b.draw k).ports = b.ports := rfl
@[simp] theorem Blk.draw_swath (b : Blk) (k : Nat) : (b.draw k).swath = b.swath := rfl
@[simp] theorem Blk.draw_tick (b : Blk) (k : Nat) : (b.draw k).tick = b.tick := rfl
@[simp] theorem Blk.draw_plan (b : Blk) (k : Nat) : (b.draw k).plan = b.plan := rfl
@[simp] theorem Blk.draw_ledg (b : Blk) (k : Nat) : (b.draw k).ledg = b.ledg := rfl
@[simp] theorem Blk.draw_meas (b : Blk) (k : Nat) : (b.draw k).meas = b.meas := rfl
@[simp] theorem Blk.draw_sides (b : Blk) (k : Nat) : (b.draw k).sides = b.sides := rfl
@[simp] theorem Blk.draw_act (b : Blk) (k : Nat) : (b.draw k).act = b.act := rfl
@[simp] theorem Blk.draw_switchReq (b : Blk) (k : Nat) : (b.draw k).switchReq = b.switchReq := rfl
@[simp] theorem Blk.draw_fw (b : Blk) (k : Nat) : (b.draw k).fw = b.fw := rfl
@[simp] theorem Blk.draw_pw (b : Blk) (k : Nat) : (b.draw k).pw = b.pw := rfl
@[simp] theorem Blk.draw_nap (b : Blk) (k : Nat) : (b.draw k).nap = b.nap := rfl
@[simp] theorem Blk.draw_cams (b : Blk) (k : Nat) : (b.draw k).cams = b.cams := rfl
@[simp] theorem Blk.draw_camDirty (b : Blk) (k : Nat) : (b.draw k).camDirty = b.camDirty := rfl
@[simp] theorem Blk.draw_streams (b : Blk) (k : Nat) : (b.draw k).streams = b.streams := rfl
@[simp] theorem Blk.draw_resets (b : Blk) (k : Nat) : (b.draw k).resets = b.resets := rfl
@[simp] theorem Blk.draw_graze (b : Blk) (k : Nat) : (b.draw k).graze = b.graze := rfl
@[simp] theorem Blk.draw_casc (b : Blk) (k : Nat) : (b.draw k).casc = b.casc := rfl
@[simp] theorem Blk.draw_napCyc (b : Blk) (k : Nat) : (b.draw k).napCyc = b.napCyc := rfl
@[simp] theorem Blk.draw_napRest (b : Blk) (k : Nat) : (b.draw k).napRest = b.napRest := rfl
@[simp] theorem Blk.draw_napTicks (b : Blk) (k : Nat) : (b.draw k).napTicks = b.napTicks := rfl
@[simp] theorem Blk.draw_msRest (b : Blk) (k : Nat) : (b.draw k).msRest = b.msRest := rfl
@[simp] theorem Blk.draw_xchg (b : Blk) (k : Nat) : (b.draw k).xchg = b.xchg := rfl
@[simp] theorem Blk.draw_skipStreams (b : Blk) (k : Nat) : (b.draw k).skipStreams = b.skipStreams := rfl
@[simp] theorem Blk.draw_capTicks (b : Blk) (k : Nat) : (b.draw k).capTicks = b.capTicks := rfl
@[simp] theorem Blk.draw_onTicks (b : Blk) (k : Nat) : (b.draw k).onTicks = b.onTicks := rfl
@[simp] theorem Blk.draw_lifeHSaved (b : Blk) (k : Nat) : (b.draw k).lifeHSaved = b.lifeHSaved := rfl
@[simp] theorem Blk.draw_fwCut (b : Blk) (k : Nat) : (b.draw k).fwCut = b.fwCut := rfl
@[simp] theorem Blk.draw_onSaved (b : Blk) (k : Nat) : (b.draw k).onSaved = b.onSaved := rfl
@[simp] theorem Blk.draw_yieldDue (b : Blk) (k : Nat) : (b.draw k).yieldDue = b.yieldDue := rfl

@[simp] theorem Blk.mapAx_rx (b : Blk) (n : Fin 48) (f : Axis → Axis) : (b.mapAx n f).rx = b.rx := rfl
@[simp] theorem Blk.mapAx_sm (b : Blk) (n : Fin 48) (f : Axis → Axis) : (b.mapAx n f).sm = b.sm := rfl
@[simp] theorem Blk.mapAx_planes (b : Blk) (n : Fin 48) (f : Axis → Axis) : (b.mapAx n f).planes = b.planes := rfl
@[simp] theorem Blk.mapAx_sess (b : Blk) (n : Fin 48) (f : Axis → Axis) : (b.mapAx n f).sess = b.sess := rfl
@[simp] theorem Blk.mapAx_orphanAt (b : Blk) (n : Fin 48) (f : Axis → Axis) : (b.mapAx n f).orphanAt = b.orphanAt := rfl
@[simp] theorem Blk.mapAx_lastSid (b : Blk) (n : Fin 48) (f : Axis → Axis) : (b.mapAx n f).lastSid = b.lastSid := rfl
@[simp] theorem Blk.mapAx_claimFails (b : Blk) (n : Fin 48) (f : Axis → Axis) : (b.mapAx n f).claimFails = b.claimFails := rfl
@[simp] theorem Blk.mapAx_lockout (b : Blk) (n : Fin 48) (f : Axis → Axis) : (b.mapAx n f).lockout = b.lockout := rfl
@[simp] theorem Blk.mapAx_ports (b : Blk) (n : Fin 48) (f : Axis → Axis) : (b.mapAx n f).ports = b.ports := rfl
@[simp] theorem Blk.mapAx_swath (b : Blk) (n : Fin 48) (f : Axis → Axis) : (b.mapAx n f).swath = b.swath := rfl
@[simp] theorem Blk.mapAx_tick (b : Blk) (n : Fin 48) (f : Axis → Axis) : (b.mapAx n f).tick = b.tick := rfl
@[simp] theorem Blk.mapAx_plan (b : Blk) (n : Fin 48) (f : Axis → Axis) : (b.mapAx n f).plan = b.plan := rfl
@[simp] theorem Blk.mapAx_ledg (b : Blk) (n : Fin 48) (f : Axis → Axis) : (b.mapAx n f).ledg = b.ledg := rfl
@[simp] theorem Blk.mapAx_meas (b : Blk) (n : Fin 48) (f : Axis → Axis) : (b.mapAx n f).meas = b.meas := rfl
@[simp] theorem Blk.mapAx_sides (b : Blk) (n : Fin 48) (f : Axis → Axis) : (b.mapAx n f).sides = b.sides := rfl
@[simp] theorem Blk.mapAx_act (b : Blk) (n : Fin 48) (f : Axis → Axis) : (b.mapAx n f).act = b.act := rfl
@[simp] theorem Blk.mapAx_switchReq (b : Blk) (n : Fin 48) (f : Axis → Axis) : (b.mapAx n f).switchReq = b.switchReq := rfl
@[simp] theorem Blk.mapAx_fw (b : Blk) (n : Fin 48) (f : Axis → Axis) : (b.mapAx n f).fw = b.fw := rfl
@[simp] theorem Blk.mapAx_pw (b : Blk) (n : Fin 48) (f : Axis → Axis) : (b.mapAx n f).pw = b.pw := rfl
@[simp] theorem Blk.mapAx_nap (b : Blk) (n : Fin 48) (f : Axis → Axis) : (b.mapAx n f).nap = b.nap := rfl
@[simp] theorem Blk.mapAx_cams (b : Blk) (n : Fin 48) (f : Axis → Axis) : (b.mapAx n f).cams = b.cams := rfl
@[simp] theorem Blk.mapAx_camDirty (b : Blk) (n : Fin 48) (f : Axis → Axis) : (b.mapAx n f).camDirty = b.camDirty := rfl
@[simp] theorem Blk.mapAx_streams (b : Blk) (n : Fin 48) (f : Axis → Axis) : (b.mapAx n f).streams = b.streams := rfl
@[simp] theorem Blk.mapAx_resets (b : Blk) (n : Fin 48) (f : Axis → Axis) : (b.mapAx n f).resets = b.resets := rfl
@[simp] theorem Blk.mapAx_graze (b : Blk) (n : Fin 48) (f : Axis → Axis) : (b.mapAx n f).graze = b.graze := rfl
@[simp] theorem Blk.mapAx_casc (b : Blk) (n : Fin 48) (f : Axis → Axis) : (b.mapAx n f).casc = b.casc := rfl
@[simp] theorem Blk.mapAx_napCyc (b : Blk) (n : Fin 48) (f : Axis → Axis) : (b.mapAx n f).napCyc = b.napCyc := rfl
@[simp] theorem Blk.mapAx_napRest (b : Blk) (n : Fin 48) (f : Axis → Axis) : (b.mapAx n f).napRest = b.napRest := rfl
@[simp] theorem Blk.mapAx_napTicks (b : Blk) (n : Fin 48) (f : Axis → Axis) : (b.mapAx n f).napTicks = b.napTicks := rfl
@[simp] theorem Blk.mapAx_msRest (b : Blk) (n : Fin 48) (f : Axis → Axis) : (b.mapAx n f).msRest = b.msRest := rfl
@[simp] theorem Blk.mapAx_xchg (b : Blk) (n : Fin 48) (f : Axis → Axis) : (b.mapAx n f).xchg = b.xchg := rfl
@[simp] theorem Blk.mapAx_skipStreams (b : Blk) (n : Fin 48) (f : Axis → Axis) : (b.mapAx n f).skipStreams = b.skipStreams := rfl
@[simp] theorem Blk.mapAx_capTicks (b : Blk) (n : Fin 48) (f : Axis → Axis) : (b.mapAx n f).capTicks = b.capTicks := rfl
@[simp] theorem Blk.mapAx_onTicks (b : Blk) (n : Fin 48) (f : Axis → Axis) : (b.mapAx n f).onTicks = b.onTicks := rfl
@[simp] theorem Blk.mapAx_lifeHSaved (b : Blk) (n : Fin 48) (f : Axis → Axis) : (b.mapAx n f).lifeHSaved = b.lifeHSaved := rfl
@[simp] theorem Blk.mapAx_fwCut (b : Blk) (n : Fin 48) (f : Axis → Axis) : (b.mapAx n f).fwCut = b.fwCut := rfl
@[simp] theorem Blk.mapAx_onSaved (b : Blk) (n : Fin 48) (f : Axis → Axis) : (b.mapAx n f).onSaved = b.onSaved := rfl
@[simp] theorem Blk.mapAx_yieldDue (b : Blk) (n : Fin 48) (f : Axis → Axis) : (b.mapAx n f).yieldDue = b.yieldDue := rfl

@[simp] theorem Blk.mapPlanes_ax (b : Blk) (f : PlaneSt → PlaneSt) : (b.mapPlanes f).ax = b.ax := rfl
@[simp] theorem Blk.mapPlanes_rx (b : Blk) (f : PlaneSt → PlaneSt) : (b.mapPlanes f).rx = b.rx := rfl
@[simp] theorem Blk.mapPlanes_sm (b : Blk) (f : PlaneSt → PlaneSt) : (b.mapPlanes f).sm = b.sm := rfl
@[simp] theorem Blk.mapPlanes_sess (b : Blk) (f : PlaneSt → PlaneSt) : (b.mapPlanes f).sess = b.sess := rfl
@[simp] theorem Blk.mapPlanes_orphanAt (b : Blk) (f : PlaneSt → PlaneSt) : (b.mapPlanes f).orphanAt = b.orphanAt := rfl
@[simp] theorem Blk.mapPlanes_lastSid (b : Blk) (f : PlaneSt → PlaneSt) : (b.mapPlanes f).lastSid = b.lastSid := rfl
@[simp] theorem Blk.mapPlanes_claimFails (b : Blk) (f : PlaneSt → PlaneSt) : (b.mapPlanes f).claimFails = b.claimFails := rfl
@[simp] theorem Blk.mapPlanes_lockout (b : Blk) (f : PlaneSt → PlaneSt) : (b.mapPlanes f).lockout = b.lockout := rfl
@[simp] theorem Blk.mapPlanes_ports (b : Blk) (f : PlaneSt → PlaneSt) : (b.mapPlanes f).ports = b.ports := rfl
@[simp] theorem Blk.mapPlanes_swath (b : Blk) (f : PlaneSt → PlaneSt) : (b.mapPlanes f).swath = b.swath := rfl
@[simp] theorem Blk.mapPlanes_tick (b : Blk) (f : PlaneSt → PlaneSt) : (b.mapPlanes f).tick = b.tick := rfl
@[simp] theorem Blk.mapPlanes_plan (b : Blk) (f : PlaneSt → PlaneSt) : (b.mapPlanes f).plan = b.plan := rfl
@[simp] theorem Blk.mapPlanes_ledg (b : Blk) (f : PlaneSt → PlaneSt) : (b.mapPlanes f).ledg = b.ledg := rfl
@[simp] theorem Blk.mapPlanes_meas (b : Blk) (f : PlaneSt → PlaneSt) : (b.mapPlanes f).meas = b.meas := rfl
@[simp] theorem Blk.mapPlanes_sides (b : Blk) (f : PlaneSt → PlaneSt) : (b.mapPlanes f).sides = b.sides := rfl
@[simp] theorem Blk.mapPlanes_act (b : Blk) (f : PlaneSt → PlaneSt) : (b.mapPlanes f).act = b.act := rfl
@[simp] theorem Blk.mapPlanes_switchReq (b : Blk) (f : PlaneSt → PlaneSt) : (b.mapPlanes f).switchReq = b.switchReq := rfl
@[simp] theorem Blk.mapPlanes_fw (b : Blk) (f : PlaneSt → PlaneSt) : (b.mapPlanes f).fw = b.fw := rfl
@[simp] theorem Blk.mapPlanes_pw (b : Blk) (f : PlaneSt → PlaneSt) : (b.mapPlanes f).pw = b.pw := rfl
@[simp] theorem Blk.mapPlanes_nap (b : Blk) (f : PlaneSt → PlaneSt) : (b.mapPlanes f).nap = b.nap := rfl
@[simp] theorem Blk.mapPlanes_cams (b : Blk) (f : PlaneSt → PlaneSt) : (b.mapPlanes f).cams = b.cams := rfl
@[simp] theorem Blk.mapPlanes_camDirty (b : Blk) (f : PlaneSt → PlaneSt) : (b.mapPlanes f).camDirty = b.camDirty := rfl
@[simp] theorem Blk.mapPlanes_streams (b : Blk) (f : PlaneSt → PlaneSt) : (b.mapPlanes f).streams = b.streams := rfl
@[simp] theorem Blk.mapPlanes_resets (b : Blk) (f : PlaneSt → PlaneSt) : (b.mapPlanes f).resets = b.resets := rfl
@[simp] theorem Blk.mapPlanes_graze (b : Blk) (f : PlaneSt → PlaneSt) : (b.mapPlanes f).graze = b.graze := rfl
@[simp] theorem Blk.mapPlanes_casc (b : Blk) (f : PlaneSt → PlaneSt) : (b.mapPlanes f).casc = b.casc := rfl
@[simp] theorem Blk.mapPlanes_napCyc (b : Blk) (f : PlaneSt → PlaneSt) : (b.mapPlanes f).napCyc = b.napCyc := rfl
@[simp] theorem Blk.mapPlanes_napRest (b : Blk) (f : PlaneSt → PlaneSt) : (b.mapPlanes f).napRest = b.napRest := rfl
@[simp] theorem Blk.mapPlanes_napTicks (b : Blk) (f : PlaneSt → PlaneSt) : (b.mapPlanes f).napTicks = b.napTicks := rfl
@[simp] theorem Blk.mapPlanes_msRest (b : Blk) (f : PlaneSt → PlaneSt) : (b.mapPlanes f).msRest = b.msRest := rfl
@[simp] theorem Blk.mapPlanes_xchg (b : Blk) (f : PlaneSt → PlaneSt) : (b.mapPlanes f).xchg = b.xchg := rfl
@[simp] theorem Blk.mapPlanes_skipStreams (b : Blk) (f : PlaneSt → PlaneSt) : (b.mapPlanes f).skipStreams = b.skipStreams := rfl
@[simp] theorem Blk.mapPlanes_capTicks (b : Blk) (f : PlaneSt → PlaneSt) : (b.mapPlanes f).capTicks = b.capTicks := rfl
@[simp] theorem Blk.mapPlanes_onTicks (b : Blk) (f : PlaneSt → PlaneSt) : (b.mapPlanes f).onTicks = b.onTicks := rfl
@[simp] theorem Blk.mapPlanes_lifeHSaved (b : Blk) (f : PlaneSt → PlaneSt) : (b.mapPlanes f).lifeHSaved = b.lifeHSaved := rfl
@[simp] theorem Blk.mapPlanes_fwCut (b : Blk) (f : PlaneSt → PlaneSt) : (b.mapPlanes f).fwCut = b.fwCut := rfl
@[simp] theorem Blk.mapPlanes_onSaved (b : Blk) (f : PlaneSt → PlaneSt) : (b.mapPlanes f).onSaved = b.onSaved := rfl
@[simp] theorem Blk.mapPlanes_yieldDue (b : Blk) (f : PlaneSt → PlaneSt) : (b.mapPlanes f).yieldDue = b.yieldDue := rfl

@[simp] theorem Blk.mapSide_ax (b : Blk) (i : Side) (f : SideS → SideS) : (b.mapSide i f).ax = b.ax := rfl
@[simp] theorem Blk.mapSide_rx (b : Blk) (i : Side) (f : SideS → SideS) : (b.mapSide i f).rx = b.rx := rfl
@[simp] theorem Blk.mapSide_sm (b : Blk) (i : Side) (f : SideS → SideS) : (b.mapSide i f).sm = b.sm := rfl
@[simp] theorem Blk.mapSide_planes (b : Blk) (i : Side) (f : SideS → SideS) : (b.mapSide i f).planes = b.planes := rfl
@[simp] theorem Blk.mapSide_sess (b : Blk) (i : Side) (f : SideS → SideS) : (b.mapSide i f).sess = b.sess := rfl
@[simp] theorem Blk.mapSide_orphanAt (b : Blk) (i : Side) (f : SideS → SideS) : (b.mapSide i f).orphanAt = b.orphanAt := rfl
@[simp] theorem Blk.mapSide_lastSid (b : Blk) (i : Side) (f : SideS → SideS) : (b.mapSide i f).lastSid = b.lastSid := rfl
@[simp] theorem Blk.mapSide_claimFails (b : Blk) (i : Side) (f : SideS → SideS) : (b.mapSide i f).claimFails = b.claimFails := rfl
@[simp] theorem Blk.mapSide_lockout (b : Blk) (i : Side) (f : SideS → SideS) : (b.mapSide i f).lockout = b.lockout := rfl
@[simp] theorem Blk.mapSide_ports (b : Blk) (i : Side) (f : SideS → SideS) : (b.mapSide i f).ports = b.ports := rfl
@[simp] theorem Blk.mapSide_swath (b : Blk) (i : Side) (f : SideS → SideS) : (b.mapSide i f).swath = b.swath := rfl
@[simp] theorem Blk.mapSide_tick (b : Blk) (i : Side) (f : SideS → SideS) : (b.mapSide i f).tick = b.tick := rfl
@[simp] theorem Blk.mapSide_plan (b : Blk) (i : Side) (f : SideS → SideS) : (b.mapSide i f).plan = b.plan := rfl
@[simp] theorem Blk.mapSide_ledg (b : Blk) (i : Side) (f : SideS → SideS) : (b.mapSide i f).ledg = b.ledg := rfl
@[simp] theorem Blk.mapSide_meas (b : Blk) (i : Side) (f : SideS → SideS) : (b.mapSide i f).meas = b.meas := rfl
@[simp] theorem Blk.mapSide_act (b : Blk) (i : Side) (f : SideS → SideS) : (b.mapSide i f).act = b.act := rfl
@[simp] theorem Blk.mapSide_switchReq (b : Blk) (i : Side) (f : SideS → SideS) : (b.mapSide i f).switchReq = b.switchReq := rfl
@[simp] theorem Blk.mapSide_fw (b : Blk) (i : Side) (f : SideS → SideS) : (b.mapSide i f).fw = b.fw := rfl
@[simp] theorem Blk.mapSide_pw (b : Blk) (i : Side) (f : SideS → SideS) : (b.mapSide i f).pw = b.pw := rfl
@[simp] theorem Blk.mapSide_nap (b : Blk) (i : Side) (f : SideS → SideS) : (b.mapSide i f).nap = b.nap := rfl
@[simp] theorem Blk.mapSide_cams (b : Blk) (i : Side) (f : SideS → SideS) : (b.mapSide i f).cams = b.cams := rfl
@[simp] theorem Blk.mapSide_camDirty (b : Blk) (i : Side) (f : SideS → SideS) : (b.mapSide i f).camDirty = b.camDirty := rfl
@[simp] theorem Blk.mapSide_streams (b : Blk) (i : Side) (f : SideS → SideS) : (b.mapSide i f).streams = b.streams := rfl
@[simp] theorem Blk.mapSide_resets (b : Blk) (i : Side) (f : SideS → SideS) : (b.mapSide i f).resets = b.resets := rfl
@[simp] theorem Blk.mapSide_graze (b : Blk) (i : Side) (f : SideS → SideS) : (b.mapSide i f).graze = b.graze := rfl
@[simp] theorem Blk.mapSide_casc (b : Blk) (i : Side) (f : SideS → SideS) : (b.mapSide i f).casc = b.casc := rfl
@[simp] theorem Blk.mapSide_napCyc (b : Blk) (i : Side) (f : SideS → SideS) : (b.mapSide i f).napCyc = b.napCyc := rfl
@[simp] theorem Blk.mapSide_napRest (b : Blk) (i : Side) (f : SideS → SideS) : (b.mapSide i f).napRest = b.napRest := rfl
@[simp] theorem Blk.mapSide_napTicks (b : Blk) (i : Side) (f : SideS → SideS) : (b.mapSide i f).napTicks = b.napTicks := rfl
@[simp] theorem Blk.mapSide_msRest (b : Blk) (i : Side) (f : SideS → SideS) : (b.mapSide i f).msRest = b.msRest := rfl
@[simp] theorem Blk.mapSide_xchg (b : Blk) (i : Side) (f : SideS → SideS) : (b.mapSide i f).xchg = b.xchg := rfl
@[simp] theorem Blk.mapSide_skipStreams (b : Blk) (i : Side) (f : SideS → SideS) : (b.mapSide i f).skipStreams = b.skipStreams := rfl
@[simp] theorem Blk.mapSide_capTicks (b : Blk) (i : Side) (f : SideS → SideS) : (b.mapSide i f).capTicks = b.capTicks := rfl
@[simp] theorem Blk.mapSide_onTicks (b : Blk) (i : Side) (f : SideS → SideS) : (b.mapSide i f).onTicks = b.onTicks := rfl
@[simp] theorem Blk.mapSide_lifeHSaved (b : Blk) (i : Side) (f : SideS → SideS) : (b.mapSide i f).lifeHSaved = b.lifeHSaved := rfl
@[simp] theorem Blk.mapSide_fwCut (b : Blk) (i : Side) (f : SideS → SideS) : (b.mapSide i f).fwCut = b.fwCut := rfl
@[simp] theorem Blk.mapSide_onSaved (b : Blk) (i : Side) (f : SideS → SideS) : (b.mapSide i f).onSaved = b.onSaved := rfl
@[simp] theorem Blk.mapSide_yieldDue (b : Blk) (i : Side) (f : SideS → SideS) : (b.mapSide i f).yieldDue = b.yieldDue := rfl

@[simp] theorem Blk.mapSm_ax (b : Blk) (i : Side) (f : SmPort → SmPort) : (b.mapSm i f).ax = b.ax := rfl
@[simp] theorem Blk.mapSm_rx (b : Blk) (i : Side) (f : SmPort → SmPort) : (b.mapSm i f).rx = b.rx := rfl
@[simp] theorem Blk.mapSm_planes (b : Blk) (i : Side) (f : SmPort → SmPort) : (b.mapSm i f).planes = b.planes := rfl
@[simp] theorem Blk.mapSm_sess (b : Blk) (i : Side) (f : SmPort → SmPort) : (b.mapSm i f).sess = b.sess := rfl
@[simp] theorem Blk.mapSm_orphanAt (b : Blk) (i : Side) (f : SmPort → SmPort) : (b.mapSm i f).orphanAt = b.orphanAt := rfl
@[simp] theorem Blk.mapSm_lastSid (b : Blk) (i : Side) (f : SmPort → SmPort) : (b.mapSm i f).lastSid = b.lastSid := rfl
@[simp] theorem Blk.mapSm_claimFails (b : Blk) (i : Side) (f : SmPort → SmPort) : (b.mapSm i f).claimFails = b.claimFails := rfl
@[simp] theorem Blk.mapSm_lockout (b : Blk) (i : Side) (f : SmPort → SmPort) : (b.mapSm i f).lockout = b.lockout := rfl
@[simp] theorem Blk.mapSm_ports (b : Blk) (i : Side) (f : SmPort → SmPort) : (b.mapSm i f).ports = b.ports := rfl
@[simp] theorem Blk.mapSm_swath (b : Blk) (i : Side) (f : SmPort → SmPort) : (b.mapSm i f).swath = b.swath := rfl
@[simp] theorem Blk.mapSm_tick (b : Blk) (i : Side) (f : SmPort → SmPort) : (b.mapSm i f).tick = b.tick := rfl
@[simp] theorem Blk.mapSm_plan (b : Blk) (i : Side) (f : SmPort → SmPort) : (b.mapSm i f).plan = b.plan := rfl
@[simp] theorem Blk.mapSm_ledg (b : Blk) (i : Side) (f : SmPort → SmPort) : (b.mapSm i f).ledg = b.ledg := rfl
@[simp] theorem Blk.mapSm_meas (b : Blk) (i : Side) (f : SmPort → SmPort) : (b.mapSm i f).meas = b.meas := rfl
@[simp] theorem Blk.mapSm_sides (b : Blk) (i : Side) (f : SmPort → SmPort) : (b.mapSm i f).sides = b.sides := rfl
@[simp] theorem Blk.mapSm_act (b : Blk) (i : Side) (f : SmPort → SmPort) : (b.mapSm i f).act = b.act := rfl
@[simp] theorem Blk.mapSm_switchReq (b : Blk) (i : Side) (f : SmPort → SmPort) : (b.mapSm i f).switchReq = b.switchReq := rfl
@[simp] theorem Blk.mapSm_fw (b : Blk) (i : Side) (f : SmPort → SmPort) : (b.mapSm i f).fw = b.fw := rfl
@[simp] theorem Blk.mapSm_pw (b : Blk) (i : Side) (f : SmPort → SmPort) : (b.mapSm i f).pw = b.pw := rfl
@[simp] theorem Blk.mapSm_nap (b : Blk) (i : Side) (f : SmPort → SmPort) : (b.mapSm i f).nap = b.nap := rfl
@[simp] theorem Blk.mapSm_cams (b : Blk) (i : Side) (f : SmPort → SmPort) : (b.mapSm i f).cams = b.cams := rfl
@[simp] theorem Blk.mapSm_camDirty (b : Blk) (i : Side) (f : SmPort → SmPort) : (b.mapSm i f).camDirty = b.camDirty := rfl
@[simp] theorem Blk.mapSm_streams (b : Blk) (i : Side) (f : SmPort → SmPort) : (b.mapSm i f).streams = b.streams := rfl
@[simp] theorem Blk.mapSm_resets (b : Blk) (i : Side) (f : SmPort → SmPort) : (b.mapSm i f).resets = b.resets := rfl
@[simp] theorem Blk.mapSm_graze (b : Blk) (i : Side) (f : SmPort → SmPort) : (b.mapSm i f).graze = b.graze := rfl
@[simp] theorem Blk.mapSm_casc (b : Blk) (i : Side) (f : SmPort → SmPort) : (b.mapSm i f).casc = b.casc := rfl
@[simp] theorem Blk.mapSm_napCyc (b : Blk) (i : Side) (f : SmPort → SmPort) : (b.mapSm i f).napCyc = b.napCyc := rfl
@[simp] theorem Blk.mapSm_napRest (b : Blk) (i : Side) (f : SmPort → SmPort) : (b.mapSm i f).napRest = b.napRest := rfl
@[simp] theorem Blk.mapSm_napTicks (b : Blk) (i : Side) (f : SmPort → SmPort) : (b.mapSm i f).napTicks = b.napTicks := rfl
@[simp] theorem Blk.mapSm_msRest (b : Blk) (i : Side) (f : SmPort → SmPort) : (b.mapSm i f).msRest = b.msRest := rfl
@[simp] theorem Blk.mapSm_xchg (b : Blk) (i : Side) (f : SmPort → SmPort) : (b.mapSm i f).xchg = b.xchg := rfl
@[simp] theorem Blk.mapSm_skipStreams (b : Blk) (i : Side) (f : SmPort → SmPort) : (b.mapSm i f).skipStreams = b.skipStreams := rfl
@[simp] theorem Blk.mapSm_capTicks (b : Blk) (i : Side) (f : SmPort → SmPort) : (b.mapSm i f).capTicks = b.capTicks := rfl
@[simp] theorem Blk.mapSm_onTicks (b : Blk) (i : Side) (f : SmPort → SmPort) : (b.mapSm i f).onTicks = b.onTicks := rfl
@[simp] theorem Blk.mapSm_lifeHSaved (b : Blk) (i : Side) (f : SmPort → SmPort) : (b.mapSm i f).lifeHSaved = b.lifeHSaved := rfl
@[simp] theorem Blk.mapSm_fwCut (b : Blk) (i : Side) (f : SmPort → SmPort) : (b.mapSm i f).fwCut = b.fwCut := rfl
@[simp] theorem Blk.mapSm_onSaved (b : Blk) (i : Side) (f : SmPort → SmPort) : (b.mapSm i f).onSaved = b.onSaved := rfl
@[simp] theorem Blk.mapSm_yieldDue (b : Blk) (i : Side) (f : SmPort → SmPort) : (b.mapSm i f).yieldDue = b.yieldDue := rfl

@[simp] theorem Blk.mapCasc_ax (b : Blk) (f : Casc → Casc) : (b.mapCasc f).ax = b.ax := rfl
@[simp] theorem Blk.mapCasc_rx (b : Blk) (f : Casc → Casc) : (b.mapCasc f).rx = b.rx := rfl
@[simp] theorem Blk.mapCasc_sm (b : Blk) (f : Casc → Casc) : (b.mapCasc f).sm = b.sm := rfl
@[simp] theorem Blk.mapCasc_planes (b : Blk) (f : Casc → Casc) : (b.mapCasc f).planes = b.planes := rfl
@[simp] theorem Blk.mapCasc_sess (b : Blk) (f : Casc → Casc) : (b.mapCasc f).sess = b.sess := rfl
@[simp] theorem Blk.mapCasc_orphanAt (b : Blk) (f : Casc → Casc) : (b.mapCasc f).orphanAt = b.orphanAt := rfl
@[simp] theorem Blk.mapCasc_lastSid (b : Blk) (f : Casc → Casc) : (b.mapCasc f).lastSid = b.lastSid := rfl
@[simp] theorem Blk.mapCasc_claimFails (b : Blk) (f : Casc → Casc) : (b.mapCasc f).claimFails = b.claimFails := rfl
@[simp] theorem Blk.mapCasc_lockout (b : Blk) (f : Casc → Casc) : (b.mapCasc f).lockout = b.lockout := rfl
@[simp] theorem Blk.mapCasc_ports (b : Blk) (f : Casc → Casc) : (b.mapCasc f).ports = b.ports := rfl
@[simp] theorem Blk.mapCasc_swath (b : Blk) (f : Casc → Casc) : (b.mapCasc f).swath = b.swath := rfl
@[simp] theorem Blk.mapCasc_tick (b : Blk) (f : Casc → Casc) : (b.mapCasc f).tick = b.tick := rfl
@[simp] theorem Blk.mapCasc_plan (b : Blk) (f : Casc → Casc) : (b.mapCasc f).plan = b.plan := rfl
@[simp] theorem Blk.mapCasc_ledg (b : Blk) (f : Casc → Casc) : (b.mapCasc f).ledg = b.ledg := rfl
@[simp] theorem Blk.mapCasc_meas (b : Blk) (f : Casc → Casc) : (b.mapCasc f).meas = b.meas := rfl
@[simp] theorem Blk.mapCasc_sides (b : Blk) (f : Casc → Casc) : (b.mapCasc f).sides = b.sides := rfl
@[simp] theorem Blk.mapCasc_act (b : Blk) (f : Casc → Casc) : (b.mapCasc f).act = b.act := rfl
@[simp] theorem Blk.mapCasc_switchReq (b : Blk) (f : Casc → Casc) : (b.mapCasc f).switchReq = b.switchReq := rfl
@[simp] theorem Blk.mapCasc_fw (b : Blk) (f : Casc → Casc) : (b.mapCasc f).fw = b.fw := rfl
@[simp] theorem Blk.mapCasc_pw (b : Blk) (f : Casc → Casc) : (b.mapCasc f).pw = b.pw := rfl
@[simp] theorem Blk.mapCasc_nap (b : Blk) (f : Casc → Casc) : (b.mapCasc f).nap = b.nap := rfl
@[simp] theorem Blk.mapCasc_cams (b : Blk) (f : Casc → Casc) : (b.mapCasc f).cams = b.cams := rfl
@[simp] theorem Blk.mapCasc_camDirty (b : Blk) (f : Casc → Casc) : (b.mapCasc f).camDirty = b.camDirty := rfl
@[simp] theorem Blk.mapCasc_streams (b : Blk) (f : Casc → Casc) : (b.mapCasc f).streams = b.streams := rfl
@[simp] theorem Blk.mapCasc_resets (b : Blk) (f : Casc → Casc) : (b.mapCasc f).resets = b.resets := rfl
@[simp] theorem Blk.mapCasc_graze (b : Blk) (f : Casc → Casc) : (b.mapCasc f).graze = b.graze := rfl
@[simp] theorem Blk.mapCasc_napCyc (b : Blk) (f : Casc → Casc) : (b.mapCasc f).napCyc = b.napCyc := rfl
@[simp] theorem Blk.mapCasc_napRest (b : Blk) (f : Casc → Casc) : (b.mapCasc f).napRest = b.napRest := rfl
@[simp] theorem Blk.mapCasc_napTicks (b : Blk) (f : Casc → Casc) : (b.mapCasc f).napTicks = b.napTicks := rfl
@[simp] theorem Blk.mapCasc_msRest (b : Blk) (f : Casc → Casc) : (b.mapCasc f).msRest = b.msRest := rfl
@[simp] theorem Blk.mapCasc_xchg (b : Blk) (f : Casc → Casc) : (b.mapCasc f).xchg = b.xchg := rfl
@[simp] theorem Blk.mapCasc_skipStreams (b : Blk) (f : Casc → Casc) : (b.mapCasc f).skipStreams = b.skipStreams := rfl
@[simp] theorem Blk.mapCasc_capTicks (b : Blk) (f : Casc → Casc) : (b.mapCasc f).capTicks = b.capTicks := rfl
@[simp] theorem Blk.mapCasc_onTicks (b : Blk) (f : Casc → Casc) : (b.mapCasc f).onTicks = b.onTicks := rfl
@[simp] theorem Blk.mapCasc_lifeHSaved (b : Blk) (f : Casc → Casc) : (b.mapCasc f).lifeHSaved = b.lifeHSaved := rfl
@[simp] theorem Blk.mapCasc_fwCut (b : Blk) (f : Casc → Casc) : (b.mapCasc f).fwCut = b.fwCut := rfl
@[simp] theorem Blk.mapCasc_onSaved (b : Blk) (f : Casc → Casc) : (b.mapCasc f).onSaved = b.onSaved := rfl
@[simp] theorem Blk.mapCasc_yieldDue (b : Blk) (f : Casc → Casc) : (b.mapCasc f).yieldDue = b.yieldDue := rfl

@[simp] theorem Blk.mapRx_ax (b : Blk) (p : Fin 6) (f : RxPort → RxPort) : (b.mapRx p f).ax = b.ax := rfl
@[simp] theorem Blk.mapRx_sm (b : Blk) (p : Fin 6) (f : RxPort → RxPort) : (b.mapRx p f).sm = b.sm := rfl
@[simp] theorem Blk.mapRx_planes (b : Blk) (p : Fin 6) (f : RxPort → RxPort) : (b.mapRx p f).planes = b.planes := rfl
@[simp] theorem Blk.mapRx_sess (b : Blk) (p : Fin 6) (f : RxPort → RxPort) : (b.mapRx p f).sess = b.sess := rfl
@[simp] theorem Blk.mapRx_orphanAt (b : Blk) (p : Fin 6) (f : RxPort → RxPort) : (b.mapRx p f).orphanAt = b.orphanAt := rfl
@[simp] theorem Blk.mapRx_lastSid (b : Blk) (p : Fin 6) (f : RxPort → RxPort) : (b.mapRx p f).lastSid = b.lastSid := rfl
@[simp] theorem Blk.mapRx_claimFails (b : Blk) (p : Fin 6) (f : RxPort → RxPort) : (b.mapRx p f).claimFails = b.claimFails := rfl
@[simp] theorem Blk.mapRx_lockout (b : Blk) (p : Fin 6) (f : RxPort → RxPort) : (b.mapRx p f).lockout = b.lockout := rfl
@[simp] theorem Blk.mapRx_ports (b : Blk) (p : Fin 6) (f : RxPort → RxPort) : (b.mapRx p f).ports = b.ports := rfl
@[simp] theorem Blk.mapRx_swath (b : Blk) (p : Fin 6) (f : RxPort → RxPort) : (b.mapRx p f).swath = b.swath := rfl
@[simp] theorem Blk.mapRx_tick (b : Blk) (p : Fin 6) (f : RxPort → RxPort) : (b.mapRx p f).tick = b.tick := rfl
@[simp] theorem Blk.mapRx_plan (b : Blk) (p : Fin 6) (f : RxPort → RxPort) : (b.mapRx p f).plan = b.plan := rfl
@[simp] theorem Blk.mapRx_ledg (b : Blk) (p : Fin 6) (f : RxPort → RxPort) : (b.mapRx p f).ledg = b.ledg := rfl
@[simp] theorem Blk.mapRx_meas (b : Blk) (p : Fin 6) (f : RxPort → RxPort) : (b.mapRx p f).meas = b.meas := rfl
@[simp] theorem Blk.mapRx_sides (b : Blk) (p : Fin 6) (f : RxPort → RxPort) : (b.mapRx p f).sides = b.sides := rfl
@[simp] theorem Blk.mapRx_act (b : Blk) (p : Fin 6) (f : RxPort → RxPort) : (b.mapRx p f).act = b.act := rfl
@[simp] theorem Blk.mapRx_switchReq (b : Blk) (p : Fin 6) (f : RxPort → RxPort) : (b.mapRx p f).switchReq = b.switchReq := rfl
@[simp] theorem Blk.mapRx_fw (b : Blk) (p : Fin 6) (f : RxPort → RxPort) : (b.mapRx p f).fw = b.fw := rfl
@[simp] theorem Blk.mapRx_pw (b : Blk) (p : Fin 6) (f : RxPort → RxPort) : (b.mapRx p f).pw = b.pw := rfl
@[simp] theorem Blk.mapRx_nap (b : Blk) (p : Fin 6) (f : RxPort → RxPort) : (b.mapRx p f).nap = b.nap := rfl
@[simp] theorem Blk.mapRx_cams (b : Blk) (p : Fin 6) (f : RxPort → RxPort) : (b.mapRx p f).cams = b.cams := rfl
@[simp] theorem Blk.mapRx_camDirty (b : Blk) (p : Fin 6) (f : RxPort → RxPort) : (b.mapRx p f).camDirty = b.camDirty := rfl
@[simp] theorem Blk.mapRx_streams (b : Blk) (p : Fin 6) (f : RxPort → RxPort) : (b.mapRx p f).streams = b.streams := rfl
@[simp] theorem Blk.mapRx_resets (b : Blk) (p : Fin 6) (f : RxPort → RxPort) : (b.mapRx p f).resets = b.resets := rfl
@[simp] theorem Blk.mapRx_graze (b : Blk) (p : Fin 6) (f : RxPort → RxPort) : (b.mapRx p f).graze = b.graze := rfl
@[simp] theorem Blk.mapRx_casc (b : Blk) (p : Fin 6) (f : RxPort → RxPort) : (b.mapRx p f).casc = b.casc := rfl
@[simp] theorem Blk.mapRx_napCyc (b : Blk) (p : Fin 6) (f : RxPort → RxPort) : (b.mapRx p f).napCyc = b.napCyc := rfl
@[simp] theorem Blk.mapRx_napRest (b : Blk) (p : Fin 6) (f : RxPort → RxPort) : (b.mapRx p f).napRest = b.napRest := rfl
@[simp] theorem Blk.mapRx_napTicks (b : Blk) (p : Fin 6) (f : RxPort → RxPort) : (b.mapRx p f).napTicks = b.napTicks := rfl
@[simp] theorem Blk.mapRx_msRest (b : Blk) (p : Fin 6) (f : RxPort → RxPort) : (b.mapRx p f).msRest = b.msRest := rfl
@[simp] theorem Blk.mapRx_xchg (b : Blk) (p : Fin 6) (f : RxPort → RxPort) : (b.mapRx p f).xchg = b.xchg := rfl
@[simp] theorem Blk.mapRx_skipStreams (b : Blk) (p : Fin 6) (f : RxPort → RxPort) : (b.mapRx p f).skipStreams = b.skipStreams := rfl
@[simp] theorem Blk.mapRx_capTicks (b : Blk) (p : Fin 6) (f : RxPort → RxPort) : (b.mapRx p f).capTicks = b.capTicks := rfl
@[simp] theorem Blk.mapRx_onTicks (b : Blk) (p : Fin 6) (f : RxPort → RxPort) : (b.mapRx p f).onTicks = b.onTicks := rfl
@[simp] theorem Blk.mapRx_lifeHSaved (b : Blk) (p : Fin 6) (f : RxPort → RxPort) : (b.mapRx p f).lifeHSaved = b.lifeHSaved := rfl
@[simp] theorem Blk.mapRx_fwCut (b : Blk) (p : Fin 6) (f : RxPort → RxPort) : (b.mapRx p f).fwCut = b.fwCut := rfl
@[simp] theorem Blk.mapRx_onSaved (b : Blk) (p : Fin 6) (f : RxPort → RxPort) : (b.mapRx p f).onSaved = b.onSaved := rfl
@[simp] theorem Blk.mapRx_yieldDue (b : Blk) (p : Fin 6) (f : RxPort → RxPort) : (b.mapRx p f).yieldDue = b.yieldDue := rfl

@[simp] theorem Blk.take_ax (b : Blk) (q : Req) : (b.take q).ax = b.ax := rfl
@[simp] theorem Blk.take_rx (b : Blk) (q : Req) : (b.take q).rx = b.rx := rfl
@[simp] theorem Blk.take_sm (b : Blk) (q : Req) : (b.take q).sm = b.sm := rfl
@[simp] theorem Blk.take_sess (b : Blk) (q : Req) : (b.take q).sess = b.sess := rfl
@[simp] theorem Blk.take_orphanAt (b : Blk) (q : Req) : (b.take q).orphanAt = b.orphanAt := rfl
@[simp] theorem Blk.take_lastSid (b : Blk) (q : Req) : (b.take q).lastSid = b.lastSid := rfl
@[simp] theorem Blk.take_claimFails (b : Blk) (q : Req) : (b.take q).claimFails = b.claimFails := rfl
@[simp] theorem Blk.take_lockout (b : Blk) (q : Req) : (b.take q).lockout = b.lockout := rfl
@[simp] theorem Blk.take_ports (b : Blk) (q : Req) : (b.take q).ports = b.ports := rfl
@[simp] theorem Blk.take_swath (b : Blk) (q : Req) : (b.take q).swath = b.swath := rfl
@[simp] theorem Blk.take_tick (b : Blk) (q : Req) : (b.take q).tick = b.tick := rfl
@[simp] theorem Blk.take_plan (b : Blk) (q : Req) : (b.take q).plan = b.plan := rfl
@[simp] theorem Blk.take_ledg (b : Blk) (q : Req) : (b.take q).ledg = b.ledg := rfl
@[simp] theorem Blk.take_meas (b : Blk) (q : Req) : (b.take q).meas = b.meas := rfl
@[simp] theorem Blk.take_sides (b : Blk) (q : Req) : (b.take q).sides = b.sides := rfl
@[simp] theorem Blk.take_act (b : Blk) (q : Req) : (b.take q).act = b.act := rfl
@[simp] theorem Blk.take_switchReq (b : Blk) (q : Req) : (b.take q).switchReq = b.switchReq := rfl
@[simp] theorem Blk.take_fw (b : Blk) (q : Req) : (b.take q).fw = b.fw := rfl
@[simp] theorem Blk.take_pw (b : Blk) (q : Req) : (b.take q).pw = b.pw := rfl
@[simp] theorem Blk.take_nap (b : Blk) (q : Req) : (b.take q).nap = b.nap := rfl
@[simp] theorem Blk.take_cams (b : Blk) (q : Req) : (b.take q).cams = b.cams := rfl
@[simp] theorem Blk.take_camDirty (b : Blk) (q : Req) : (b.take q).camDirty = b.camDirty := rfl
@[simp] theorem Blk.take_streams (b : Blk) (q : Req) : (b.take q).streams = b.streams := rfl
@[simp] theorem Blk.take_resets (b : Blk) (q : Req) : (b.take q).resets = b.resets := rfl
@[simp] theorem Blk.take_graze (b : Blk) (q : Req) : (b.take q).graze = b.graze := rfl
@[simp] theorem Blk.take_casc (b : Blk) (q : Req) : (b.take q).casc = b.casc := rfl
@[simp] theorem Blk.take_napCyc (b : Blk) (q : Req) : (b.take q).napCyc = b.napCyc := rfl
@[simp] theorem Blk.take_napRest (b : Blk) (q : Req) : (b.take q).napRest = b.napRest := rfl
@[simp] theorem Blk.take_napTicks (b : Blk) (q : Req) : (b.take q).napTicks = b.napTicks := rfl
@[simp] theorem Blk.take_msRest (b : Blk) (q : Req) : (b.take q).msRest = b.msRest := rfl
@[simp] theorem Blk.take_xchg (b : Blk) (q : Req) : (b.take q).xchg = b.xchg := rfl
@[simp] theorem Blk.take_skipStreams (b : Blk) (q : Req) : (b.take q).skipStreams = b.skipStreams := rfl
@[simp] theorem Blk.take_capTicks (b : Blk) (q : Req) : (b.take q).capTicks = b.capTicks := rfl
@[simp] theorem Blk.take_onTicks (b : Blk) (q : Req) : (b.take q).onTicks = b.onTicks := rfl
@[simp] theorem Blk.take_lifeHSaved (b : Blk) (q : Req) : (b.take q).lifeHSaved = b.lifeHSaved := rfl
@[simp] theorem Blk.take_fwCut (b : Blk) (q : Req) : (b.take q).fwCut = b.fwCut := rfl
@[simp] theorem Blk.take_onSaved (b : Blk) (q : Req) : (b.take q).onSaved = b.onSaved := rfl

@[simp] theorem Blk.served_ax (b : Blk) (h : Hdr) : (b.served h).ax = b.ax := rfl
@[simp] theorem Blk.served_sm (b : Blk) (h : Hdr) : (b.served h).sm = b.sm := rfl
@[simp] theorem Blk.served_planes (b : Blk) (h : Hdr) : (b.served h).planes = b.planes := rfl
@[simp] theorem Blk.served_sess (b : Blk) (h : Hdr) : (b.served h).sess = b.sess := rfl
@[simp] theorem Blk.served_orphanAt (b : Blk) (h : Hdr) : (b.served h).orphanAt = b.orphanAt := rfl
@[simp] theorem Blk.served_lastSid (b : Blk) (h : Hdr) : (b.served h).lastSid = b.lastSid := rfl
@[simp] theorem Blk.served_claimFails (b : Blk) (h : Hdr) : (b.served h).claimFails = b.claimFails := rfl
@[simp] theorem Blk.served_lockout (b : Blk) (h : Hdr) : (b.served h).lockout = b.lockout := rfl
@[simp] theorem Blk.served_ports (b : Blk) (h : Hdr) : (b.served h).ports = b.ports := rfl
@[simp] theorem Blk.served_swath (b : Blk) (h : Hdr) : (b.served h).swath = b.swath := rfl
@[simp] theorem Blk.served_tick (b : Blk) (h : Hdr) : (b.served h).tick = b.tick := rfl
@[simp] theorem Blk.served_plan (b : Blk) (h : Hdr) : (b.served h).plan = b.plan := rfl
@[simp] theorem Blk.served_ledg (b : Blk) (h : Hdr) : (b.served h).ledg = b.ledg := rfl
@[simp] theorem Blk.served_meas (b : Blk) (h : Hdr) : (b.served h).meas = b.meas := rfl
@[simp] theorem Blk.served_sides (b : Blk) (h : Hdr) : (b.served h).sides = b.sides := rfl
@[simp] theorem Blk.served_act (b : Blk) (h : Hdr) : (b.served h).act = b.act := rfl
@[simp] theorem Blk.served_switchReq (b : Blk) (h : Hdr) : (b.served h).switchReq = b.switchReq := rfl
@[simp] theorem Blk.served_fw (b : Blk) (h : Hdr) : (b.served h).fw = b.fw := rfl
@[simp] theorem Blk.served_pw (b : Blk) (h : Hdr) : (b.served h).pw = b.pw := rfl
@[simp] theorem Blk.served_nap (b : Blk) (h : Hdr) : (b.served h).nap = b.nap := rfl
@[simp] theorem Blk.served_cams (b : Blk) (h : Hdr) : (b.served h).cams = b.cams := rfl
@[simp] theorem Blk.served_camDirty (b : Blk) (h : Hdr) : (b.served h).camDirty = b.camDirty := rfl
@[simp] theorem Blk.served_streams (b : Blk) (h : Hdr) : (b.served h).streams = b.streams := rfl
@[simp] theorem Blk.served_resets (b : Blk) (h : Hdr) : (b.served h).resets = b.resets := rfl
@[simp] theorem Blk.served_graze (b : Blk) (h : Hdr) : (b.served h).graze = b.graze := rfl
@[simp] theorem Blk.served_casc (b : Blk) (h : Hdr) : (b.served h).casc = b.casc := rfl
@[simp] theorem Blk.served_napCyc (b : Blk) (h : Hdr) : (b.served h).napCyc = b.napCyc := rfl
@[simp] theorem Blk.served_napRest (b : Blk) (h : Hdr) : (b.served h).napRest = b.napRest := rfl
@[simp] theorem Blk.served_napTicks (b : Blk) (h : Hdr) : (b.served h).napTicks = b.napTicks := rfl
@[simp] theorem Blk.served_msRest (b : Blk) (h : Hdr) : (b.served h).msRest = b.msRest := rfl
@[simp] theorem Blk.served_xchg (b : Blk) (h : Hdr) : (b.served h).xchg = b.xchg := rfl
@[simp] theorem Blk.served_skipStreams (b : Blk) (h : Hdr) : (b.served h).skipStreams = b.skipStreams := rfl
@[simp] theorem Blk.served_capTicks (b : Blk) (h : Hdr) : (b.served h).capTicks = b.capTicks := rfl
@[simp] theorem Blk.served_onTicks (b : Blk) (h : Hdr) : (b.served h).onTicks = b.onTicks := rfl
@[simp] theorem Blk.served_lifeHSaved (b : Blk) (h : Hdr) : (b.served h).lifeHSaved = b.lifeHSaved := rfl
@[simp] theorem Blk.served_fwCut (b : Blk) (h : Hdr) : (b.served h).fwCut = b.fwCut := rfl
@[simp] theorem Blk.served_onSaved (b : Blk) (h : Hdr) : (b.served h).onSaved = b.onSaved := rfl
@[simp] theorem Blk.served_yieldDue (b : Blk) (h : Hdr) : (b.served h).yieldDue = b.yieldDue := rfl

@[simp] theorem Axis.set_force (a : Axis) (f : Fld) (v : Nat) : (a.set f v).force = a.force := rfl
@[simp] theorem Axis.set_stamps (a : Axis) (f : Fld) (v : Nat) : (a.set f v).stamps = a.stamps := rfl
@[simp] theorem Axis.set_motor (a : Axis) (f : Fld) (v : Nat) : (a.set f v).motor = a.motor := rfl
@[simp] theorem Axis.set_legs (a : Axis) (f : Fld) (v : Nat) : (a.set f v).legs = a.legs := rfl
@[simp] theorem Axis.set_trip (a : Axis) (f : Fld) (v : Nat) : (a.set f v).trip = a.trip := rfl
@[simp] theorem Axis.set_pwm (a : Axis) (f : Fld) (v : Nat) : (a.set f v).pwm = a.pwm := rfl
@[simp] theorem Axis.set_reg (a : Axis) (f : Fld) (v : Nat) : (a.set f v).reg = a.reg := rfl
@[simp] theorem Axis.set_bl (a : Axis) (f : Fld) (v : Nat) : (a.set f v).bl = a.bl := rfl
@[simp] theorem Axis.set_mot (a : Axis) (f : Fld) (v : Nat) : (a.set f v).mot = a.mot := rfl
@[simp] theorem Axis.set_slc (a : Axis) (f : Fld) (v : Nat) : (a.set f v).slc = a.slc := rfl
@[simp] theorem Axis.set_model (a : Axis) (f : Fld) (v : Nat) : (a.set f v).model = a.model := rfl
@[simp] theorem Axis.set_speedZones (a : Axis) (f : Fld) (v : Nat) : (a.set f v).speedZones = a.speedZones := rfl
@[simp] theorem Axis.set_forceZones (a : Axis) (f : Fld) (v : Nat) : (a.set f v).forceZones = a.forceZones := rfl
@[simp] theorem Axis.set_corr (a : Axis) (f : Fld) (v : Nat) : (a.set f v).corr = a.corr := rfl
@[simp] theorem Axis.set_corrNext (a : Axis) (f : Fld) (v : Nat) : (a.set f v).corrNext = a.corrNext := rfl
@[simp] theorem Axis.set_corrLoad (a : Axis) (f : Fld) (v : Nat) : (a.set f v).corrLoad = a.corrLoad := rfl
@[simp] theorem Axis.set_learned (a : Axis) (f : Fld) (v : Nat) : (a.set f v).learned = a.learned := rfl
@[simp] theorem Axis.set_plan (a : Axis) (f : Fld) (v : Nat) : (a.set f v).plan = a.plan := rfl
@[simp] theorem Axis.set_planned (a : Axis) (f : Fld) (v : Nat) : (a.set f v).planned = a.planned := rfl
@[simp] theorem Axis.set_nv (a : Axis) (f : Fld) (v : Nat) : (a.set f v).nv = a.nv := rfl
@[simp] theorem Axis.set_nvPending (a : Axis) (f : Fld) (v : Nat) : (a.set f v).nvPending = a.nvPending := rfl
@[simp] theorem Axis.set_calSelf (a : Axis) (f : Fld) (v : Nat) : (a.set f v).calSelf = a.calSelf := rfl
@[simp] theorem Axis.set_reqs (a : Axis) (f : Fld) (v : Nat) : (a.set f v).reqs = a.reqs := rfl
@[simp] theorem Axis.set_held (a : Axis) (f : Fld) (v : Nat) : (a.set f v).held = a.held := rfl
@[simp] theorem Axis.set_eOut (a : Axis) (f : Fld) (v : Nat) : (a.set f v).eOut = a.eOut := rfl
@[simp] theorem Axis.set_eRegen (a : Axis) (f : Fld) (v : Nat) : (a.set f v).eRegen = a.eRegen := rfl
@[simp] theorem Axis.set_eSub (a : Axis) (f : Fld) (v : Nat) : (a.set f v).eSub = a.eSub := rfl
@[simp] theorem Axis.set_rSub (a : Axis) (f : Fld) (v : Nat) : (a.set f v).rSub = a.rSub := rfl
@[simp] theorem Axis.set_life (a : Axis) (f : Fld) (v : Nat) : (a.set f v).life = a.life := rfl
@[simp] theorem Axis.set_lifeSaved (a : Axis) (f : Fld) (v : Nat) : (a.set f v).lifeSaved = a.lifeSaved := rfl
@[simp] theorem Axis.set_lifeRest (a : Axis) (f : Fld) (v : Nat) : (a.set f v).lifeRest = a.lifeRest := rfl

@[simp] theorem Axis.setS_force (a : Axis) (f : Fld) (v : Int) : (a.setS f v).force = a.force := rfl
@[simp] theorem Axis.setS_stamps (a : Axis) (f : Fld) (v : Int) : (a.setS f v).stamps = a.stamps := rfl
@[simp] theorem Axis.setS_motor (a : Axis) (f : Fld) (v : Int) : (a.setS f v).motor = a.motor := rfl
@[simp] theorem Axis.setS_legs (a : Axis) (f : Fld) (v : Int) : (a.setS f v).legs = a.legs := rfl
@[simp] theorem Axis.setS_trip (a : Axis) (f : Fld) (v : Int) : (a.setS f v).trip = a.trip := rfl
@[simp] theorem Axis.setS_pwm (a : Axis) (f : Fld) (v : Int) : (a.setS f v).pwm = a.pwm := rfl
@[simp] theorem Axis.setS_reg (a : Axis) (f : Fld) (v : Int) : (a.setS f v).reg = a.reg := rfl
@[simp] theorem Axis.setS_bl (a : Axis) (f : Fld) (v : Int) : (a.setS f v).bl = a.bl := rfl
@[simp] theorem Axis.setS_mot (a : Axis) (f : Fld) (v : Int) : (a.setS f v).mot = a.mot := rfl
@[simp] theorem Axis.setS_slc (a : Axis) (f : Fld) (v : Int) : (a.setS f v).slc = a.slc := rfl
@[simp] theorem Axis.setS_model (a : Axis) (f : Fld) (v : Int) : (a.setS f v).model = a.model := rfl
@[simp] theorem Axis.setS_speedZones (a : Axis) (f : Fld) (v : Int) : (a.setS f v).speedZones = a.speedZones := rfl
@[simp] theorem Axis.setS_forceZones (a : Axis) (f : Fld) (v : Int) : (a.setS f v).forceZones = a.forceZones := rfl
@[simp] theorem Axis.setS_corr (a : Axis) (f : Fld) (v : Int) : (a.setS f v).corr = a.corr := rfl
@[simp] theorem Axis.setS_corrNext (a : Axis) (f : Fld) (v : Int) : (a.setS f v).corrNext = a.corrNext := rfl
@[simp] theorem Axis.setS_corrLoad (a : Axis) (f : Fld) (v : Int) : (a.setS f v).corrLoad = a.corrLoad := rfl
@[simp] theorem Axis.setS_learned (a : Axis) (f : Fld) (v : Int) : (a.setS f v).learned = a.learned := rfl
@[simp] theorem Axis.setS_plan (a : Axis) (f : Fld) (v : Int) : (a.setS f v).plan = a.plan := rfl
@[simp] theorem Axis.setS_planned (a : Axis) (f : Fld) (v : Int) : (a.setS f v).planned = a.planned := rfl
@[simp] theorem Axis.setS_nv (a : Axis) (f : Fld) (v : Int) : (a.setS f v).nv = a.nv := rfl
@[simp] theorem Axis.setS_nvPending (a : Axis) (f : Fld) (v : Int) : (a.setS f v).nvPending = a.nvPending := rfl
@[simp] theorem Axis.setS_calSelf (a : Axis) (f : Fld) (v : Int) : (a.setS f v).calSelf = a.calSelf := rfl
@[simp] theorem Axis.setS_reqs (a : Axis) (f : Fld) (v : Int) : (a.setS f v).reqs = a.reqs := rfl
@[simp] theorem Axis.setS_held (a : Axis) (f : Fld) (v : Int) : (a.setS f v).held = a.held := rfl
@[simp] theorem Axis.setS_eOut (a : Axis) (f : Fld) (v : Int) : (a.setS f v).eOut = a.eOut := rfl
@[simp] theorem Axis.setS_eRegen (a : Axis) (f : Fld) (v : Int) : (a.setS f v).eRegen = a.eRegen := rfl
@[simp] theorem Axis.setS_eSub (a : Axis) (f : Fld) (v : Int) : (a.setS f v).eSub = a.eSub := rfl
@[simp] theorem Axis.setS_rSub (a : Axis) (f : Fld) (v : Int) : (a.setS f v).rSub = a.rSub := rfl
@[simp] theorem Axis.setS_life (a : Axis) (f : Fld) (v : Int) : (a.setS f v).life = a.life := rfl
@[simp] theorem Axis.setS_lifeSaved (a : Axis) (f : Fld) (v : Int) : (a.setS f v).lifeSaved = a.lifeSaved := rfl
@[simp] theorem Axis.setS_lifeRest (a : Axis) (f : Fld) (v : Int) : (a.setS f v).lifeRest = a.lifeRest := rfl

@[simp] theorem Axis.setB_force (a : Axis) (f : Fld) (v : Bool) : (a.setB f v).force = a.force := rfl
@[simp] theorem Axis.setB_stamps (a : Axis) (f : Fld) (v : Bool) : (a.setB f v).stamps = a.stamps := rfl
@[simp] theorem Axis.setB_motor (a : Axis) (f : Fld) (v : Bool) : (a.setB f v).motor = a.motor := rfl
@[simp] theorem Axis.setB_legs (a : Axis) (f : Fld) (v : Bool) : (a.setB f v).legs = a.legs := rfl
@[simp] theorem Axis.setB_trip (a : Axis) (f : Fld) (v : Bool) : (a.setB f v).trip = a.trip := rfl
@[simp] theorem Axis.setB_pwm (a : Axis) (f : Fld) (v : Bool) : (a.setB f v).pwm = a.pwm := rfl
@[simp] theorem Axis.setB_reg (a : Axis) (f : Fld) (v : Bool) : (a.setB f v).reg = a.reg := rfl
@[simp] theorem Axis.setB_bl (a : Axis) (f : Fld) (v : Bool) : (a.setB f v).bl = a.bl := rfl
@[simp] theorem Axis.setB_mot (a : Axis) (f : Fld) (v : Bool) : (a.setB f v).mot = a.mot := rfl
@[simp] theorem Axis.setB_slc (a : Axis) (f : Fld) (v : Bool) : (a.setB f v).slc = a.slc := rfl
@[simp] theorem Axis.setB_model (a : Axis) (f : Fld) (v : Bool) : (a.setB f v).model = a.model := rfl
@[simp] theorem Axis.setB_speedZones (a : Axis) (f : Fld) (v : Bool) : (a.setB f v).speedZones = a.speedZones := rfl
@[simp] theorem Axis.setB_forceZones (a : Axis) (f : Fld) (v : Bool) : (a.setB f v).forceZones = a.forceZones := rfl
@[simp] theorem Axis.setB_corr (a : Axis) (f : Fld) (v : Bool) : (a.setB f v).corr = a.corr := rfl
@[simp] theorem Axis.setB_corrNext (a : Axis) (f : Fld) (v : Bool) : (a.setB f v).corrNext = a.corrNext := rfl
@[simp] theorem Axis.setB_corrLoad (a : Axis) (f : Fld) (v : Bool) : (a.setB f v).corrLoad = a.corrLoad := rfl
@[simp] theorem Axis.setB_learned (a : Axis) (f : Fld) (v : Bool) : (a.setB f v).learned = a.learned := rfl
@[simp] theorem Axis.setB_plan (a : Axis) (f : Fld) (v : Bool) : (a.setB f v).plan = a.plan := rfl
@[simp] theorem Axis.setB_planned (a : Axis) (f : Fld) (v : Bool) : (a.setB f v).planned = a.planned := rfl
@[simp] theorem Axis.setB_nv (a : Axis) (f : Fld) (v : Bool) : (a.setB f v).nv = a.nv := rfl
@[simp] theorem Axis.setB_nvPending (a : Axis) (f : Fld) (v : Bool) : (a.setB f v).nvPending = a.nvPending := rfl
@[simp] theorem Axis.setB_calSelf (a : Axis) (f : Fld) (v : Bool) : (a.setB f v).calSelf = a.calSelf := rfl
@[simp] theorem Axis.setB_reqs (a : Axis) (f : Fld) (v : Bool) : (a.setB f v).reqs = a.reqs := rfl
@[simp] theorem Axis.setB_held (a : Axis) (f : Fld) (v : Bool) : (a.setB f v).held = a.held := rfl
@[simp] theorem Axis.setB_eOut (a : Axis) (f : Fld) (v : Bool) : (a.setB f v).eOut = a.eOut := rfl
@[simp] theorem Axis.setB_eRegen (a : Axis) (f : Fld) (v : Bool) : (a.setB f v).eRegen = a.eRegen := rfl
@[simp] theorem Axis.setB_eSub (a : Axis) (f : Fld) (v : Bool) : (a.setB f v).eSub = a.eSub := rfl
@[simp] theorem Axis.setB_rSub (a : Axis) (f : Fld) (v : Bool) : (a.setB f v).rSub = a.rSub := rfl
@[simp] theorem Axis.setB_life (a : Axis) (f : Fld) (v : Bool) : (a.setB f v).life = a.life := rfl
@[simp] theorem Axis.setB_lifeSaved (a : Axis) (f : Fld) (v : Bool) : (a.setB f v).lifeSaved = a.lifeSaved := rfl
@[simp] theorem Axis.setB_lifeRest (a : Axis) (f : Fld) (v : Bool) : (a.setB f v).lifeRest = a.lifeRest := rfl

@[simp] theorem Axis.count_force (a : Axis) (f : Fld) : (a.count f).force = a.force := rfl
@[simp] theorem Axis.count_stamps (a : Axis) (f : Fld) : (a.count f).stamps = a.stamps := rfl
@[simp] theorem Axis.count_motor (a : Axis) (f : Fld) : (a.count f).motor = a.motor := rfl
@[simp] theorem Axis.count_legs (a : Axis) (f : Fld) : (a.count f).legs = a.legs := rfl
@[simp] theorem Axis.count_trip (a : Axis) (f : Fld) : (a.count f).trip = a.trip := rfl
@[simp] theorem Axis.count_pwm (a : Axis) (f : Fld) : (a.count f).pwm = a.pwm := rfl
@[simp] theorem Axis.count_reg (a : Axis) (f : Fld) : (a.count f).reg = a.reg := rfl
@[simp] theorem Axis.count_bl (a : Axis) (f : Fld) : (a.count f).bl = a.bl := rfl
@[simp] theorem Axis.count_mot (a : Axis) (f : Fld) : (a.count f).mot = a.mot := rfl
@[simp] theorem Axis.count_slc (a : Axis) (f : Fld) : (a.count f).slc = a.slc := rfl
@[simp] theorem Axis.count_model (a : Axis) (f : Fld) : (a.count f).model = a.model := rfl
@[simp] theorem Axis.count_speedZones (a : Axis) (f : Fld) : (a.count f).speedZones = a.speedZones := rfl
@[simp] theorem Axis.count_forceZones (a : Axis) (f : Fld) : (a.count f).forceZones = a.forceZones := rfl
@[simp] theorem Axis.count_corr (a : Axis) (f : Fld) : (a.count f).corr = a.corr := rfl
@[simp] theorem Axis.count_corrNext (a : Axis) (f : Fld) : (a.count f).corrNext = a.corrNext := rfl
@[simp] theorem Axis.count_corrLoad (a : Axis) (f : Fld) : (a.count f).corrLoad = a.corrLoad := rfl
@[simp] theorem Axis.count_learned (a : Axis) (f : Fld) : (a.count f).learned = a.learned := rfl
@[simp] theorem Axis.count_plan (a : Axis) (f : Fld) : (a.count f).plan = a.plan := rfl
@[simp] theorem Axis.count_planned (a : Axis) (f : Fld) : (a.count f).planned = a.planned := rfl
@[simp] theorem Axis.count_nv (a : Axis) (f : Fld) : (a.count f).nv = a.nv := rfl
@[simp] theorem Axis.count_nvPending (a : Axis) (f : Fld) : (a.count f).nvPending = a.nvPending := rfl
@[simp] theorem Axis.count_calSelf (a : Axis) (f : Fld) : (a.count f).calSelf = a.calSelf := rfl
@[simp] theorem Axis.count_reqs (a : Axis) (f : Fld) : (a.count f).reqs = a.reqs := rfl
@[simp] theorem Axis.count_held (a : Axis) (f : Fld) : (a.count f).held = a.held := rfl
@[simp] theorem Axis.count_eOut (a : Axis) (f : Fld) : (a.count f).eOut = a.eOut := rfl
@[simp] theorem Axis.count_eRegen (a : Axis) (f : Fld) : (a.count f).eRegen = a.eRegen := rfl
@[simp] theorem Axis.count_eSub (a : Axis) (f : Fld) : (a.count f).eSub = a.eSub := rfl
@[simp] theorem Axis.count_rSub (a : Axis) (f : Fld) : (a.count f).rSub = a.rSub := rfl
@[simp] theorem Axis.count_life (a : Axis) (f : Fld) : (a.count f).life = a.life := rfl
@[simp] theorem Axis.count_lifeSaved (a : Axis) (f : Fld) : (a.count f).lifeSaved = a.lifeSaved := rfl
@[simp] theorem Axis.count_lifeRest (a : Axis) (f : Fld) : (a.count f).lifeRest = a.lifeRest := rfl

@[simp] theorem Cell.mot_ax_force (c : Cell) (f : Motion → Motion) : (c.mot f).ax.force = c.ax.force := rfl
@[simp] theorem Cell.mot_ax_stamps (c : Cell) (f : Motion → Motion) : (c.mot f).ax.stamps = c.ax.stamps := rfl
@[simp] theorem Cell.mot_ax_motor (c : Cell) (f : Motion → Motion) : (c.mot f).ax.motor = c.ax.motor := rfl
@[simp] theorem Cell.mot_ax_legs (c : Cell) (f : Motion → Motion) : (c.mot f).ax.legs = c.ax.legs := rfl
@[simp] theorem Cell.mot_ax_trip (c : Cell) (f : Motion → Motion) : (c.mot f).ax.trip = c.ax.trip := rfl
@[simp] theorem Cell.mot_ax_pwm (c : Cell) (f : Motion → Motion) : (c.mot f).ax.pwm = c.ax.pwm := rfl
@[simp] theorem Cell.mot_ax_reg (c : Cell) (f : Motion → Motion) : (c.mot f).ax.reg = c.ax.reg := rfl
@[simp] theorem Cell.mot_ax_bl (c : Cell) (f : Motion → Motion) : (c.mot f).ax.bl = c.ax.bl := rfl
@[simp] theorem Cell.mot_ax_mot (c : Cell) (f : Motion → Motion) : (c.mot f).ax.mot = f c.ax.mot := rfl
@[simp] theorem Cell.mot_ax_slc (c : Cell) (f : Motion → Motion) : (c.mot f).ax.slc = c.ax.slc := rfl
@[simp] theorem Cell.mot_ax_model (c : Cell) (f : Motion → Motion) : (c.mot f).ax.model = c.ax.model := rfl
@[simp] theorem Cell.mot_ax_speedZones (c : Cell) (f : Motion → Motion) : (c.mot f).ax.speedZones = c.ax.speedZones := rfl
@[simp] theorem Cell.mot_ax_forceZones (c : Cell) (f : Motion → Motion) : (c.mot f).ax.forceZones = c.ax.forceZones := rfl
@[simp] theorem Cell.mot_ax_corr (c : Cell) (f : Motion → Motion) : (c.mot f).ax.corr = c.ax.corr := rfl
@[simp] theorem Cell.mot_ax_corrNext (c : Cell) (f : Motion → Motion) : (c.mot f).ax.corrNext = c.ax.corrNext := rfl
@[simp] theorem Cell.mot_ax_corrLoad (c : Cell) (f : Motion → Motion) : (c.mot f).ax.corrLoad = c.ax.corrLoad := rfl
@[simp] theorem Cell.mot_ax_learned (c : Cell) (f : Motion → Motion) : (c.mot f).ax.learned = c.ax.learned := rfl
@[simp] theorem Cell.mot_ax_plan (c : Cell) (f : Motion → Motion) : (c.mot f).ax.plan = c.ax.plan := rfl
@[simp] theorem Cell.mot_ax_planned (c : Cell) (f : Motion → Motion) : (c.mot f).ax.planned = c.ax.planned := rfl
@[simp] theorem Cell.mot_ax_nv (c : Cell) (f : Motion → Motion) : (c.mot f).ax.nv = c.ax.nv := rfl
@[simp] theorem Cell.mot_ax_nvPending (c : Cell) (f : Motion → Motion) : (c.mot f).ax.nvPending = c.ax.nvPending := rfl
@[simp] theorem Cell.mot_ax_calSelf (c : Cell) (f : Motion → Motion) : (c.mot f).ax.calSelf = c.ax.calSelf := rfl
@[simp] theorem Cell.mot_ax_reqs (c : Cell) (f : Motion → Motion) : (c.mot f).ax.reqs = c.ax.reqs := rfl
@[simp] theorem Cell.mot_ax_held (c : Cell) (f : Motion → Motion) : (c.mot f).ax.held = c.ax.held := rfl
@[simp] theorem Cell.mot_ax_eOut (c : Cell) (f : Motion → Motion) : (c.mot f).ax.eOut = c.ax.eOut := rfl
@[simp] theorem Cell.mot_ax_eRegen (c : Cell) (f : Motion → Motion) : (c.mot f).ax.eRegen = c.ax.eRegen := rfl
@[simp] theorem Cell.mot_ax_eSub (c : Cell) (f : Motion → Motion) : (c.mot f).ax.eSub = c.ax.eSub := rfl
@[simp] theorem Cell.mot_ax_rSub (c : Cell) (f : Motion → Motion) : (c.mot f).ax.rSub = c.ax.rSub := rfl
@[simp] theorem Cell.mot_ax_life (c : Cell) (f : Motion → Motion) : (c.mot f).ax.life = c.ax.life := rfl
@[simp] theorem Cell.mot_ax_lifeSaved (c : Cell) (f : Motion → Motion) : (c.mot f).ax.lifeSaved = c.ax.lifeSaved := rfl
@[simp] theorem Cell.mot_ax_lifeRest (c : Cell) (f : Motion → Motion) : (c.mot f).ax.lifeRest = c.ax.lifeRest := rfl
@[simp] theorem Cell.mot_ax_regs (c : Cell) (f : Motion → Motion) : (c.mot f).ax.regs = c.ax.regs := rfl
@[simp] theorem Cell.mot_now (c : Cell) (f : Motion → Motion) : (c.mot f).now = c.now := rfl
@[simp] theorem Cell.mot_flags (c : Cell) (f : Motion → Motion) : (c.mot f).flags = c.flags := rfl
@[simp] theorem Cell.mot_modFlags (c : Cell) (f : Motion → Motion) : (c.mot f).modFlags = c.modFlags := rfl
@[simp] theorem Cell.mot_events (c : Cell) (f : Motion → Motion) : (c.mot f).events = c.events := rfl

@[simp] theorem Cell.legs_ax_force (c : Cell) (f : Legs → Legs) : (c.legs f).ax.force = c.ax.force := rfl
@[simp] theorem Cell.legs_ax_stamps (c : Cell) (f : Legs → Legs) : (c.legs f).ax.stamps = c.ax.stamps := rfl
@[simp] theorem Cell.legs_ax_motor (c : Cell) (f : Legs → Legs) : (c.legs f).ax.motor = c.ax.motor := rfl
@[simp] theorem Cell.legs_ax_legs (c : Cell) (f : Legs → Legs) : (c.legs f).ax.legs = f c.ax.legs := rfl
@[simp] theorem Cell.legs_ax_trip (c : Cell) (f : Legs → Legs) : (c.legs f).ax.trip = c.ax.trip := rfl
@[simp] theorem Cell.legs_ax_pwm (c : Cell) (f : Legs → Legs) : (c.legs f).ax.pwm = c.ax.pwm := rfl
@[simp] theorem Cell.legs_ax_reg (c : Cell) (f : Legs → Legs) : (c.legs f).ax.reg = c.ax.reg := rfl
@[simp] theorem Cell.legs_ax_bl (c : Cell) (f : Legs → Legs) : (c.legs f).ax.bl = c.ax.bl := rfl
@[simp] theorem Cell.legs_ax_mot (c : Cell) (f : Legs → Legs) : (c.legs f).ax.mot = c.ax.mot := rfl
@[simp] theorem Cell.legs_ax_slc (c : Cell) (f : Legs → Legs) : (c.legs f).ax.slc = c.ax.slc := rfl
@[simp] theorem Cell.legs_ax_model (c : Cell) (f : Legs → Legs) : (c.legs f).ax.model = c.ax.model := rfl
@[simp] theorem Cell.legs_ax_speedZones (c : Cell) (f : Legs → Legs) : (c.legs f).ax.speedZones = c.ax.speedZones := rfl
@[simp] theorem Cell.legs_ax_forceZones (c : Cell) (f : Legs → Legs) : (c.legs f).ax.forceZones = c.ax.forceZones := rfl
@[simp] theorem Cell.legs_ax_corr (c : Cell) (f : Legs → Legs) : (c.legs f).ax.corr = c.ax.corr := rfl
@[simp] theorem Cell.legs_ax_corrNext (c : Cell) (f : Legs → Legs) : (c.legs f).ax.corrNext = c.ax.corrNext := rfl
@[simp] theorem Cell.legs_ax_corrLoad (c : Cell) (f : Legs → Legs) : (c.legs f).ax.corrLoad = c.ax.corrLoad := rfl
@[simp] theorem Cell.legs_ax_learned (c : Cell) (f : Legs → Legs) : (c.legs f).ax.learned = c.ax.learned := rfl
@[simp] theorem Cell.legs_ax_plan (c : Cell) (f : Legs → Legs) : (c.legs f).ax.plan = c.ax.plan := rfl
@[simp] theorem Cell.legs_ax_planned (c : Cell) (f : Legs → Legs) : (c.legs f).ax.planned = c.ax.planned := rfl
@[simp] theorem Cell.legs_ax_nv (c : Cell) (f : Legs → Legs) : (c.legs f).ax.nv = c.ax.nv := rfl
@[simp] theorem Cell.legs_ax_nvPending (c : Cell) (f : Legs → Legs) : (c.legs f).ax.nvPending = c.ax.nvPending := rfl
@[simp] theorem Cell.legs_ax_calSelf (c : Cell) (f : Legs → Legs) : (c.legs f).ax.calSelf = c.ax.calSelf := rfl
@[simp] theorem Cell.legs_ax_reqs (c : Cell) (f : Legs → Legs) : (c.legs f).ax.reqs = c.ax.reqs := rfl
@[simp] theorem Cell.legs_ax_held (c : Cell) (f : Legs → Legs) : (c.legs f).ax.held = c.ax.held := rfl
@[simp] theorem Cell.legs_ax_eOut (c : Cell) (f : Legs → Legs) : (c.legs f).ax.eOut = c.ax.eOut := rfl
@[simp] theorem Cell.legs_ax_eRegen (c : Cell) (f : Legs → Legs) : (c.legs f).ax.eRegen = c.ax.eRegen := rfl
@[simp] theorem Cell.legs_ax_eSub (c : Cell) (f : Legs → Legs) : (c.legs f).ax.eSub = c.ax.eSub := rfl
@[simp] theorem Cell.legs_ax_rSub (c : Cell) (f : Legs → Legs) : (c.legs f).ax.rSub = c.ax.rSub := rfl
@[simp] theorem Cell.legs_ax_life (c : Cell) (f : Legs → Legs) : (c.legs f).ax.life = c.ax.life := rfl
@[simp] theorem Cell.legs_ax_lifeSaved (c : Cell) (f : Legs → Legs) : (c.legs f).ax.lifeSaved = c.ax.lifeSaved := rfl
@[simp] theorem Cell.legs_ax_lifeRest (c : Cell) (f : Legs → Legs) : (c.legs f).ax.lifeRest = c.ax.lifeRest := rfl
@[simp] theorem Cell.legs_ax_regs (c : Cell) (f : Legs → Legs) : (c.legs f).ax.regs = c.ax.regs := rfl
@[simp] theorem Cell.legs_now (c : Cell) (f : Legs → Legs) : (c.legs f).now = c.now := rfl
@[simp] theorem Cell.legs_flags (c : Cell) (f : Legs → Legs) : (c.legs f).flags = c.flags := rfl
@[simp] theorem Cell.legs_modFlags (c : Cell) (f : Legs → Legs) : (c.legs f).modFlags = c.modFlags := rfl
@[simp] theorem Cell.legs_events (c : Cell) (f : Legs → Legs) : (c.legs f).events = c.events := rfl

@[simp] theorem Cell.trip_ax_force (c : Cell) (f : Trip → Trip) : (c.trip f).ax.force = c.ax.force := rfl
@[simp] theorem Cell.trip_ax_stamps (c : Cell) (f : Trip → Trip) : (c.trip f).ax.stamps = c.ax.stamps := rfl
@[simp] theorem Cell.trip_ax_motor (c : Cell) (f : Trip → Trip) : (c.trip f).ax.motor = c.ax.motor := rfl
@[simp] theorem Cell.trip_ax_legs (c : Cell) (f : Trip → Trip) : (c.trip f).ax.legs = c.ax.legs := rfl
@[simp] theorem Cell.trip_ax_trip (c : Cell) (f : Trip → Trip) : (c.trip f).ax.trip = f c.ax.trip := rfl
@[simp] theorem Cell.trip_ax_pwm (c : Cell) (f : Trip → Trip) : (c.trip f).ax.pwm = c.ax.pwm := rfl
@[simp] theorem Cell.trip_ax_reg (c : Cell) (f : Trip → Trip) : (c.trip f).ax.reg = c.ax.reg := rfl
@[simp] theorem Cell.trip_ax_bl (c : Cell) (f : Trip → Trip) : (c.trip f).ax.bl = c.ax.bl := rfl
@[simp] theorem Cell.trip_ax_mot (c : Cell) (f : Trip → Trip) : (c.trip f).ax.mot = c.ax.mot := rfl
@[simp] theorem Cell.trip_ax_slc (c : Cell) (f : Trip → Trip) : (c.trip f).ax.slc = c.ax.slc := rfl
@[simp] theorem Cell.trip_ax_model (c : Cell) (f : Trip → Trip) : (c.trip f).ax.model = c.ax.model := rfl
@[simp] theorem Cell.trip_ax_speedZones (c : Cell) (f : Trip → Trip) : (c.trip f).ax.speedZones = c.ax.speedZones := rfl
@[simp] theorem Cell.trip_ax_forceZones (c : Cell) (f : Trip → Trip) : (c.trip f).ax.forceZones = c.ax.forceZones := rfl
@[simp] theorem Cell.trip_ax_corr (c : Cell) (f : Trip → Trip) : (c.trip f).ax.corr = c.ax.corr := rfl
@[simp] theorem Cell.trip_ax_corrNext (c : Cell) (f : Trip → Trip) : (c.trip f).ax.corrNext = c.ax.corrNext := rfl
@[simp] theorem Cell.trip_ax_corrLoad (c : Cell) (f : Trip → Trip) : (c.trip f).ax.corrLoad = c.ax.corrLoad := rfl
@[simp] theorem Cell.trip_ax_learned (c : Cell) (f : Trip → Trip) : (c.trip f).ax.learned = c.ax.learned := rfl
@[simp] theorem Cell.trip_ax_plan (c : Cell) (f : Trip → Trip) : (c.trip f).ax.plan = c.ax.plan := rfl
@[simp] theorem Cell.trip_ax_planned (c : Cell) (f : Trip → Trip) : (c.trip f).ax.planned = c.ax.planned := rfl
@[simp] theorem Cell.trip_ax_nv (c : Cell) (f : Trip → Trip) : (c.trip f).ax.nv = c.ax.nv := rfl
@[simp] theorem Cell.trip_ax_nvPending (c : Cell) (f : Trip → Trip) : (c.trip f).ax.nvPending = c.ax.nvPending := rfl
@[simp] theorem Cell.trip_ax_calSelf (c : Cell) (f : Trip → Trip) : (c.trip f).ax.calSelf = c.ax.calSelf := rfl
@[simp] theorem Cell.trip_ax_reqs (c : Cell) (f : Trip → Trip) : (c.trip f).ax.reqs = c.ax.reqs := rfl
@[simp] theorem Cell.trip_ax_held (c : Cell) (f : Trip → Trip) : (c.trip f).ax.held = c.ax.held := rfl
@[simp] theorem Cell.trip_ax_eOut (c : Cell) (f : Trip → Trip) : (c.trip f).ax.eOut = c.ax.eOut := rfl
@[simp] theorem Cell.trip_ax_eRegen (c : Cell) (f : Trip → Trip) : (c.trip f).ax.eRegen = c.ax.eRegen := rfl
@[simp] theorem Cell.trip_ax_eSub (c : Cell) (f : Trip → Trip) : (c.trip f).ax.eSub = c.ax.eSub := rfl
@[simp] theorem Cell.trip_ax_rSub (c : Cell) (f : Trip → Trip) : (c.trip f).ax.rSub = c.ax.rSub := rfl
@[simp] theorem Cell.trip_ax_life (c : Cell) (f : Trip → Trip) : (c.trip f).ax.life = c.ax.life := rfl
@[simp] theorem Cell.trip_ax_lifeSaved (c : Cell) (f : Trip → Trip) : (c.trip f).ax.lifeSaved = c.ax.lifeSaved := rfl
@[simp] theorem Cell.trip_ax_lifeRest (c : Cell) (f : Trip → Trip) : (c.trip f).ax.lifeRest = c.ax.lifeRest := rfl
@[simp] theorem Cell.trip_ax_regs (c : Cell) (f : Trip → Trip) : (c.trip f).ax.regs = c.ax.regs := rfl
@[simp] theorem Cell.trip_now (c : Cell) (f : Trip → Trip) : (c.trip f).now = c.now := rfl
@[simp] theorem Cell.trip_flags (c : Cell) (f : Trip → Trip) : (c.trip f).flags = c.flags := rfl
@[simp] theorem Cell.trip_modFlags (c : Cell) (f : Trip → Trip) : (c.trip f).modFlags = c.modFlags := rfl
@[simp] theorem Cell.trip_events (c : Cell) (f : Trip → Trip) : (c.trip f).events = c.events := rfl

@[simp] theorem Cell.reg_ax_force (c : Cell) (f : Reg → Reg) : (c.reg f).ax.force = c.ax.force := rfl
@[simp] theorem Cell.reg_ax_stamps (c : Cell) (f : Reg → Reg) : (c.reg f).ax.stamps = c.ax.stamps := rfl
@[simp] theorem Cell.reg_ax_motor (c : Cell) (f : Reg → Reg) : (c.reg f).ax.motor = c.ax.motor := rfl
@[simp] theorem Cell.reg_ax_legs (c : Cell) (f : Reg → Reg) : (c.reg f).ax.legs = c.ax.legs := rfl
@[simp] theorem Cell.reg_ax_trip (c : Cell) (f : Reg → Reg) : (c.reg f).ax.trip = c.ax.trip := rfl
@[simp] theorem Cell.reg_ax_pwm (c : Cell) (f : Reg → Reg) : (c.reg f).ax.pwm = c.ax.pwm := rfl
@[simp] theorem Cell.reg_ax_reg (c : Cell) (f : Reg → Reg) : (c.reg f).ax.reg = f c.ax.reg := rfl
@[simp] theorem Cell.reg_ax_bl (c : Cell) (f : Reg → Reg) : (c.reg f).ax.bl = c.ax.bl := rfl
@[simp] theorem Cell.reg_ax_mot (c : Cell) (f : Reg → Reg) : (c.reg f).ax.mot = c.ax.mot := rfl
@[simp] theorem Cell.reg_ax_slc (c : Cell) (f : Reg → Reg) : (c.reg f).ax.slc = c.ax.slc := rfl
@[simp] theorem Cell.reg_ax_model (c : Cell) (f : Reg → Reg) : (c.reg f).ax.model = c.ax.model := rfl
@[simp] theorem Cell.reg_ax_speedZones (c : Cell) (f : Reg → Reg) : (c.reg f).ax.speedZones = c.ax.speedZones := rfl
@[simp] theorem Cell.reg_ax_forceZones (c : Cell) (f : Reg → Reg) : (c.reg f).ax.forceZones = c.ax.forceZones := rfl
@[simp] theorem Cell.reg_ax_corr (c : Cell) (f : Reg → Reg) : (c.reg f).ax.corr = c.ax.corr := rfl
@[simp] theorem Cell.reg_ax_corrNext (c : Cell) (f : Reg → Reg) : (c.reg f).ax.corrNext = c.ax.corrNext := rfl
@[simp] theorem Cell.reg_ax_corrLoad (c : Cell) (f : Reg → Reg) : (c.reg f).ax.corrLoad = c.ax.corrLoad := rfl
@[simp] theorem Cell.reg_ax_learned (c : Cell) (f : Reg → Reg) : (c.reg f).ax.learned = c.ax.learned := rfl
@[simp] theorem Cell.reg_ax_plan (c : Cell) (f : Reg → Reg) : (c.reg f).ax.plan = c.ax.plan := rfl
@[simp] theorem Cell.reg_ax_planned (c : Cell) (f : Reg → Reg) : (c.reg f).ax.planned = c.ax.planned := rfl
@[simp] theorem Cell.reg_ax_nv (c : Cell) (f : Reg → Reg) : (c.reg f).ax.nv = c.ax.nv := rfl
@[simp] theorem Cell.reg_ax_nvPending (c : Cell) (f : Reg → Reg) : (c.reg f).ax.nvPending = c.ax.nvPending := rfl
@[simp] theorem Cell.reg_ax_calSelf (c : Cell) (f : Reg → Reg) : (c.reg f).ax.calSelf = c.ax.calSelf := rfl
@[simp] theorem Cell.reg_ax_reqs (c : Cell) (f : Reg → Reg) : (c.reg f).ax.reqs = c.ax.reqs := rfl
@[simp] theorem Cell.reg_ax_held (c : Cell) (f : Reg → Reg) : (c.reg f).ax.held = c.ax.held := rfl
@[simp] theorem Cell.reg_ax_eOut (c : Cell) (f : Reg → Reg) : (c.reg f).ax.eOut = c.ax.eOut := rfl
@[simp] theorem Cell.reg_ax_eRegen (c : Cell) (f : Reg → Reg) : (c.reg f).ax.eRegen = c.ax.eRegen := rfl
@[simp] theorem Cell.reg_ax_eSub (c : Cell) (f : Reg → Reg) : (c.reg f).ax.eSub = c.ax.eSub := rfl
@[simp] theorem Cell.reg_ax_rSub (c : Cell) (f : Reg → Reg) : (c.reg f).ax.rSub = c.ax.rSub := rfl
@[simp] theorem Cell.reg_ax_life (c : Cell) (f : Reg → Reg) : (c.reg f).ax.life = c.ax.life := rfl
@[simp] theorem Cell.reg_ax_lifeSaved (c : Cell) (f : Reg → Reg) : (c.reg f).ax.lifeSaved = c.ax.lifeSaved := rfl
@[simp] theorem Cell.reg_ax_lifeRest (c : Cell) (f : Reg → Reg) : (c.reg f).ax.lifeRest = c.ax.lifeRest := rfl
@[simp] theorem Cell.reg_ax_regs (c : Cell) (f : Reg → Reg) : (c.reg f).ax.regs = c.ax.regs := rfl
@[simp] theorem Cell.reg_now (c : Cell) (f : Reg → Reg) : (c.reg f).now = c.now := rfl
@[simp] theorem Cell.reg_flags (c : Cell) (f : Reg → Reg) : (c.reg f).flags = c.flags := rfl
@[simp] theorem Cell.reg_modFlags (c : Cell) (f : Reg → Reg) : (c.reg f).modFlags = c.modFlags := rfl
@[simp] theorem Cell.reg_events (c : Cell) (f : Reg → Reg) : (c.reg f).events = c.events := rfl

@[simp] theorem Cell.bl_ax_force (c : Cell) (f : Bl → Bl) : (c.bl f).ax.force = c.ax.force := rfl
@[simp] theorem Cell.bl_ax_stamps (c : Cell) (f : Bl → Bl) : (c.bl f).ax.stamps = c.ax.stamps := rfl
@[simp] theorem Cell.bl_ax_motor (c : Cell) (f : Bl → Bl) : (c.bl f).ax.motor = c.ax.motor := rfl
@[simp] theorem Cell.bl_ax_legs (c : Cell) (f : Bl → Bl) : (c.bl f).ax.legs = c.ax.legs := rfl
@[simp] theorem Cell.bl_ax_trip (c : Cell) (f : Bl → Bl) : (c.bl f).ax.trip = c.ax.trip := rfl
@[simp] theorem Cell.bl_ax_pwm (c : Cell) (f : Bl → Bl) : (c.bl f).ax.pwm = c.ax.pwm := rfl
@[simp] theorem Cell.bl_ax_reg (c : Cell) (f : Bl → Bl) : (c.bl f).ax.reg = c.ax.reg := rfl
@[simp] theorem Cell.bl_ax_bl (c : Cell) (f : Bl → Bl) : (c.bl f).ax.bl = f c.ax.bl := rfl
@[simp] theorem Cell.bl_ax_mot (c : Cell) (f : Bl → Bl) : (c.bl f).ax.mot = c.ax.mot := rfl
@[simp] theorem Cell.bl_ax_slc (c : Cell) (f : Bl → Bl) : (c.bl f).ax.slc = c.ax.slc := rfl
@[simp] theorem Cell.bl_ax_model (c : Cell) (f : Bl → Bl) : (c.bl f).ax.model = c.ax.model := rfl
@[simp] theorem Cell.bl_ax_speedZones (c : Cell) (f : Bl → Bl) : (c.bl f).ax.speedZones = c.ax.speedZones := rfl
@[simp] theorem Cell.bl_ax_forceZones (c : Cell) (f : Bl → Bl) : (c.bl f).ax.forceZones = c.ax.forceZones := rfl
@[simp] theorem Cell.bl_ax_corr (c : Cell) (f : Bl → Bl) : (c.bl f).ax.corr = c.ax.corr := rfl
@[simp] theorem Cell.bl_ax_corrNext (c : Cell) (f : Bl → Bl) : (c.bl f).ax.corrNext = c.ax.corrNext := rfl
@[simp] theorem Cell.bl_ax_corrLoad (c : Cell) (f : Bl → Bl) : (c.bl f).ax.corrLoad = c.ax.corrLoad := rfl
@[simp] theorem Cell.bl_ax_learned (c : Cell) (f : Bl → Bl) : (c.bl f).ax.learned = c.ax.learned := rfl
@[simp] theorem Cell.bl_ax_plan (c : Cell) (f : Bl → Bl) : (c.bl f).ax.plan = c.ax.plan := rfl
@[simp] theorem Cell.bl_ax_planned (c : Cell) (f : Bl → Bl) : (c.bl f).ax.planned = c.ax.planned := rfl
@[simp] theorem Cell.bl_ax_nv (c : Cell) (f : Bl → Bl) : (c.bl f).ax.nv = c.ax.nv := rfl
@[simp] theorem Cell.bl_ax_nvPending (c : Cell) (f : Bl → Bl) : (c.bl f).ax.nvPending = c.ax.nvPending := rfl
@[simp] theorem Cell.bl_ax_calSelf (c : Cell) (f : Bl → Bl) : (c.bl f).ax.calSelf = c.ax.calSelf := rfl
@[simp] theorem Cell.bl_ax_reqs (c : Cell) (f : Bl → Bl) : (c.bl f).ax.reqs = c.ax.reqs := rfl
@[simp] theorem Cell.bl_ax_held (c : Cell) (f : Bl → Bl) : (c.bl f).ax.held = c.ax.held := rfl
@[simp] theorem Cell.bl_ax_eOut (c : Cell) (f : Bl → Bl) : (c.bl f).ax.eOut = c.ax.eOut := rfl
@[simp] theorem Cell.bl_ax_eRegen (c : Cell) (f : Bl → Bl) : (c.bl f).ax.eRegen = c.ax.eRegen := rfl
@[simp] theorem Cell.bl_ax_eSub (c : Cell) (f : Bl → Bl) : (c.bl f).ax.eSub = c.ax.eSub := rfl
@[simp] theorem Cell.bl_ax_rSub (c : Cell) (f : Bl → Bl) : (c.bl f).ax.rSub = c.ax.rSub := rfl
@[simp] theorem Cell.bl_ax_life (c : Cell) (f : Bl → Bl) : (c.bl f).ax.life = c.ax.life := rfl
@[simp] theorem Cell.bl_ax_lifeSaved (c : Cell) (f : Bl → Bl) : (c.bl f).ax.lifeSaved = c.ax.lifeSaved := rfl
@[simp] theorem Cell.bl_ax_lifeRest (c : Cell) (f : Bl → Bl) : (c.bl f).ax.lifeRest = c.ax.lifeRest := rfl
@[simp] theorem Cell.bl_ax_regs (c : Cell) (f : Bl → Bl) : (c.bl f).ax.regs = c.ax.regs := rfl
@[simp] theorem Cell.bl_now (c : Cell) (f : Bl → Bl) : (c.bl f).now = c.now := rfl
@[simp] theorem Cell.bl_flags (c : Cell) (f : Bl → Bl) : (c.bl f).flags = c.flags := rfl
@[simp] theorem Cell.bl_modFlags (c : Cell) (f : Bl → Bl) : (c.bl f).modFlags = c.modFlags := rfl
@[simp] theorem Cell.bl_events (c : Cell) (f : Bl → Bl) : (c.bl f).events = c.events := rfl

@[simp] theorem Cell.pwm_ax_force (c : Cell) (f : Pwm → Pwm) : (c.pwm f).ax.force = c.ax.force := rfl
@[simp] theorem Cell.pwm_ax_stamps (c : Cell) (f : Pwm → Pwm) : (c.pwm f).ax.stamps = c.ax.stamps := rfl
@[simp] theorem Cell.pwm_ax_motor (c : Cell) (f : Pwm → Pwm) : (c.pwm f).ax.motor = c.ax.motor := rfl
@[simp] theorem Cell.pwm_ax_legs (c : Cell) (f : Pwm → Pwm) : (c.pwm f).ax.legs = c.ax.legs := rfl
@[simp] theorem Cell.pwm_ax_trip (c : Cell) (f : Pwm → Pwm) : (c.pwm f).ax.trip = c.ax.trip := rfl
@[simp] theorem Cell.pwm_ax_pwm (c : Cell) (f : Pwm → Pwm) : (c.pwm f).ax.pwm = f c.ax.pwm := rfl
@[simp] theorem Cell.pwm_ax_reg (c : Cell) (f : Pwm → Pwm) : (c.pwm f).ax.reg = c.ax.reg := rfl
@[simp] theorem Cell.pwm_ax_bl (c : Cell) (f : Pwm → Pwm) : (c.pwm f).ax.bl = c.ax.bl := rfl
@[simp] theorem Cell.pwm_ax_mot (c : Cell) (f : Pwm → Pwm) : (c.pwm f).ax.mot = c.ax.mot := rfl
@[simp] theorem Cell.pwm_ax_slc (c : Cell) (f : Pwm → Pwm) : (c.pwm f).ax.slc = c.ax.slc := rfl
@[simp] theorem Cell.pwm_ax_model (c : Cell) (f : Pwm → Pwm) : (c.pwm f).ax.model = c.ax.model := rfl
@[simp] theorem Cell.pwm_ax_speedZones (c : Cell) (f : Pwm → Pwm) : (c.pwm f).ax.speedZones = c.ax.speedZones := rfl
@[simp] theorem Cell.pwm_ax_forceZones (c : Cell) (f : Pwm → Pwm) : (c.pwm f).ax.forceZones = c.ax.forceZones := rfl
@[simp] theorem Cell.pwm_ax_corr (c : Cell) (f : Pwm → Pwm) : (c.pwm f).ax.corr = c.ax.corr := rfl
@[simp] theorem Cell.pwm_ax_corrNext (c : Cell) (f : Pwm → Pwm) : (c.pwm f).ax.corrNext = c.ax.corrNext := rfl
@[simp] theorem Cell.pwm_ax_corrLoad (c : Cell) (f : Pwm → Pwm) : (c.pwm f).ax.corrLoad = c.ax.corrLoad := rfl
@[simp] theorem Cell.pwm_ax_learned (c : Cell) (f : Pwm → Pwm) : (c.pwm f).ax.learned = c.ax.learned := rfl
@[simp] theorem Cell.pwm_ax_plan (c : Cell) (f : Pwm → Pwm) : (c.pwm f).ax.plan = c.ax.plan := rfl
@[simp] theorem Cell.pwm_ax_planned (c : Cell) (f : Pwm → Pwm) : (c.pwm f).ax.planned = c.ax.planned := rfl
@[simp] theorem Cell.pwm_ax_nv (c : Cell) (f : Pwm → Pwm) : (c.pwm f).ax.nv = c.ax.nv := rfl
@[simp] theorem Cell.pwm_ax_nvPending (c : Cell) (f : Pwm → Pwm) : (c.pwm f).ax.nvPending = c.ax.nvPending := rfl
@[simp] theorem Cell.pwm_ax_calSelf (c : Cell) (f : Pwm → Pwm) : (c.pwm f).ax.calSelf = c.ax.calSelf := rfl
@[simp] theorem Cell.pwm_ax_reqs (c : Cell) (f : Pwm → Pwm) : (c.pwm f).ax.reqs = c.ax.reqs := rfl
@[simp] theorem Cell.pwm_ax_held (c : Cell) (f : Pwm → Pwm) : (c.pwm f).ax.held = c.ax.held := rfl
@[simp] theorem Cell.pwm_ax_eOut (c : Cell) (f : Pwm → Pwm) : (c.pwm f).ax.eOut = c.ax.eOut := rfl
@[simp] theorem Cell.pwm_ax_eRegen (c : Cell) (f : Pwm → Pwm) : (c.pwm f).ax.eRegen = c.ax.eRegen := rfl
@[simp] theorem Cell.pwm_ax_eSub (c : Cell) (f : Pwm → Pwm) : (c.pwm f).ax.eSub = c.ax.eSub := rfl
@[simp] theorem Cell.pwm_ax_rSub (c : Cell) (f : Pwm → Pwm) : (c.pwm f).ax.rSub = c.ax.rSub := rfl
@[simp] theorem Cell.pwm_ax_life (c : Cell) (f : Pwm → Pwm) : (c.pwm f).ax.life = c.ax.life := rfl
@[simp] theorem Cell.pwm_ax_lifeSaved (c : Cell) (f : Pwm → Pwm) : (c.pwm f).ax.lifeSaved = c.ax.lifeSaved := rfl
@[simp] theorem Cell.pwm_ax_lifeRest (c : Cell) (f : Pwm → Pwm) : (c.pwm f).ax.lifeRest = c.ax.lifeRest := rfl
@[simp] theorem Cell.pwm_ax_regs (c : Cell) (f : Pwm → Pwm) : (c.pwm f).ax.regs = c.ax.regs := rfl
@[simp] theorem Cell.pwm_now (c : Cell) (f : Pwm → Pwm) : (c.pwm f).now = c.now := rfl
@[simp] theorem Cell.pwm_flags (c : Cell) (f : Pwm → Pwm) : (c.pwm f).flags = c.flags := rfl
@[simp] theorem Cell.pwm_modFlags (c : Cell) (f : Pwm → Pwm) : (c.pwm f).modFlags = c.modFlags := rfl
@[simp] theorem Cell.pwm_events (c : Cell) (f : Pwm → Pwm) : (c.pwm f).events = c.events := rfl

@[simp] theorem Cell.raise_ax (c : Cell) (f : Flag) : (c.raise f).ax = c.ax := rfl
@[simp] theorem Cell.raise_now (c : Cell) (f : Flag) : (c.raise f).now = c.now := rfl
@[simp] theorem Cell.modRaise_ax (c : Cell) (f : Flag) : (c.modRaise f).ax = c.ax := rfl
@[simp] theorem Cell.modRaise_now (c : Cell) (f : Flag) : (c.modRaise f).now = c.now := rfl
@[simp] theorem Cell.event_ax (c : Cell) (k : Nat) (d : List Byte) : (c.event k d).ax = c.ax := rfl
@[simp] theorem Cell.event_now (c : Cell) (k : Nat) (d : List Byte) : (c.event k d).now = c.now := rfl
@[simp] theorem Cell.raiseIf_ax (c : Cell) (x : Bool) (f : Flag) : (c.raiseIf x f).ax = c.ax := by cases x <;> rfl
@[simp] theorem Cell.map_ax (c : Cell) (f : Axis → Axis) : (c.map f).ax = f c.ax := rfl
@[simp] theorem Cell.set_ax (c : Cell) (f : Fld) (v : Nat) : (c.set f v).ax = c.ax.set f v := rfl
@[simp] theorem Cell.set_now (c : Cell) (f : Fld) (v : Nat) : (c.set f v).now = c.now := rfl
@[simp] theorem Cell.setS_ax (c : Cell) (f : Fld) (v : Int) : (c.setS f v).ax = c.ax.setS f v := rfl
@[simp] theorem Cell.setS_now (c : Cell) (f : Fld) (v : Int) : (c.setS f v).now = c.now := rfl
@[simp] theorem Cell.setB_ax (c : Cell) (f : Fld) (v : Bool) : (c.setB f v).ax = c.ax.setB f v := rfl
@[simp] theorem Cell.setB_now (c : Cell) (f : Fld) (v : Bool) : (c.setB f v).now = c.now := rfl
@[simp] theorem Cell.count_ax (c : Cell) (f : Fld) : (c.count f).ax = c.ax.count f := rfl
@[simp] theorem Cell.count_now (c : Cell) (f : Fld) : (c.count f).now = c.now := rfl

theorem Blk.axis_of_ax {b c : Blk} (h : b.ax = c.ax) (n : Fin 48) : b.axis n = c.axis n := by simp [Blk.axis, h]
@[simp] theorem Blk.set_axis (b : Blk) (f : Fld) (v : Nat) (m : Fin 48) : (b.set f v).axis m = b.axis m := rfl
@[simp] theorem Blk.setS_axis (b : Blk) (f : Fld) (v : Int) (m : Fin 48) : (b.setS f v).axis m = b.axis m := rfl
@[simp] theorem Blk.setB_axis (b : Blk) (f : Fld) (v : Bool) (m : Fin 48) : (b.setB f v).axis m = b.axis m := rfl
@[simp] theorem Blk.count_axis (b : Blk) (f : Fld) (d : Nat) (m : Fin 48) : (b.count f d).axis m = b.axis m := rfl
@[simp] theorem Blk.draw_axis (b : Blk) (k : Nat) (m : Fin 48) : (b.draw k).axis m = b.axis m := rfl
@[simp] theorem Blk.draw_regs (b : Blk) (k : Nat) : (b.draw k).regs = b.regs := rfl
@[simp] theorem Blk.mapAx_regs (b : Blk) (n : Fin 48) (f : Axis → Axis) : (b.mapAx n f).regs = b.regs := rfl
@[simp] theorem Blk.mapPlanes_axis (b : Blk) (f : PlaneSt → PlaneSt) (m : Fin 48) : (b.mapPlanes f).axis m = b.axis m := rfl
@[simp] theorem Blk.mapPlanes_regs (b : Blk) (f : PlaneSt → PlaneSt) : (b.mapPlanes f).regs = b.regs := rfl
@[simp] theorem Blk.mapSide_axis (b : Blk) (i : Side) (f : SideS → SideS) (m : Fin 48) : (b.mapSide i f).axis m = b.axis m := rfl
@[simp] theorem Blk.mapSide_regs (b : Blk) (i : Side) (f : SideS → SideS) : (b.mapSide i f).regs = b.regs := rfl
@[simp] theorem Blk.mapSm_axis (b : Blk) (i : Side) (f : SmPort → SmPort) (m : Fin 48) : (b.mapSm i f).axis m = b.axis m := rfl
@[simp] theorem Blk.mapSm_regs (b : Blk) (i : Side) (f : SmPort → SmPort) : (b.mapSm i f).regs = b.regs := rfl
@[simp] theorem Blk.mapCasc_axis (b : Blk) (f : Casc → Casc) (m : Fin 48) : (b.mapCasc f).axis m = b.axis m := rfl
@[simp] theorem Blk.mapCasc_regs (b : Blk) (f : Casc → Casc) : (b.mapCasc f).regs = b.regs := rfl
@[simp] theorem Blk.mapRx_axis (b : Blk) (p : Fin 6) (f : RxPort → RxPort) (m : Fin 48) : (b.mapRx p f).axis m = b.axis m := rfl
@[simp] theorem Blk.mapRx_regs (b : Blk) (p : Fin 6) (f : RxPort → RxPort) : (b.mapRx p f).regs = b.regs := rfl
@[simp] theorem Blk.take_axis (b : Blk) (q : Req) (m : Fin 48) : (b.take q).axis m = b.axis m := rfl
@[simp] theorem Blk.take_regs (b : Blk) (q : Req) : (b.take q).regs = b.regs := rfl
@[simp] theorem Blk.served_axis (b : Blk) (h : Hdr) (m : Fin 48) : (b.served h).axis m = b.axis m := rfl
@[simp] theorem Blk.served_regs (b : Blk) (h : Hdr) : (b.served h).regs = b.regs := rfl

end Sys2Proof.Machine
end

