-- ==== Sys2Proof/Laws/Frame.lean ====
section
/-!
SUPPORT. What the shared operations of the module leave alone: raising flags, logging, sending, events, a step on a cell and
an answer each touch a few fields of the module, and every other field is as before.
-/

namespace Sys2Proof.Machine

/-! ### Erased states: two states that agree outside what an operation touches; a third lends the rest -/

/-- The module without its registers, stamps and log entries. -/
def Blk.eraseLog (z b : Blk) : Blk := { b with regs := z.regs, stamps := z.stamps, logs := z.logs, logFresh := z.logFresh }

/-- Also without what an asynchronous event touches. -/
def Blk.eraseOut (z b : Blk) : Blk := { Blk.eraseLog z b with sess := z.sess, ports := z.ports, casc := z.casc, napTicks := z.napTicks }

/-- Also without what an answer touches. -/
def Blk.eraseReply (z b : Blk) : Blk := { Blk.eraseLog z b with planes := z.planes, ports := z.ports, casc := z.casc, napTicks := z.napTicks }

/-- Also without the axes. -/
def Blk.eraseCell (z b : Blk) : Blk := { Blk.eraseOut z b with ax := z.ax }

theorem Blk.eraseOut_of_log {z b c : Blk} (h : Blk.eraseLog z b = Blk.eraseLog z c) : Blk.eraseOut z b = Blk.eraseOut z c := by
  have := congrArg (Blk.eraseOut z) h
  exact this
theorem Blk.eraseReply_of_log {z b c : Blk} (h : Blk.eraseLog z b = Blk.eraseLog z c) : Blk.eraseReply z b = Blk.eraseReply z c := by
  have := congrArg (Blk.eraseReply z) h
  exact this
theorem Blk.eraseCell_of_log {z b c : Blk} (h : Blk.eraseLog z b = Blk.eraseLog z c) : Blk.eraseCell z b = Blk.eraseCell z c := by
  have := congrArg (Blk.eraseCell z) h
  exact this
theorem Blk.eraseCell_of_out {z b c : Blk} (h : Blk.eraseOut z b = Blk.eraseOut z c) : Blk.eraseCell z b = Blk.eraseCell z c := by
  have := congrArg (Blk.eraseCell z) h
  exact this

/-- A fold whose steps keep an observation keeps it. -/
theorem foldl_keeps {α β γ : Type} (g : β → γ) (f : β → α → β) (h : ∀ b x, g (f b x) = g b) (l : List α) (b : β) :
    g (l.foldl f b) = g b := by
  induction l generalizing b with
  | nil => rfl
  | cons x t ih => rw [List.foldl_cons, ih, h]

/-- A choice between two states that agree with a third on an observation agrees with it. -/
theorem ite_keeps {α β : Type} (g : α → β) {c : Prop} [Decidable c] {x y : α} {r : β} (hx : g x = r) (hy : g y = r) :
    g (if c then x else y) = r := by
  split
  · exact hx
  · exact hy

/-! ### Flags, the log, sending and events -/

theorem Blk.rawRaise_keeps (b : Blk) {z : Blk} (e m : Nat) : Blk.eraseLog z (b.rawRaise e m) = Blk.eraseLog z b := rfl

theorem Blk.logEntry_keeps (b : Blk) {z : Blk} (c k a p : Nat) (d : List Byte) : Blk.eraseLog z (b.logEntry c k a p d) = Blk.eraseLog z b := by
  unfold Blk.logEntry
  split
  · rfl
  · split
    · rfl
    · dsimp only
      generalize (if c = 7 then 960 else 1024) = lim
      split
      · rfl
      · rfl

theorem Blk.logRaise_keeps (b : Blk) {z : Blk} (a p d : Nat) (v : Word) : Blk.eraseLog z (b.logRaise a p d v) = Blk.eraseLog z b := b.logEntry_keeps ..

theorem Blk.raise_keeps (b : Blk) {z : Blk} (l : List Flag) : Blk.eraseLog z (b.raise l) = Blk.eraseLog z b := by
  unfold Blk.raise
  refine foldl_keeps (Blk.eraseLog z) _ (fun b ev => ?_) _ b
  dsimp only
  split
  · rfl
  · rw [Blk.logRaise_keeps, Blk.rawRaise_keeps]

theorem Blk.raiseIf_keeps (b : Blk) {z : Blk} (x : Bool) (f : Flag) : Blk.eraseLog z (b.raiseIf x f) = Blk.eraseLog z b := by
  cases x
  · rfl
  · exact b.raise_keeps [f]

theorem Blk.send_keeps (b : Blk) {z : Blk} (p : Fin 6) (o : OutPkt) : Blk.eraseOut z (b.send p o) = Blk.eraseOut z b := by
  unfold Blk.send
  split <;> rfl

theorem Blk.contribute_keeps (b : Blk) {z : Blk} (o : OutPkt) : Blk.eraseOut z (b.contribute o) = Blk.eraseOut z b := rfl

theorem Blk.sendVia_keeps (b : Blk) {z : Blk} (v : Via) (o : OutPkt) : Blk.eraseOut z (b.sendVia v o) = Blk.eraseOut z b := by
  cases v with
  | port p => exact b.send_keeps p o
  | ring => rfl

theorem Blk.sendVia_reply (b : Blk) {z : Blk} (v : Via) (o : OutPkt) : Blk.eraseReply z (b.sendVia v o) = Blk.eraseReply z b := by
  cases v with
  | port p => show Blk.eraseReply z (b.send p o) = _; unfold Blk.send; split <;> rfl
  | ring => rfl

theorem Blk.event_keeps (b : Blk) {z : Blk} (k t x : Nat) (d : List Byte) : Blk.eraseOut z (b.event k t x d) = Blk.eraseOut z b := by
  have h : ∀ m, Blk.eraseOut z (b.logEntry (eventClass k) k x m d) = Blk.eraseOut z b :=
    fun m => Blk.eraseOut_of_log (b.logEntry_keeps (eventClass k) k x m d)
  unfold Blk.event
  dsimp only
  generalize (decide (0x14 ≤ k) && decide (k ≤ 0x17)) = mg
  split
  · exact h _
  · refine ite_keeps (Blk.eraseOut z) (h _) (ite_keeps _ ?_ ?_)
    · exact h _
    · exact (Blk.send_keeps ..).trans (h _)

theorem Blk.heard_keeps (b : Blk) {z : Blk} (s i : Byte) (p : Fin 6) (t : Nat) : Blk.eraseOut z (b.heard s i p t) = Blk.eraseOut z b := by
  unfold Blk.heard
  split
  · rfl
  · split <;> rfl

theorem Blk.raiseAx_keeps (b : Blk) {z : Blk} (n : Fin 48) (l : List Flag) : Blk.eraseCell z (b.raiseAx n l) = Blk.eraseCell z b := by
  unfold Blk.raiseAx
  refine foldl_keeps (Blk.eraseCell z) _ (fun b ev => ?_) _ b
  dsimp only
  split
  · rfl
  · exact (Blk.eraseCell_of_log (Blk.logRaise_keeps ..)).trans rfl

theorem Blk.commit_keeps (b : Blk) {z : Blk} (n : Fin 48) (c : Cell) : Blk.eraseCell z (b.commit n c) = Blk.eraseCell z b := by
  unfold Blk.commit
  rw [foldl_keeps (Blk.eraseCell z) _ (fun b e => Blk.eraseCell_of_out (b.event_keeps ..))]
  rw [Blk.eraseCell_of_log (Blk.raise_keeps ..), Blk.raiseAx_keeps]
  rfl

theorem Blk.cell_keeps (b : Blk) {z : Blk} (n : Fin 48) (f : Cell → Cell) : Blk.eraseCell z (b.cell n f) = Blk.eraseCell z b := b.commit_keeps n _

theorem Blk.cells_keeps (b : Blk) {z : Blk} (l : List (Fin 48)) (f : Fin 48 → Cell → Cell) : Blk.eraseCell z (b.cells l f) = Blk.eraseCell z b :=
  foldl_keeps (Blk.eraseCell z) _ (fun b n => b.cell_keeps n (f n)) l b

theorem Blk.answer_keeps (b : Blk) {z : Blk} (q : Req) (st : Nat) (x : List Byte) : Blk.eraseReply z (b.answer q st x) = Blk.eraseReply z b := by
  unfold Blk.answer
  extract_lets o p l
  have hl : Blk.eraseReply z l = Blk.eraseReply z b := by
    refine ite_keeps (Blk.eraseReply z) rfl (Blk.eraseReply_of_log (b.logEntry_keeps ..))
  have hp : ∀ pl : Vector PlaneSt 3, Blk.eraseReply z { l with planes := pl } = Blk.eraseReply z b := fun _ => hl
  split
  · exact (foldl_keeps (Blk.eraseReply z) _ (fun b v => b.sendVia_reply v o) _ _).trans (hp _)
  · exact (Blk.sendVia_reply ..).trans (ite_keeps (Blk.eraseReply z) (hp _) hl)

theorem Blk.ok_keeps (b : Blk) {z : Blk} (q : Req) (x : List Byte) : Blk.eraseReply z (b.ok q x) = Blk.eraseReply z b := b.answer_keeps ..
theorem Blk.badParam_keeps (b : Blk) {z : Blk} (q : Req) (o : Nat) : Blk.eraseReply z (b.badParam q o) = Blk.eraseReply z b := b.answer_keeps ..
theorem Blk.refusedState_keeps (b : Blk) {z : Blk} (q : Req) : Blk.eraseReply z (b.refusedState q) = Blk.eraseReply z b := b.answer_keeps ..
theorem Blk.busy_keeps (b : Blk) {z : Blk} (q : Req) : Blk.eraseReply z (b.busy q) = Blk.eraseReply z b := b.answer_keeps ..

/-! ### Field by field -/

@[simp] theorem Blk.rawRaise_ax (b : Blk) (e m : Nat) : (b.rawRaise e m).ax = b.ax := by
  have h := congrArg Blk.ax (b.rawRaise_keeps (z := b) e m); exact h
@[simp] theorem Blk.rawRaise_rx (b : Blk) (e m : Nat) : (b.rawRaise e m).rx = b.rx := by
  have h := congrArg Blk.rx (b.rawRaise_keeps (z := b) e m); exact h
@[simp] theorem Blk.rawRaise_sm (b : Blk) (e m : Nat) : (b.rawRaise e m).sm = b.sm := by
  have h := congrArg Blk.sm (b.rawRaise_keeps (z := b) e m); exact h
@[simp] theorem Blk.rawRaise_planes (b : Blk) (e m : Nat) : (b.rawRaise e m).planes = b.planes := by
  have h := congrArg Blk.planes (b.rawRaise_keeps (z := b) e m); exact h
@[simp] theorem Blk.rawRaise_sess (b : Blk) (e m : Nat) : (b.rawRaise e m).sess = b.sess := by
  have h := congrArg Blk.sess (b.rawRaise_keeps (z := b) e m); exact h
@[simp] theorem Blk.rawRaise_orphanAt (b : Blk) (e m : Nat) : (b.rawRaise e m).orphanAt = b.orphanAt := by
  have h := congrArg Blk.orphanAt (b.rawRaise_keeps (z := b) e m); exact h
@[simp] theorem Blk.rawRaise_lastSid (b : Blk) (e m : Nat) : (b.rawRaise e m).lastSid = b.lastSid := by
  have h := congrArg Blk.lastSid (b.rawRaise_keeps (z := b) e m); exact h
@[simp] theorem Blk.rawRaise_claimFails (b : Blk) (e m : Nat) : (b.rawRaise e m).claimFails = b.claimFails := by
  have h := congrArg Blk.claimFails (b.rawRaise_keeps (z := b) e m); exact h
@[simp] theorem Blk.rawRaise_lockout (b : Blk) (e m : Nat) : (b.rawRaise e m).lockout = b.lockout := by
  have h := congrArg Blk.lockout (b.rawRaise_keeps (z := b) e m); exact h
@[simp] theorem Blk.rawRaise_ports (b : Blk) (e m : Nat) : (b.rawRaise e m).ports = b.ports := by
  have h := congrArg Blk.ports (b.rawRaise_keeps (z := b) e m); exact h
@[simp] theorem Blk.rawRaise_swath (b : Blk) (e m : Nat) : (b.rawRaise e m).swath = b.swath := by
  have h := congrArg Blk.swath (b.rawRaise_keeps (z := b) e m); exact h
@[simp] theorem Blk.rawRaise_tick (b : Blk) (e m : Nat) : (b.rawRaise e m).tick = b.tick := by
  have h := congrArg Blk.tick (b.rawRaise_keeps (z := b) e m); exact h
@[simp] theorem Blk.rawRaise_plan (b : Blk) (e m : Nat) : (b.rawRaise e m).plan = b.plan := by
  have h := congrArg Blk.plan (b.rawRaise_keeps (z := b) e m); exact h
@[simp] theorem Blk.rawRaise_ledg (b : Blk) (e m : Nat) : (b.rawRaise e m).ledg = b.ledg := by
  have h := congrArg Blk.ledg (b.rawRaise_keeps (z := b) e m); exact h
@[simp] theorem Blk.rawRaise_meas (b : Blk) (e m : Nat) : (b.rawRaise e m).meas = b.meas := by
  have h := congrArg Blk.meas (b.rawRaise_keeps (z := b) e m); exact h
@[simp] theorem Blk.rawRaise_sides (b : Blk) (e m : Nat) : (b.rawRaise e m).sides = b.sides := by
  have h := congrArg Blk.sides (b.rawRaise_keeps (z := b) e m); exact h
@[simp] theorem Blk.rawRaise_act (b : Blk) (e m : Nat) : (b.rawRaise e m).act = b.act := by
  have h := congrArg Blk.act (b.rawRaise_keeps (z := b) e m); exact h
@[simp] theorem Blk.rawRaise_switchReq (b : Blk) (e m : Nat) : (b.rawRaise e m).switchReq = b.switchReq := by
  have h := congrArg Blk.switchReq (b.rawRaise_keeps (z := b) e m); exact h
@[simp] theorem Blk.rawRaise_fw (b : Blk) (e m : Nat) : (b.rawRaise e m).fw = b.fw := by
  have h := congrArg Blk.fw (b.rawRaise_keeps (z := b) e m); exact h
@[simp] theorem Blk.rawRaise_pw (b : Blk) (e m : Nat) : (b.rawRaise e m).pw = b.pw := by
  have h := congrArg Blk.pw (b.rawRaise_keeps (z := b) e m); exact h
@[simp] theorem Blk.rawRaise_nap (b : Blk) (e m : Nat) : (b.rawRaise e m).nap = b.nap := by
  have h := congrArg Blk.nap (b.rawRaise_keeps (z := b) e m); exact h
@[simp] theorem Blk.rawRaise_cams (b : Blk) (e m : Nat) : (b.rawRaise e m).cams = b.cams := by
  have h := congrArg Blk.cams (b.rawRaise_keeps (z := b) e m); exact h
@[simp] theorem Blk.rawRaise_camDirty (b : Blk) (e m : Nat) : (b.rawRaise e m).camDirty = b.camDirty := by
  have h := congrArg Blk.camDirty (b.rawRaise_keeps (z := b) e m); exact h
@[simp] theorem Blk.rawRaise_streams (b : Blk) (e m : Nat) : (b.rawRaise e m).streams = b.streams := by
  have h := congrArg Blk.streams (b.rawRaise_keeps (z := b) e m); exact h
@[simp] theorem Blk.rawRaise_resets (b : Blk) (e m : Nat) : (b.rawRaise e m).resets = b.resets := by
  have h := congrArg Blk.resets (b.rawRaise_keeps (z := b) e m); exact h
@[simp] theorem Blk.rawRaise_graze (b : Blk) (e m : Nat) : (b.rawRaise e m).graze = b.graze := by
  have h := congrArg Blk.graze (b.rawRaise_keeps (z := b) e m); exact h
@[simp] theorem Blk.rawRaise_casc (b : Blk) (e m : Nat) : (b.rawRaise e m).casc = b.casc := by
  have h := congrArg Blk.casc (b.rawRaise_keeps (z := b) e m); exact h
@[simp] theorem Blk.rawRaise_napCyc (b : Blk) (e m : Nat) : (b.rawRaise e m).napCyc = b.napCyc := by
  have h := congrArg Blk.napCyc (b.rawRaise_keeps (z := b) e m); exact h
@[simp] theorem Blk.rawRaise_napRest (b : Blk) (e m : Nat) : (b.rawRaise e m).napRest = b.napRest := by
  have h := congrArg Blk.napRest (b.rawRaise_keeps (z := b) e m); exact h
@[simp] theorem Blk.rawRaise_napTicks (b : Blk) (e m : Nat) : (b.rawRaise e m).napTicks = b.napTicks := by
  have h := congrArg Blk.napTicks (b.rawRaise_keeps (z := b) e m); exact h
@[simp] theorem Blk.rawRaise_msRest (b : Blk) (e m : Nat) : (b.rawRaise e m).msRest = b.msRest := by
  have h := congrArg Blk.msRest (b.rawRaise_keeps (z := b) e m); exact h
@[simp] theorem Blk.rawRaise_xchg (b : Blk) (e m : Nat) : (b.rawRaise e m).xchg = b.xchg := by
  have h := congrArg Blk.xchg (b.rawRaise_keeps (z := b) e m); exact h
@[simp] theorem Blk.rawRaise_skipStreams (b : Blk) (e m : Nat) : (b.rawRaise e m).skipStreams = b.skipStreams := by
  have h := congrArg Blk.skipStreams (b.rawRaise_keeps (z := b) e m); exact h
@[simp] theorem Blk.rawRaise_capTicks (b : Blk) (e m : Nat) : (b.rawRaise e m).capTicks = b.capTicks := by
  have h := congrArg Blk.capTicks (b.rawRaise_keeps (z := b) e m); exact h
@[simp] theorem Blk.rawRaise_onTicks (b : Blk) (e m : Nat) : (b.rawRaise e m).onTicks = b.onTicks := by
  have h := congrArg Blk.onTicks (b.rawRaise_keeps (z := b) e m); exact h
@[simp] theorem Blk.rawRaise_lifeHSaved (b : Blk) (e m : Nat) : (b.rawRaise e m).lifeHSaved = b.lifeHSaved := by
  have h := congrArg Blk.lifeHSaved (b.rawRaise_keeps (z := b) e m); exact h
@[simp] theorem Blk.rawRaise_fwCut (b : Blk) (e m : Nat) : (b.rawRaise e m).fwCut = b.fwCut := by
  have h := congrArg Blk.fwCut (b.rawRaise_keeps (z := b) e m); exact h
@[simp] theorem Blk.rawRaise_onSaved (b : Blk) (e m : Nat) : (b.rawRaise e m).onSaved = b.onSaved := by
  have h := congrArg Blk.onSaved (b.rawRaise_keeps (z := b) e m); exact h
@[simp] theorem Blk.rawRaise_yieldDue (b : Blk) (e m : Nat) : (b.rawRaise e m).yieldDue = b.yieldDue := by
  have h := congrArg Blk.yieldDue (b.rawRaise_keeps (z := b) e m); exact h
@[simp] theorem Blk.rawRaise_axis (b : Blk) (e m : Nat) (m : Fin 48) : (b.rawRaise e m).axis m = b.axis m := Blk.axis_of_ax (b.rawRaise_ax e m) m

@[simp] theorem Blk.logEntry_ax (b : Blk) (c k a p : Nat) (d : List Byte) : (b.logEntry c k a p d).ax = b.ax := by
  have h := congrArg Blk.ax (b.logEntry_keeps (z := b) c k a p d); exact h
@[simp] theorem Blk.logEntry_rx (b : Blk) (c k a p : Nat) (d : List Byte) : (b.logEntry c k a p d).rx = b.rx := by
  have h := congrArg Blk.rx (b.logEntry_keeps (z := b) c k a p d); exact h
@[simp] theorem Blk.logEntry_sm (b : Blk) (c k a p : Nat) (d : List Byte) : (b.logEntry c k a p d).sm = b.sm := by
  have h := congrArg Blk.sm (b.logEntry_keeps (z := b) c k a p d); exact h
@[simp] theorem Blk.logEntry_planes (b : Blk) (c k a p : Nat) (d : List Byte) : (b.logEntry c k a p d).planes = b.planes := by
  have h := congrArg Blk.planes (b.logEntry_keeps (z := b) c k a p d); exact h
@[simp] theorem Blk.logEntry_sess (b : Blk) (c k a p : Nat) (d : List Byte) : (b.logEntry c k a p d).sess = b.sess := by
  have h := congrArg Blk.sess (b.logEntry_keeps (z := b) c k a p d); exact h
@[simp] theorem Blk.logEntry_orphanAt (b : Blk) (c k a p : Nat) (d : List Byte) : (b.logEntry c k a p d).orphanAt = b.orphanAt := by
  have h := congrArg Blk.orphanAt (b.logEntry_keeps (z := b) c k a p d); exact h
@[simp] theorem Blk.logEntry_lastSid (b : Blk) (c k a p : Nat) (d : List Byte) : (b.logEntry c k a p d).lastSid = b.lastSid := by
  have h := congrArg Blk.lastSid (b.logEntry_keeps (z := b) c k a p d); exact h
@[simp] theorem Blk.logEntry_claimFails (b : Blk) (c k a p : Nat) (d : List Byte) : (b.logEntry c k a p d).claimFails = b.claimFails := by
  have h := congrArg Blk.claimFails (b.logEntry_keeps (z := b) c k a p d); exact h
@[simp] theorem Blk.logEntry_lockout (b : Blk) (c k a p : Nat) (d : List Byte) : (b.logEntry c k a p d).lockout = b.lockout := by
  have h := congrArg Blk.lockout (b.logEntry_keeps (z := b) c k a p d); exact h
@[simp] theorem Blk.logEntry_ports (b : Blk) (c k a p : Nat) (d : List Byte) : (b.logEntry c k a p d).ports = b.ports := by
  have h := congrArg Blk.ports (b.logEntry_keeps (z := b) c k a p d); exact h
@[simp] theorem Blk.logEntry_swath (b : Blk) (c k a p : Nat) (d : List Byte) : (b.logEntry c k a p d).swath = b.swath := by
  have h := congrArg Blk.swath (b.logEntry_keeps (z := b) c k a p d); exact h
@[simp] theorem Blk.logEntry_tick (b : Blk) (c k a p : Nat) (d : List Byte) : (b.logEntry c k a p d).tick = b.tick := by
  have h := congrArg Blk.tick (b.logEntry_keeps (z := b) c k a p d); exact h
@[simp] theorem Blk.logEntry_plan (b : Blk) (c k a p : Nat) (d : List Byte) : (b.logEntry c k a p d).plan = b.plan := by
  have h := congrArg Blk.plan (b.logEntry_keeps (z := b) c k a p d); exact h
@[simp] theorem Blk.logEntry_ledg (b : Blk) (c k a p : Nat) (d : List Byte) : (b.logEntry c k a p d).ledg = b.ledg := by
  have h := congrArg Blk.ledg (b.logEntry_keeps (z := b) c k a p d); exact h
@[simp] theorem Blk.logEntry_meas (b : Blk) (c k a p : Nat) (d : List Byte) : (b.logEntry c k a p d).meas = b.meas := by
  have h := congrArg Blk.meas (b.logEntry_keeps (z := b) c k a p d); exact h
@[simp] theorem Blk.logEntry_sides (b : Blk) (c k a p : Nat) (d : List Byte) : (b.logEntry c k a p d).sides = b.sides := by
  have h := congrArg Blk.sides (b.logEntry_keeps (z := b) c k a p d); exact h
@[simp] theorem Blk.logEntry_act (b : Blk) (c k a p : Nat) (d : List Byte) : (b.logEntry c k a p d).act = b.act := by
  have h := congrArg Blk.act (b.logEntry_keeps (z := b) c k a p d); exact h
@[simp] theorem Blk.logEntry_switchReq (b : Blk) (c k a p : Nat) (d : List Byte) : (b.logEntry c k a p d).switchReq = b.switchReq := by
  have h := congrArg Blk.switchReq (b.logEntry_keeps (z := b) c k a p d); exact h
@[simp] theorem Blk.logEntry_fw (b : Blk) (c k a p : Nat) (d : List Byte) : (b.logEntry c k a p d).fw = b.fw := by
  have h := congrArg Blk.fw (b.logEntry_keeps (z := b) c k a p d); exact h
@[simp] theorem Blk.logEntry_pw (b : Blk) (c k a p : Nat) (d : List Byte) : (b.logEntry c k a p d).pw = b.pw := by
  have h := congrArg Blk.pw (b.logEntry_keeps (z := b) c k a p d); exact h
@[simp] theorem Blk.logEntry_nap (b : Blk) (c k a p : Nat) (d : List Byte) : (b.logEntry c k a p d).nap = b.nap := by
  have h := congrArg Blk.nap (b.logEntry_keeps (z := b) c k a p d); exact h
@[simp] theorem Blk.logEntry_cams (b : Blk) (c k a p : Nat) (d : List Byte) : (b.logEntry c k a p d).cams = b.cams := by
  have h := congrArg Blk.cams (b.logEntry_keeps (z := b) c k a p d); exact h
@[simp] theorem Blk.logEntry_camDirty (b : Blk) (c k a p : Nat) (d : List Byte) : (b.logEntry c k a p d).camDirty = b.camDirty := by
  have h := congrArg Blk.camDirty (b.logEntry_keeps (z := b) c k a p d); exact h
@[simp] theorem Blk.logEntry_streams (b : Blk) (c k a p : Nat) (d : List Byte) : (b.logEntry c k a p d).streams = b.streams := by
  have h := congrArg Blk.streams (b.logEntry_keeps (z := b) c k a p d); exact h
@[simp] theorem Blk.logEntry_resets (b : Blk) (c k a p : Nat) (d : List Byte) : (b.logEntry c k a p d).resets = b.resets := by
  have h := congrArg Blk.resets (b.logEntry_keeps (z := b) c k a p d); exact h
@[simp] theorem Blk.logEntry_graze (b : Blk) (c k a p : Nat) (d : List Byte) : (b.logEntry c k a p d).graze = b.graze := by
  have h := congrArg Blk.graze (b.logEntry_keeps (z := b) c k a p d); exact h
@[simp] theorem Blk.logEntry_casc (b : Blk) (c k a p : Nat) (d : List Byte) : (b.logEntry c k a p d).casc = b.casc := by
  have h := congrArg Blk.casc (b.logEntry_keeps (z := b) c k a p d); exact h
@[simp] theorem Blk.logEntry_napCyc (b : Blk) (c k a p : Nat) (d : List Byte) : (b.logEntry c k a p d).napCyc = b.napCyc := by
  have h := congrArg Blk.napCyc (b.logEntry_keeps (z := b) c k a p d); exact h
@[simp] theorem Blk.logEntry_napRest (b : Blk) (c k a p : Nat) (d : List Byte) : (b.logEntry c k a p d).napRest = b.napRest := by
  have h := congrArg Blk.napRest (b.logEntry_keeps (z := b) c k a p d); exact h
@[simp] theorem Blk.logEntry_napTicks (b : Blk) (c k a p : Nat) (d : List Byte) : (b.logEntry c k a p d).napTicks = b.napTicks := by
  have h := congrArg Blk.napTicks (b.logEntry_keeps (z := b) c k a p d); exact h
@[simp] theorem Blk.logEntry_msRest (b : Blk) (c k a p : Nat) (d : List Byte) : (b.logEntry c k a p d).msRest = b.msRest := by
  have h := congrArg Blk.msRest (b.logEntry_keeps (z := b) c k a p d); exact h
@[simp] theorem Blk.logEntry_xchg (b : Blk) (c k a p : Nat) (d : List Byte) : (b.logEntry c k a p d).xchg = b.xchg := by
  have h := congrArg Blk.xchg (b.logEntry_keeps (z := b) c k a p d); exact h
@[simp] theorem Blk.logEntry_skipStreams (b : Blk) (c k a p : Nat) (d : List Byte) : (b.logEntry c k a p d).skipStreams = b.skipStreams := by
  have h := congrArg Blk.skipStreams (b.logEntry_keeps (z := b) c k a p d); exact h
@[simp] theorem Blk.logEntry_capTicks (b : Blk) (c k a p : Nat) (d : List Byte) : (b.logEntry c k a p d).capTicks = b.capTicks := by
  have h := congrArg Blk.capTicks (b.logEntry_keeps (z := b) c k a p d); exact h
@[simp] theorem Blk.logEntry_onTicks (b : Blk) (c k a p : Nat) (d : List Byte) : (b.logEntry c k a p d).onTicks = b.onTicks := by
  have h := congrArg Blk.onTicks (b.logEntry_keeps (z := b) c k a p d); exact h
@[simp] theorem Blk.logEntry_lifeHSaved (b : Blk) (c k a p : Nat) (d : List Byte) : (b.logEntry c k a p d).lifeHSaved = b.lifeHSaved := by
  have h := congrArg Blk.lifeHSaved (b.logEntry_keeps (z := b) c k a p d); exact h
@[simp] theorem Blk.logEntry_fwCut (b : Blk) (c k a p : Nat) (d : List Byte) : (b.logEntry c k a p d).fwCut = b.fwCut := by
  have h := congrArg Blk.fwCut (b.logEntry_keeps (z := b) c k a p d); exact h
@[simp] theorem Blk.logEntry_onSaved (b : Blk) (c k a p : Nat) (d : List Byte) : (b.logEntry c k a p d).onSaved = b.onSaved := by
  have h := congrArg Blk.onSaved (b.logEntry_keeps (z := b) c k a p d); exact h
@[simp] theorem Blk.logEntry_yieldDue (b : Blk) (c k a p : Nat) (d : List Byte) : (b.logEntry c k a p d).yieldDue = b.yieldDue := by
  have h := congrArg Blk.yieldDue (b.logEntry_keeps (z := b) c k a p d); exact h
@[simp] theorem Blk.logEntry_axis (b : Blk) (c k a p : Nat) (d : List Byte) (m : Fin 48) : (b.logEntry c k a p d).axis m = b.axis m := Blk.axis_of_ax (b.logEntry_ax c k a p d) m

@[simp] theorem Blk.logRaise_ax (b : Blk) (a p d : Nat) (v : Word) : (b.logRaise a p d v).ax = b.ax := by
  have h := congrArg Blk.ax (b.logRaise_keeps (z := b) a p d v); exact h
@[simp] theorem Blk.logRaise_rx (b : Blk) (a p d : Nat) (v : Word) : (b.logRaise a p d v).rx = b.rx := by
  have h := congrArg Blk.rx (b.logRaise_keeps (z := b) a p d v); exact h
@[simp] theorem Blk.logRaise_sm (b : Blk) (a p d : Nat) (v : Word) : (b.logRaise a p d v).sm = b.sm := by
  have h := congrArg Blk.sm (b.logRaise_keeps (z := b) a p d v); exact h
@[simp] theorem Blk.logRaise_planes (b : Blk) (a p d : Nat) (v : Word) : (b.logRaise a p d v).planes = b.planes := by
  have h := congrArg Blk.planes (b.logRaise_keeps (z := b) a p d v); exact h
@[simp] theorem Blk.logRaise_sess (b : Blk) (a p d : Nat) (v : Word) : (b.logRaise a p d v).sess = b.sess := by
  have h := congrArg Blk.sess (b.logRaise_keeps (z := b) a p d v); exact h
@[simp] theorem Blk.logRaise_orphanAt (b : Blk) (a p d : Nat) (v : Word) : (b.logRaise a p d v).orphanAt = b.orphanAt := by
  have h := congrArg Blk.orphanAt (b.logRaise_keeps (z := b) a p d v); exact h
@[simp] theorem Blk.logRaise_lastSid (b : Blk) (a p d : Nat) (v : Word) : (b.logRaise a p d v).lastSid = b.lastSid := by
  have h := congrArg Blk.lastSid (b.logRaise_keeps (z := b) a p d v); exact h
@[simp] theorem Blk.logRaise_claimFails (b : Blk) (a p d : Nat) (v : Word) : (b.logRaise a p d v).claimFails = b.claimFails := by
  have h := congrArg Blk.claimFails (b.logRaise_keeps (z := b) a p d v); exact h
@[simp] theorem Blk.logRaise_lockout (b : Blk) (a p d : Nat) (v : Word) : (b.logRaise a p d v).lockout = b.lockout := by
  have h := congrArg Blk.lockout (b.logRaise_keeps (z := b) a p d v); exact h
@[simp] theorem Blk.logRaise_ports (b : Blk) (a p d : Nat) (v : Word) : (b.logRaise a p d v).ports = b.ports := by
  have h := congrArg Blk.ports (b.logRaise_keeps (z := b) a p d v); exact h
@[simp] theorem Blk.logRaise_swath (b : Blk) (a p d : Nat) (v : Word) : (b.logRaise a p d v).swath = b.swath := by
  have h := congrArg Blk.swath (b.logRaise_keeps (z := b) a p d v); exact h
@[simp] theorem Blk.logRaise_tick (b : Blk) (a p d : Nat) (v : Word) : (b.logRaise a p d v).tick = b.tick := by
  have h := congrArg Blk.tick (b.logRaise_keeps (z := b) a p d v); exact h
@[simp] theorem Blk.logRaise_plan (b : Blk) (a p d : Nat) (v : Word) : (b.logRaise a p d v).plan = b.plan := by
  have h := congrArg Blk.plan (b.logRaise_keeps (z := b) a p d v); exact h
@[simp] theorem Blk.logRaise_ledg (b : Blk) (a p d : Nat) (v : Word) : (b.logRaise a p d v).ledg = b.ledg := by
  have h := congrArg Blk.ledg (b.logRaise_keeps (z := b) a p d v); exact h
@[simp] theorem Blk.logRaise_meas (b : Blk) (a p d : Nat) (v : Word) : (b.logRaise a p d v).meas = b.meas := by
  have h := congrArg Blk.meas (b.logRaise_keeps (z := b) a p d v); exact h
@[simp] theorem Blk.logRaise_sides (b : Blk) (a p d : Nat) (v : Word) : (b.logRaise a p d v).sides = b.sides := by
  have h := congrArg Blk.sides (b.logRaise_keeps (z := b) a p d v); exact h
@[simp] theorem Blk.logRaise_act (b : Blk) (a p d : Nat) (v : Word) : (b.logRaise a p d v).act = b.act := by
  have h := congrArg Blk.act (b.logRaise_keeps (z := b) a p d v); exact h
@[simp] theorem Blk.logRaise_switchReq (b : Blk) (a p d : Nat) (v : Word) : (b.logRaise a p d v).switchReq = b.switchReq := by
  have h := congrArg Blk.switchReq (b.logRaise_keeps (z := b) a p d v); exact h
@[simp] theorem Blk.logRaise_fw (b : Blk) (a p d : Nat) (v : Word) : (b.logRaise a p d v).fw = b.fw := by
  have h := congrArg Blk.fw (b.logRaise_keeps (z := b) a p d v); exact h
@[simp] theorem Blk.logRaise_pw (b : Blk) (a p d : Nat) (v : Word) : (b.logRaise a p d v).pw = b.pw := by
  have h := congrArg Blk.pw (b.logRaise_keeps (z := b) a p d v); exact h
@[simp] theorem Blk.logRaise_nap (b : Blk) (a p d : Nat) (v : Word) : (b.logRaise a p d v).nap = b.nap := by
  have h := congrArg Blk.nap (b.logRaise_keeps (z := b) a p d v); exact h
@[simp] theorem Blk.logRaise_cams (b : Blk) (a p d : Nat) (v : Word) : (b.logRaise a p d v).cams = b.cams := by
  have h := congrArg Blk.cams (b.logRaise_keeps (z := b) a p d v); exact h
@[simp] theorem Blk.logRaise_camDirty (b : Blk) (a p d : Nat) (v : Word) : (b.logRaise a p d v).camDirty = b.camDirty := by
  have h := congrArg Blk.camDirty (b.logRaise_keeps (z := b) a p d v); exact h
@[simp] theorem Blk.logRaise_streams (b : Blk) (a p d : Nat) (v : Word) : (b.logRaise a p d v).streams = b.streams := by
  have h := congrArg Blk.streams (b.logRaise_keeps (z := b) a p d v); exact h
@[simp] theorem Blk.logRaise_resets (b : Blk) (a p d : Nat) (v : Word) : (b.logRaise a p d v).resets = b.resets := by
  have h := congrArg Blk.resets (b.logRaise_keeps (z := b) a p d v); exact h
@[simp] theorem Blk.logRaise_graze (b : Blk) (a p d : Nat) (v : Word) : (b.logRaise a p d v).graze = b.graze := by
  have h := congrArg Blk.graze (b.logRaise_keeps (z := b) a p d v); exact h
@[simp] theorem Blk.logRaise_casc (b : Blk) (a p d : Nat) (v : Word) : (b.logRaise a p d v).casc = b.casc := by
  have h := congrArg Blk.casc (b.logRaise_keeps (z := b) a p d v); exact h
@[simp] theorem Blk.logRaise_napCyc (b : Blk) (a p d : Nat) (v : Word) : (b.logRaise a p d v).napCyc = b.napCyc := by
  have h := congrArg Blk.napCyc (b.logRaise_keeps (z := b) a p d v); exact h
@[simp] theorem Blk.logRaise_napRest (b : Blk) (a p d : Nat) (v : Word) : (b.logRaise a p d v).napRest = b.napRest := by
  have h := congrArg Blk.napRest (b.logRaise_keeps (z := b) a p d v); exact h
@[simp] theorem Blk.logRaise_napTicks (b : Blk) (a p d : Nat) (v : Word) : (b.logRaise a p d v).napTicks = b.napTicks := by
  have h := congrArg Blk.napTicks (b.logRaise_keeps (z := b) a p d v); exact h
@[simp] theorem Blk.logRaise_msRest (b : Blk) (a p d : Nat) (v : Word) : (b.logRaise a p d v).msRest = b.msRest := by
  have h := congrArg Blk.msRest (b.logRaise_keeps (z := b) a p d v); exact h
@[simp] theorem Blk.logRaise_xchg (b : Blk) (a p d : Nat) (v : Word) : (b.logRaise a p d v).xchg = b.xchg := by
  have h := congrArg Blk.xchg (b.logRaise_keeps (z := b) a p d v); exact h
@[simp] theorem Blk.logRaise_skipStreams (b : Blk) (a p d : Nat) (v : Word) : (b.logRaise a p d v).skipStreams = b.skipStreams := by
  have h := congrArg Blk.skipStreams (b.logRaise_keeps (z := b) a p d v); exact h
@[simp] theorem Blk.logRaise_capTicks (b : Blk) (a p d : Nat) (v : Word) : (b.logRaise a p d v).capTicks = b.capTicks := by
  have h := congrArg Blk.capTicks (b.logRaise_keeps (z := b) a p d v); exact h
@[simp] theorem Blk.logRaise_onTicks (b : Blk) (a p d : Nat) (v : Word) : (b.logRaise a p d v).onTicks = b.onTicks := by
  have h := congrArg Blk.onTicks (b.logRaise_keeps (z := b) a p d v); exact h
@[simp] theorem Blk.logRaise_lifeHSaved (b : Blk) (a p d : Nat) (v : Word) : (b.logRaise a p d v).lifeHSaved = b.lifeHSaved := by
  have h := congrArg Blk.lifeHSaved (b.logRaise_keeps (z := b) a p d v); exact h
@[simp] theorem Blk.logRaise_fwCut (b : Blk) (a p d : Nat) (v : Word) : (b.logRaise a p d v).fwCut = b.fwCut := by
  have h := congrArg Blk.fwCut (b.logRaise_keeps (z := b) a p d v); exact h
@[simp] theorem Blk.logRaise_onSaved (b : Blk) (a p d : Nat) (v : Word) : (b.logRaise a p d v).onSaved = b.onSaved := by
  have h := congrArg Blk.onSaved (b.logRaise_keeps (z := b) a p d v); exact h
@[simp] theorem Blk.logRaise_yieldDue (b : Blk) (a p d : Nat) (v : Word) : (b.logRaise a p d v).yieldDue = b.yieldDue := by
  have h := congrArg Blk.yieldDue (b.logRaise_keeps (z := b) a p d v); exact h
@[simp] theorem Blk.logRaise_axis (b : Blk) (a p d : Nat) (v : Word) (m : Fin 48) : (b.logRaise a p d v).axis m = b.axis m := Blk.axis_of_ax (b.logRaise_ax a p d v) m

@[simp] theorem Blk.raise_ax (b : Blk) (l : List Flag) : (b.raise l).ax = b.ax := by
  have h := congrArg Blk.ax (b.raise_keeps (z := b) l); exact h
@[simp] theorem Blk.raise_rx (b : Blk) (l : List Flag) : (b.raise l).rx = b.rx := by
  have h := congrArg Blk.rx (b.raise_keeps (z := b) l); exact h
@[simp] theorem Blk.raise_sm (b : Blk) (l : List Flag) : (b.raise l).sm = b.sm := by
  have h := congrArg Blk.sm (b.raise_keeps (z := b) l); exact h
@[simp] theorem Blk.raise_planes (b : Blk) (l : List Flag) : (b.raise l).planes = b.planes := by
  have h := congrArg Blk.planes (b.raise_keeps (z := b) l); exact h
@[simp] theorem Blk.raise_sess (b : Blk) (l : List Flag) : (b.raise l).sess = b.sess := by
  have h := congrArg Blk.sess (b.raise_keeps (z := b) l); exact h
@[simp] theorem Blk.raise_orphanAt (b : Blk) (l : List Flag) : (b.raise l).orphanAt = b.orphanAt := by
  have h := congrArg Blk.orphanAt (b.raise_keeps (z := b) l); exact h
@[simp] theorem Blk.raise_lastSid (b : Blk) (l : List Flag) : (b.raise l).lastSid = b.lastSid := by
  have h := congrArg Blk.lastSid (b.raise_keeps (z := b) l); exact h
@[simp] theorem Blk.raise_claimFails (b : Blk) (l : List Flag) : (b.raise l).claimFails = b.claimFails := by
  have h := congrArg Blk.claimFails (b.raise_keeps (z := b) l); exact h
@[simp] theorem Blk.raise_lockout (b : Blk) (l : List Flag) : (b.raise l).lockout = b.lockout := by
  have h := congrArg Blk.lockout (b.raise_keeps (z := b) l); exact h
@[simp] theorem Blk.raise_ports (b : Blk) (l : List Flag) : (b.raise l).ports = b.ports := by
  have h := congrArg Blk.ports (b.raise_keeps (z := b) l); exact h
@[simp] theorem Blk.raise_swath (b : Blk) (l : List Flag) : (b.raise l).swath = b.swath := by
  have h := congrArg Blk.swath (b.raise_keeps (z := b) l); exact h
@[simp] theorem Blk.raise_tick (b : Blk) (l : List Flag) : (b.raise l).tick = b.tick := by
  have h := congrArg Blk.tick (b.raise_keeps (z := b) l); exact h
@[simp] theorem Blk.raise_plan (b : Blk) (l : List Flag) : (b.raise l).plan = b.plan := by
  have h := congrArg Blk.plan (b.raise_keeps (z := b) l); exact h
@[simp] theorem Blk.raise_ledg (b : Blk) (l : List Flag) : (b.raise l).ledg = b.ledg := by
  have h := congrArg Blk.ledg (b.raise_keeps (z := b) l); exact h
@[simp] theorem Blk.raise_meas (b : Blk) (l : List Flag) : (b.raise l).meas = b.meas := by
  have h := congrArg Blk.meas (b.raise_keeps (z := b) l); exact h
@[simp] theorem Blk.raise_sides (b : Blk) (l : List Flag) : (b.raise l).sides = b.sides := by
  have h := congrArg Blk.sides (b.raise_keeps (z := b) l); exact h
@[simp] theorem Blk.raise_act (b : Blk) (l : List Flag) : (b.raise l).act = b.act := by
  have h := congrArg Blk.act (b.raise_keeps (z := b) l); exact h
@[simp] theorem Blk.raise_switchReq (b : Blk) (l : List Flag) : (b.raise l).switchReq = b.switchReq := by
  have h := congrArg Blk.switchReq (b.raise_keeps (z := b) l); exact h
@[simp] theorem Blk.raise_fw (b : Blk) (l : List Flag) : (b.raise l).fw = b.fw := by
  have h := congrArg Blk.fw (b.raise_keeps (z := b) l); exact h
@[simp] theorem Blk.raise_pw (b : Blk) (l : List Flag) : (b.raise l).pw = b.pw := by
  have h := congrArg Blk.pw (b.raise_keeps (z := b) l); exact h
@[simp] theorem Blk.raise_nap (b : Blk) (l : List Flag) : (b.raise l).nap = b.nap := by
  have h := congrArg Blk.nap (b.raise_keeps (z := b) l); exact h
@[simp] theorem Blk.raise_cams (b : Blk) (l : List Flag) : (b.raise l).cams = b.cams := by
  have h := congrArg Blk.cams (b.raise_keeps (z := b) l); exact h
@[simp] theorem Blk.raise_camDirty (b : Blk) (l : List Flag) : (b.raise l).camDirty = b.camDirty := by
  have h := congrArg Blk.camDirty (b.raise_keeps (z := b) l); exact h
@[simp] theorem Blk.raise_streams (b : Blk) (l : List Flag) : (b.raise l).streams = b.streams := by
  have h := congrArg Blk.streams (b.raise_keeps (z := b) l); exact h
@[simp] theorem Blk.raise_resets (b : Blk) (l : List Flag) : (b.raise l).resets = b.resets := by
  have h := congrArg Blk.resets (b.raise_keeps (z := b) l); exact h
@[simp] theorem Blk.raise_graze (b : Blk) (l : List Flag) : (b.raise l).graze = b.graze := by
  have h := congrArg Blk.graze (b.raise_keeps (z := b) l); exact h
@[simp] theorem Blk.raise_casc (b : Blk) (l : List Flag) : (b.raise l).casc = b.casc := by
  have h := congrArg Blk.casc (b.raise_keeps (z := b) l); exact h
@[simp] theorem Blk.raise_napCyc (b : Blk) (l : List Flag) : (b.raise l).napCyc = b.napCyc := by
  have h := congrArg Blk.napCyc (b.raise_keeps (z := b) l); exact h
@[simp] theorem Blk.raise_napRest (b : Blk) (l : List Flag) : (b.raise l).napRest = b.napRest := by
  have h := congrArg Blk.napRest (b.raise_keeps (z := b) l); exact h
@[simp] theorem Blk.raise_napTicks (b : Blk) (l : List Flag) : (b.raise l).napTicks = b.napTicks := by
  have h := congrArg Blk.napTicks (b.raise_keeps (z := b) l); exact h
@[simp] theorem Blk.raise_msRest (b : Blk) (l : List Flag) : (b.raise l).msRest = b.msRest := by
  have h := congrArg Blk.msRest (b.raise_keeps (z := b) l); exact h
@[simp] theorem Blk.raise_xchg (b : Blk) (l : List Flag) : (b.raise l).xchg = b.xchg := by
  have h := congrArg Blk.xchg (b.raise_keeps (z := b) l); exact h
@[simp] theorem Blk.raise_skipStreams (b : Blk) (l : List Flag) : (b.raise l).skipStreams = b.skipStreams := by
  have h := congrArg Blk.skipStreams (b.raise_keeps (z := b) l); exact h
@[simp] theorem Blk.raise_capTicks (b : Blk) (l : List Flag) : (b.raise l).capTicks = b.capTicks := by
  have h := congrArg Blk.capTicks (b.raise_keeps (z := b) l); exact h
@[simp] theorem Blk.raise_onTicks (b : Blk) (l : List Flag) : (b.raise l).onTicks = b.onTicks := by
  have h := congrArg Blk.onTicks (b.raise_keeps (z := b) l); exact h
@[simp] theorem Blk.raise_lifeHSaved (b : Blk) (l : List Flag) : (b.raise l).lifeHSaved = b.lifeHSaved := by
  have h := congrArg Blk.lifeHSaved (b.raise_keeps (z := b) l); exact h
@[simp] theorem Blk.raise_fwCut (b : Blk) (l : List Flag) : (b.raise l).fwCut = b.fwCut := by
  have h := congrArg Blk.fwCut (b.raise_keeps (z := b) l); exact h
@[simp] theorem Blk.raise_onSaved (b : Blk) (l : List Flag) : (b.raise l).onSaved = b.onSaved := by
  have h := congrArg Blk.onSaved (b.raise_keeps (z := b) l); exact h
@[simp] theorem Blk.raise_yieldDue (b : Blk) (l : List Flag) : (b.raise l).yieldDue = b.yieldDue := by
  have h := congrArg Blk.yieldDue (b.raise_keeps (z := b) l); exact h
@[simp] theorem Blk.raise_axis (b : Blk) (l : List Flag) (m : Fin 48) : (b.raise l).axis m = b.axis m := Blk.axis_of_ax (b.raise_ax l) m

@[simp] theorem Blk.raiseIf_ax (b : Blk) (x : Bool) (f : Flag) : (b.raiseIf x f).ax = b.ax := by
  have h := congrArg Blk.ax (b.raiseIf_keeps (z := b) x f); exact h
@[simp] theorem Blk.raiseIf_rx (b : Blk) (x : Bool) (f : Flag) : (b.raiseIf x f).rx = b.rx := by
  have h := congrArg Blk.rx (b.raiseIf_keeps (z := b) x f); exact h
@[simp] theorem Blk.raiseIf_sm (b : Blk) (x : Bool) (f : Flag) : (b.raiseIf x f).sm = b.sm := by
  have h := congrArg Blk.sm (b.raiseIf_keeps (z := b) x f); exact h
@[simp] theorem Blk.raiseIf_planes (b : Blk) (x : Bool) (f : Flag) : (b.raiseIf x f).planes = b.planes := by
  have h := congrArg Blk.planes (b.raiseIf_keeps (z := b) x f); exact h
@[simp] theorem Blk.raiseIf_sess (b : Blk) (x : Bool) (f : Flag) : (b.raiseIf x f).sess = b.sess := by
  have h := congrArg Blk.sess (b.raiseIf_keeps (z := b) x f); exact h
@[simp] theorem Blk.raiseIf_orphanAt (b : Blk) (x : Bool) (f : Flag) : (b.raiseIf x f).orphanAt = b.orphanAt := by
  have h := congrArg Blk.orphanAt (b.raiseIf_keeps (z := b) x f); exact h
@[simp] theorem Blk.raiseIf_lastSid (b : Blk) (x : Bool) (f : Flag) : (b.raiseIf x f).lastSid = b.lastSid := by
  have h := congrArg Blk.lastSid (b.raiseIf_keeps (z := b) x f); exact h
@[simp] theorem Blk.raiseIf_claimFails (b : Blk) (x : Bool) (f : Flag) : (b.raiseIf x f).claimFails = b.claimFails := by
  have h := congrArg Blk.claimFails (b.raiseIf_keeps (z := b) x f); exact h
@[simp] theorem Blk.raiseIf_lockout (b : Blk) (x : Bool) (f : Flag) : (b.raiseIf x f).lockout = b.lockout := by
  have h := congrArg Blk.lockout (b.raiseIf_keeps (z := b) x f); exact h
@[simp] theorem Blk.raiseIf_ports (b : Blk) (x : Bool) (f : Flag) : (b.raiseIf x f).ports = b.ports := by
  have h := congrArg Blk.ports (b.raiseIf_keeps (z := b) x f); exact h
@[simp] theorem Blk.raiseIf_swath (b : Blk) (x : Bool) (f : Flag) : (b.raiseIf x f).swath = b.swath := by
  have h := congrArg Blk.swath (b.raiseIf_keeps (z := b) x f); exact h
@[simp] theorem Blk.raiseIf_tick (b : Blk) (x : Bool) (f : Flag) : (b.raiseIf x f).tick = b.tick := by
  have h := congrArg Blk.tick (b.raiseIf_keeps (z := b) x f); exact h
@[simp] theorem Blk.raiseIf_plan (b : Blk) (x : Bool) (f : Flag) : (b.raiseIf x f).plan = b.plan := by
  have h := congrArg Blk.plan (b.raiseIf_keeps (z := b) x f); exact h
@[simp] theorem Blk.raiseIf_ledg (b : Blk) (x : Bool) (f : Flag) : (b.raiseIf x f).ledg = b.ledg := by
  have h := congrArg Blk.ledg (b.raiseIf_keeps (z := b) x f); exact h
@[simp] theorem Blk.raiseIf_meas (b : Blk) (x : Bool) (f : Flag) : (b.raiseIf x f).meas = b.meas := by
  have h := congrArg Blk.meas (b.raiseIf_keeps (z := b) x f); exact h
@[simp] theorem Blk.raiseIf_sides (b : Blk) (x : Bool) (f : Flag) : (b.raiseIf x f).sides = b.sides := by
  have h := congrArg Blk.sides (b.raiseIf_keeps (z := b) x f); exact h
@[simp] theorem Blk.raiseIf_act (b : Blk) (x : Bool) (f : Flag) : (b.raiseIf x f).act = b.act := by
  have h := congrArg Blk.act (b.raiseIf_keeps (z := b) x f); exact h
@[simp] theorem Blk.raiseIf_switchReq (b : Blk) (x : Bool) (f : Flag) : (b.raiseIf x f).switchReq = b.switchReq := by
  have h := congrArg Blk.switchReq (b.raiseIf_keeps (z := b) x f); exact h
@[simp] theorem Blk.raiseIf_fw (b : Blk) (x : Bool) (f : Flag) : (b.raiseIf x f).fw = b.fw := by
  have h := congrArg Blk.fw (b.raiseIf_keeps (z := b) x f); exact h
@[simp] theorem Blk.raiseIf_pw (b : Blk) (x : Bool) (f : Flag) : (b.raiseIf x f).pw = b.pw := by
  have h := congrArg Blk.pw (b.raiseIf_keeps (z := b) x f); exact h
@[simp] theorem Blk.raiseIf_nap (b : Blk) (x : Bool) (f : Flag) : (b.raiseIf x f).nap = b.nap := by
  have h := congrArg Blk.nap (b.raiseIf_keeps (z := b) x f); exact h
@[simp] theorem Blk.raiseIf_cams (b : Blk) (x : Bool) (f : Flag) : (b.raiseIf x f).cams = b.cams := by
  have h := congrArg Blk.cams (b.raiseIf_keeps (z := b) x f); exact h
@[simp] theorem Blk.raiseIf_camDirty (b : Blk) (x : Bool) (f : Flag) : (b.raiseIf x f).camDirty = b.camDirty := by
  have h := congrArg Blk.camDirty (b.raiseIf_keeps (z := b) x f); exact h
@[simp] theorem Blk.raiseIf_streams (b : Blk) (x : Bool) (f : Flag) : (b.raiseIf x f).streams = b.streams := by
  have h := congrArg Blk.streams (b.raiseIf_keeps (z := b) x f); exact h
@[simp] theorem Blk.raiseIf_resets (b : Blk) (x : Bool) (f : Flag) : (b.raiseIf x f).resets = b.resets := by
  have h := congrArg Blk.resets (b.raiseIf_keeps (z := b) x f); exact h
@[simp] theorem Blk.raiseIf_graze (b : Blk) (x : Bool) (f : Flag) : (b.raiseIf x f).graze = b.graze := by
  have h := congrArg Blk.graze (b.raiseIf_keeps (z := b) x f); exact h
@[simp] theorem Blk.raiseIf_casc (b : Blk) (x : Bool) (f : Flag) : (b.raiseIf x f).casc = b.casc := by
  have h := congrArg Blk.casc (b.raiseIf_keeps (z := b) x f); exact h
@[simp] theorem Blk.raiseIf_napCyc (b : Blk) (x : Bool) (f : Flag) : (b.raiseIf x f).napCyc = b.napCyc := by
  have h := congrArg Blk.napCyc (b.raiseIf_keeps (z := b) x f); exact h
@[simp] theorem Blk.raiseIf_napRest (b : Blk) (x : Bool) (f : Flag) : (b.raiseIf x f).napRest = b.napRest := by
  have h := congrArg Blk.napRest (b.raiseIf_keeps (z := b) x f); exact h
@[simp] theorem Blk.raiseIf_napTicks (b : Blk) (x : Bool) (f : Flag) : (b.raiseIf x f).napTicks = b.napTicks := by
  have h := congrArg Blk.napTicks (b.raiseIf_keeps (z := b) x f); exact h
@[simp] theorem Blk.raiseIf_msRest (b : Blk) (x : Bool) (f : Flag) : (b.raiseIf x f).msRest = b.msRest := by
  have h := congrArg Blk.msRest (b.raiseIf_keeps (z := b) x f); exact h
@[simp] theorem Blk.raiseIf_xchg (b : Blk) (x : Bool) (f : Flag) : (b.raiseIf x f).xchg = b.xchg := by
  have h := congrArg Blk.xchg (b.raiseIf_keeps (z := b) x f); exact h
@[simp] theorem Blk.raiseIf_skipStreams (b : Blk) (x : Bool) (f : Flag) : (b.raiseIf x f).skipStreams = b.skipStreams := by
  have h := congrArg Blk.skipStreams (b.raiseIf_keeps (z := b) x f); exact h
@[simp] theorem Blk.raiseIf_capTicks (b : Blk) (x : Bool) (f : Flag) : (b.raiseIf x f).capTicks = b.capTicks := by
  have h := congrArg Blk.capTicks (b.raiseIf_keeps (z := b) x f); exact h
@[simp] theorem Blk.raiseIf_onTicks (b : Blk) (x : Bool) (f : Flag) : (b.raiseIf x f).onTicks = b.onTicks := by
  have h := congrArg Blk.onTicks (b.raiseIf_keeps (z := b) x f); exact h
@[simp] theorem Blk.raiseIf_lifeHSaved (b : Blk) (x : Bool) (f : Flag) : (b.raiseIf x f).lifeHSaved = b.lifeHSaved := by
  have h := congrArg Blk.lifeHSaved (b.raiseIf_keeps (z := b) x f); exact h
@[simp] theorem Blk.raiseIf_fwCut (b : Blk) (x : Bool) (f : Flag) : (b.raiseIf x f).fwCut = b.fwCut := by
  have h := congrArg Blk.fwCut (b.raiseIf_keeps (z := b) x f); exact h
@[simp] theorem Blk.raiseIf_onSaved (b : Blk) (x : Bool) (f : Flag) : (b.raiseIf x f).onSaved = b.onSaved := by
  have h := congrArg Blk.onSaved (b.raiseIf_keeps (z := b) x f); exact h
@[simp] theorem Blk.raiseIf_yieldDue (b : Blk) (x : Bool) (f : Flag) : (b.raiseIf x f).yieldDue = b.yieldDue := by
  have h := congrArg Blk.yieldDue (b.raiseIf_keeps (z := b) x f); exact h
@[simp] theorem Blk.raiseIf_axis (b : Blk) (x : Bool) (f : Flag) (m : Fin 48) : (b.raiseIf x f).axis m = b.axis m := Blk.axis_of_ax (b.raiseIf_ax x f) m

@[simp] theorem Blk.raiseAx_rx (b : Blk) (n : Fin 48) (l : List Flag) : (b.raiseAx n l).rx = b.rx := by
  have h := congrArg Blk.rx (b.raiseAx_keeps (z := b) n l); exact h
@[simp] theorem Blk.raiseAx_sm (b : Blk) (n : Fin 48) (l : List Flag) : (b.raiseAx n l).sm = b.sm := by
  have h := congrArg Blk.sm (b.raiseAx_keeps (z := b) n l); exact h
@[simp] theorem Blk.raiseAx_planes (b : Blk) (n : Fin 48) (l : List Flag) : (b.raiseAx n l).planes = b.planes := by
  have h := congrArg Blk.planes (b.raiseAx_keeps (z := b) n l); exact h
@[simp] theorem Blk.raiseAx_orphanAt (b : Blk) (n : Fin 48) (l : List Flag) : (b.raiseAx n l).orphanAt = b.orphanAt := by
  have h := congrArg Blk.orphanAt (b.raiseAx_keeps (z := b) n l); exact h
@[simp] theorem Blk.raiseAx_lastSid (b : Blk) (n : Fin 48) (l : List Flag) : (b.raiseAx n l).lastSid = b.lastSid := by
  have h := congrArg Blk.lastSid (b.raiseAx_keeps (z := b) n l); exact h
@[simp] theorem Blk.raiseAx_claimFails (b : Blk) (n : Fin 48) (l : List Flag) : (b.raiseAx n l).claimFails = b.claimFails := by
  have h := congrArg Blk.claimFails (b.raiseAx_keeps (z := b) n l); exact h
@[simp] theorem Blk.raiseAx_lockout (b : Blk) (n : Fin 48) (l : List Flag) : (b.raiseAx n l).lockout = b.lockout := by
  have h := congrArg Blk.lockout (b.raiseAx_keeps (z := b) n l); exact h
@[simp] theorem Blk.raiseAx_swath (b : Blk) (n : Fin 48) (l : List Flag) : (b.raiseAx n l).swath = b.swath := by
  have h := congrArg Blk.swath (b.raiseAx_keeps (z := b) n l); exact h
@[simp] theorem Blk.raiseAx_tick (b : Blk) (n : Fin 48) (l : List Flag) : (b.raiseAx n l).tick = b.tick := by
  have h := congrArg Blk.tick (b.raiseAx_keeps (z := b) n l); exact h
@[simp] theorem Blk.raiseAx_plan (b : Blk) (n : Fin 48) (l : List Flag) : (b.raiseAx n l).plan = b.plan := by
  have h := congrArg Blk.plan (b.raiseAx_keeps (z := b) n l); exact h
@[simp] theorem Blk.raiseAx_ledg (b : Blk) (n : Fin 48) (l : List Flag) : (b.raiseAx n l).ledg = b.ledg := by
  have h := congrArg Blk.ledg (b.raiseAx_keeps (z := b) n l); exact h
@[simp] theorem Blk.raiseAx_meas (b : Blk) (n : Fin 48) (l : List Flag) : (b.raiseAx n l).meas = b.meas := by
  have h := congrArg Blk.meas (b.raiseAx_keeps (z := b) n l); exact h
@[simp] theorem Blk.raiseAx_sides (b : Blk) (n : Fin 48) (l : List Flag) : (b.raiseAx n l).sides = b.sides := by
  have h := congrArg Blk.sides (b.raiseAx_keeps (z := b) n l); exact h
@[simp] theorem Blk.raiseAx_act (b : Blk) (n : Fin 48) (l : List Flag) : (b.raiseAx n l).act = b.act := by
  have h := congrArg Blk.act (b.raiseAx_keeps (z := b) n l); exact h
@[simp] theorem Blk.raiseAx_switchReq (b : Blk) (n : Fin 48) (l : List Flag) : (b.raiseAx n l).switchReq = b.switchReq := by
  have h := congrArg Blk.switchReq (b.raiseAx_keeps (z := b) n l); exact h
@[simp] theorem Blk.raiseAx_fw (b : Blk) (n : Fin 48) (l : List Flag) : (b.raiseAx n l).fw = b.fw := by
  have h := congrArg Blk.fw (b.raiseAx_keeps (z := b) n l); exact h
@[simp] theorem Blk.raiseAx_pw (b : Blk) (n : Fin 48) (l : List Flag) : (b.raiseAx n l).pw = b.pw := by
  have h := congrArg Blk.pw (b.raiseAx_keeps (z := b) n l); exact h
@[simp] theorem Blk.raiseAx_nap (b : Blk) (n : Fin 48) (l : List Flag) : (b.raiseAx n l).nap = b.nap := by
  have h := congrArg Blk.nap (b.raiseAx_keeps (z := b) n l); exact h
@[simp] theorem Blk.raiseAx_cams (b : Blk) (n : Fin 48) (l : List Flag) : (b.raiseAx n l).cams = b.cams := by
  have h := congrArg Blk.cams (b.raiseAx_keeps (z := b) n l); exact h
@[simp] theorem Blk.raiseAx_camDirty (b : Blk) (n : Fin 48) (l : List Flag) : (b.raiseAx n l).camDirty = b.camDirty := by
  have h := congrArg Blk.camDirty (b.raiseAx_keeps (z := b) n l); exact h
@[simp] theorem Blk.raiseAx_streams (b : Blk) (n : Fin 48) (l : List Flag) : (b.raiseAx n l).streams = b.streams := by
  have h := congrArg Blk.streams (b.raiseAx_keeps (z := b) n l); exact h
@[simp] theorem Blk.raiseAx_resets (b : Blk) (n : Fin 48) (l : List Flag) : (b.raiseAx n l).resets = b.resets := by
  have h := congrArg Blk.resets (b.raiseAx_keeps (z := b) n l); exact h
@[simp] theorem Blk.raiseAx_graze (b : Blk) (n : Fin 48) (l : List Flag) : (b.raiseAx n l).graze = b.graze := by
  have h := congrArg Blk.graze (b.raiseAx_keeps (z := b) n l); exact h
@[simp] theorem Blk.raiseAx_napCyc (b : Blk) (n : Fin 48) (l : List Flag) : (b.raiseAx n l).napCyc = b.napCyc := by
  have h := congrArg Blk.napCyc (b.raiseAx_keeps (z := b) n l); exact h
@[simp] theorem Blk.raiseAx_napRest (b : Blk) (n : Fin 48) (l : List Flag) : (b.raiseAx n l).napRest = b.napRest := by
  have h := congrArg Blk.napRest (b.raiseAx_keeps (z := b) n l); exact h
@[simp] theorem Blk.raiseAx_msRest (b : Blk) (n : Fin 48) (l : List Flag) : (b.raiseAx n l).msRest = b.msRest := by
  have h := congrArg Blk.msRest (b.raiseAx_keeps (z := b) n l); exact h
@[simp] theorem Blk.raiseAx_xchg (b : Blk) (n : Fin 48) (l : List Flag) : (b.raiseAx n l).xchg = b.xchg := by
  have h := congrArg Blk.xchg (b.raiseAx_keeps (z := b) n l); exact h
@[simp] theorem Blk.raiseAx_skipStreams (b : Blk) (n : Fin 48) (l : List Flag) : (b.raiseAx n l).skipStreams = b.skipStreams := by
  have h := congrArg Blk.skipStreams (b.raiseAx_keeps (z := b) n l); exact h
@[simp] theorem Blk.raiseAx_capTicks (b : Blk) (n : Fin 48) (l : List Flag) : (b.raiseAx n l).capTicks = b.capTicks := by
  have h := congrArg Blk.capTicks (b.raiseAx_keeps (z := b) n l); exact h
@[simp] theorem Blk.raiseAx_onTicks (b : Blk) (n : Fin 48) (l : List Flag) : (b.raiseAx n l).onTicks = b.onTicks := by
  have h := congrArg Blk.onTicks (b.raiseAx_keeps (z := b) n l); exact h
@[simp] theorem Blk.raiseAx_lifeHSaved (b : Blk) (n : Fin 48) (l : List Flag) : (b.raiseAx n l).lifeHSaved = b.lifeHSaved := by
  have h := congrArg Blk.lifeHSaved (b.raiseAx_keeps (z := b) n l); exact h
@[simp] theorem Blk.raiseAx_fwCut (b : Blk) (n : Fin 48) (l : List Flag) : (b.raiseAx n l).fwCut = b.fwCut := by
  have h := congrArg Blk.fwCut (b.raiseAx_keeps (z := b) n l); exact h
@[simp] theorem Blk.raiseAx_onSaved (b : Blk) (n : Fin 48) (l : List Flag) : (b.raiseAx n l).onSaved = b.onSaved := by
  have h := congrArg Blk.onSaved (b.raiseAx_keeps (z := b) n l); exact h
@[simp] theorem Blk.raiseAx_yieldDue (b : Blk) (n : Fin 48) (l : List Flag) : (b.raiseAx n l).yieldDue = b.yieldDue := by
  have h := congrArg Blk.yieldDue (b.raiseAx_keeps (z := b) n l); exact h

@[simp] theorem Blk.send_ax (b : Blk) (p : Fin 6) (o : OutPkt) : (b.send p o).ax = b.ax := by
  have h := congrArg Blk.ax (b.send_keeps (z := b) p o); exact h
@[simp] theorem Blk.send_rx (b : Blk) (p : Fin 6) (o : OutPkt) : (b.send p o).rx = b.rx := by
  have h := congrArg Blk.rx (b.send_keeps (z := b) p o); exact h
@[simp] theorem Blk.send_sm (b : Blk) (p : Fin 6) (o : OutPkt) : (b.send p o).sm = b.sm := by
  have h := congrArg Blk.sm (b.send_keeps (z := b) p o); exact h
@[simp] theorem Blk.send_planes (b : Blk) (p : Fin 6) (o : OutPkt) : (b.send p o).planes = b.planes := by
  have h := congrArg Blk.planes (b.send_keeps (z := b) p o); exact h
@[simp] theorem Blk.send_orphanAt (b : Blk) (p : Fin 6) (o : OutPkt) : (b.send p o).orphanAt = b.orphanAt := by
  have h := congrArg Blk.orphanAt (b.send_keeps (z := b) p o); exact h
@[simp] theorem Blk.send_lastSid (b : Blk) (p : Fin 6) (o : OutPkt) : (b.send p o).lastSid = b.lastSid := by
  have h := congrArg Blk.lastSid (b.send_keeps (z := b) p o); exact h
@[simp] theorem Blk.send_claimFails (b : Blk) (p : Fin 6) (o : OutPkt) : (b.send p o).claimFails = b.claimFails := by
  have h := congrArg Blk.claimFails (b.send_keeps (z := b) p o); exact h
@[simp] theorem Blk.send_lockout (b : Blk) (p : Fin 6) (o : OutPkt) : (b.send p o).lockout = b.lockout := by
  have h := congrArg Blk.lockout (b.send_keeps (z := b) p o); exact h
@[simp] theorem Blk.send_swath (b : Blk) (p : Fin 6) (o : OutPkt) : (b.send p o).swath = b.swath := by
  have h := congrArg Blk.swath (b.send_keeps (z := b) p o); exact h
@[simp] theorem Blk.send_tick (b : Blk) (p : Fin 6) (o : OutPkt) : (b.send p o).tick = b.tick := by
  have h := congrArg Blk.tick (b.send_keeps (z := b) p o); exact h
@[simp] theorem Blk.send_plan (b : Blk) (p : Fin 6) (o : OutPkt) : (b.send p o).plan = b.plan := by
  have h := congrArg Blk.plan (b.send_keeps (z := b) p o); exact h
@[simp] theorem Blk.send_ledg (b : Blk) (p : Fin 6) (o : OutPkt) : (b.send p o).ledg = b.ledg := by
  have h := congrArg Blk.ledg (b.send_keeps (z := b) p o); exact h
@[simp] theorem Blk.send_meas (b : Blk) (p : Fin 6) (o : OutPkt) : (b.send p o).meas = b.meas := by
  have h := congrArg Blk.meas (b.send_keeps (z := b) p o); exact h
@[simp] theorem Blk.send_sides (b : Blk) (p : Fin 6) (o : OutPkt) : (b.send p o).sides = b.sides := by
  have h := congrArg Blk.sides (b.send_keeps (z := b) p o); exact h
@[simp] theorem Blk.send_act (b : Blk) (p : Fin 6) (o : OutPkt) : (b.send p o).act = b.act := by
  have h := congrArg Blk.act (b.send_keeps (z := b) p o); exact h
@[simp] theorem Blk.send_switchReq (b : Blk) (p : Fin 6) (o : OutPkt) : (b.send p o).switchReq = b.switchReq := by
  have h := congrArg Blk.switchReq (b.send_keeps (z := b) p o); exact h
@[simp] theorem Blk.send_fw (b : Blk) (p : Fin 6) (o : OutPkt) : (b.send p o).fw = b.fw := by
  have h := congrArg Blk.fw (b.send_keeps (z := b) p o); exact h
@[simp] theorem Blk.send_pw (b : Blk) (p : Fin 6) (o : OutPkt) : (b.send p o).pw = b.pw := by
  have h := congrArg Blk.pw (b.send_keeps (z := b) p o); exact h
@[simp] theorem Blk.send_nap (b : Blk) (p : Fin 6) (o : OutPkt) : (b.send p o).nap = b.nap := by
  have h := congrArg Blk.nap (b.send_keeps (z := b) p o); exact h
@[simp] theorem Blk.send_cams (b : Blk) (p : Fin 6) (o : OutPkt) : (b.send p o).cams = b.cams := by
  have h := congrArg Blk.cams (b.send_keeps (z := b) p o); exact h
@[simp] theorem Blk.send_camDirty (b : Blk) (p : Fin 6) (o : OutPkt) : (b.send p o).camDirty = b.camDirty := by
  have h := congrArg Blk.camDirty (b.send_keeps (z := b) p o); exact h
@[simp] theorem Blk.send_streams (b : Blk) (p : Fin 6) (o : OutPkt) : (b.send p o).streams = b.streams := by
  have h := congrArg Blk.streams (b.send_keeps (z := b) p o); exact h
@[simp] theorem Blk.send_resets (b : Blk) (p : Fin 6) (o : OutPkt) : (b.send p o).resets = b.resets := by
  have h := congrArg Blk.resets (b.send_keeps (z := b) p o); exact h
@[simp] theorem Blk.send_graze (b : Blk) (p : Fin 6) (o : OutPkt) : (b.send p o).graze = b.graze := by
  have h := congrArg Blk.graze (b.send_keeps (z := b) p o); exact h
@[simp] theorem Blk.send_napCyc (b : Blk) (p : Fin 6) (o : OutPkt) : (b.send p o).napCyc = b.napCyc := by
  have h := congrArg Blk.napCyc (b.send_keeps (z := b) p o); exact h
@[simp] theorem Blk.send_napRest (b : Blk) (p : Fin 6) (o : OutPkt) : (b.send p o).napRest = b.napRest := by
  have h := congrArg Blk.napRest (b.send_keeps (z := b) p o); exact h
@[simp] theorem Blk.send_msRest (b : Blk) (p : Fin 6) (o : OutPkt) : (b.send p o).msRest = b.msRest := by
  have h := congrArg Blk.msRest (b.send_keeps (z := b) p o); exact h
@[simp] theorem Blk.send_xchg (b : Blk) (p : Fin 6) (o : OutPkt) : (b.send p o).xchg = b.xchg := by
  have h := congrArg Blk.xchg (b.send_keeps (z := b) p o); exact h
@[simp] theorem Blk.send_skipStreams (b : Blk) (p : Fin 6) (o : OutPkt) : (b.send p o).skipStreams = b.skipStreams := by
  have h := congrArg Blk.skipStreams (b.send_keeps (z := b) p o); exact h
@[simp] theorem Blk.send_capTicks (b : Blk) (p : Fin 6) (o : OutPkt) : (b.send p o).capTicks = b.capTicks := by
  have h := congrArg Blk.capTicks (b.send_keeps (z := b) p o); exact h
@[simp] theorem Blk.send_onTicks (b : Blk) (p : Fin 6) (o : OutPkt) : (b.send p o).onTicks = b.onTicks := by
  have h := congrArg Blk.onTicks (b.send_keeps (z := b) p o); exact h
@[simp] theorem Blk.send_lifeHSaved (b : Blk) (p : Fin 6) (o : OutPkt) : (b.send p o).lifeHSaved = b.lifeHSaved := by
  have h := congrArg Blk.lifeHSaved (b.send_keeps (z := b) p o); exact h
@[simp] theorem Blk.send_fwCut (b : Blk) (p : Fin 6) (o : OutPkt) : (b.send p o).fwCut = b.fwCut := by
  have h := congrArg Blk.fwCut (b.send_keeps (z := b) p o); exact h
@[simp] theorem Blk.send_onSaved (b : Blk) (p : Fin 6) (o : OutPkt) : (b.send p o).onSaved = b.onSaved := by
  have h := congrArg Blk.onSaved (b.send_keeps (z := b) p o); exact h
@[simp] theorem Blk.send_yieldDue (b : Blk) (p : Fin 6) (o : OutPkt) : (b.send p o).yieldDue = b.yieldDue := by
  have h := congrArg Blk.yieldDue (b.send_keeps (z := b) p o); exact h
@[simp] theorem Blk.send_axis (b : Blk) (p : Fin 6) (o : OutPkt) (m : Fin 48) : (b.send p o).axis m = b.axis m := Blk.axis_of_ax (b.send_ax p o) m

@[simp] theorem Blk.contribute_ax (b : Blk) (o : OutPkt) : (b.contribute o).ax = b.ax := by
  have h := congrArg Blk.ax (b.contribute_keeps (z := b) o); exact h
@[simp] theorem Blk.contribute_rx (b : Blk) (o : OutPkt) : (b.contribute o).rx = b.rx := by
  have h := congrArg Blk.rx (b.contribute_keeps (z := b) o); exact h
@[simp] theorem Blk.contribute_sm (b : Blk) (o : OutPkt) : (b.contribute o).sm = b.sm := by
  have h := congrArg Blk.sm (b.contribute_keeps (z := b) o); exact h
@[simp] theorem Blk.contribute_planes (b : Blk) (o : OutPkt) : (b.contribute o).planes = b.planes := by
  have h := congrArg Blk.planes (b.contribute_keeps (z := b) o); exact h
@[simp] theorem Blk.contribute_orphanAt (b : Blk) (o : OutPkt) : (b.contribute o).orphanAt = b.orphanAt := by
  have h := congrArg Blk.orphanAt (b.contribute_keeps (z := b) o); exact h
@[simp] theorem Blk.contribute_lastSid (b : Blk) (o : OutPkt) : (b.contribute o).lastSid = b.lastSid := by
  have h := congrArg Blk.lastSid (b.contribute_keeps (z := b) o); exact h
@[simp] theorem Blk.contribute_claimFails (b : Blk) (o : OutPkt) : (b.contribute o).claimFails = b.claimFails := by
  have h := congrArg Blk.claimFails (b.contribute_keeps (z := b) o); exact h
@[simp] theorem Blk.contribute_lockout (b : Blk) (o : OutPkt) : (b.contribute o).lockout = b.lockout := by
  have h := congrArg Blk.lockout (b.contribute_keeps (z := b) o); exact h
@[simp] theorem Blk.contribute_swath (b : Blk) (o : OutPkt) : (b.contribute o).swath = b.swath := by
  have h := congrArg Blk.swath (b.contribute_keeps (z := b) o); exact h
@[simp] theorem Blk.contribute_tick (b : Blk) (o : OutPkt) : (b.contribute o).tick = b.tick := by
  have h := congrArg Blk.tick (b.contribute_keeps (z := b) o); exact h
@[simp] theorem Blk.contribute_plan (b : Blk) (o : OutPkt) : (b.contribute o).plan = b.plan := by
  have h := congrArg Blk.plan (b.contribute_keeps (z := b) o); exact h
@[simp] theorem Blk.contribute_ledg (b : Blk) (o : OutPkt) : (b.contribute o).ledg = b.ledg := by
  have h := congrArg Blk.ledg (b.contribute_keeps (z := b) o); exact h
@[simp] theorem Blk.contribute_meas (b : Blk) (o : OutPkt) : (b.contribute o).meas = b.meas := by
  have h := congrArg Blk.meas (b.contribute_keeps (z := b) o); exact h
@[simp] theorem Blk.contribute_sides (b : Blk) (o : OutPkt) : (b.contribute o).sides = b.sides := by
  have h := congrArg Blk.sides (b.contribute_keeps (z := b) o); exact h
@[simp] theorem Blk.contribute_act (b : Blk) (o : OutPkt) : (b.contribute o).act = b.act := by
  have h := congrArg Blk.act (b.contribute_keeps (z := b) o); exact h
@[simp] theorem Blk.contribute_switchReq (b : Blk) (o : OutPkt) : (b.contribute o).switchReq = b.switchReq := by
  have h := congrArg Blk.switchReq (b.contribute_keeps (z := b) o); exact h
@[simp] theorem Blk.contribute_fw (b : Blk) (o : OutPkt) : (b.contribute o).fw = b.fw := by
  have h := congrArg Blk.fw (b.contribute_keeps (z := b) o); exact h
@[simp] theorem Blk.contribute_pw (b : Blk) (o : OutPkt) : (b.contribute o).pw = b.pw := by
  have h := congrArg Blk.pw (b.contribute_keeps (z := b) o); exact h
@[simp] theorem Blk.contribute_nap (b : Blk) (o : OutPkt) : (b.contribute o).nap = b.nap := by
  have h := congrArg Blk.nap (b.contribute_keeps (z := b) o); exact h
@[simp] theorem Blk.contribute_cams (b : Blk) (o : OutPkt) : (b.contribute o).cams = b.cams := by
  have h := congrArg Blk.cams (b.contribute_keeps (z := b) o); exact h
@[simp] theorem Blk.contribute_camDirty (b : Blk) (o : OutPkt) : (b.contribute o).camDirty = b.camDirty := by
  have h := congrArg Blk.camDirty (b.contribute_keeps (z := b) o); exact h
@[simp] theorem Blk.contribute_streams (b : Blk) (o : OutPkt) : (b.contribute o).streams = b.streams := by
  have h := congrArg Blk.streams (b.contribute_keeps (z := b) o); exact h
@[simp] theorem Blk.contribute_resets (b : Blk) (o : OutPkt) : (b.contribute o).resets = b.resets := by
  have h := congrArg Blk.resets (b.contribute_keeps (z := b) o); exact h
@[simp] theorem Blk.contribute_graze (b : Blk) (o : OutPkt) : (b.contribute o).graze = b.graze := by
  have h := congrArg Blk.graze (b.contribute_keeps (z := b) o); exact h
@[simp] theorem Blk.contribute_napCyc (b : Blk) (o : OutPkt) : (b.contribute o).napCyc = b.napCyc := by
  have h := congrArg Blk.napCyc (b.contribute_keeps (z := b) o); exact h
@[simp] theorem Blk.contribute_napRest (b : Blk) (o : OutPkt) : (b.contribute o).napRest = b.napRest := by
  have h := congrArg Blk.napRest (b.contribute_keeps (z := b) o); exact h
@[simp] theorem Blk.contribute_msRest (b : Blk) (o : OutPkt) : (b.contribute o).msRest = b.msRest := by
  have h := congrArg Blk.msRest (b.contribute_keeps (z := b) o); exact h
@[simp] theorem Blk.contribute_xchg (b : Blk) (o : OutPkt) : (b.contribute o).xchg = b.xchg := by
  have h := congrArg Blk.xchg (b.contribute_keeps (z := b) o); exact h
@[simp] theorem Blk.contribute_skipStreams (b : Blk) (o : OutPkt) : (b.contribute o).skipStreams = b.skipStreams := by
  have h := congrArg Blk.skipStreams (b.contribute_keeps (z := b) o); exact h
@[simp] theorem Blk.contribute_capTicks (b : Blk) (o : OutPkt) : (b.contribute o).capTicks = b.capTicks := by
  have h := congrArg Blk.capTicks (b.contribute_keeps (z := b) o); exact h
@[simp] theorem Blk.contribute_onTicks (b : Blk) (o : OutPkt) : (b.contribute o).onTicks = b.onTicks := by
  have h := congrArg Blk.onTicks (b.contribute_keeps (z := b) o); exact h
@[simp] theorem Blk.contribute_lifeHSaved (b : Blk) (o : OutPkt) : (b.contribute o).lifeHSaved = b.lifeHSaved := by
  have h := congrArg Blk.lifeHSaved (b.contribute_keeps (z := b) o); exact h
@[simp] theorem Blk.contribute_fwCut (b : Blk) (o : OutPkt) : (b.contribute o).fwCut = b.fwCut := by
  have h := congrArg Blk.fwCut (b.contribute_keeps (z := b) o); exact h
@[simp] theorem Blk.contribute_onSaved (b : Blk) (o : OutPkt) : (b.contribute o).onSaved = b.onSaved := by
  have h := congrArg Blk.onSaved (b.contribute_keeps (z := b) o); exact h
@[simp] theorem Blk.contribute_yieldDue (b : Blk) (o : OutPkt) : (b.contribute o).yieldDue = b.yieldDue := by
  have h := congrArg Blk.yieldDue (b.contribute_keeps (z := b) o); exact h
@[simp] theorem Blk.contribute_axis (b : Blk) (o : OutPkt) (m : Fin 48) : (b.contribute o).axis m = b.axis m := Blk.axis_of_ax (b.contribute_ax o) m

@[simp] theorem Blk.sendVia_ax (b : Blk) (v : Via) (o : OutPkt) : (b.sendVia v o).ax = b.ax := by
  have h := congrArg Blk.ax (b.sendVia_keeps (z := b) v o); exact h
@[simp] theorem Blk.sendVia_rx (b : Blk) (v : Via) (o : OutPkt) : (b.sendVia v o).rx = b.rx := by
  have h := congrArg Blk.rx (b.sendVia_keeps (z := b) v o); exact h
@[simp] theorem Blk.sendVia_sm (b : Blk) (v : Via) (o : OutPkt) : (b.sendVia v o).sm = b.sm := by
  have h := congrArg Blk.sm (b.sendVia_keeps (z := b) v o); exact h
@[simp] theorem Blk.sendVia_planes (b : Blk) (v : Via) (o : OutPkt) : (b.sendVia v o).planes = b.planes := by
  have h := congrArg Blk.planes (b.sendVia_keeps (z := b) v o); exact h
@[simp] theorem Blk.sendVia_orphanAt (b : Blk) (v : Via) (o : OutPkt) : (b.sendVia v o).orphanAt = b.orphanAt := by
  have h := congrArg Blk.orphanAt (b.sendVia_keeps (z := b) v o); exact h
@[simp] theorem Blk.sendVia_lastSid (b : Blk) (v : Via) (o : OutPkt) : (b.sendVia v o).lastSid = b.lastSid := by
  have h := congrArg Blk.lastSid (b.sendVia_keeps (z := b) v o); exact h
@[simp] theorem Blk.sendVia_claimFails (b : Blk) (v : Via) (o : OutPkt) : (b.sendVia v o).claimFails = b.claimFails := by
  have h := congrArg Blk.claimFails (b.sendVia_keeps (z := b) v o); exact h
@[simp] theorem Blk.sendVia_lockout (b : Blk) (v : Via) (o : OutPkt) : (b.sendVia v o).lockout = b.lockout := by
  have h := congrArg Blk.lockout (b.sendVia_keeps (z := b) v o); exact h
@[simp] theorem Blk.sendVia_swath (b : Blk) (v : Via) (o : OutPkt) : (b.sendVia v o).swath = b.swath := by
  have h := congrArg Blk.swath (b.sendVia_keeps (z := b) v o); exact h
@[simp] theorem Blk.sendVia_tick (b : Blk) (v : Via) (o : OutPkt) : (b.sendVia v o).tick = b.tick := by
  have h := congrArg Blk.tick (b.sendVia_keeps (z := b) v o); exact h
@[simp] theorem Blk.sendVia_plan (b : Blk) (v : Via) (o : OutPkt) : (b.sendVia v o).plan = b.plan := by
  have h := congrArg Blk.plan (b.sendVia_keeps (z := b) v o); exact h
@[simp] theorem Blk.sendVia_ledg (b : Blk) (v : Via) (o : OutPkt) : (b.sendVia v o).ledg = b.ledg := by
  have h := congrArg Blk.ledg (b.sendVia_keeps (z := b) v o); exact h
@[simp] theorem Blk.sendVia_meas (b : Blk) (v : Via) (o : OutPkt) : (b.sendVia v o).meas = b.meas := by
  have h := congrArg Blk.meas (b.sendVia_keeps (z := b) v o); exact h
@[simp] theorem Blk.sendVia_sides (b : Blk) (v : Via) (o : OutPkt) : (b.sendVia v o).sides = b.sides := by
  have h := congrArg Blk.sides (b.sendVia_keeps (z := b) v o); exact h
@[simp] theorem Blk.sendVia_act (b : Blk) (v : Via) (o : OutPkt) : (b.sendVia v o).act = b.act := by
  have h := congrArg Blk.act (b.sendVia_keeps (z := b) v o); exact h
@[simp] theorem Blk.sendVia_switchReq (b : Blk) (v : Via) (o : OutPkt) : (b.sendVia v o).switchReq = b.switchReq := by
  have h := congrArg Blk.switchReq (b.sendVia_keeps (z := b) v o); exact h
@[simp] theorem Blk.sendVia_fw (b : Blk) (v : Via) (o : OutPkt) : (b.sendVia v o).fw = b.fw := by
  have h := congrArg Blk.fw (b.sendVia_keeps (z := b) v o); exact h
@[simp] theorem Blk.sendVia_pw (b : Blk) (v : Via) (o : OutPkt) : (b.sendVia v o).pw = b.pw := by
  have h := congrArg Blk.pw (b.sendVia_keeps (z := b) v o); exact h
@[simp] theorem Blk.sendVia_nap (b : Blk) (v : Via) (o : OutPkt) : (b.sendVia v o).nap = b.nap := by
  have h := congrArg Blk.nap (b.sendVia_keeps (z := b) v o); exact h
@[simp] theorem Blk.sendVia_cams (b : Blk) (v : Via) (o : OutPkt) : (b.sendVia v o).cams = b.cams := by
  have h := congrArg Blk.cams (b.sendVia_keeps (z := b) v o); exact h
@[simp] theorem Blk.sendVia_camDirty (b : Blk) (v : Via) (o : OutPkt) : (b.sendVia v o).camDirty = b.camDirty := by
  have h := congrArg Blk.camDirty (b.sendVia_keeps (z := b) v o); exact h
@[simp] theorem Blk.sendVia_streams (b : Blk) (v : Via) (o : OutPkt) : (b.sendVia v o).streams = b.streams := by
  have h := congrArg Blk.streams (b.sendVia_keeps (z := b) v o); exact h
@[simp] theorem Blk.sendVia_resets (b : Blk) (v : Via) (o : OutPkt) : (b.sendVia v o).resets = b.resets := by
  have h := congrArg Blk.resets (b.sendVia_keeps (z := b) v o); exact h
@[simp] theorem Blk.sendVia_graze (b : Blk) (v : Via) (o : OutPkt) : (b.sendVia v o).graze = b.graze := by
  have h := congrArg Blk.graze (b.sendVia_keeps (z := b) v o); exact h
@[simp] theorem Blk.sendVia_napCyc (b : Blk) (v : Via) (o : OutPkt) : (b.sendVia v o).napCyc = b.napCyc := by
  have h := congrArg Blk.napCyc (b.sendVia_keeps (z := b) v o); exact h
@[simp] theorem Blk.sendVia_napRest (b : Blk) (v : Via) (o : OutPkt) : (b.sendVia v o).napRest = b.napRest := by
  have h := congrArg Blk.napRest (b.sendVia_keeps (z := b) v o); exact h
@[simp] theorem Blk.sendVia_msRest (b : Blk) (v : Via) (o : OutPkt) : (b.sendVia v o).msRest = b.msRest := by
  have h := congrArg Blk.msRest (b.sendVia_keeps (z := b) v o); exact h
@[simp] theorem Blk.sendVia_xchg (b : Blk) (v : Via) (o : OutPkt) : (b.sendVia v o).xchg = b.xchg := by
  have h := congrArg Blk.xchg (b.sendVia_keeps (z := b) v o); exact h
@[simp] theorem Blk.sendVia_skipStreams (b : Blk) (v : Via) (o : OutPkt) : (b.sendVia v o).skipStreams = b.skipStreams := by
  have h := congrArg Blk.skipStreams (b.sendVia_keeps (z := b) v o); exact h
@[simp] theorem Blk.sendVia_capTicks (b : Blk) (v : Via) (o : OutPkt) : (b.sendVia v o).capTicks = b.capTicks := by
  have h := congrArg Blk.capTicks (b.sendVia_keeps (z := b) v o); exact h
@[simp] theorem Blk.sendVia_onTicks (b : Blk) (v : Via) (o : OutPkt) : (b.sendVia v o).onTicks = b.onTicks := by
  have h := congrArg Blk.onTicks (b.sendVia_keeps (z := b) v o); exact h
@[simp] theorem Blk.sendVia_lifeHSaved (b : Blk) (v : Via) (o : OutPkt) : (b.sendVia v o).lifeHSaved = b.lifeHSaved := by
  have h := congrArg Blk.lifeHSaved (b.sendVia_keeps (z := b) v o); exact h
@[simp] theorem Blk.sendVia_fwCut (b : Blk) (v : Via) (o : OutPkt) : (b.sendVia v o).fwCut = b.fwCut := by
  have h := congrArg Blk.fwCut (b.sendVia_keeps (z := b) v o); exact h
@[simp] theorem Blk.sendVia_onSaved (b : Blk) (v : Via) (o : OutPkt) : (b.sendVia v o).onSaved = b.onSaved := by
  have h := congrArg Blk.onSaved (b.sendVia_keeps (z := b) v o); exact h
@[simp] theorem Blk.sendVia_yieldDue (b : Blk) (v : Via) (o : OutPkt) : (b.sendVia v o).yieldDue = b.yieldDue := by
  have h := congrArg Blk.yieldDue (b.sendVia_keeps (z := b) v o); exact h
@[simp] theorem Blk.sendVia_axis (b : Blk) (v : Via) (o : OutPkt) (m : Fin 48) : (b.sendVia v o).axis m = b.axis m := Blk.axis_of_ax (b.sendVia_ax v o) m

@[simp] theorem Blk.event_ax (b : Blk) (k t x : Nat) (d : List Byte) : (b.event k t x d).ax = b.ax := by
  have h := congrArg Blk.ax (b.event_keeps (z := b) k t x d); exact h
@[simp] theorem Blk.event_rx (b : Blk) (k t x : Nat) (d : List Byte) : (b.event k t x d).rx = b.rx := by
  have h := congrArg Blk.rx (b.event_keeps (z := b) k t x d); exact h
@[simp] theorem Blk.event_sm (b : Blk) (k t x : Nat) (d : List Byte) : (b.event k t x d).sm = b.sm := by
  have h := congrArg Blk.sm (b.event_keeps (z := b) k t x d); exact h
@[simp] theorem Blk.event_planes (b : Blk) (k t x : Nat) (d : List Byte) : (b.event k t x d).planes = b.planes := by
  have h := congrArg Blk.planes (b.event_keeps (z := b) k t x d); exact h
@[simp] theorem Blk.event_orphanAt (b : Blk) (k t x : Nat) (d : List Byte) : (b.event k t x d).orphanAt = b.orphanAt := by
  have h := congrArg Blk.orphanAt (b.event_keeps (z := b) k t x d); exact h
@[simp] theorem Blk.event_lastSid (b : Blk) (k t x : Nat) (d : List Byte) : (b.event k t x d).lastSid = b.lastSid := by
  have h := congrArg Blk.lastSid (b.event_keeps (z := b) k t x d); exact h
@[simp] theorem Blk.event_claimFails (b : Blk) (k t x : Nat) (d : List Byte) : (b.event k t x d).claimFails = b.claimFails := by
  have h := congrArg Blk.claimFails (b.event_keeps (z := b) k t x d); exact h
@[simp] theorem Blk.event_lockout (b : Blk) (k t x : Nat) (d : List Byte) : (b.event k t x d).lockout = b.lockout := by
  have h := congrArg Blk.lockout (b.event_keeps (z := b) k t x d); exact h
@[simp] theorem Blk.event_swath (b : Blk) (k t x : Nat) (d : List Byte) : (b.event k t x d).swath = b.swath := by
  have h := congrArg Blk.swath (b.event_keeps (z := b) k t x d); exact h
@[simp] theorem Blk.event_tick (b : Blk) (k t x : Nat) (d : List Byte) : (b.event k t x d).tick = b.tick := by
  have h := congrArg Blk.tick (b.event_keeps (z := b) k t x d); exact h
@[simp] theorem Blk.event_plan (b : Blk) (k t x : Nat) (d : List Byte) : (b.event k t x d).plan = b.plan := by
  have h := congrArg Blk.plan (b.event_keeps (z := b) k t x d); exact h
@[simp] theorem Blk.event_ledg (b : Blk) (k t x : Nat) (d : List Byte) : (b.event k t x d).ledg = b.ledg := by
  have h := congrArg Blk.ledg (b.event_keeps (z := b) k t x d); exact h
@[simp] theorem Blk.event_meas (b : Blk) (k t x : Nat) (d : List Byte) : (b.event k t x d).meas = b.meas := by
  have h := congrArg Blk.meas (b.event_keeps (z := b) k t x d); exact h
@[simp] theorem Blk.event_sides (b : Blk) (k t x : Nat) (d : List Byte) : (b.event k t x d).sides = b.sides := by
  have h := congrArg Blk.sides (b.event_keeps (z := b) k t x d); exact h
@[simp] theorem Blk.event_act (b : Blk) (k t x : Nat) (d : List Byte) : (b.event k t x d).act = b.act := by
  have h := congrArg Blk.act (b.event_keeps (z := b) k t x d); exact h
@[simp] theorem Blk.event_switchReq (b : Blk) (k t x : Nat) (d : List Byte) : (b.event k t x d).switchReq = b.switchReq := by
  have h := congrArg Blk.switchReq (b.event_keeps (z := b) k t x d); exact h
@[simp] theorem Blk.event_fw (b : Blk) (k t x : Nat) (d : List Byte) : (b.event k t x d).fw = b.fw := by
  have h := congrArg Blk.fw (b.event_keeps (z := b) k t x d); exact h
@[simp] theorem Blk.event_pw (b : Blk) (k t x : Nat) (d : List Byte) : (b.event k t x d).pw = b.pw := by
  have h := congrArg Blk.pw (b.event_keeps (z := b) k t x d); exact h
@[simp] theorem Blk.event_nap (b : Blk) (k t x : Nat) (d : List Byte) : (b.event k t x d).nap = b.nap := by
  have h := congrArg Blk.nap (b.event_keeps (z := b) k t x d); exact h
@[simp] theorem Blk.event_cams (b : Blk) (k t x : Nat) (d : List Byte) : (b.event k t x d).cams = b.cams := by
  have h := congrArg Blk.cams (b.event_keeps (z := b) k t x d); exact h
@[simp] theorem Blk.event_camDirty (b : Blk) (k t x : Nat) (d : List Byte) : (b.event k t x d).camDirty = b.camDirty := by
  have h := congrArg Blk.camDirty (b.event_keeps (z := b) k t x d); exact h
@[simp] theorem Blk.event_streams (b : Blk) (k t x : Nat) (d : List Byte) : (b.event k t x d).streams = b.streams := by
  have h := congrArg Blk.streams (b.event_keeps (z := b) k t x d); exact h
@[simp] theorem Blk.event_resets (b : Blk) (k t x : Nat) (d : List Byte) : (b.event k t x d).resets = b.resets := by
  have h := congrArg Blk.resets (b.event_keeps (z := b) k t x d); exact h
@[simp] theorem Blk.event_graze (b : Blk) (k t x : Nat) (d : List Byte) : (b.event k t x d).graze = b.graze := by
  have h := congrArg Blk.graze (b.event_keeps (z := b) k t x d); exact h
@[simp] theorem Blk.event_napCyc (b : Blk) (k t x : Nat) (d : List Byte) : (b.event k t x d).napCyc = b.napCyc := by
  have h := congrArg Blk.napCyc (b.event_keeps (z := b) k t x d); exact h
@[simp] theorem Blk.event_napRest (b : Blk) (k t x : Nat) (d : List Byte) : (b.event k t x d).napRest = b.napRest := by
  have h := congrArg Blk.napRest (b.event_keeps (z := b) k t x d); exact h
@[simp] theorem Blk.event_msRest (b : Blk) (k t x : Nat) (d : List Byte) : (b.event k t x d).msRest = b.msRest := by
  have h := congrArg Blk.msRest (b.event_keeps (z := b) k t x d); exact h
@[simp] theorem Blk.event_xchg (b : Blk) (k t x : Nat) (d : List Byte) : (b.event k t x d).xchg = b.xchg := by
  have h := congrArg Blk.xchg (b.event_keeps (z := b) k t x d); exact h
@[simp] theorem Blk.event_skipStreams (b : Blk) (k t x : Nat) (d : List Byte) : (b.event k t x d).skipStreams = b.skipStreams := by
  have h := congrArg Blk.skipStreams (b.event_keeps (z := b) k t x d); exact h
@[simp] theorem Blk.event_capTicks (b : Blk) (k t x : Nat) (d : List Byte) : (b.event k t x d).capTicks = b.capTicks := by
  have h := congrArg Blk.capTicks (b.event_keeps (z := b) k t x d); exact h
@[simp] theorem Blk.event_onTicks (b : Blk) (k t x : Nat) (d : List Byte) : (b.event k t x d).onTicks = b.onTicks := by
  have h := congrArg Blk.onTicks (b.event_keeps (z := b) k t x d); exact h
@[simp] theorem Blk.event_lifeHSaved (b : Blk) (k t x : Nat) (d : List Byte) : (b.event k t x d).lifeHSaved = b.lifeHSaved := by
  have h := congrArg Blk.lifeHSaved (b.event_keeps (z := b) k t x d); exact h
@[simp] theorem Blk.event_fwCut (b : Blk) (k t x : Nat) (d : List Byte) : (b.event k t x d).fwCut = b.fwCut := by
  have h := congrArg Blk.fwCut (b.event_keeps (z := b) k t x d); exact h
@[simp] theorem Blk.event_onSaved (b : Blk) (k t x : Nat) (d : List Byte) : (b.event k t x d).onSaved = b.onSaved := by
  have h := congrArg Blk.onSaved (b.event_keeps (z := b) k t x d); exact h
@[simp] theorem Blk.event_yieldDue (b : Blk) (k t x : Nat) (d : List Byte) : (b.event k t x d).yieldDue = b.yieldDue := by
  have h := congrArg Blk.yieldDue (b.event_keeps (z := b) k t x d); exact h
@[simp] theorem Blk.event_axis (b : Blk) (k t x : Nat) (d : List Byte) (m : Fin 48) : (b.event k t x d).axis m = b.axis m := Blk.axis_of_ax (b.event_ax k t x d) m

@[simp] theorem Blk.commit_rx (b : Blk) (n : Fin 48) (c : Cell) : (b.commit n c).rx = b.rx := by
  have h := congrArg Blk.rx (b.commit_keeps (z := b) n c); exact h
@[simp] theorem Blk.commit_sm (b : Blk) (n : Fin 48) (c : Cell) : (b.commit n c).sm = b.sm := by
  have h := congrArg Blk.sm (b.commit_keeps (z := b) n c); exact h
@[simp] theorem Blk.commit_planes (b : Blk) (n : Fin 48) (c : Cell) : (b.commit n c).planes = b.planes := by
  have h := congrArg Blk.planes (b.commit_keeps (z := b) n c); exact h
@[simp] theorem Blk.commit_orphanAt (b : Blk) (n : Fin 48) (c : Cell) : (b.commit n c).orphanAt = b.orphanAt := by
  have h := congrArg Blk.orphanAt (b.commit_keeps (z := b) n c); exact h
@[simp] theorem Blk.commit_lastSid (b : Blk) (n : Fin 48) (c : Cell) : (b.commit n c).lastSid = b.lastSid := by
  have h := congrArg Blk.lastSid (b.commit_keeps (z := b) n c); exact h
@[simp] theorem Blk.commit_claimFails (b : Blk) (n : Fin 48) (c : Cell) : (b.commit n c).claimFails = b.claimFails := by
  have h := congrArg Blk.claimFails (b.commit_keeps (z := b) n c); exact h
@[simp] theorem Blk.commit_lockout (b : Blk) (n : Fin 48) (c : Cell) : (b.commit n c).lockout = b.lockout := by
  have h := congrArg Blk.lockout (b.commit_keeps (z := b) n c); exact h
@[simp] theorem Blk.commit_swath (b : Blk) (n : Fin 48) (c : Cell) : (b.commit n c).swath = b.swath := by
  have h := congrArg Blk.swath (b.commit_keeps (z := b) n c); exact h
@[simp] theorem Blk.commit_tick (b : Blk) (n : Fin 48) (c : Cell) : (b.commit n c).tick = b.tick := by
  have h := congrArg Blk.tick (b.commit_keeps (z := b) n c); exact h
@[simp] theorem Blk.commit_plan (b : Blk) (n : Fin 48) (c : Cell) : (b.commit n c).plan = b.plan := by
  have h := congrArg Blk.plan (b.commit_keeps (z := b) n c); exact h
@[simp] theorem Blk.commit_ledg (b : Blk) (n : Fin 48) (c : Cell) : (b.commit n c).ledg = b.ledg := by
  have h := congrArg Blk.ledg (b.commit_keeps (z := b) n c); exact h
@[simp] theorem Blk.commit_meas (b : Blk) (n : Fin 48) (c : Cell) : (b.commit n c).meas = b.meas := by
  have h := congrArg Blk.meas (b.commit_keeps (z := b) n c); exact h
@[simp] theorem Blk.commit_sides (b : Blk) (n : Fin 48) (c : Cell) : (b.commit n c).sides = b.sides := by
  have h := congrArg Blk.sides (b.commit_keeps (z := b) n c); exact h
@[simp] theorem Blk.commit_act (b : Blk) (n : Fin 48) (c : Cell) : (b.commit n c).act = b.act := by
  have h := congrArg Blk.act (b.commit_keeps (z := b) n c); exact h
@[simp] theorem Blk.commit_switchReq (b : Blk) (n : Fin 48) (c : Cell) : (b.commit n c).switchReq = b.switchReq := by
  have h := congrArg Blk.switchReq (b.commit_keeps (z := b) n c); exact h
@[simp] theorem Blk.commit_fw (b : Blk) (n : Fin 48) (c : Cell) : (b.commit n c).fw = b.fw := by
  have h := congrArg Blk.fw (b.commit_keeps (z := b) n c); exact h
@[simp] theorem Blk.commit_pw (b : Blk) (n : Fin 48) (c : Cell) : (b.commit n c).pw = b.pw := by
  have h := congrArg Blk.pw (b.commit_keeps (z := b) n c); exact h
@[simp] theorem Blk.commit_nap (b : Blk) (n : Fin 48) (c : Cell) : (b.commit n c).nap = b.nap := by
  have h := congrArg Blk.nap (b.commit_keeps (z := b) n c); exact h
@[simp] theorem Blk.commit_cams (b : Blk) (n : Fin 48) (c : Cell) : (b.commit n c).cams = b.cams := by
  have h := congrArg Blk.cams (b.commit_keeps (z := b) n c); exact h
@[simp] theorem Blk.commit_camDirty (b : Blk) (n : Fin 48) (c : Cell) : (b.commit n c).camDirty = b.camDirty := by
  have h := congrArg Blk.camDirty (b.commit_keeps (z := b) n c); exact h
@[simp] theorem Blk.commit_streams (b : Blk) (n : Fin 48) (c : Cell) : (b.commit n c).streams = b.streams := by
  have h := congrArg Blk.streams (b.commit_keeps (z := b) n c); exact h
@[simp] theorem Blk.commit_resets (b : Blk) (n : Fin 48) (c : Cell) : (b.commit n c).resets = b.resets := by
  have h := congrArg Blk.resets (b.commit_keeps (z := b) n c); exact h
@[simp] theorem Blk.commit_graze (b : Blk) (n : Fin 48) (c : Cell) : (b.commit n c).graze = b.graze := by
  have h := congrArg Blk.graze (b.commit_keeps (z := b) n c); exact h
@[simp] theorem Blk.commit_napCyc (b : Blk) (n : Fin 48) (c : Cell) : (b.commit n c).napCyc = b.napCyc := by
  have h := congrArg Blk.napCyc (b.commit_keeps (z := b) n c); exact h
@[simp] theorem Blk.commit_napRest (b : Blk) (n : Fin 48) (c : Cell) : (b.commit n c).napRest = b.napRest := by
  have h := congrArg Blk.napRest (b.commit_keeps (z := b) n c); exact h
@[simp] theorem Blk.commit_msRest (b : Blk) (n : Fin 48) (c : Cell) : (b.commit n c).msRest = b.msRest := by
  have h := congrArg Blk.msRest (b.commit_keeps (z := b) n c); exact h
@[simp] theorem Blk.commit_xchg (b : Blk) (n : Fin 48) (c : Cell) : (b.commit n c).xchg = b.xchg := by
  have h := congrArg Blk.xchg (b.commit_keeps (z := b) n c); exact h
@[simp] theorem Blk.commit_skipStreams (b : Blk) (n : Fin 48) (c : Cell) : (b.commit n c).skipStreams = b.skipStreams := by
  have h := congrArg Blk.skipStreams (b.commit_keeps (z := b) n c); exact h
@[simp] theorem Blk.commit_capTicks (b : Blk) (n : Fin 48) (c : Cell) : (b.commit n c).capTicks = b.capTicks := by
  have h := congrArg Blk.capTicks (b.commit_keeps (z := b) n c); exact h
@[simp] theorem Blk.commit_onTicks (b : Blk) (n : Fin 48) (c : Cell) : (b.commit n c).onTicks = b.onTicks := by
  have h := congrArg Blk.onTicks (b.commit_keeps (z := b) n c); exact h
@[simp] theorem Blk.commit_lifeHSaved (b : Blk) (n : Fin 48) (c : Cell) : (b.commit n c).lifeHSaved = b.lifeHSaved := by
  have h := congrArg Blk.lifeHSaved (b.commit_keeps (z := b) n c); exact h
@[simp] theorem Blk.commit_fwCut (b : Blk) (n : Fin 48) (c : Cell) : (b.commit n c).fwCut = b.fwCut := by
  have h := congrArg Blk.fwCut (b.commit_keeps (z := b) n c); exact h
@[simp] theorem Blk.commit_onSaved (b : Blk) (n : Fin 48) (c : Cell) : (b.commit n c).onSaved = b.onSaved := by
  have h := congrArg Blk.onSaved (b.commit_keeps (z := b) n c); exact h
@[simp] theorem Blk.commit_yieldDue (b : Blk) (n : Fin 48) (c : Cell) : (b.commit n c).yieldDue = b.yieldDue := by
  have h := congrArg Blk.yieldDue (b.commit_keeps (z := b) n c); exact h

@[simp] theorem Blk.cell_rx (b : Blk) (n : Fin 48) (f : Cell → Cell) : (b.cell n f).rx = b.rx := by
  have h := congrArg Blk.rx (b.cell_keeps (z := b) n f); exact h
@[simp] theorem Blk.cell_sm (b : Blk) (n : Fin 48) (f : Cell → Cell) : (b.cell n f).sm = b.sm := by
  have h := congrArg Blk.sm (b.cell_keeps (z := b) n f); exact h
@[simp] theorem Blk.cell_planes (b : Blk) (n : Fin 48) (f : Cell → Cell) : (b.cell n f).planes = b.planes := by
  have h := congrArg Blk.planes (b.cell_keeps (z := b) n f); exact h
@[simp] theorem Blk.cell_orphanAt (b : Blk) (n : Fin 48) (f : Cell → Cell) : (b.cell n f).orphanAt = b.orphanAt := by
  have h := congrArg Blk.orphanAt (b.cell_keeps (z := b) n f); exact h
@[simp] theorem Blk.cell_lastSid (b : Blk) (n : Fin 48) (f : Cell → Cell) : (b.cell n f).lastSid = b.lastSid := by
  have h := congrArg Blk.lastSid (b.cell_keeps (z := b) n f); exact h
@[simp] theorem Blk.cell_claimFails (b : Blk) (n : Fin 48) (f : Cell → Cell) : (b.cell n f).claimFails = b.claimFails := by
  have h := congrArg Blk.claimFails (b.cell_keeps (z := b) n f); exact h
@[simp] theorem Blk.cell_lockout (b : Blk) (n : Fin 48) (f : Cell → Cell) : (b.cell n f).lockout = b.lockout := by
  have h := congrArg Blk.lockout (b.cell_keeps (z := b) n f); exact h
@[simp] theorem Blk.cell_swath (b : Blk) (n : Fin 48) (f : Cell → Cell) : (b.cell n f).swath = b.swath := by
  have h := congrArg Blk.swath (b.cell_keeps (z := b) n f); exact h
@[simp] theorem Blk.cell_tick (b : Blk) (n : Fin 48) (f : Cell → Cell) : (b.cell n f).tick = b.tick := by
  have h := congrArg Blk.tick (b.cell_keeps (z := b) n f); exact h
@[simp] theorem Blk.cell_plan (b : Blk) (n : Fin 48) (f : Cell → Cell) : (b.cell n f).plan = b.plan := by
  have h := congrArg Blk.plan (b.cell_keeps (z := b) n f); exact h
@[simp] theorem Blk.cell_ledg (b : Blk) (n : Fin 48) (f : Cell → Cell) : (b.cell n f).ledg = b.ledg := by
  have h := congrArg Blk.ledg (b.cell_keeps (z := b) n f); exact h
@[simp] theorem Blk.cell_meas (b : Blk) (n : Fin 48) (f : Cell → Cell) : (b.cell n f).meas = b.meas := by
  have h := congrArg Blk.meas (b.cell_keeps (z := b) n f); exact h
@[simp] theorem Blk.cell_sides (b : Blk) (n : Fin 48) (f : Cell → Cell) : (b.cell n f).sides = b.sides := by
  have h := congrArg Blk.sides (b.cell_keeps (z := b) n f); exact h
@[simp] theorem Blk.cell_act (b : Blk) (n : Fin 48) (f : Cell → Cell) : (b.cell n f).act = b.act := by
  have h := congrArg Blk.act (b.cell_keeps (z := b) n f); exact h
@[simp] theorem Blk.cell_switchReq (b : Blk) (n : Fin 48) (f : Cell → Cell) : (b.cell n f).switchReq = b.switchReq := by
  have h := congrArg Blk.switchReq (b.cell_keeps (z := b) n f); exact h
@[simp] theorem Blk.cell_fw (b : Blk) (n : Fin 48) (f : Cell → Cell) : (b.cell n f).fw = b.fw := by
  have h := congrArg Blk.fw (b.cell_keeps (z := b) n f); exact h
@[simp] theorem Blk.cell_pw (b : Blk) (n : Fin 48) (f : Cell → Cell) : (b.cell n f).pw = b.pw := by
  have h := congrArg Blk.pw (b.cell_keeps (z := b) n f); exact h
@[simp] theorem Blk.cell_nap (b : Blk) (n : Fin 48) (f : Cell → Cell) : (b.cell n f).nap = b.nap := by
  have h := congrArg Blk.nap (b.cell_keeps (z := b) n f); exact h
@[simp] theorem Blk.cell_cams (b : Blk) (n : Fin 48) (f : Cell → Cell) : (b.cell n f).cams = b.cams := by
  have h := congrArg Blk.cams (b.cell_keeps (z := b) n f); exact h
@[simp] theorem Blk.cell_camDirty (b : Blk) (n : Fin 48) (f : Cell → Cell) : (b.cell n f).camDirty = b.camDirty := by
  have h := congrArg Blk.camDirty (b.cell_keeps (z := b) n f); exact h
@[simp] theorem Blk.cell_streams (b : Blk) (n : Fin 48) (f : Cell → Cell) : (b.cell n f).streams = b.streams := by
  have h := congrArg Blk.streams (b.cell_keeps (z := b) n f); exact h
@[simp] theorem Blk.cell_resets (b : Blk) (n : Fin 48) (f : Cell → Cell) : (b.cell n f).resets = b.resets := by
  have h := congrArg Blk.resets (b.cell_keeps (z := b) n f); exact h
@[simp] theorem Blk.cell_graze (b : Blk) (n : Fin 48) (f : Cell → Cell) : (b.cell n f).graze = b.graze := by
  have h := congrArg Blk.graze (b.cell_keeps (z := b) n f); exact h
@[simp] theorem Blk.cell_napCyc (b : Blk) (n : Fin 48) (f : Cell → Cell) : (b.cell n f).napCyc = b.napCyc := by
  have h := congrArg Blk.napCyc (b.cell_keeps (z := b) n f); exact h
@[simp] theorem Blk.cell_napRest (b : Blk) (n : Fin 48) (f : Cell → Cell) : (b.cell n f).napRest = b.napRest := by
  have h := congrArg Blk.napRest (b.cell_keeps (z := b) n f); exact h
@[simp] theorem Blk.cell_msRest (b : Blk) (n : Fin 48) (f : Cell → Cell) : (b.cell n f).msRest = b.msRest := by
  have h := congrArg Blk.msRest (b.cell_keeps (z := b) n f); exact h
@[simp] theorem Blk.cell_xchg (b : Blk) (n : Fin 48) (f : Cell → Cell) : (b.cell n f).xchg = b.xchg := by
  have h := congrArg Blk.xchg (b.cell_keeps (z := b) n f); exact h
@[simp] theorem Blk.cell_skipStreams (b : Blk) (n : Fin 48) (f : Cell → Cell) : (b.cell n f).skipStreams = b.skipStreams := by
  have h := congrArg Blk.skipStreams (b.cell_keeps (z := b) n f); exact h
@[simp] theorem Blk.cell_capTicks (b : Blk) (n : Fin 48) (f : Cell → Cell) : (b.cell n f).capTicks = b.capTicks := by
  have h := congrArg Blk.capTicks (b.cell_keeps (z := b) n f); exact h
@[simp] theorem Blk.cell_onTicks (b : Blk) (n : Fin 48) (f : Cell → Cell) : (b.cell n f).onTicks = b.onTicks := by
  have h := congrArg Blk.onTicks (b.cell_keeps (z := b) n f); exact h
@[simp] theorem Blk.cell_lifeHSaved (b : Blk) (n : Fin 48) (f : Cell → Cell) : (b.cell n f).lifeHSaved = b.lifeHSaved := by
  have h := congrArg Blk.lifeHSaved (b.cell_keeps (z := b) n f); exact h
@[simp] theorem Blk.cell_fwCut (b : Blk) (n : Fin 48) (f : Cell → Cell) : (b.cell n f).fwCut = b.fwCut := by
  have h := congrArg Blk.fwCut (b.cell_keeps (z := b) n f); exact h
@[simp] theorem Blk.cell_onSaved (b : Blk) (n : Fin 48) (f : Cell → Cell) : (b.cell n f).onSaved = b.onSaved := by
  have h := congrArg Blk.onSaved (b.cell_keeps (z := b) n f); exact h
@[simp] theorem Blk.cell_yieldDue (b : Blk) (n : Fin 48) (f : Cell → Cell) : (b.cell n f).yieldDue = b.yieldDue := by
  have h := congrArg Blk.yieldDue (b.cell_keeps (z := b) n f); exact h

@[simp] theorem Blk.cells_rx (b : Blk) (l : List (Fin 48)) (f : Fin 48 → Cell → Cell) : (b.cells l f).rx = b.rx := by
  have h := congrArg Blk.rx (b.cells_keeps (z := b) l f); exact h
@[simp] theorem Blk.cells_sm (b : Blk) (l : List (Fin 48)) (f : Fin 48 → Cell → Cell) : (b.cells l f).sm = b.sm := by
  have h := congrArg Blk.sm (b.cells_keeps (z := b) l f); exact h
@[simp] theorem Blk.cells_planes (b : Blk) (l : List (Fin 48)) (f : Fin 48 → Cell → Cell) : (b.cells l f).planes = b.planes := by
  have h := congrArg Blk.planes (b.cells_keeps (z := b) l f); exact h
@[simp] theorem Blk.cells_orphanAt (b : Blk) (l : List (Fin 48)) (f : Fin 48 → Cell → Cell) : (b.cells l f).orphanAt = b.orphanAt := by
  have h := congrArg Blk.orphanAt (b.cells_keeps (z := b) l f); exact h
@[simp] theorem Blk.cells_lastSid (b : Blk) (l : List (Fin 48)) (f : Fin 48 → Cell → Cell) : (b.cells l f).lastSid = b.lastSid := by
  have h := congrArg Blk.lastSid (b.cells_keeps (z := b) l f); exact h
@[simp] theorem Blk.cells_claimFails (b : Blk) (l : List (Fin 48)) (f : Fin 48 → Cell → Cell) : (b.cells l f).claimFails = b.claimFails := by
  have h := congrArg Blk.claimFails (b.cells_keeps (z := b) l f); exact h
@[simp] theorem Blk.cells_lockout (b : Blk) (l : List (Fin 48)) (f : Fin 48 → Cell → Cell) : (b.cells l f).lockout = b.lockout := by
  have h := congrArg Blk.lockout (b.cells_keeps (z := b) l f); exact h
@[simp] theorem Blk.cells_swath (b : Blk) (l : List (Fin 48)) (f : Fin 48 → Cell → Cell) : (b.cells l f).swath = b.swath := by
  have h := congrArg Blk.swath (b.cells_keeps (z := b) l f); exact h
@[simp] theorem Blk.cells_tick (b : Blk) (l : List (Fin 48)) (f : Fin 48 → Cell → Cell) : (b.cells l f).tick = b.tick := by
  have h := congrArg Blk.tick (b.cells_keeps (z := b) l f); exact h
@[simp] theorem Blk.cells_plan (b : Blk) (l : List (Fin 48)) (f : Fin 48 → Cell → Cell) : (b.cells l f).plan = b.plan := by
  have h := congrArg Blk.plan (b.cells_keeps (z := b) l f); exact h
@[simp] theorem Blk.cells_ledg (b : Blk) (l : List (Fin 48)) (f : Fin 48 → Cell → Cell) : (b.cells l f).ledg = b.ledg := by
  have h := congrArg Blk.ledg (b.cells_keeps (z := b) l f); exact h
@[simp] theorem Blk.cells_meas (b : Blk) (l : List (Fin 48)) (f : Fin 48 → Cell → Cell) : (b.cells l f).meas = b.meas := by
  have h := congrArg Blk.meas (b.cells_keeps (z := b) l f); exact h
@[simp] theorem Blk.cells_sides (b : Blk) (l : List (Fin 48)) (f : Fin 48 → Cell → Cell) : (b.cells l f).sides = b.sides := by
  have h := congrArg Blk.sides (b.cells_keeps (z := b) l f); exact h
@[simp] theorem Blk.cells_act (b : Blk) (l : List (Fin 48)) (f : Fin 48 → Cell → Cell) : (b.cells l f).act = b.act := by
  have h := congrArg Blk.act (b.cells_keeps (z := b) l f); exact h
@[simp] theorem Blk.cells_switchReq (b : Blk) (l : List (Fin 48)) (f : Fin 48 → Cell → Cell) : (b.cells l f).switchReq = b.switchReq := by
  have h := congrArg Blk.switchReq (b.cells_keeps (z := b) l f); exact h
@[simp] theorem Blk.cells_fw (b : Blk) (l : List (Fin 48)) (f : Fin 48 → Cell → Cell) : (b.cells l f).fw = b.fw := by
  have h := congrArg Blk.fw (b.cells_keeps (z := b) l f); exact h
@[simp] theorem Blk.cells_pw (b : Blk) (l : List (Fin 48)) (f : Fin 48 → Cell → Cell) : (b.cells l f).pw = b.pw := by
  have h := congrArg Blk.pw (b.cells_keeps (z := b) l f); exact h
@[simp] theorem Blk.cells_nap (b : Blk) (l : List (Fin 48)) (f : Fin 48 → Cell → Cell) : (b.cells l f).nap = b.nap := by
  have h := congrArg Blk.nap (b.cells_keeps (z := b) l f); exact h
@[simp] theorem Blk.cells_cams (b : Blk) (l : List (Fin 48)) (f : Fin 48 → Cell → Cell) : (b.cells l f).cams = b.cams := by
  have h := congrArg Blk.cams (b.cells_keeps (z := b) l f); exact h
@[simp] theorem Blk.cells_camDirty (b : Blk) (l : List (Fin 48)) (f : Fin 48 → Cell → Cell) : (b.cells l f).camDirty = b.camDirty := by
  have h := congrArg Blk.camDirty (b.cells_keeps (z := b) l f); exact h
@[simp] theorem Blk.cells_streams (b : Blk) (l : List (Fin 48)) (f : Fin 48 → Cell → Cell) : (b.cells l f).streams = b.streams := by
  have h := congrArg Blk.streams (b.cells_keeps (z := b) l f); exact h
@[simp] theorem Blk.cells_resets (b : Blk) (l : List (Fin 48)) (f : Fin 48 → Cell → Cell) : (b.cells l f).resets = b.resets := by
  have h := congrArg Blk.resets (b.cells_keeps (z := b) l f); exact h
@[simp] theorem Blk.cells_graze (b : Blk) (l : List (Fin 48)) (f : Fin 48 → Cell → Cell) : (b.cells l f).graze = b.graze := by
  have h := congrArg Blk.graze (b.cells_keeps (z := b) l f); exact h
@[simp] theorem Blk.cells_napCyc (b : Blk) (l : List (Fin 48)) (f : Fin 48 → Cell → Cell) : (b.cells l f).napCyc = b.napCyc := by
  have h := congrArg Blk.napCyc (b.cells_keeps (z := b) l f); exact h
@[simp] theorem Blk.cells_napRest (b : Blk) (l : List (Fin 48)) (f : Fin 48 → Cell → Cell) : (b.cells l f).napRest = b.napRest := by
  have h := congrArg Blk.napRest (b.cells_keeps (z := b) l f); exact h
@[simp] theorem Blk.cells_msRest (b : Blk) (l : List (Fin 48)) (f : Fin 48 → Cell → Cell) : (b.cells l f).msRest = b.msRest := by
  have h := congrArg Blk.msRest (b.cells_keeps (z := b) l f); exact h
@[simp] theorem Blk.cells_xchg (b : Blk) (l : List (Fin 48)) (f : Fin 48 → Cell → Cell) : (b.cells l f).xchg = b.xchg := by
  have h := congrArg Blk.xchg (b.cells_keeps (z := b) l f); exact h
@[simp] theorem Blk.cells_skipStreams (b : Blk) (l : List (Fin 48)) (f : Fin 48 → Cell → Cell) : (b.cells l f).skipStreams = b.skipStreams := by
  have h := congrArg Blk.skipStreams (b.cells_keeps (z := b) l f); exact h
@[simp] theorem Blk.cells_capTicks (b : Blk) (l : List (Fin 48)) (f : Fin 48 → Cell → Cell) : (b.cells l f).capTicks = b.capTicks := by
  have h := congrArg Blk.capTicks (b.cells_keeps (z := b) l f); exact h
@[simp] theorem Blk.cells_onTicks (b : Blk) (l : List (Fin 48)) (f : Fin 48 → Cell → Cell) : (b.cells l f).onTicks = b.onTicks := by
  have h := congrArg Blk.onTicks (b.cells_keeps (z := b) l f); exact h
@[simp] theorem Blk.cells_lifeHSaved (b : Blk) (l : List (Fin 48)) (f : Fin 48 → Cell → Cell) : (b.cells l f).lifeHSaved = b.lifeHSaved := by
  have h := congrArg Blk.lifeHSaved (b.cells_keeps (z := b) l f); exact h
@[simp] theorem Blk.cells_fwCut (b : Blk) (l : List (Fin 48)) (f : Fin 48 → Cell → Cell) : (b.cells l f).fwCut = b.fwCut := by
  have h := congrArg Blk.fwCut (b.cells_keeps (z := b) l f); exact h
@[simp] theorem Blk.cells_onSaved (b : Blk) (l : List (Fin 48)) (f : Fin 48 → Cell → Cell) : (b.cells l f).onSaved = b.onSaved := by
  have h := congrArg Blk.onSaved (b.cells_keeps (z := b) l f); exact h
@[simp] theorem Blk.cells_yieldDue (b : Blk) (l : List (Fin 48)) (f : Fin 48 → Cell → Cell) : (b.cells l f).yieldDue = b.yieldDue := by
  have h := congrArg Blk.yieldDue (b.cells_keeps (z := b) l f); exact h

@[simp] theorem Blk.heard_ax (b : Blk) (s i : Byte) (p : Fin 6) (t : Nat) : (b.heard s i p t).ax = b.ax := by
  have h := congrArg Blk.ax (b.heard_keeps (z := b) s i p t); exact h
@[simp] theorem Blk.heard_rx (b : Blk) (s i : Byte) (p : Fin 6) (t : Nat) : (b.heard s i p t).rx = b.rx := by
  have h := congrArg Blk.rx (b.heard_keeps (z := b) s i p t); exact h
@[simp] theorem Blk.heard_sm (b : Blk) (s i : Byte) (p : Fin 6) (t : Nat) : (b.heard s i p t).sm = b.sm := by
  have h := congrArg Blk.sm (b.heard_keeps (z := b) s i p t); exact h
@[simp] theorem Blk.heard_planes (b : Blk) (s i : Byte) (p : Fin 6) (t : Nat) : (b.heard s i p t).planes = b.planes := by
  have h := congrArg Blk.planes (b.heard_keeps (z := b) s i p t); exact h
@[simp] theorem Blk.heard_orphanAt (b : Blk) (s i : Byte) (p : Fin 6) (t : Nat) : (b.heard s i p t).orphanAt = b.orphanAt := by
  have h := congrArg Blk.orphanAt (b.heard_keeps (z := b) s i p t); exact h
@[simp] theorem Blk.heard_lastSid (b : Blk) (s i : Byte) (p : Fin 6) (t : Nat) : (b.heard s i p t).lastSid = b.lastSid := by
  have h := congrArg Blk.lastSid (b.heard_keeps (z := b) s i p t); exact h
@[simp] theorem Blk.heard_claimFails (b : Blk) (s i : Byte) (p : Fin 6) (t : Nat) : (b.heard s i p t).claimFails = b.claimFails := by
  have h := congrArg Blk.claimFails (b.heard_keeps (z := b) s i p t); exact h
@[simp] theorem Blk.heard_lockout (b : Blk) (s i : Byte) (p : Fin 6) (t : Nat) : (b.heard s i p t).lockout = b.lockout := by
  have h := congrArg Blk.lockout (b.heard_keeps (z := b) s i p t); exact h
@[simp] theorem Blk.heard_swath (b : Blk) (s i : Byte) (p : Fin 6) (t : Nat) : (b.heard s i p t).swath = b.swath := by
  have h := congrArg Blk.swath (b.heard_keeps (z := b) s i p t); exact h
@[simp] theorem Blk.heard_tick (b : Blk) (s i : Byte) (p : Fin 6) (t : Nat) : (b.heard s i p t).tick = b.tick := by
  have h := congrArg Blk.tick (b.heard_keeps (z := b) s i p t); exact h
@[simp] theorem Blk.heard_plan (b : Blk) (s i : Byte) (p : Fin 6) (t : Nat) : (b.heard s i p t).plan = b.plan := by
  have h := congrArg Blk.plan (b.heard_keeps (z := b) s i p t); exact h
@[simp] theorem Blk.heard_ledg (b : Blk) (s i : Byte) (p : Fin 6) (t : Nat) : (b.heard s i p t).ledg = b.ledg := by
  have h := congrArg Blk.ledg (b.heard_keeps (z := b) s i p t); exact h
@[simp] theorem Blk.heard_meas (b : Blk) (s i : Byte) (p : Fin 6) (t : Nat) : (b.heard s i p t).meas = b.meas := by
  have h := congrArg Blk.meas (b.heard_keeps (z := b) s i p t); exact h
@[simp] theorem Blk.heard_sides (b : Blk) (s i : Byte) (p : Fin 6) (t : Nat) : (b.heard s i p t).sides = b.sides := by
  have h := congrArg Blk.sides (b.heard_keeps (z := b) s i p t); exact h
@[simp] theorem Blk.heard_act (b : Blk) (s i : Byte) (p : Fin 6) (t : Nat) : (b.heard s i p t).act = b.act := by
  have h := congrArg Blk.act (b.heard_keeps (z := b) s i p t); exact h
@[simp] theorem Blk.heard_switchReq (b : Blk) (s i : Byte) (p : Fin 6) (t : Nat) : (b.heard s i p t).switchReq = b.switchReq := by
  have h := congrArg Blk.switchReq (b.heard_keeps (z := b) s i p t); exact h
@[simp] theorem Blk.heard_fw (b : Blk) (s i : Byte) (p : Fin 6) (t : Nat) : (b.heard s i p t).fw = b.fw := by
  have h := congrArg Blk.fw (b.heard_keeps (z := b) s i p t); exact h
@[simp] theorem Blk.heard_pw (b : Blk) (s i : Byte) (p : Fin 6) (t : Nat) : (b.heard s i p t).pw = b.pw := by
  have h := congrArg Blk.pw (b.heard_keeps (z := b) s i p t); exact h
@[simp] theorem Blk.heard_nap (b : Blk) (s i : Byte) (p : Fin 6) (t : Nat) : (b.heard s i p t).nap = b.nap := by
  have h := congrArg Blk.nap (b.heard_keeps (z := b) s i p t); exact h
@[simp] theorem Blk.heard_cams (b : Blk) (s i : Byte) (p : Fin 6) (t : Nat) : (b.heard s i p t).cams = b.cams := by
  have h := congrArg Blk.cams (b.heard_keeps (z := b) s i p t); exact h
@[simp] theorem Blk.heard_camDirty (b : Blk) (s i : Byte) (p : Fin 6) (t : Nat) : (b.heard s i p t).camDirty = b.camDirty := by
  have h := congrArg Blk.camDirty (b.heard_keeps (z := b) s i p t); exact h
@[simp] theorem Blk.heard_streams (b : Blk) (s i : Byte) (p : Fin 6) (t : Nat) : (b.heard s i p t).streams = b.streams := by
  have h := congrArg Blk.streams (b.heard_keeps (z := b) s i p t); exact h
@[simp] theorem Blk.heard_resets (b : Blk) (s i : Byte) (p : Fin 6) (t : Nat) : (b.heard s i p t).resets = b.resets := by
  have h := congrArg Blk.resets (b.heard_keeps (z := b) s i p t); exact h
@[simp] theorem Blk.heard_graze (b : Blk) (s i : Byte) (p : Fin 6) (t : Nat) : (b.heard s i p t).graze = b.graze := by
  have h := congrArg Blk.graze (b.heard_keeps (z := b) s i p t); exact h
@[simp] theorem Blk.heard_napCyc (b : Blk) (s i : Byte) (p : Fin 6) (t : Nat) : (b.heard s i p t).napCyc = b.napCyc := by
  have h := congrArg Blk.napCyc (b.heard_keeps (z := b) s i p t); exact h
@[simp] theorem Blk.heard_napRest (b : Blk) (s i : Byte) (p : Fin 6) (t : Nat) : (b.heard s i p t).napRest = b.napRest := by
  have h := congrArg Blk.napRest (b.heard_keeps (z := b) s i p t); exact h
@[simp] theorem Blk.heard_msRest (b : Blk) (s i : Byte) (p : Fin 6) (t : Nat) : (b.heard s i p t).msRest = b.msRest := by
  have h := congrArg Blk.msRest (b.heard_keeps (z := b) s i p t); exact h
@[simp] theorem Blk.heard_xchg (b : Blk) (s i : Byte) (p : Fin 6) (t : Nat) : (b.heard s i p t).xchg = b.xchg := by
  have h := congrArg Blk.xchg (b.heard_keeps (z := b) s i p t); exact h
@[simp] theorem Blk.heard_skipStreams (b : Blk) (s i : Byte) (p : Fin 6) (t : Nat) : (b.heard s i p t).skipStreams = b.skipStreams := by
  have h := congrArg Blk.skipStreams (b.heard_keeps (z := b) s i p t); exact h
@[simp] theorem Blk.heard_capTicks (b : Blk) (s i : Byte) (p : Fin 6) (t : Nat) : (b.heard s i p t).capTicks = b.capTicks := by
  have h := congrArg Blk.capTicks (b.heard_keeps (z := b) s i p t); exact h
@[simp] theorem Blk.heard_onTicks (b : Blk) (s i : Byte) (p : Fin 6) (t : Nat) : (b.heard s i p t).onTicks = b.onTicks := by
  have h := congrArg Blk.onTicks (b.heard_keeps (z := b) s i p t); exact h
@[simp] theorem Blk.heard_lifeHSaved (b : Blk) (s i : Byte) (p : Fin 6) (t : Nat) : (b.heard s i p t).lifeHSaved = b.lifeHSaved := by
  have h := congrArg Blk.lifeHSaved (b.heard_keeps (z := b) s i p t); exact h
@[simp] theorem Blk.heard_fwCut (b : Blk) (s i : Byte) (p : Fin 6) (t : Nat) : (b.heard s i p t).fwCut = b.fwCut := by
  have h := congrArg Blk.fwCut (b.heard_keeps (z := b) s i p t); exact h
@[simp] theorem Blk.heard_onSaved (b : Blk) (s i : Byte) (p : Fin 6) (t : Nat) : (b.heard s i p t).onSaved = b.onSaved := by
  have h := congrArg Blk.onSaved (b.heard_keeps (z := b) s i p t); exact h
@[simp] theorem Blk.heard_yieldDue (b : Blk) (s i : Byte) (p : Fin 6) (t : Nat) : (b.heard s i p t).yieldDue = b.yieldDue := by
  have h := congrArg Blk.yieldDue (b.heard_keeps (z := b) s i p t); exact h
@[simp] theorem Blk.heard_axis (b : Blk) (s i : Byte) (p : Fin 6) (t : Nat) (m : Fin 48) : (b.heard s i p t).axis m = b.axis m := Blk.axis_of_ax (b.heard_ax s i p t) m

@[simp] theorem Blk.answer_ax (b : Blk) (q : Req) (st : Nat) (x : List Byte) : (b.answer q st x).ax = b.ax := by
  have h := congrArg Blk.ax (b.answer_keeps (z := b) q st x); exact h
@[simp] theorem Blk.answer_rx (b : Blk) (q : Req) (st : Nat) (x : List Byte) : (b.answer q st x).rx = b.rx := by
  have h := congrArg Blk.rx (b.answer_keeps (z := b) q st x); exact h
@[simp] theorem Blk.answer_sm (b : Blk) (q : Req) (st : Nat) (x : List Byte) : (b.answer q st x).sm = b.sm := by
  have h := congrArg Blk.sm (b.answer_keeps (z := b) q st x); exact h
@[simp] theorem Blk.answer_sess (b : Blk) (q : Req) (st : Nat) (x : List Byte) : (b.answer q st x).sess = b.sess := by
  have h := congrArg Blk.sess (b.answer_keeps (z := b) q st x); exact h
@[simp] theorem Blk.answer_orphanAt (b : Blk) (q : Req) (st : Nat) (x : List Byte) : (b.answer q st x).orphanAt = b.orphanAt := by
  have h := congrArg Blk.orphanAt (b.answer_keeps (z := b) q st x); exact h
@[simp] theorem Blk.answer_lastSid (b : Blk) (q : Req) (st : Nat) (x : List Byte) : (b.answer q st x).lastSid = b.lastSid := by
  have h := congrArg Blk.lastSid (b.answer_keeps (z := b) q st x); exact h
@[simp] theorem Blk.answer_claimFails (b : Blk) (q : Req) (st : Nat) (x : List Byte) : (b.answer q st x).claimFails = b.claimFails := by
  have h := congrArg Blk.claimFails (b.answer_keeps (z := b) q st x); exact h
@[simp] theorem Blk.answer_lockout (b : Blk) (q : Req) (st : Nat) (x : List Byte) : (b.answer q st x).lockout = b.lockout := by
  have h := congrArg Blk.lockout (b.answer_keeps (z := b) q st x); exact h
@[simp] theorem Blk.answer_swath (b : Blk) (q : Req) (st : Nat) (x : List Byte) : (b.answer q st x).swath = b.swath := by
  have h := congrArg Blk.swath (b.answer_keeps (z := b) q st x); exact h
@[simp] theorem Blk.answer_tick (b : Blk) (q : Req) (st : Nat) (x : List Byte) : (b.answer q st x).tick = b.tick := by
  have h := congrArg Blk.tick (b.answer_keeps (z := b) q st x); exact h
@[simp] theorem Blk.answer_plan (b : Blk) (q : Req) (st : Nat) (x : List Byte) : (b.answer q st x).plan = b.plan := by
  have h := congrArg Blk.plan (b.answer_keeps (z := b) q st x); exact h
@[simp] theorem Blk.answer_ledg (b : Blk) (q : Req) (st : Nat) (x : List Byte) : (b.answer q st x).ledg = b.ledg := by
  have h := congrArg Blk.ledg (b.answer_keeps (z := b) q st x); exact h
@[simp] theorem Blk.answer_meas (b : Blk) (q : Req) (st : Nat) (x : List Byte) : (b.answer q st x).meas = b.meas := by
  have h := congrArg Blk.meas (b.answer_keeps (z := b) q st x); exact h
@[simp] theorem Blk.answer_sides (b : Blk) (q : Req) (st : Nat) (x : List Byte) : (b.answer q st x).sides = b.sides := by
  have h := congrArg Blk.sides (b.answer_keeps (z := b) q st x); exact h
@[simp] theorem Blk.answer_act (b : Blk) (q : Req) (st : Nat) (x : List Byte) : (b.answer q st x).act = b.act := by
  have h := congrArg Blk.act (b.answer_keeps (z := b) q st x); exact h
@[simp] theorem Blk.answer_switchReq (b : Blk) (q : Req) (st : Nat) (x : List Byte) : (b.answer q st x).switchReq = b.switchReq := by
  have h := congrArg Blk.switchReq (b.answer_keeps (z := b) q st x); exact h
@[simp] theorem Blk.answer_fw (b : Blk) (q : Req) (st : Nat) (x : List Byte) : (b.answer q st x).fw = b.fw := by
  have h := congrArg Blk.fw (b.answer_keeps (z := b) q st x); exact h
@[simp] theorem Blk.answer_pw (b : Blk) (q : Req) (st : Nat) (x : List Byte) : (b.answer q st x).pw = b.pw := by
  have h := congrArg Blk.pw (b.answer_keeps (z := b) q st x); exact h
@[simp] theorem Blk.answer_nap (b : Blk) (q : Req) (st : Nat) (x : List Byte) : (b.answer q st x).nap = b.nap := by
  have h := congrArg Blk.nap (b.answer_keeps (z := b) q st x); exact h
@[simp] theorem Blk.answer_cams (b : Blk) (q : Req) (st : Nat) (x : List Byte) : (b.answer q st x).cams = b.cams := by
  have h := congrArg Blk.cams (b.answer_keeps (z := b) q st x); exact h
@[simp] theorem Blk.answer_camDirty (b : Blk) (q : Req) (st : Nat) (x : List Byte) : (b.answer q st x).camDirty = b.camDirty := by
  have h := congrArg Blk.camDirty (b.answer_keeps (z := b) q st x); exact h
@[simp] theorem Blk.answer_streams (b : Blk) (q : Req) (st : Nat) (x : List Byte) : (b.answer q st x).streams = b.streams := by
  have h := congrArg Blk.streams (b.answer_keeps (z := b) q st x); exact h
@[simp] theorem Blk.answer_resets (b : Blk) (q : Req) (st : Nat) (x : List Byte) : (b.answer q st x).resets = b.resets := by
  have h := congrArg Blk.resets (b.answer_keeps (z := b) q st x); exact h
@[simp] theorem Blk.answer_graze (b : Blk) (q : Req) (st : Nat) (x : List Byte) : (b.answer q st x).graze = b.graze := by
  have h := congrArg Blk.graze (b.answer_keeps (z := b) q st x); exact h
@[simp] theorem Blk.answer_napCyc (b : Blk) (q : Req) (st : Nat) (x : List Byte) : (b.answer q st x).napCyc = b.napCyc := by
  have h := congrArg Blk.napCyc (b.answer_keeps (z := b) q st x); exact h
@[simp] theorem Blk.answer_napRest (b : Blk) (q : Req) (st : Nat) (x : List Byte) : (b.answer q st x).napRest = b.napRest := by
  have h := congrArg Blk.napRest (b.answer_keeps (z := b) q st x); exact h
@[simp] theorem Blk.answer_msRest (b : Blk) (q : Req) (st : Nat) (x : List Byte) : (b.answer q st x).msRest = b.msRest := by
  have h := congrArg Blk.msRest (b.answer_keeps (z := b) q st x); exact h
@[simp] theorem Blk.answer_xchg (b : Blk) (q : Req) (st : Nat) (x : List Byte) : (b.answer q st x).xchg = b.xchg := by
  have h := congrArg Blk.xchg (b.answer_keeps (z := b) q st x); exact h
@[simp] theorem Blk.answer_skipStreams (b : Blk) (q : Req) (st : Nat) (x : List Byte) : (b.answer q st x).skipStreams = b.skipStreams := by
  have h := congrArg Blk.skipStreams (b.answer_keeps (z := b) q st x); exact h
@[simp] theorem Blk.answer_capTicks (b : Blk) (q : Req) (st : Nat) (x : List Byte) : (b.answer q st x).capTicks = b.capTicks := by
  have h := congrArg Blk.capTicks (b.answer_keeps (z := b) q st x); exact h
@[simp] theorem Blk.answer_onTicks (b : Blk) (q : Req) (st : Nat) (x : List Byte) : (b.answer q st x).onTicks = b.onTicks := by
  have h := congrArg Blk.onTicks (b.answer_keeps (z := b) q st x); exact h
@[simp] theorem Blk.answer_lifeHSaved (b : Blk) (q : Req) (st : Nat) (x : List Byte) : (b.answer q st x).lifeHSaved = b.lifeHSaved := by
  have h := congrArg Blk.lifeHSaved (b.answer_keeps (z := b) q st x); exact h
@[simp] theorem Blk.answer_fwCut (b : Blk) (q : Req) (st : Nat) (x : List Byte) : (b.answer q st x).fwCut = b.fwCut := by
  have h := congrArg Blk.fwCut (b.answer_keeps (z := b) q st x); exact h
@[simp] theorem Blk.answer_onSaved (b : Blk) (q : Req) (st : Nat) (x : List Byte) : (b.answer q st x).onSaved = b.onSaved := by
  have h := congrArg Blk.onSaved (b.answer_keeps (z := b) q st x); exact h
@[simp] theorem Blk.answer_yieldDue (b : Blk) (q : Req) (st : Nat) (x : List Byte) : (b.answer q st x).yieldDue = b.yieldDue := by
  have h := congrArg Blk.yieldDue (b.answer_keeps (z := b) q st x); exact h
@[simp] theorem Blk.answer_axis (b : Blk) (q : Req) (st : Nat) (x : List Byte) (m : Fin 48) : (b.answer q st x).axis m = b.axis m := Blk.axis_of_ax (b.answer_ax q st x) m

@[simp] theorem Blk.ok_ax (b : Blk) (q : Req) (x : List Byte) : (b.ok q x).ax = b.ax := by
  have h := congrArg Blk.ax (b.ok_keeps (z := b) q x); exact h
@[simp] theorem Blk.ok_rx (b : Blk) (q : Req) (x : List Byte) : (b.ok q x).rx = b.rx := by
  have h := congrArg Blk.rx (b.ok_keeps (z := b) q x); exact h
@[simp] theorem Blk.ok_sm (b : Blk) (q : Req) (x : List Byte) : (b.ok q x).sm = b.sm := by
  have h := congrArg Blk.sm (b.ok_keeps (z := b) q x); exact h
@[simp] theorem Blk.ok_sess (b : Blk) (q : Req) (x : List Byte) : (b.ok q x).sess = b.sess := by
  have h := congrArg Blk.sess (b.ok_keeps (z := b) q x); exact h
@[simp] theorem Blk.ok_orphanAt (b : Blk) (q : Req) (x : List Byte) : (b.ok q x).orphanAt = b.orphanAt := by
  have h := congrArg Blk.orphanAt (b.ok_keeps (z := b) q x); exact h
@[simp] theorem Blk.ok_lastSid (b : Blk) (q : Req) (x : List Byte) : (b.ok q x).lastSid = b.lastSid := by
  have h := congrArg Blk.lastSid (b.ok_keeps (z := b) q x); exact h
@[simp] theorem Blk.ok_claimFails (b : Blk) (q : Req) (x : List Byte) : (b.ok q x).claimFails = b.claimFails := by
  have h := congrArg Blk.claimFails (b.ok_keeps (z := b) q x); exact h
@[simp] theorem Blk.ok_lockout (b : Blk) (q : Req) (x : List Byte) : (b.ok q x).lockout = b.lockout := by
  have h := congrArg Blk.lockout (b.ok_keeps (z := b) q x); exact h
@[simp] theorem Blk.ok_swath (b : Blk) (q : Req) (x : List Byte) : (b.ok q x).swath = b.swath := by
  have h := congrArg Blk.swath (b.ok_keeps (z := b) q x); exact h
@[simp] theorem Blk.ok_tick (b : Blk) (q : Req) (x : List Byte) : (b.ok q x).tick = b.tick := by
  have h := congrArg Blk.tick (b.ok_keeps (z := b) q x); exact h
@[simp] theorem Blk.ok_plan (b : Blk) (q : Req) (x : List Byte) : (b.ok q x).plan = b.plan := by
  have h := congrArg Blk.plan (b.ok_keeps (z := b) q x); exact h
@[simp] theorem Blk.ok_ledg (b : Blk) (q : Req) (x : List Byte) : (b.ok q x).ledg = b.ledg := by
  have h := congrArg Blk.ledg (b.ok_keeps (z := b) q x); exact h
@[simp] theorem Blk.ok_meas (b : Blk) (q : Req) (x : List Byte) : (b.ok q x).meas = b.meas := by
  have h := congrArg Blk.meas (b.ok_keeps (z := b) q x); exact h
@[simp] theorem Blk.ok_sides (b : Blk) (q : Req) (x : List Byte) : (b.ok q x).sides = b.sides := by
  have h := congrArg Blk.sides (b.ok_keeps (z := b) q x); exact h
@[simp] theorem Blk.ok_act (b : Blk) (q : Req) (x : List Byte) : (b.ok q x).act = b.act := by
  have h := congrArg Blk.act (b.ok_keeps (z := b) q x); exact h
@[simp] theorem Blk.ok_switchReq (b : Blk) (q : Req) (x : List Byte) : (b.ok q x).switchReq = b.switchReq := by
  have h := congrArg Blk.switchReq (b.ok_keeps (z := b) q x); exact h
@[simp] theorem Blk.ok_fw (b : Blk) (q : Req) (x : List Byte) : (b.ok q x).fw = b.fw := by
  have h := congrArg Blk.fw (b.ok_keeps (z := b) q x); exact h
@[simp] theorem Blk.ok_pw (b : Blk) (q : Req) (x : List Byte) : (b.ok q x).pw = b.pw := by
  have h := congrArg Blk.pw (b.ok_keeps (z := b) q x); exact h
@[simp] theorem Blk.ok_nap (b : Blk) (q : Req) (x : List Byte) : (b.ok q x).nap = b.nap := by
  have h := congrArg Blk.nap (b.ok_keeps (z := b) q x); exact h
@[simp] theorem Blk.ok_cams (b : Blk) (q : Req) (x : List Byte) : (b.ok q x).cams = b.cams := by
  have h := congrArg Blk.cams (b.ok_keeps (z := b) q x); exact h
@[simp] theorem Blk.ok_camDirty (b : Blk) (q : Req) (x : List Byte) : (b.ok q x).camDirty = b.camDirty := by
  have h := congrArg Blk.camDirty (b.ok_keeps (z := b) q x); exact h
@[simp] theorem Blk.ok_streams (b : Blk) (q : Req) (x : List Byte) : (b.ok q x).streams = b.streams := by
  have h := congrArg Blk.streams (b.ok_keeps (z := b) q x); exact h
@[simp] theorem Blk.ok_resets (b : Blk) (q : Req) (x : List Byte) : (b.ok q x).resets = b.resets := by
  have h := congrArg Blk.resets (b.ok_keeps (z := b) q x); exact h
@[simp] theorem Blk.ok_graze (b : Blk) (q : Req) (x : List Byte) : (b.ok q x).graze = b.graze := by
  have h := congrArg Blk.graze (b.ok_keeps (z := b) q x); exact h
@[simp] theorem Blk.ok_napCyc (b : Blk) (q : Req) (x : List Byte) : (b.ok q x).napCyc = b.napCyc := by
  have h := congrArg Blk.napCyc (b.ok_keeps (z := b) q x); exact h
@[simp] theorem Blk.ok_napRest (b : Blk) (q : Req) (x : List Byte) : (b.ok q x).napRest = b.napRest := by
  have h := congrArg Blk.napRest (b.ok_keeps (z := b) q x); exact h
@[simp] theorem Blk.ok_msRest (b : Blk) (q : Req) (x : List Byte) : (b.ok q x).msRest = b.msRest := by
  have h := congrArg Blk.msRest (b.ok_keeps (z := b) q x); exact h
@[simp] theorem Blk.ok_xchg (b : Blk) (q : Req) (x : List Byte) : (b.ok q x).xchg = b.xchg := by
  have h := congrArg Blk.xchg (b.ok_keeps (z := b) q x); exact h
@[simp] theorem Blk.ok_skipStreams (b : Blk) (q : Req) (x : List Byte) : (b.ok q x).skipStreams = b.skipStreams := by
  have h := congrArg Blk.skipStreams (b.ok_keeps (z := b) q x); exact h
@[simp] theorem Blk.ok_capTicks (b : Blk) (q : Req) (x : List Byte) : (b.ok q x).capTicks = b.capTicks := by
  have h := congrArg Blk.capTicks (b.ok_keeps (z := b) q x); exact h
@[simp] theorem Blk.ok_onTicks (b : Blk) (q : Req) (x : List Byte) : (b.ok q x).onTicks = b.onTicks := by
  have h := congrArg Blk.onTicks (b.ok_keeps (z := b) q x); exact h
@[simp] theorem Blk.ok_lifeHSaved (b : Blk) (q : Req) (x : List Byte) : (b.ok q x).lifeHSaved = b.lifeHSaved := by
  have h := congrArg Blk.lifeHSaved (b.ok_keeps (z := b) q x); exact h
@[simp] theorem Blk.ok_fwCut (b : Blk) (q : Req) (x : List Byte) : (b.ok q x).fwCut = b.fwCut := by
  have h := congrArg Blk.fwCut (b.ok_keeps (z := b) q x); exact h
@[simp] theorem Blk.ok_onSaved (b : Blk) (q : Req) (x : List Byte) : (b.ok q x).onSaved = b.onSaved := by
  have h := congrArg Blk.onSaved (b.ok_keeps (z := b) q x); exact h
@[simp] theorem Blk.ok_yieldDue (b : Blk) (q : Req) (x : List Byte) : (b.ok q x).yieldDue = b.yieldDue := by
  have h := congrArg Blk.yieldDue (b.ok_keeps (z := b) q x); exact h
@[simp] theorem Blk.ok_axis (b : Blk) (q : Req) (x : List Byte) (m : Fin 48) : (b.ok q x).axis m = b.axis m := Blk.axis_of_ax (b.ok_ax q x) m

@[simp] theorem Blk.badParam_ax (b : Blk) (q : Req) (o : Nat) : (b.badParam q o).ax = b.ax := by
  have h := congrArg Blk.ax (b.badParam_keeps (z := b) q o); exact h
@[simp] theorem Blk.badParam_rx (b : Blk) (q : Req) (o : Nat) : (b.badParam q o).rx = b.rx := by
  have h := congrArg Blk.rx (b.badParam_keeps (z := b) q o); exact h
@[simp] theorem Blk.badParam_sm (b : Blk) (q : Req) (o : Nat) : (b.badParam q o).sm = b.sm := by
  have h := congrArg Blk.sm (b.badParam_keeps (z := b) q o); exact h
@[simp] theorem Blk.badParam_sess (b : Blk) (q : Req) (o : Nat) : (b.badParam q o).sess = b.sess := by
  have h := congrArg Blk.sess (b.badParam_keeps (z := b) q o); exact h
@[simp] theorem Blk.badParam_orphanAt (b : Blk) (q : Req) (o : Nat) : (b.badParam q o).orphanAt = b.orphanAt := by
  have h := congrArg Blk.orphanAt (b.badParam_keeps (z := b) q o); exact h
@[simp] theorem Blk.badParam_lastSid (b : Blk) (q : Req) (o : Nat) : (b.badParam q o).lastSid = b.lastSid := by
  have h := congrArg Blk.lastSid (b.badParam_keeps (z := b) q o); exact h
@[simp] theorem Blk.badParam_claimFails (b : Blk) (q : Req) (o : Nat) : (b.badParam q o).claimFails = b.claimFails := by
  have h := congrArg Blk.claimFails (b.badParam_keeps (z := b) q o); exact h
@[simp] theorem Blk.badParam_lockout (b : Blk) (q : Req) (o : Nat) : (b.badParam q o).lockout = b.lockout := by
  have h := congrArg Blk.lockout (b.badParam_keeps (z := b) q o); exact h
@[simp] theorem Blk.badParam_swath (b : Blk) (q : Req) (o : Nat) : (b.badParam q o).swath = b.swath := by
  have h := congrArg Blk.swath (b.badParam_keeps (z := b) q o); exact h
@[simp] theorem Blk.badParam_tick (b : Blk) (q : Req) (o : Nat) : (b.badParam q o).tick = b.tick := by
  have h := congrArg Blk.tick (b.badParam_keeps (z := b) q o); exact h
@[simp] theorem Blk.badParam_plan (b : Blk) (q : Req) (o : Nat) : (b.badParam q o).plan = b.plan := by
  have h := congrArg Blk.plan (b.badParam_keeps (z := b) q o); exact h
@[simp] theorem Blk.badParam_ledg (b : Blk) (q : Req) (o : Nat) : (b.badParam q o).ledg = b.ledg := by
  have h := congrArg Blk.ledg (b.badParam_keeps (z := b) q o); exact h
@[simp] theorem Blk.badParam_meas (b : Blk) (q : Req) (o : Nat) : (b.badParam q o).meas = b.meas := by
  have h := congrArg Blk.meas (b.badParam_keeps (z := b) q o); exact h
@[simp] theorem Blk.badParam_sides (b : Blk) (q : Req) (o : Nat) : (b.badParam q o).sides = b.sides := by
  have h := congrArg Blk.sides (b.badParam_keeps (z := b) q o); exact h
@[simp] theorem Blk.badParam_act (b : Blk) (q : Req) (o : Nat) : (b.badParam q o).act = b.act := by
  have h := congrArg Blk.act (b.badParam_keeps (z := b) q o); exact h
@[simp] theorem Blk.badParam_switchReq (b : Blk) (q : Req) (o : Nat) : (b.badParam q o).switchReq = b.switchReq := by
  have h := congrArg Blk.switchReq (b.badParam_keeps (z := b) q o); exact h
@[simp] theorem Blk.badParam_fw (b : Blk) (q : Req) (o : Nat) : (b.badParam q o).fw = b.fw := by
  have h := congrArg Blk.fw (b.badParam_keeps (z := b) q o); exact h
@[simp] theorem Blk.badParam_pw (b : Blk) (q : Req) (o : Nat) : (b.badParam q o).pw = b.pw := by
  have h := congrArg Blk.pw (b.badParam_keeps (z := b) q o); exact h
@[simp] theorem Blk.badParam_nap (b : Blk) (q : Req) (o : Nat) : (b.badParam q o).nap = b.nap := by
  have h := congrArg Blk.nap (b.badParam_keeps (z := b) q o); exact h
@[simp] theorem Blk.badParam_cams (b : Blk) (q : Req) (o : Nat) : (b.badParam q o).cams = b.cams := by
  have h := congrArg Blk.cams (b.badParam_keeps (z := b) q o); exact h
@[simp] theorem Blk.badParam_camDirty (b : Blk) (q : Req) (o : Nat) : (b.badParam q o).camDirty = b.camDirty := by
  have h := congrArg Blk.camDirty (b.badParam_keeps (z := b) q o); exact h
@[simp] theorem Blk.badParam_streams (b : Blk) (q : Req) (o : Nat) : (b.badParam q o).streams = b.streams := by
  have h := congrArg Blk.streams (b.badParam_keeps (z := b) q o); exact h
@[simp] theorem Blk.badParam_resets (b : Blk) (q : Req) (o : Nat) : (b.badParam q o).resets = b.resets := by
  have h := congrArg Blk.resets (b.badParam_keeps (z := b) q o); exact h
@[simp] theorem Blk.badParam_graze (b : Blk) (q : Req) (o : Nat) : (b.badParam q o).graze = b.graze := by
  have h := congrArg Blk.graze (b.badParam_keeps (z := b) q o); exact h
@[simp] theorem Blk.badParam_napCyc (b : Blk) (q : Req) (o : Nat) : (b.badParam q o).napCyc = b.napCyc := by
  have h := congrArg Blk.napCyc (b.badParam_keeps (z := b) q o); exact h
@[simp] theorem Blk.badParam_napRest (b : Blk) (q : Req) (o : Nat) : (b.badParam q o).napRest = b.napRest := by
  have h := congrArg Blk.napRest (b.badParam_keeps (z := b) q o); exact h
@[simp] theorem Blk.badParam_msRest (b : Blk) (q : Req) (o : Nat) : (b.badParam q o).msRest = b.msRest := by
  have h := congrArg Blk.msRest (b.badParam_keeps (z := b) q o); exact h
@[simp] theorem Blk.badParam_xchg (b : Blk) (q : Req) (o : Nat) : (b.badParam q o).xchg = b.xchg := by
  have h := congrArg Blk.xchg (b.badParam_keeps (z := b) q o); exact h
@[simp] theorem Blk.badParam_skipStreams (b : Blk) (q : Req) (o : Nat) : (b.badParam q o).skipStreams = b.skipStreams := by
  have h := congrArg Blk.skipStreams (b.badParam_keeps (z := b) q o); exact h
@[simp] theorem Blk.badParam_capTicks (b : Blk) (q : Req) (o : Nat) : (b.badParam q o).capTicks = b.capTicks := by
  have h := congrArg Blk.capTicks (b.badParam_keeps (z := b) q o); exact h
@[simp] theorem Blk.badParam_onTicks (b : Blk) (q : Req) (o : Nat) : (b.badParam q o).onTicks = b.onTicks := by
  have h := congrArg Blk.onTicks (b.badParam_keeps (z := b) q o); exact h
@[simp] theorem Blk.badParam_lifeHSaved (b : Blk) (q : Req) (o : Nat) : (b.badParam q o).lifeHSaved = b.lifeHSaved := by
  have h := congrArg Blk.lifeHSaved (b.badParam_keeps (z := b) q o); exact h
@[simp] theorem Blk.badParam_fwCut (b : Blk) (q : Req) (o : Nat) : (b.badParam q o).fwCut = b.fwCut := by
  have h := congrArg Blk.fwCut (b.badParam_keeps (z := b) q o); exact h
@[simp] theorem Blk.badParam_onSaved (b : Blk) (q : Req) (o : Nat) : (b.badParam q o).onSaved = b.onSaved := by
  have h := congrArg Blk.onSaved (b.badParam_keeps (z := b) q o); exact h
@[simp] theorem Blk.badParam_yieldDue (b : Blk) (q : Req) (o : Nat) : (b.badParam q o).yieldDue = b.yieldDue := by
  have h := congrArg Blk.yieldDue (b.badParam_keeps (z := b) q o); exact h
@[simp] theorem Blk.badParam_axis (b : Blk) (q : Req) (o : Nat) (m : Fin 48) : (b.badParam q o).axis m = b.axis m := Blk.axis_of_ax (b.badParam_ax q o) m

@[simp] theorem Blk.refusedState_ax (b : Blk) (q : Req) : (b.refusedState q).ax = b.ax := by
  have h := congrArg Blk.ax (b.refusedState_keeps (z := b) q); exact h
@[simp] theorem Blk.refusedState_rx (b : Blk) (q : Req) : (b.refusedState q).rx = b.rx := by
  have h := congrArg Blk.rx (b.refusedState_keeps (z := b) q); exact h
@[simp] theorem Blk.refusedState_sm (b : Blk) (q : Req) : (b.refusedState q).sm = b.sm := by
  have h := congrArg Blk.sm (b.refusedState_keeps (z := b) q); exact h
@[simp] theorem Blk.refusedState_sess (b : Blk) (q : Req) : (b.refusedState q).sess = b.sess := by
  have h := congrArg Blk.sess (b.refusedState_keeps (z := b) q); exact h
@[simp] theorem Blk.refusedState_orphanAt (b : Blk) (q : Req) : (b.refusedState q).orphanAt = b.orphanAt := by
  have h := congrArg Blk.orphanAt (b.refusedState_keeps (z := b) q); exact h
@[simp] theorem Blk.refusedState_lastSid (b : Blk) (q : Req) : (b.refusedState q).lastSid = b.lastSid := by
  have h := congrArg Blk.lastSid (b.refusedState_keeps (z := b) q); exact h
@[simp] theorem Blk.refusedState_claimFails (b : Blk) (q : Req) : (b.refusedState q).claimFails = b.claimFails := by
  have h := congrArg Blk.claimFails (b.refusedState_keeps (z := b) q); exact h
@[simp] theorem Blk.refusedState_lockout (b : Blk) (q : Req) : (b.refusedState q).lockout = b.lockout := by
  have h := congrArg Blk.lockout (b.refusedState_keeps (z := b) q); exact h
@[simp] theorem Blk.refusedState_swath (b : Blk) (q : Req) : (b.refusedState q).swath = b.swath := by
  have h := congrArg Blk.swath (b.refusedState_keeps (z := b) q); exact h
@[simp] theorem Blk.refusedState_tick (b : Blk) (q : Req) : (b.refusedState q).tick = b.tick := by
  have h := congrArg Blk.tick (b.refusedState_keeps (z := b) q); exact h
@[simp] theorem Blk.refusedState_plan (b : Blk) (q : Req) : (b.refusedState q).plan = b.plan := by
  have h := congrArg Blk.plan (b.refusedState_keeps (z := b) q); exact h
@[simp] theorem Blk.refusedState_ledg (b : Blk) (q : Req) : (b.refusedState q).ledg = b.ledg := by
  have h := congrArg Blk.ledg (b.refusedState_keeps (z := b) q); exact h
@[simp] theorem Blk.refusedState_meas (b : Blk) (q : Req) : (b.refusedState q).meas = b.meas := by
  have h := congrArg Blk.meas (b.refusedState_keeps (z := b) q); exact h
@[simp] theorem Blk.refusedState_sides (b : Blk) (q : Req) : (b.refusedState q).sides = b.sides := by
  have h := congrArg Blk.sides (b.refusedState_keeps (z := b) q); exact h
@[simp] theorem Blk.refusedState_act (b : Blk) (q : Req) : (b.refusedState q).act = b.act := by
  have h := congrArg Blk.act (b.refusedState_keeps (z := b) q); exact h
@[simp] theorem Blk.refusedState_switchReq (b : Blk) (q : Req) : (b.refusedState q).switchReq = b.switchReq := by
  have h := congrArg Blk.switchReq (b.refusedState_keeps (z := b) q); exact h
@[simp] theorem Blk.refusedState_fw (b : Blk) (q : Req) : (b.refusedState q).fw = b.fw := by
  have h := congrArg Blk.fw (b.refusedState_keeps (z := b) q); exact h
@[simp] theorem Blk.refusedState_pw (b : Blk) (q : Req) : (b.refusedState q).pw = b.pw := by
  have h := congrArg Blk.pw (b.refusedState_keeps (z := b) q); exact h
@[simp] theorem Blk.refusedState_nap (b : Blk) (q : Req) : (b.refusedState q).nap = b.nap := by
  have h := congrArg Blk.nap (b.refusedState_keeps (z := b) q); exact h
@[simp] theorem Blk.refusedState_cams (b : Blk) (q : Req) : (b.refusedState q).cams = b.cams := by
  have h := congrArg Blk.cams (b.refusedState_keeps (z := b) q); exact h
@[simp] theorem Blk.refusedState_camDirty (b : Blk) (q : Req) : (b.refusedState q).camDirty = b.camDirty := by
  have h := congrArg Blk.camDirty (b.refusedState_keeps (z := b) q); exact h
@[simp] theorem Blk.refusedState_streams (b : Blk) (q : Req) : (b.refusedState q).streams = b.streams := by
  have h := congrArg Blk.streams (b.refusedState_keeps (z := b) q); exact h
@[simp] theorem Blk.refusedState_resets (b : Blk) (q : Req) : (b.refusedState q).resets = b.resets := by
  have h := congrArg Blk.resets (b.refusedState_keeps (z := b) q); exact h
@[simp] theorem Blk.refusedState_graze (b : Blk) (q : Req) : (b.refusedState q).graze = b.graze := by
  have h := congrArg Blk.graze (b.refusedState_keeps (z := b) q); exact h
@[simp] theorem Blk.refusedState_napCyc (b : Blk) (q : Req) : (b.refusedState q).napCyc = b.napCyc := by
  have h := congrArg Blk.napCyc (b.refusedState_keeps (z := b) q); exact h
@[simp] theorem Blk.refusedState_napRest (b : Blk) (q : Req) : (b.refusedState q).napRest = b.napRest := by
  have h := congrArg Blk.napRest (b.refusedState_keeps (z := b) q); exact h
@[simp] theorem Blk.refusedState_msRest (b : Blk) (q : Req) : (b.refusedState q).msRest = b.msRest := by
  have h := congrArg Blk.msRest (b.refusedState_keeps (z := b) q); exact h
@[simp] theorem Blk.refusedState_xchg (b : Blk) (q : Req) : (b.refusedState q).xchg = b.xchg := by
  have h := congrArg Blk.xchg (b.refusedState_keeps (z := b) q); exact h
@[simp] theorem Blk.refusedState_skipStreams (b : Blk) (q : Req) : (b.refusedState q).skipStreams = b.skipStreams := by
  have h := congrArg Blk.skipStreams (b.refusedState_keeps (z := b) q); exact h
@[simp] theorem Blk.refusedState_capTicks (b : Blk) (q : Req) : (b.refusedState q).capTicks = b.capTicks := by
  have h := congrArg Blk.capTicks (b.refusedState_keeps (z := b) q); exact h
@[simp] theorem Blk.refusedState_onTicks (b : Blk) (q : Req) : (b.refusedState q).onTicks = b.onTicks := by
  have h := congrArg Blk.onTicks (b.refusedState_keeps (z := b) q); exact h
@[simp] theorem Blk.refusedState_lifeHSaved (b : Blk) (q : Req) : (b.refusedState q).lifeHSaved = b.lifeHSaved := by
  have h := congrArg Blk.lifeHSaved (b.refusedState_keeps (z := b) q); exact h
@[simp] theorem Blk.refusedState_fwCut (b : Blk) (q : Req) : (b.refusedState q).fwCut = b.fwCut := by
  have h := congrArg Blk.fwCut (b.refusedState_keeps (z := b) q); exact h
@[simp] theorem Blk.refusedState_onSaved (b : Blk) (q : Req) : (b.refusedState q).onSaved = b.onSaved := by
  have h := congrArg Blk.onSaved (b.refusedState_keeps (z := b) q); exact h
@[simp] theorem Blk.refusedState_yieldDue (b : Blk) (q : Req) : (b.refusedState q).yieldDue = b.yieldDue := by
  have h := congrArg Blk.yieldDue (b.refusedState_keeps (z := b) q); exact h
@[simp] theorem Blk.refusedState_axis (b : Blk) (q : Req) (m : Fin 48) : (b.refusedState q).axis m = b.axis m := Blk.axis_of_ax (b.refusedState_ax q) m

@[simp] theorem Blk.busy_ax (b : Blk) (q : Req) : (b.busy q).ax = b.ax := by
  have h := congrArg Blk.ax (b.busy_keeps (z := b) q); exact h
@[simp] theorem Blk.busy_rx (b : Blk) (q : Req) : (b.busy q).rx = b.rx := by
  have h := congrArg Blk.rx (b.busy_keeps (z := b) q); exact h
@[simp] theorem Blk.busy_sm (b : Blk) (q : Req) : (b.busy q).sm = b.sm := by
  have h := congrArg Blk.sm (b.busy_keeps (z := b) q); exact h
@[simp] theorem Blk.busy_sess (b : Blk) (q : Req) : (b.busy q).sess = b.sess := by
  have h := congrArg Blk.sess (b.busy_keeps (z := b) q); exact h
@[simp] theorem Blk.busy_orphanAt (b : Blk) (q : Req) : (b.busy q).orphanAt = b.orphanAt := by
  have h := congrArg Blk.orphanAt (b.busy_keeps (z := b) q); exact h
@[simp] theorem Blk.busy_lastSid (b : Blk) (q : Req) : (b.busy q).lastSid = b.lastSid := by
  have h := congrArg Blk.lastSid (b.busy_keeps (z := b) q); exact h
@[simp] theorem Blk.busy_claimFails (b : Blk) (q : Req) : (b.busy q).claimFails = b.claimFails := by
  have h := congrArg Blk.claimFails (b.busy_keeps (z := b) q); exact h
@[simp] theorem Blk.busy_lockout (b : Blk) (q : Req) : (b.busy q).lockout = b.lockout := by
  have h := congrArg Blk.lockout (b.busy_keeps (z := b) q); exact h
@[simp] theorem Blk.busy_swath (b : Blk) (q : Req) : (b.busy q).swath = b.swath := by
  have h := congrArg Blk.swath (b.busy_keeps (z := b) q); exact h
@[simp] theorem Blk.busy_tick (b : Blk) (q : Req) : (b.busy q).tick = b.tick := by
  have h := congrArg Blk.tick (b.busy_keeps (z := b) q); exact h
@[simp] theorem Blk.busy_plan (b : Blk) (q : Req) : (b.busy q).plan = b.plan := by
  have h := congrArg Blk.plan (b.busy_keeps (z := b) q); exact h
@[simp] theorem Blk.busy_ledg (b : Blk) (q : Req) : (b.busy q).ledg = b.ledg := by
  have h := congrArg Blk.ledg (b.busy_keeps (z := b) q); exact h
@[simp] theorem Blk.busy_meas (b : Blk) (q : Req) : (b.busy q).meas = b.meas := by
  have h := congrArg Blk.meas (b.busy_keeps (z := b) q); exact h
@[simp] theorem Blk.busy_sides (b : Blk) (q : Req) : (b.busy q).sides = b.sides := by
  have h := congrArg Blk.sides (b.busy_keeps (z := b) q); exact h
@[simp] theorem Blk.busy_act (b : Blk) (q : Req) : (b.busy q).act = b.act := by
  have h := congrArg Blk.act (b.busy_keeps (z := b) q); exact h
@[simp] theorem Blk.busy_switchReq (b : Blk) (q : Req) : (b.busy q).switchReq = b.switchReq := by
  have h := congrArg Blk.switchReq (b.busy_keeps (z := b) q); exact h
@[simp] theorem Blk.busy_fw (b : Blk) (q : Req) : (b.busy q).fw = b.fw := by
  have h := congrArg Blk.fw (b.busy_keeps (z := b) q); exact h
@[simp] theorem Blk.busy_pw (b : Blk) (q : Req) : (b.busy q).pw = b.pw := by
  have h := congrArg Blk.pw (b.busy_keeps (z := b) q); exact h
@[simp] theorem Blk.busy_nap (b : Blk) (q : Req) : (b.busy q).nap = b.nap := by
  have h := congrArg Blk.nap (b.busy_keeps (z := b) q); exact h
@[simp] theorem Blk.busy_cams (b : Blk) (q : Req) : (b.busy q).cams = b.cams := by
  have h := congrArg Blk.cams (b.busy_keeps (z := b) q); exact h
@[simp] theorem Blk.busy_camDirty (b : Blk) (q : Req) : (b.busy q).camDirty = b.camDirty := by
  have h := congrArg Blk.camDirty (b.busy_keeps (z := b) q); exact h
@[simp] theorem Blk.busy_streams (b : Blk) (q : Req) : (b.busy q).streams = b.streams := by
  have h := congrArg Blk.streams (b.busy_keeps (z := b) q); exact h
@[simp] theorem Blk.busy_resets (b : Blk) (q : Req) : (b.busy q).resets = b.resets := by
  have h := congrArg Blk.resets (b.busy_keeps (z := b) q); exact h
@[simp] theorem Blk.busy_graze (b : Blk) (q : Req) : (b.busy q).graze = b.graze := by
  have h := congrArg Blk.graze (b.busy_keeps (z := b) q); exact h
@[simp] theorem Blk.busy_napCyc (b : Blk) (q : Req) : (b.busy q).napCyc = b.napCyc := by
  have h := congrArg Blk.napCyc (b.busy_keeps (z := b) q); exact h
@[simp] theorem Blk.busy_napRest (b : Blk) (q : Req) : (b.busy q).napRest = b.napRest := by
  have h := congrArg Blk.napRest (b.busy_keeps (z := b) q); exact h
@[simp] theorem Blk.busy_msRest (b : Blk) (q : Req) : (b.busy q).msRest = b.msRest := by
  have h := congrArg Blk.msRest (b.busy_keeps (z := b) q); exact h
@[simp] theorem Blk.busy_xchg (b : Blk) (q : Req) : (b.busy q).xchg = b.xchg := by
  have h := congrArg Blk.xchg (b.busy_keeps (z := b) q); exact h
@[simp] theorem Blk.busy_skipStreams (b : Blk) (q : Req) : (b.busy q).skipStreams = b.skipStreams := by
  have h := congrArg Blk.skipStreams (b.busy_keeps (z := b) q); exact h
@[simp] theorem Blk.busy_capTicks (b : Blk) (q : Req) : (b.busy q).capTicks = b.capTicks := by
  have h := congrArg Blk.capTicks (b.busy_keeps (z := b) q); exact h
@[simp] theorem Blk.busy_onTicks (b : Blk) (q : Req) : (b.busy q).onTicks = b.onTicks := by
  have h := congrArg Blk.onTicks (b.busy_keeps (z := b) q); exact h
@[simp] theorem Blk.busy_lifeHSaved (b : Blk) (q : Req) : (b.busy q).lifeHSaved = b.lifeHSaved := by
  have h := congrArg Blk.lifeHSaved (b.busy_keeps (z := b) q); exact h
@[simp] theorem Blk.busy_fwCut (b : Blk) (q : Req) : (b.busy q).fwCut = b.fwCut := by
  have h := congrArg Blk.fwCut (b.busy_keeps (z := b) q); exact h
@[simp] theorem Blk.busy_onSaved (b : Blk) (q : Req) : (b.busy q).onSaved = b.onSaved := by
  have h := congrArg Blk.onSaved (b.busy_keeps (z := b) q); exact h
@[simp] theorem Blk.busy_yieldDue (b : Blk) (q : Req) : (b.busy q).yieldDue = b.yieldDue := by
  have h := congrArg Blk.yieldDue (b.busy_keeps (z := b) q); exact h
@[simp] theorem Blk.busy_axis (b : Blk) (q : Req) (m : Fin 48) : (b.busy q).axis m = b.axis m := Blk.axis_of_ax (b.busy_ax q) m


/-! ### Fields that only sending touches -/

@[simp] theorem Blk.send_sess (b : Blk) (p : Fin 6) (o : OutPkt) : (b.send p o).sess = b.sess := by unfold Blk.send; split <;> rfl
@[simp] theorem Blk.send_casc (b : Blk) (p : Fin 6) (o : OutPkt) : (b.send p o).casc = b.casc := by unfold Blk.send; split <;> rfl
@[simp] theorem Blk.send_regs (b : Blk) (p : Fin 6) (o : OutPkt) : (b.send p o).regs = b.regs := by unfold Blk.send; split <;> rfl
@[simp] theorem Blk.sendVia_sess (b : Blk) (v : Via) (o : OutPkt) : (b.sendVia v o).sess = b.sess := by
  cases v
  · exact b.send_sess ..
  · rfl
@[simp] theorem Blk.sendVia_regs (b : Blk) (v : Via) (o : OutPkt) : (b.sendVia v o).regs = b.regs := by
  cases v
  · exact b.send_regs ..
  · rfl
@[simp] theorem Blk.heard_regs (b : Blk) (s i : Byte) (p : Fin 6) (t : Nat) : (b.heard s i p t).regs = b.regs := by
  unfold Blk.heard; split; rfl; split <;> rfl
@[simp] theorem Blk.heard_casc (b : Blk) (s i : Byte) (p : Fin 6) (t : Nat) : (b.heard s i p t).casc = b.casc := by
  unfold Blk.heard; split; rfl; split <;> rfl
@[simp] theorem Blk.heard_ports (b : Blk) (s i : Byte) (p : Fin 6) (t : Nat) : (b.heard s i p t).ports = b.ports := by
  unfold Blk.heard; split; rfl; split <;> rfl

/-! ### Axes -/

@[simp] theorem get_set_same {α : Type} {k : Nat} (v : Vector α k) (i : Fin k) (x : α) : (v.set i.val x i.isLt).get i = x := by
  simp [Vector.get_eq_getElem]

theorem get_set_other {α : Type} {k : Nat} (v : Vector α k) {i j : Fin k} (x : α) (h : j ≠ i) : (v.set i.val x i.isLt).get j = v.get j := by
  have : i.val ≠ j.val := fun e => h (Fin.ext e.symm)
  simp [Vector.get_eq_getElem, this]

@[simp] theorem Blk.axis_mapAx (b : Blk) (n : Fin 48) (f : Axis → Axis) : (b.mapAx n f).axis n = f (b.axis n) :=
  get_set_same ..

theorem Blk.axis_mapAx_ne (b : Blk) {n m : Fin 48} (f : Axis → Axis) (h : m ≠ n) : (b.mapAx n f).axis m = b.axis m :=
  get_set_other _ _ h

/-- Flags of another axis leave an axis as it is. -/
theorem Blk.raiseAx_axis_ne (b : Blk) {n m : Fin 48} (l : List Flag) (h : m ≠ n) : (b.raiseAx n l).axis m = b.axis m := by
  unfold Blk.raiseAx
  refine foldl_keeps (fun b : Blk => b.axis m) _ (fun b ev => ?_) _ b
  dsimp only
  split
  · rfl
  · rw [Blk.axis_of_ax (Blk.logRaise_ax ..)]
    exact b.axis_mapAx_ne _ h

/-- An axis without its registers and stamps, which another lends. -/
def Axis.eraseEv (z a : Axis) : Axis := { a with regs := z.regs, stamps := z.stamps }

/-- Flags touch registers and stamps of an axis alone. -/
theorem Blk.raiseAx_axis (b : Blk) {z : Axis} (n m : Fin 48) (l : List Flag) :
    Axis.eraseEv z ((b.raiseAx n l).axis m) = Axis.eraseEv z (b.axis m) := by
  by_cases h : m = n
  · subst h
    unfold Blk.raiseAx
    refine foldl_keeps (fun b : Blk => Axis.eraseEv z (b.axis m)) _ (fun b ev => ?_) _ b
    dsimp only
    split
    · rfl
    · rw [Blk.axis_of_ax (Blk.logRaise_ax ..)]
      rw [Blk.axis_mapAx]
      rfl
  · rw [b.raiseAx_axis_ne l h]

theorem Blk.events_ax (l : List (Nat × List Byte)) (g : Nat × List Byte → Nat × Nat × Nat × List Byte) (b : Blk) :
    (l.foldl (fun b e => Blk.event b (g e).1 (g e).2.1 (g e).2.2.1 (g e).2.2.2) b).ax = b.ax :=
  foldl_keeps Blk.ax _ (fun b _ => b.event_ax ..) l b

theorem Blk.commit_ax (b : Blk) (n : Fin 48) (c : Cell) : (b.commit n c).ax = ({ b with ax := b.ax.set n c.ax }.raiseAx n c.flags).ax := by
  unfold Blk.commit
  rw [foldl_keeps Blk.ax _ (fun b e => b.event_ax ..), Blk.raise_ax]

/-- A step on a cell leaves every other axis as it is. -/
theorem Blk.cell_axis_ne (b : Blk) {n m : Fin 48} (f : Cell → Cell) (h : m ≠ n) : (b.cell n f).axis m = b.axis m := by
  unfold Blk.cell
  rw [Blk.axis_of_ax (b.commit_ax n _), Blk.raiseAx_axis_ne _ _ h]
  exact get_set_other _ _ h

/-- A step on a cell leaves its axis as the step does, registers and stamps of events apart. -/
theorem Blk.cell_axis (b : Blk) {z : Axis} (n : Fin 48) (f : Cell → Cell) :
    Axis.eraseEv z ((b.cell n f).axis n) = Axis.eraseEv z (f (b.cellOf n)).ax := by
  unfold Blk.cell
  rw [Blk.axis_of_ax (b.commit_ax n _), Blk.raiseAx_axis]
  exact congrArg (Axis.eraseEv z) (get_set_same ..)

@[simp] theorem Blk.cell_axis_force (b : Blk) (n : Fin 48) (f : Cell → Cell) : ((b.cell n f).axis n).force = (f (b.cellOf n)).ax.force := by
  have h := congrArg Axis.force (b.cell_axis (z := b.axis n) n f); exact h
@[simp] theorem Blk.raiseAx_axis_force (b : Blk) (n m : Fin 48) (l : List Flag) : ((b.raiseAx n l).axis m).force = (b.axis m).force := by
  have h := congrArg Axis.force (b.raiseAx_axis (z := b.axis n) n m l); exact h
@[simp] theorem Blk.cell_axis_motor (b : Blk) (n : Fin 48) (f : Cell → Cell) : ((b.cell n f).axis n).motor = (f (b.cellOf n)).ax.motor := by
  have h := congrArg Axis.motor (b.cell_axis (z := b.axis n) n f); exact h
@[simp] theorem Blk.raiseAx_axis_motor (b : Blk) (n m : Fin 48) (l : List Flag) : ((b.raiseAx n l).axis m).motor = (b.axis m).motor := by
  have h := congrArg Axis.motor (b.raiseAx_axis (z := b.axis n) n m l); exact h
@[simp] theorem Blk.cell_axis_legs (b : Blk) (n : Fin 48) (f : Cell → Cell) : ((b.cell n f).axis n).legs = (f (b.cellOf n)).ax.legs := by
  have h := congrArg Axis.legs (b.cell_axis (z := b.axis n) n f); exact h
@[simp] theorem Blk.raiseAx_axis_legs (b : Blk) (n m : Fin 48) (l : List Flag) : ((b.raiseAx n l).axis m).legs = (b.axis m).legs := by
  have h := congrArg Axis.legs (b.raiseAx_axis (z := b.axis n) n m l); exact h
@[simp] theorem Blk.cell_axis_trip (b : Blk) (n : Fin 48) (f : Cell → Cell) : ((b.cell n f).axis n).trip = (f (b.cellOf n)).ax.trip := by
  have h := congrArg Axis.trip (b.cell_axis (z := b.axis n) n f); exact h
@[simp] theorem Blk.raiseAx_axis_trip (b : Blk) (n m : Fin 48) (l : List Flag) : ((b.raiseAx n l).axis m).trip = (b.axis m).trip := by
  have h := congrArg Axis.trip (b.raiseAx_axis (z := b.axis n) n m l); exact h
@[simp] theorem Blk.cell_axis_pwm (b : Blk) (n : Fin 48) (f : Cell → Cell) : ((b.cell n f).axis n).pwm = (f (b.cellOf n)).ax.pwm := by
  have h := congrArg Axis.pwm (b.cell_axis (z := b.axis n) n f); exact h
@[simp] theorem Blk.raiseAx_axis_pwm (b : Blk) (n m : Fin 48) (l : List Flag) : ((b.raiseAx n l).axis m).pwm = (b.axis m).pwm := by
  have h := congrArg Axis.pwm (b.raiseAx_axis (z := b.axis n) n m l); exact h
@[simp] theorem Blk.cell_axis_reg (b : Blk) (n : Fin 48) (f : Cell → Cell) : ((b.cell n f).axis n).reg = (f (b.cellOf n)).ax.reg := by
  have h := congrArg Axis.reg (b.cell_axis (z := b.axis n) n f); exact h
@[simp] theorem Blk.raiseAx_axis_reg (b : Blk) (n m : Fin 48) (l : List Flag) : ((b.raiseAx n l).axis m).reg = (b.axis m).reg := by
  have h := congrArg Axis.reg (b.raiseAx_axis (z := b.axis n) n m l); exact h
@[simp] theorem Blk.cell_axis_bl (b : Blk) (n : Fin 48) (f : Cell → Cell) : ((b.cell n f).axis n).bl = (f (b.cellOf n)).ax.bl := by
  have h := congrArg Axis.bl (b.cell_axis (z := b.axis n) n f); exact h
@[simp] theorem Blk.raiseAx_axis_bl (b : Blk) (n m : Fin 48) (l : List Flag) : ((b.raiseAx n l).axis m).bl = (b.axis m).bl := by
  have h := congrArg Axis.bl (b.raiseAx_axis (z := b.axis n) n m l); exact h
@[simp] theorem Blk.cell_axis_mot (b : Blk) (n : Fin 48) (f : Cell → Cell) : ((b.cell n f).axis n).mot = (f (b.cellOf n)).ax.mot := by
  have h := congrArg Axis.mot (b.cell_axis (z := b.axis n) n f); exact h
@[simp] theorem Blk.raiseAx_axis_mot (b : Blk) (n m : Fin 48) (l : List Flag) : ((b.raiseAx n l).axis m).mot = (b.axis m).mot := by
  have h := congrArg Axis.mot (b.raiseAx_axis (z := b.axis n) n m l); exact h
@[simp] theorem Blk.cell_axis_slc (b : Blk) (n : Fin 48) (f : Cell → Cell) : ((b.cell n f).axis n).slc = (f (b.cellOf n)).ax.slc := by
  have h := congrArg Axis.slc (b.cell_axis (z := b.axis n) n f); exact h
@[simp] theorem Blk.raiseAx_axis_slc (b : Blk) (n m : Fin 48) (l : List Flag) : ((b.raiseAx n l).axis m).slc = (b.axis m).slc := by
  have h := congrArg Axis.slc (b.raiseAx_axis (z := b.axis n) n m l); exact h
@[simp] theorem Blk.cell_axis_model (b : Blk) (n : Fin 48) (f : Cell → Cell) : ((b.cell n f).axis n).model = (f (b.cellOf n)).ax.model := by
  have h := congrArg Axis.model (b.cell_axis (z := b.axis n) n f); exact h
@[simp] theorem Blk.raiseAx_axis_model (b : Blk) (n m : Fin 48) (l : List Flag) : ((b.raiseAx n l).axis m).model = (b.axis m).model := by
  have h := congrArg Axis.model (b.raiseAx_axis (z := b.axis n) n m l); exact h
@[simp] theorem Blk.cell_axis_speedZones (b : Blk) (n : Fin 48) (f : Cell → Cell) : ((b.cell n f).axis n).speedZones = (f (b.cellOf n)).ax.speedZones := by
  have h := congrArg Axis.speedZones (b.cell_axis (z := b.axis n) n f); exact h
@[simp] theorem Blk.raiseAx_axis_speedZones (b : Blk) (n m : Fin 48) (l : List Flag) : ((b.raiseAx n l).axis m).speedZones = (b.axis m).speedZones := by
  have h := congrArg Axis.speedZones (b.raiseAx_axis (z := b.axis n) n m l); exact h
@[simp] theorem Blk.cell_axis_forceZones (b : Blk) (n : Fin 48) (f : Cell → Cell) : ((b.cell n f).axis n).forceZones = (f (b.cellOf n)).ax.forceZones := by
  have h := congrArg Axis.forceZones (b.cell_axis (z := b.axis n) n f); exact h
@[simp] theorem Blk.raiseAx_axis_forceZones (b : Blk) (n m : Fin 48) (l : List Flag) : ((b.raiseAx n l).axis m).forceZones = (b.axis m).forceZones := by
  have h := congrArg Axis.forceZones (b.raiseAx_axis (z := b.axis n) n m l); exact h
@[simp] theorem Blk.cell_axis_corr (b : Blk) (n : Fin 48) (f : Cell → Cell) : ((b.cell n f).axis n).corr = (f (b.cellOf n)).ax.corr := by
  have h := congrArg Axis.corr (b.cell_axis (z := b.axis n) n f); exact h
@[simp] theorem Blk.raiseAx_axis_corr (b : Blk) (n m : Fin 48) (l : List Flag) : ((b.raiseAx n l).axis m).corr = (b.axis m).corr := by
  have h := congrArg Axis.corr (b.raiseAx_axis (z := b.axis n) n m l); exact h
@[simp] theorem Blk.cell_axis_corrNext (b : Blk) (n : Fin 48) (f : Cell → Cell) : ((b.cell n f).axis n).corrNext = (f (b.cellOf n)).ax.corrNext := by
  have h := congrArg Axis.corrNext (b.cell_axis (z := b.axis n) n f); exact h
@[simp] theorem Blk.raiseAx_axis_corrNext (b : Blk) (n m : Fin 48) (l : List Flag) : ((b.raiseAx n l).axis m).corrNext = (b.axis m).corrNext := by
  have h := congrArg Axis.corrNext (b.raiseAx_axis (z := b.axis n) n m l); exact h
@[simp] theorem Blk.cell_axis_corrLoad (b : Blk) (n : Fin 48) (f : Cell → Cell) : ((b.cell n f).axis n).corrLoad = (f (b.cellOf n)).ax.corrLoad := by
  have h := congrArg Axis.corrLoad (b.cell_axis (z := b.axis n) n f); exact h
@[simp] theorem Blk.raiseAx_axis_corrLoad (b : Blk) (n m : Fin 48) (l : List Flag) : ((b.raiseAx n l).axis m).corrLoad = (b.axis m).corrLoad := by
  have h := congrArg Axis.corrLoad (b.raiseAx_axis (z := b.axis n) n m l); exact h
@[simp] theorem Blk.cell_axis_learned (b : Blk) (n : Fin 48) (f : Cell → Cell) : ((b.cell n f).axis n).learned = (f (b.cellOf n)).ax.learned := by
  have h := congrArg Axis.learned (b.cell_axis (z := b.axis n) n f); exact h
@[simp] theorem Blk.raiseAx_axis_learned (b : Blk) (n m : Fin 48) (l : List Flag) : ((b.raiseAx n l).axis m).learned = (b.axis m).learned := by
  have h := congrArg Axis.learned (b.raiseAx_axis (z := b.axis n) n m l); exact h
@[simp] theorem Blk.cell_axis_plan (b : Blk) (n : Fin 48) (f : Cell → Cell) : ((b.cell n f).axis n).plan = (f (b.cellOf n)).ax.plan := by
  have h := congrArg Axis.plan (b.cell_axis (z := b.axis n) n f); exact h
@[simp] theorem Blk.raiseAx_axis_plan (b : Blk) (n m : Fin 48) (l : List Flag) : ((b.raiseAx n l).axis m).plan = (b.axis m).plan := by
  have h := congrArg Axis.plan (b.raiseAx_axis (z := b.axis n) n m l); exact h
@[simp] theorem Blk.cell_axis_planned (b : Blk) (n : Fin 48) (f : Cell → Cell) : ((b.cell n f).axis n).planned = (f (b.cellOf n)).ax.planned := by
  have h := congrArg Axis.planned (b.cell_axis (z := b.axis n) n f); exact h
@[simp] theorem Blk.raiseAx_axis_planned (b : Blk) (n m : Fin 48) (l : List Flag) : ((b.raiseAx n l).axis m).planned = (b.axis m).planned := by
  have h := congrArg Axis.planned (b.raiseAx_axis (z := b.axis n) n m l); exact h
@[simp] theorem Blk.cell_axis_nv (b : Blk) (n : Fin 48) (f : Cell → Cell) : ((b.cell n f).axis n).nv = (f (b.cellOf n)).ax.nv := by
  have h := congrArg Axis.nv (b.cell_axis (z := b.axis n) n f); exact h
@[simp] theorem Blk.raiseAx_axis_nv (b : Blk) (n m : Fin 48) (l : List Flag) : ((b.raiseAx n l).axis m).nv = (b.axis m).nv := by
  have h := congrArg Axis.nv (b.raiseAx_axis (z := b.axis n) n m l); exact h
@[simp] theorem Blk.cell_axis_nvPending (b : Blk) (n : Fin 48) (f : Cell → Cell) : ((b.cell n f).axis n).nvPending = (f (b.cellOf n)).ax.nvPending := by
  have h := congrArg Axis.nvPending (b.cell_axis (z := b.axis n) n f); exact h
@[simp] theorem Blk.raiseAx_axis_nvPending (b : Blk) (n m : Fin 48) (l : List Flag) : ((b.raiseAx n l).axis m).nvPending = (b.axis m).nvPending := by
  have h := congrArg Axis.nvPending (b.raiseAx_axis (z := b.axis n) n m l); exact h
@[simp] theorem Blk.cell_axis_calSelf (b : Blk) (n : Fin 48) (f : Cell → Cell) : ((b.cell n f).axis n).calSelf = (f (b.cellOf n)).ax.calSelf := by
  have h := congrArg Axis.calSelf (b.cell_axis (z := b.axis n) n f); exact h
@[simp] theorem Blk.raiseAx_axis_calSelf (b : Blk) (n m : Fin 48) (l : List Flag) : ((b.raiseAx n l).axis m).calSelf = (b.axis m).calSelf := by
  have h := congrArg Axis.calSelf (b.raiseAx_axis (z := b.axis n) n m l); exact h

end Sys2Proof.Machine
end

