-- ==== Sys2Proof/Laws/Cell.lean ====
section
/-!
SUPPORT. What the shared operations of a cell leave alone: no end of a move, no trip and no leg fault touches what the axis was loaded with,
nor the time of the cell; and what the trip and the ends always leave.
-/

namespace Sys2Proof.Machine

/-- What an axis was loaded with: its motor, model, zones, correction tables and the RB values in force. -/
def Axis.loaded (a : Axis) : (AxRegs × Motor × Option MotorModel × List SpeedZone × List ForceZone) ×
    List (Int × Int) × Option (List (Int × Int)) × List Byte × NvMarks :=
  ((a.force, a.motor, a.model, a.speedZones, a.forceZones), a.corr, a.corrNext, a.corrLoad, a.nv)

/-- The same of the axis of a cell, and the cell's time. -/
def Cell.loaded (c : Cell) := (c.ax.loaded, c.now, c.tick)

/-! ### The plain updates -/

@[simp] theorem Axis.setB_loaded (a : Axis) (f : Fld) (v : Bool) : (a.setB f v).loaded = a.loaded := rfl
@[simp] theorem Cell.raise_loaded (c : Cell) (f : Flag) : (c.raise f).loaded = c.loaded := rfl
@[simp] theorem Cell.modRaise_loaded (c : Cell) (f : Flag) : (c.modRaise f).loaded = c.loaded := rfl
@[simp] theorem Cell.event_loaded (c : Cell) (k : Nat) (d : List Byte) : (c.event k d).loaded = c.loaded := rfl
@[simp] theorem Cell.set_loaded (c : Cell) (f : Fld) (v : Nat) : (c.set f v).loaded = c.loaded := rfl
@[simp] theorem Cell.setS_loaded (c : Cell) (f : Fld) (v : Int) : (c.setS f v).loaded = c.loaded := rfl
@[simp] theorem Cell.setB_loaded (c : Cell) (f : Fld) (v : Bool) : (c.setB f v).loaded = c.loaded := rfl
@[simp] theorem Cell.count_loaded (c : Cell) (f : Fld) : (c.count f).loaded = c.loaded := rfl
@[simp] theorem Cell.mot_loaded (c : Cell) (f : Motion → Motion) : (c.mot f).loaded = c.loaded := rfl
@[simp] theorem Cell.legs_loaded (c : Cell) (f : Legs → Legs) : (c.legs f).loaded = c.loaded := rfl
@[simp] theorem Cell.trip_loaded (c : Cell) (f : Trip → Trip) : (c.trip f).loaded = c.loaded := rfl
@[simp] theorem Cell.reg_loaded (c : Cell) (f : Reg → Reg) : (c.reg f).loaded = c.loaded := rfl
@[simp] theorem Cell.bl_loaded (c : Cell) (f : Bl → Bl) : (c.bl f).loaded = c.loaded := rfl
@[simp] theorem Cell.pwm_loaded (c : Cell) (f : Pwm → Pwm) : (c.pwm f).loaded = c.loaded := rfl

@[simp] theorem Cell.raiseIf_loaded (c : Cell) (b : Bool) (f : Flag) : (c.raiseIf b f).loaded = c.loaded := by
  unfold Cell.raiseIf; split <;> rfl

/-! ### The ends of a move -/

@[simp] theorem Cell.setUnc_loaded (c : Cell) : c.setUnc.loaded = c.loaded := by
  unfold Cell.setUnc; split <;> simp

@[simp] theorem Cell.homeFail_loaded (c : Cell) : c.homeFail.loaded = c.loaded := by
  unfold Cell.homeFail; repeat' split
  all_goals simp

@[simp] theorem Cell.endJob_loaded (c : Cell) (done : Bool) : (c.endJob done).loaded = c.loaded := by
  unfold Cell.endJob; split
  · rfl
  · extract_lets; simp only [Cell.mot_loaded]
    refine (ite_keeps Cell.loaded ?_ rfl).trans (ite_keeps Cell.loaded rfl rfl)
    rfl

/-- After the end of a move no move runs. -/
theorem Cell.endJob_job (c : Cell) (done : Bool) : (c.endJob done).ax.mot.job = none := by
  unfold Cell.endJob; split
  · assumption
  · extract_lets; rfl

@[simp] theorem Cell.dropWaiting_loaded (c : Cell) (r : Bool) : (c.dropWaiting r).loaded = c.loaded := rfl

@[simp] theorem Axis.takeHall_loaded (a : Axis) : a.takeHall.loaded = a.loaded := rfl

@[simp] theorem Cell.goFallow_loaded (c : Cell) : c.goFallow.loaded = c.loaded := by
  unfold Cell.goFallow; extract_lets lose d a _ _ _ _ a0 a1 a2 a3 a4 a5 _
  have h : d.loaded = c.loaded := ite_keeps Cell.loaded c.setUnc_loaded rfl
  have h1 : a1.loaded = a.loaded := by simp only [a1, Axis.takeHall_loaded]; rfl
  have h2 : a2.loaded = a.loaded := by simp only [a2, Axis.setB_loaded, h1]
  have h3 : a3.loaded = a.loaded := by simp only [a3, Axis.setB_loaded, h2]
  have h4 : a4.loaded = a.loaded := by simp only [a4, Axis.setB_loaded, h3]
  have h5 : a5.loaded = a.loaded := by simp only [a5, Axis.setB_loaded, h4]
  clear_value a5
  exact (congrArg (fun x => (x, d.now, d.tick)) h5).trans h

/-- FALLOW: no command reaches a leg (02 R54). -/
theorem Cell.goFallow_pulses (c : Cell) : c.goFallow.ax.pwm.pulses = Vector.replicate 4 .off := by
  unfold Cell.goFallow; extract_lets; rfl

@[simp] theorem Cell.abandon_loaded (c : Cell) : c.abandon.loaded = c.loaded := by
  unfold Cell.abandon; extract_lets m report d e f
  refine ite_keeps Cell.loaded ?_ (ite_keeps Cell.loaded rfl rfl)
  have he : e.loaded = c.loaded := ite_keeps Cell.loaded c.homeFail_loaded c.homeFail_loaded
  have hf : f.loaded = c.loaded := ite_keeps Cell.loaded he he
  simp [hf]

@[simp] theorem Cell.interruptTest_loaded (c : Cell) : c.interruptTest.loaded = c.loaded := by
  unfold Cell.interruptTest Cell.startFails; split
  · split <;> simp
  · rfl

/-! ### Legs and trips -/

@[simp] theorem Cell.forceOff_loaded (c : Cell) (d : Bool) : (c.forceOff d).loaded = c.loaded := by
  unfold Cell.forceOff; repeat' split
  all_goals rfl

@[simp] theorem Cell.gate_loaded (c : Cell) (on : Bool) : (c.gate on).loaded = c.loaded := rfl

@[simp] theorem Cell.toDrain_loaded (c : Cell) (d : Bool) : (c.toDrain d).loaded = c.loaded := by
  unfold Cell.toDrain
  exact (((c.legs _).forceOff d).abandon_loaded).trans (by simp)

@[simp] theorem Cell.confirm_loaded (c : Cell) (w : Wide) (chat : Bool) : (c.confirm w chat).loaded = c.loaded := by
  unfold Cell.confirm; extract_lets a act unc d e f g h
  have hh : h.loaded = c.loaded := by
    simp [h, g, f, e, d]
  exact ite_keeps Cell.loaded rfl (ite_keeps Cell.loaded (h.setUnc_loaded.trans hh) hh)

/-- While a trip is latched a confirmation changes nothing (03 R97). -/
theorem Cell.confirm_latched (c : Cell) (w : Wide) (chat : Bool) (h : c.ax.trip.latch = true) : c.confirm w chat = c := by
  unfold Cell.confirm; simp [h]

@[simp] theorem Cell.filterSees_loaded (c : Cell) (w : Wide) (s : TripSrc) (cyc : Nat) : (c.filterSees w s cyc).loaded = c.loaded := by
  unfold Cell.filterSees; simp only []; split <;> simp

@[simp] theorem Cell.startWindows_loaded (c : Cell) (w : Wide) (cyc : Nat) : (c.startWindows w cyc).loaded = c.loaded := by
  unfold Cell.startWindows
  exact (foldl_keeps Cell.loaded _ (fun b x => by split <;> simp) _ _).trans (by simp)

@[simp] theorem Cell.restartWindows_loaded (c : Cell) (w : Wide) (cyc : Nat) : (c.restartWindows w cyc).loaded = c.loaded := by
  unfold Cell.restartWindows; simp only []; split <;> simp

@[simp] theorem Cell.windowEnds_loaded (c : Cell) (w : Wide) (s : TripSrc) (cyc : Nat) : (c.windowEnds w s cyc).loaded = c.loaded := by
  unfold Cell.windowEnds; repeat' split
  all_goals simp

@[simp] theorem Cell.srcInactive_loaded (c : Cell) (w : Wide) (s : TripSrc) (cyc : Nat) : (c.srcInactive w s cyc).loaded = c.loaded := by
  simp [Cell.srcInactive]

@[simp] theorem Cell.when_loaded (c : Cell) (b : Bool) (f : Cell → Cell) (h : ∀ x : Cell, (f x).loaded = x.loaded) :
    (c.when b f).loaded = c.loaded := by
  unfold Cell.when; split <;> simp [h]

@[simp] theorem Cell.preTrip_loaded (c : Cell) (w : Wide) (s : TripSrc) (cyc : Nat) (seen : Bool) :
    (c.preTrip w s cyc seen).loaded = c.loaded := by
  unfold Cell.preTrip; extract_lets free d pres e f
  have hd : d.loaded = c.loaded := by
    simp only [d]; split
    · split <;> rfl
    · rfl
  have hf : f.loaded = c.loaded := by simp [f, e, hd]
  refine ite_keeps Cell.loaded hd (ite_keeps Cell.loaded ?_ (ite_keeps Cell.loaded ?_ hf)) <;> simp [hf]

@[simp] theorem Cell.legFault_loaded (c : Cell) (leg : Fin 5) (didt : Bool) : (c.legFault leg didt).loaded = c.loaded := by
  unfold Cell.legFault; simp only []
  repeat' split
  all_goals simp

/-- A source that is not enabled sets no pre-trip and ends no profile (03 R95). -/
theorem Cell.preTrip_disabled (c : Cell) (w : Wide) (s : TripSrc) (cyc : Nat) (seen : Bool) (h : c.ax.srcEnabled s = false) :
    (c.preTrip w s cyc seen).ax.mot = c.ax.mot := by
  unfold Cell.preTrip; extract_lets free d pres e f
  have hd : d.ax.srcEnabled s = false ∧ d.ax.mot = c.ax.mot := by
    simp only [d]; split
    · split <;> exact ⟨h, rfl⟩
    · exact ⟨h, rfl⟩
  simp [hd.1, hd.2]

end Sys2Proof.Machine
end

