-- ==== Sys2Proof/Laws/Memory.lean ====
section
/-!
SUPPORT. The contents of the serial memories: every operation keeps the canonical form, and a byte that is set reads as set while
every other byte reads as before.
-/

namespace Sys2Proof.Machine

/-- The canonical form, as a property of the whole list. -/
theorem memWf_iff (m : List Host.Cell) : memWf m = true ↔ m.Pairwise (fun x y => x.1 < y.1) ∧ ∀ c ∈ m, c.2 ≠ (0xFF : Byte) := by
  induction m with
  | nil => simp [memWf]
  | cons x t ih =>
    obtain ⟨k, v⟩ := x
    cases t with
    | nil => simp [memWf]
    | cons y t =>
      obtain ⟨k', v'⟩ := y
      simp only [memWf, Bool.and_eq_true, bne_iff_ne, ne_eq, decide_eq_true_eq, ih, List.pairwise_cons, List.mem_cons, forall_eq_or_imp]
      constructor
      · rintro ⟨⟨hv, hk⟩, ⟨h1, h2⟩, h3, h4⟩
        exact ⟨⟨⟨hk, fun c hc => hk.trans (h1 c hc)⟩, h1, h2⟩, hv, h3, h4⟩
      · rintro ⟨⟨⟨hk, _⟩, h1, h2⟩, hv, h3, h4⟩
        exact ⟨⟨hv, hk⟩, ⟨h1, h2⟩, h3, h4⟩

/-- A set byte adds no entry but its own. -/
theorem mem_memSet {m : List Host.Cell} {a : Nat} {v : Byte} {c : Host.Cell} (h : c ∈ memSet m a v) : c ∈ m ∨ (c = (a, v) ∧ v ≠ 0xFF) := by
  induction m with
  | nil =>
    simp only [memSet] at h
    split at h <;> simp_all
  | cons x t ih =>
    obtain ⟨k, w⟩ := x
    simp only [memSet] at h
    split at h
    · split at h <;> simp_all <;> tauto
    · split at h
      · split at h <;> simp_all <;> tauto
      · rcases List.mem_cons.1 h with rfl | h
        · simp
        · rcases ih h with h | h
          · exact Or.inl (List.mem_cons_of_mem _ h)
          · exact Or.inr h

theorem memSet_wf {m : List Host.Cell} (a : Nat) (v : Byte) (h : memWf m = true) : memWf (memSet m a v) = true := by
  rw [memWf_iff] at h ⊢
  refine ⟨?_, fun c hc => ?_⟩
  · have hp := h.1
    clear h
    induction m with
    | nil => simp only [memSet]; split <;> simp
    | cons x t ih =>
      obtain ⟨k, w⟩ := x
      rw [List.pairwise_cons] at hp
      simp only [memSet]
      split
      · next hlt =>
        split
        · exact List.pairwise_cons.2 hp
        · refine List.pairwise_cons.2 ⟨fun c hc => ?_, List.pairwise_cons.2 hp⟩
          rcases List.mem_cons.1 hc with rfl | hc
          · exact hlt
          · exact hlt.trans (hp.1 c hc)
      · split
        · next heq =>
          subst heq
          split
          · exact hp.2
          · exact List.pairwise_cons.2 hp
        · next hge hne =>
          refine List.pairwise_cons.2 ⟨fun c hc => ?_, ih hp.2⟩
          rcases mem_memSet hc with hc | ⟨rfl, _⟩
          · exact hp.1 c hc
          · show k < a; omega
  · rcases mem_memSet hc with hc | ⟨rfl, hv⟩
    · exact h.2 c hc
    · exact hv

theorem memErase_wf {m : List Host.Cell} (base : Nat) (h : memWf m = true) : memWf (memErase m base) = true := by
  rw [memWf_iff] at h ⊢
  exact ⟨h.1.filter _, fun c hc => h.2 c (List.mem_filter.1 hc).1⟩

theorem foldl_memSet_wf {α : Type} (key : List Host.Cell → α → Nat) (val : List Host.Cell → α → Byte) (l : List α) {m : List Host.Cell}
    (h : memWf m = true) : memWf (l.foldl (fun m x => memSet m (key m x) (val m x)) m) = true := by
  induction l generalizing m with
  | nil => exact h
  | cons x t ih => exact ih (memSet_wf _ _ h)

theorem memPut_wf {m : List Host.Cell} (a : Nat) (bs : List Byte) (h : memWf m = true) : memWf (memPut m a bs) = true :=
  foldl_memSet_wf (fun _ (x : Byte × Nat) => a + x.2) (fun _ x => x.1) _ h

theorem memProgram_wf {m : List Host.Cell} (dev : Fin 8) (base : Nat) (bs : List (Nat × Byte)) (h : memWf m = true) :
    memWf (memProgram m dev base bs) = true :=
  foldl_memSet_wf (fun _ (x : Nat × Byte) => devKey dev (base + x.1)) (fun m x => memGet m (devKey dev (base + x.1)) &&& x.2) _ h

theorem putRec_wf {m : List Host.Cell} (f : BankRec → BankRec) (h : memWf m = true) : memWf (putRec m f) = true :=
  memPut_wf _ _ (memErase_wf _ h)

theorem SmOp.apply_wf {m : List Host.Cell} (o : SmOp) (h : memWf m = true) : memWf (o.apply m) = true := by
  cases o with
  | program dev base bs => exact memProgram_wf dev base bs h
  | erase dev base => exact memErase_wf _ h

/-! ### Reading back -/

theorem memGet_memSet_ne (m : List Host.Cell) {a b : Nat} (v : Byte) (h : b ≠ a) : memGet (memSet m a v) b = memGet m b := by
  have h' : ¬ a = b := fun e => h e.symm
  induction m with
  | nil => simp only [memSet]; split <;> simp [memGet, h']
  | cons x t ih =>
    obtain ⟨k, w⟩ := x
    simp only [memSet]
    split
    · split <;> simp [memGet, h']
    · split
      · next heq => subst heq; split <;> simp [memGet, h']
      · simp only [memGet, ih]

/-- A byte below every entry reads as erased. -/
theorem memGet_below {m : List Host.Cell} {a : Nat} (h : ∀ c ∈ m, a < c.1) : memGet m a = 0xFF := by
  induction m with
  | nil => rfl
  | cons x t ih =>
    obtain ⟨k, w⟩ := x
    have hk : ¬ k = a := by have := h _ (List.mem_cons_self ..); simp only at this; omega
    simp only [memGet, hk, if_false]
    exact ih fun c hc => h c (List.mem_cons_of_mem _ hc)

theorem memGet_memSet_same {m : List Host.Cell} (a : Nat) (v : Byte) (h : memWf m = true) : memGet (memSet m a v) a = v := by
  rw [memWf_iff] at h
  have hp := h.1
  clear h
  induction m with
  | nil => simp only [memSet]; split <;> simp_all [memGet]
  | cons x t ih =>
    obtain ⟨k, w⟩ := x
    rw [List.pairwise_cons] at hp
    simp only [memSet]
    split
    · next hlt =>
      split
      · next hv =>
        rw [hv, memGet_below]
        intro c hc
        rcases List.mem_cons.1 hc with rfl | hc
        · exact hlt
        · exact hlt.trans (hp.1 c hc)
      · simp [memGet]
    · split
      · next heq =>
        subst heq
        split
        · next hv => rw [hv]; exact memGet_below hp.1
        · simp [memGet]
      · next hge hne =>
        have hk : ¬ k = a := fun e => hne e.symm
        simp only [memGet, hk, if_false]
        exact ih hp.2

end Sys2Proof.Machine
end

