-- ==== Sys2Proof/Laws/PerInstr.lean ====
section
/-!
SUPPORT. What holds of every command as syntax: a row has an opcode where it stands for a packet (11 R364), its opcode is one of the
protocol's, and a well-formed row's packet is no longer than a packet can be (11 R360).
-/

namespace Sys2Proof.Laws.Sane

open Sys2Proof Sys2Proof.Machine

/-- A row with a packet has an opcode of the protocol, no other row has one, and a well-formed packet fits its frames. -/
def Statement (i : Instr) : Prop :=
  i.pkt?.isSome = i.opcode?.isSome ∧ (i.wf = true → ∀ p ∈ i.pkt?, p.body.length ≤ 1016) ∧ ∀ o ∈ i.opcode?, (opcode o).isSome = true

/-- A well-formed packet carries at most 1,016 bytes (11 R360). -/
theorem wf_len (i : Instr) : i.wf = true → ∀ p ∈ i.pkt?, p.body.length ≤ 1016 := by
  intro h p hp
  have hp' : i.pkt? = some p := hp
  simp only [Instr.wf, hp', Option.elim, Pkt.wf, Bool.and_eq_true, decide_eq_true_eq] at h
  exact h.1.1

theorem hello (p : Pkt) : Statement (.hello p) := ⟨rfl, wf_len _, by rintro o ⟨⟩; decide⟩
theorem openSession (p : Pkt) : Statement (.openSession p) := ⟨rfl, wf_len _, by rintro o ⟨⟩; decide⟩
theorem closeSession (p : Pkt) : Statement (.closeSession p) := ⟨rfl, wf_len _, by rintro o ⟨⟩; decide⟩
theorem takeoverGrant (p : Pkt) : Statement (.takeoverGrant p) := ⟨rfl, wf_len _, by rintro o ⟨⟩; decide⟩
theorem takeoverClaim (p : Pkt) : Statement (.takeoverClaim p) := ⟨rfl, wf_len _, by rintro o ⟨⟩; decide⟩
theorem heartbeat (p : Pkt) : Statement (.heartbeat p) := ⟨rfl, wf_len _, by rintro o ⟨⟩; decide⟩
theorem identify (p : Pkt) : Statement (.identify p) := ⟨rfl, wf_len _, by rintro o ⟨⟩; decide⟩
theorem moduleReset (p : Pkt) : Statement (.moduleReset p) := ⟨rfl, wf_len _, by rintro o ⟨⟩; decide⟩
theorem axisReset (p : Pkt) : Statement (.axisReset p) := ⟨rfl, wf_len _, by rintro o ⟨⟩; decide⟩
theorem regRd (p : Pkt) : Statement (.regRd p) := ⟨rfl, wf_len _, by rintro o ⟨⟩; decide⟩
theorem regWr (p : Pkt) : Statement (.regWr p) := ⟨rfl, wf_len _, by rintro o ⟨⟩; decide⟩
theorem regRdBlk (p : Pkt) : Statement (.regRdBlk p) := ⟨rfl, wf_len _, by rintro o ⟨⟩; decide⟩
theorem regWrBlk (p : Pkt) : Statement (.regWrBlk p) := ⟨rfl, wf_len _, by rintro o ⟨⟩; decide⟩
theorem mbxRd (p : Pkt) : Statement (.mbxRd p) := ⟨rfl, wf_len _, by rintro o ⟨⟩; decide⟩
theorem axisConfig (p : Pkt) : Statement (.axisConfig p) := ⟨rfl, wf_len _, by rintro o ⟨⟩; decide⟩
theorem motorModel (p : Pkt) : Statement (.motorModel p) := ⟨rfl, wf_len _, by rintro o ⟨⟩; decide⟩
theorem zoneTableSpeed (p : Pkt) : Statement (.zoneTableSpeed p) := ⟨rfl, wf_len _, by rintro o ⟨⟩; decide⟩
theorem zoneTableForce (p : Pkt) : Statement (.zoneTableForce p) := ⟨rfl, wf_len _, by rintro o ⟨⟩; decide⟩
theorem zoneTableCorrection (p : Pkt) : Statement (.zoneTableCorrection p) := ⟨rfl, wf_len _, by rintro o ⟨⟩; decide⟩
theorem moveAbs (p : Pkt) : Statement (.moveAbs p) := ⟨rfl, wf_len _, by rintro o ⟨⟩; decide⟩
theorem moveRel (p : Pkt) : Statement (.moveRel p) := ⟨rfl, wf_len _, by rintro o ⟨⟩; decide⟩
theorem moveVel (p : Pkt) : Statement (.moveVel p) := ⟨rfl, wf_len _, by rintro o ⟨⟩; decide⟩
theorem moveVelHome (p : Pkt) : Statement (.moveVelHome p) := ⟨rfl, wf_len _, by rintro o ⟨⟩; decide⟩
theorem moveGroup (p : Pkt) : Statement (.moveGroup p) := ⟨rfl, wf_len _, by rintro o ⟨⟩; decide⟩
theorem hold (p : Pkt) : Statement (.hold p) := ⟨rfl, wf_len _, by rintro o ⟨⟩; decide⟩
theorem fallow (p : Pkt) : Statement (.fallow p) := ⟨rfl, wf_len _, by rintro o ⟨⟩; decide⟩
theorem brake (p : Pkt) : Statement (.brake p) := ⟨rfl, wf_len _, by rintro o ⟨⟩; decide⟩
theorem followStep (p : Pkt) : Statement (.followStep p) := ⟨rfl, wf_len _, by rintro o ⟨⟩; decide⟩
theorem gear (p : Pkt) : Statement (.gear p) := ⟨rfl, wf_len _, by rintro o ⟨⟩; decide⟩
theorem localSpeed (p : Pkt) : Statement (.localSpeed p) := ⟨rfl, wf_len _, by rintro o ⟨⟩; decide⟩
theorem camLoad (p : Pkt) : Statement (.camLoad p) := ⟨rfl, wf_len _, by rintro o ⟨⟩; decide⟩
theorem camEngage (p : Pkt) : Statement (.camEngage p) := ⟨rfl, wf_len _, by rintro o ⟨⟩; decide⟩
theorem camDisengage (p : Pkt) : Statement (.camDisengage p) := ⟨rfl, wf_len _, by rintro o ⟨⟩; decide⟩
theorem stop (p : Pkt) : Statement (.stop p) := ⟨rfl, wf_len _, by rintro o ⟨⟩; decide⟩
theorem qstop (p : Pkt) : Statement (.qstop p) := ⟨rfl, wf_len _, by rintro o ⟨⟩; decide⟩
theorem stopAll (p : Pkt) : Statement (.stopAll p) := ⟨rfl, wf_len _, by rintro o ⟨⟩; decide⟩
theorem budgetSet (p : Pkt) : Statement (.budgetSet p) := ⟨rfl, wf_len _, by rintro o ⟨⟩; decide⟩
theorem reserveSet (p : Pkt) : Statement (.reserveSet p) := ⟨rfl, wf_len _, by rintro o ⟨⟩; decide⟩
theorem ledgerRead (p : Pkt) : Statement (.ledgerRead p) := ⟨rfl, wf_len _, by rintro o ⟨⟩; decide⟩
theorem planQuery (p : Pkt) : Statement (.planQuery p) := ⟨rfl, wf_len _, by rintro o ⟨⟩; decide⟩
theorem streamStart (p : Pkt) : Statement (.streamStart p) := ⟨rfl, wf_len _, by rintro o ⟨⟩; decide⟩
theorem streamStop (p : Pkt) : Statement (.streamStop p) := ⟨rfl, wf_len _, by rintro o ⟨⟩; decide⟩
theorem logRead (p : Pkt) : Statement (.logRead p) := ⟨rfl, wf_len _, by rintro o ⟨⟩; decide⟩
theorem grazeCtrl (p : Pkt) : Statement (.grazeCtrl p) := ⟨rfl, wf_len _, by rintro o ⟨⟩; decide⟩
theorem calSelf (p : Pkt) : Statement (.calSelf p) := ⟨rfl, wf_len _, by rintro o ⟨⟩; decide⟩
theorem calWrite (p : Pkt) : Statement (.calWrite p) := ⟨rfl, wf_len _, by rintro o ⟨⟩; decide⟩
theorem calRead (p : Pkt) : Statement (.calRead p) := ⟨rfl, wf_len _, by rintro o ⟨⟩; decide⟩
theorem fwLoadBegin (p : Pkt) : Statement (.fwLoadBegin p) := ⟨rfl, wf_len _, by rintro o ⟨⟩; decide⟩
theorem fwLoadData (p : Pkt) : Statement (.fwLoadData p) := ⟨rfl, wf_len _, by rintro o ⟨⟩; decide⟩
theorem fwLoadEnd (p : Pkt) : Statement (.fwLoadEnd p) := ⟨rfl, wf_len _, by rintro o ⟨⟩; decide⟩
theorem fwSwap (p : Pkt) : Statement (.fwSwap p) := ⟨rfl, wf_len _, by rintro o ⟨⟩; decide⟩
theorem sideSwitch (p : Pkt) : Statement (.sideSwitch p) := ⟨rfl, wf_len _, by rintro o ⟨⟩; decide⟩
theorem cascadeEnum (p : Pkt) : Statement (.cascadeEnum p) := ⟨rfl, wf_len _, by rintro o ⟨⟩; decide⟩
theorem cascadeRoute (p : Pkt) : Statement (.cascadeRoute p) := ⟨rfl, wf_len _, by rintro o ⟨⟩; decide⟩
theorem modUnlock (h : Hdr) (upper : BitVec 16) : Statement (.modUnlock h upper) := ⟨rfl, wf_len _, by rintro o ⟨⟩⟩
theorem mbxSelWrite (h : Hdr) (id : Word) : Statement (.mbxSelWrite h id) := ⟨rfl, wf_len _, by rintro o ⟨⟩⟩
theorem mbxCaptureDone (pl : Plane) : Statement (.mbxCaptureDone pl) := ⟨rfl, wf_len _, by rintro o ⟨⟩⟩
theorem loadAll (h : Hdr) (sel : BitVec 16) : Statement (.loadAll h sel) := ⟨rfl, wf_len _, by rintro o ⟨⟩⟩
theorem tripClr (h : Hdr) (n : Fin 48) : Statement (.tripClr h n) := ⟨rfl, wf_len _, by rintro o ⟨⟩⟩
theorem slcSingleReq (h : Hdr) (n : Fin 48) (req : BitVec 2) (dsrc : Bool) : Statement (.slcSingleReq h n req dsrc) := ⟨rfl, wf_len _, by rintro o ⟨⟩⟩
theorem singleSampleTaken (n : Fin 48) (s : Fin 2) (x : SingleIn) : Statement (.singleSampleTaken n s x) := ⟨rfl, wf_len _, by rintro o ⟨⟩⟩
theorem slcDataRead (h : Hdr) (n : Fin 48) (s : Fin 2) : Statement (.slcDataRead h n s) := ⟨rfl, wf_len _, by rintro o ⟨⟩⟩
theorem icDataRead (h : Hdr) (i : Fin 8) : Statement (.icDataRead h i) := ⟨rfl, wf_len _, by rintro o ⟨⟩⟩
theorem evtWriteBack (h : Hdr) (e : EvReg) (v : Word) : Statement (.evtWriteBack h e v) := ⟨rfl, wf_len _, by rintro o ⟨⟩⟩
theorem rwReqGo (h : Hdr) (axis : BitVec 6) (pair : BitVec 2) (iTest : BitVec 16) : Statement (.rwReqGo h axis pair iTest) := ⟨rfl, wf_len _, by rintro o ⟨⟩⟩
theorem rwMeasureDone (o : RwOut) : Statement (.rwMeasureDone o) := ⟨rfl, wf_len _, by rintro o ⟨⟩⟩
theorem ic7Arm (h : Hdr) (cfg : BitVec 26) : Statement (.ic7Arm h cfg) := ⟨rfl, wf_len _, by rintro o ⟨⟩⟩
theorem sideRetry (h : Hdr) (v : BitVec 3) : Statement (.sideRetry h v) := ⟨rfl, wf_len _, by rintro o ⟨⟩⟩
theorem ctrClrMod (h : Hdr) : Statement (.ctrClrMod h) := ⟨rfl, wf_len _, by rintro o ⟨⟩⟩
theorem ctrClrAxes (h : Hdr) (axis : BitVec 6) : Statement (.ctrClrAxes h axis) := ⟨rfl, wf_len _, by rintro o ⟨⟩⟩
theorem mbTimingWrite (h : Hdr) (i : Fin 6) (v : Word) : Statement (.mbTimingWrite h i v) := ⟨rfl, wf_len _, by rintro o ⟨⟩⟩
theorem mbFilterWrite (h : Hdr) (i : Fin 6) (j : Fin 16) (b : Bool) (v : Word) : Statement (.mbFilterWrite h i j b v) := ⟨rfl, wf_len _, by rintro o ⟨⟩⟩
theorem powerUp (x : PowerIn) : Statement (.powerUp x) := ⟨rfl, wf_len _, by rintro o ⟨⟩⟩
theorem moduleReady (x : ReadyIn) : Statement (.moduleReady x) := ⟨rfl, wf_len _, by rintro o ⟨⟩⟩
theorem nrst (low : Bool) : Statement (.nrst low) := ⟨rfl, wf_len _, by rintro o ⟨⟩⟩
theorem resetSequence (straps : Straps) : Statement (.resetSequence straps) := ⟨rfl, wf_len _, by rintro o ⟨⟩⟩
theorem logicPowerLoss : Statement (.logicPowerLoss) := ⟨rfl, wf_len _, by rintro o ⟨⟩⟩
theorem holdUpExpiry : Statement (.holdUpExpiry) := ⟨rfl, wf_len _, by rintro o ⟨⟩⟩
theorem nvStoreWrite (n : Fin 48) : Statement (.nvStoreWrite n) := ⟨rfl, wf_len _, by rintro o ⟨⟩⟩
theorem stoAssert (a b : Bool) : Statement (.stoAssert a b) := ⟨rfl, wf_len _, by rintro o ⟨⟩⟩
theorem stoRelease : Statement (.stoRelease) := ⟨rfl, wf_len _, by rintro o ⟨⟩⟩
theorem stoDiscordance : Statement (.stoDiscordance) := ⟨rfl, wf_len _, by rintro o ⟨⟩⟩
theorem tripExtChange (high : Bool) (cyc : Nat) (seen : Bool) : Statement (.tripExtChange high cyc seen) := ⟨rfl, wf_len _, by rintro o ⟨⟩⟩
theorem supplyOvBlock (i : Input) (mV : Nat) : Statement (.supplyOvBlock i mV) := ⟨rfl, wf_len _, by rintro o ⟨⟩⟩
theorem supplyReverseBlock (i : Input) (mV : Nat) : Statement (.supplyReverseBlock i mV) := ⟨rfl, wf_len _, by rintro o ⟨⟩⟩
theorem cartridgeChange (k : Fin 2) (pres rdy : Bool) : Statement (.cartridgeChange k pres rdy) := ⟨rfl, wf_len _, by rintro o ⟨⟩⟩
theorem reserveEnter : Statement (.reserveEnter) := ⟨rfl, wf_len _, by rintro o ⟨⟩⟩
theorem reserveExit : Statement (.reserveExit) := ⟨rfl, wf_len _, by rintro o ⟨⟩⟩
theorem periodBoundary (n : Fin 48) (x : BoundaryIn) : Statement (.periodBoundary n x) := ⟨rfl, wf_len _, by rintro o ⟨⟩⟩
theorem i2tClamp (n : Fin 48) : Statement (.i2tClamp n) := ⟨rfl, wf_len _, by rintro o ⟨⟩⟩
theorem didtDetect (n : Fin 48) (leg : Fin 5) : Statement (.didtDetect n leg) := ⟨rfl, wf_len _, by rintro o ⟨⟩⟩
theorem bootUvEvent (n : Fin 48) (leg : Fin 5) : Statement (.bootUvEvent n leg) := ⟨rfl, wf_len _, by rintro o ⟨⟩⟩
theorem openEdge (n : Fin 48) (x : OpenIn) : Statement (.openEdge n x) := ⟨rfl, wf_len _, by rintro o ⟨⟩⟩
theorem substIsoOpenDone (n : Fin 48) : Statement (.substIsoOpenDone n) := ⟨rfl, wf_len _, by rintro o ⟨⟩⟩
theorem substTapCloseDone (n : Fin 48) : Statement (.substTapCloseDone n) := ⟨rfl, wf_len _, by rintro o ⟨⟩⟩
theorem substConfirmTimeout (n : Fin 48) : Statement (.substConfirmTimeout n) := ⟨rfl, wf_len _, by rintro o ⟨⟩⟩
theorem drainEnd (x : DrainIn) : Statement (.drainEnd x) := ⟨rfl, wf_len _, by rintro o ⟨⟩⟩
theorem legCheckDone (n : Fin 48) (x : LegCheck) : Statement (.legCheckDone n x) := ⟨rfl, wf_len _, by rintro o ⟨⟩⟩
theorem preTrip (n : Fin 48) (src : TripSrc) (cyc : Nat) (seen : Bool) : Statement (.preTrip n src cyc seen) := ⟨rfl, wf_len _, by rintro o ⟨⟩⟩
theorem tripConfirm (n : Fin 48) (src : TripSrc) (cyc : Nat) : Statement (.tripConfirm n src cyc) := ⟨rfl, wf_len _, by rintro o ⟨⟩⟩
theorem debugHalt : Statement (.debugHalt) := ⟨rfl, wf_len _, by rintro o ⟨⟩⟩
theorem debugRelease : Statement .debugRelease := ⟨rfl, wf_len _, by rintro o ⟨⟩⟩
theorem motionTick (x : TickIn) : Statement (.motionTick x) := ⟨rfl, wf_len _, by rintro o ⟨⟩⟩
theorem stall (n : Fin 48) : Statement (.stall n) := ⟨rfl, wf_len _, by rintro o ⟨⟩⟩
theorem stallHoldExpiry (n : Fin 48) : Statement (.stallHoldExpiry n) := ⟨rfl, wf_len _, by rintro o ⟨⟩⟩
theorem restCeilingExpiry (n : Fin 48) : Statement (.restCeilingExpiry n) := ⟨rfl, wf_len _, by rintro o ⟨⟩⟩
theorem obstacle (n : Fin 48) : Statement (.obstacle n) := ⟨rfl, wf_len _, by rintro o ⟨⟩⟩
theorem homeFound (n : Fin 48) : Statement (.homeFound n) := ⟨rfl, wf_len _, by rintro o ⟨⟩⟩
theorem homeTimeout (n : Fin 48) : Statement (.homeTimeout n) := ⟨rfl, wf_len _, by rintro o ⟨⟩⟩
theorem stepEdge (n : Fin 48) (x : StepIn) : Statement (.stepEdge n x) := ⟨rfl, wf_len _, by rintro o ⟨⟩⟩
theorem hallEdge (n : Fin 48) (x : HallIn) (cyc : Nat) : Statement (.hallEdge n x cyc) := ⟨rfl, wf_len _, by rintro o ⟨⟩⟩
theorem sensorSupplyOverload (n : Fin 48) : Statement (.sensorSupplyOverload n) := ⟨rfl, wf_len _, by rintro o ⟨⟩⟩
theorem testPulses (n : Fin 48) (peaks : Vector Int 12) : Statement (.testPulses n peaks) := ⟨rfl, wf_len _, by rintro o ⟨⟩⟩
theorem initAngleDone (n : Fin 48) : Statement (.initAngleDone n) := ⟨rfl, wf_len _, by rintro o ⟨⟩⟩
theorem bemfHandover (n : Fin 48) : Statement (.bemfHandover n) := ⟨rfl, wf_len _, by rintro o ⟨⟩⟩
theorem sensorlessGripEnd (n : Fin 48) : Statement (.sensorlessGripEnd n) := ⟨rfl, wf_len _, by rintro o ⟨⟩⟩
theorem lockedRotor (n : Fin 48) : Statement (.lockedRotor n) := ⟨rfl, wf_len _, by rintro o ⟨⟩⟩
theorem lockedBrakeEnd (n : Fin 48) : Statement (.lockedBrakeEnd n) := ⟨rfl, wf_len _, by rintro o ⟨⟩⟩
theorem rotorAtRest (n : Fin 48) : Statement (.rotorAtRest n) := ⟨rfl, wf_len _, by rintro o ⟨⟩⟩
theorem catchObserveDone (n : Fin 48) (x : CatchIn) : Statement (.catchObserveDone n x) := ⟨rfl, wf_len _, by rintro o ⟨⟩⟩
theorem catchFail (n : Fin 48) : Statement (.catchFail n) := ⟨rfl, wf_len _, by rintro o ⟨⟩⟩
theorem lsSignalLoss (n : Fin 48) : Statement (.lsSignalLoss n) := ⟨rfl, wf_len _, by rintro o ⟨⟩⟩
theorem moveStart (n : Fin 48) : Statement (.moveStart n) := ⟨rfl, wf_len _, by rintro o ⟨⟩⟩
theorem queueStart (n : Fin 48) : Statement (.queueStart n) := ⟨rfl, wf_len _, by rintro o ⟨⟩⟩
theorem masterLost (n : Fin 48) : Statement (.masterLost n) := ⟨rfl, wf_len _, by rintro o ⟨⟩⟩
theorem camAtEngage (n : Fin 48) : Statement (.camAtEngage n) := ⟨rfl, wf_len _, by rintro o ⟨⟩⟩
theorem camAtDisengage (n : Fin 48) : Statement (.camAtDisengage n) := ⟨rfl, wf_len _, by rintro o ⟨⟩⟩
theorem camEccError (t : Fin 64) : Statement (.camEccError t) := ⟨rfl, wf_len _, by rintro o ⟨⟩⟩
theorem swathStart : Statement (.swathStart) := ⟨rfl, wf_len _, by rintro o ⟨⟩⟩
theorem supervisionTimeout (n : Fin 48) : Statement (.supervisionTimeout n) := ⟨rfl, wf_len _, by rintro o ⟨⟩⟩
theorem stateExchange : Statement (.stateExchange) := ⟨rfl, wf_len _, by rintro o ⟨⟩⟩
theorem sideSwitchAct : Statement (.sideSwitchAct) := ⟨rfl, wf_len _, by rintro o ⟨⟩⟩
theorem streamCapture (k : Fin 4) : Statement (.streamCapture k) := ⟨rfl, wf_len _, by rintro o ⟨⟩⟩
theorem chopperOn (mV : Nat) : Statement (.chopperOn mV) := ⟨rfl, wf_len _, by rintro o ⟨⟩⟩
theorem chopperOff (mV : Nat) : Statement (.chopperOff mV) := ⟨rfl, wf_len _, by rintro o ⟨⟩⟩
theorem chopFault : Statement (.chopFault) := ⟨rfl, wf_len _, by rintro o ⟨⟩⟩
theorem shortBrake82V : Statement (.shortBrake82V) := ⟨rfl, wf_len _, by rintro o ⟨⟩⟩
theorem linkWindowTrip (high : Bool) (cyc : Nat) (seen : Bool) : Statement (.linkWindowTrip high cyc seen) := ⟨rfl, wf_len _, by rintro o ⟨⟩⟩
theorem icConversionDone (i : Fin 8) (x : IcIn) : Statement (.icConversionDone i x) := ⟨rfl, wf_len _, by rintro o ⟨⟩⟩
theorem napLedgerUpdate (xs : List IcIn) : Statement (.napLedgerUpdate xs) := ⟨rfl, wf_len _, by rintro o ⟨⟩⟩
theorem bgCalItemStart (spare : Fin 8) : Statement (.bgCalItemStart spare) := ⟨rfl, wf_len _, by rintro o ⟨⟩⟩
theorem sliceCalDone (id : SliceId) (x : CalMeas) : Statement (.sliceCalDone id x) := ⟨rfl, wf_len _, by rintro o ⟨⟩⟩
theorem calSelfDone : Statement (.calSelfDone) := ⟨rfl, wf_len _, by rintro o ⟨⟩⟩
theorem calWriteDone : Statement (.calWriteDone) := ⟨rfl, wf_len _, by rintro o ⟨⟩⟩
theorem grazeSlice (x : GrazeRes) : Statement (.grazeSlice x) := ⟨rfl, wf_len _, by rintro o ⟨⟩⟩
theorem grazeYield : Statement (.grazeYield) := ⟨rfl, wf_len _, by rintro o ⟨⟩⟩
theorem grazePassLate : Statement (.grazePassLate) := ⟨rfl, wf_len _, by rintro o ⟨⟩⟩
theorem lifeSave : Statement (.lifeSave) := ⟨rfl, wf_len _, by rintro o ⟨⟩⟩
theorem sck1Trim : Statement (.sck1Trim) := ⟨rfl, wf_len _, by rintro o ⟨⟩⟩
theorem sck0Fail : Statement (.sck0Fail) := ⟨rfl, wf_len _, by rintro o ⟨⟩⟩
theorem xtalFail (s : Side) (noEdge : Bool) : Statement (.xtalFail s noEdge) := ⟨rfl, wf_len _, by rintro o ⟨⟩⟩
theorem stbyPllUnlock : Statement (.stbyPllUnlock) := ⟨rfl, wf_len _, by rintro o ⟨⟩⟩
theorem missingClockEdge : Statement (.missingClockEdge) := ⟨rfl, wf_len _, by rintro o ⟨⟩⟩
theorem localClkSelect : Statement (.localClkSelect) := ⟨rfl, wf_len _, by rintro o ⟨⟩⟩
theorem localClkReturn : Statement (.localClkReturn) := ⟨rfl, wf_len _, by rintro o ⟨⟩⟩
theorem sideTakeover : Statement (.sideTakeover) := ⟨rfl, wf_len _, by rintro o ⟨⟩⟩
theorem unprotectedFailure : Statement (.unprotectedFailure) := ⟨rfl, wf_len _, by rintro o ⟨⟩⟩
theorem sideRejoin : Statement .sideRejoin := ⟨rfl, wf_len _, by rintro o ⟨⟩⟩
theorem fwRevert : Statement (.fwRevert) := ⟨rfl, wf_len _, by rintro o ⟨⟩⟩
theorem sessionExpiry (us : Nat) : Statement (.sessionExpiry us) := ⟨rfl, wf_len _, by rintro o ⟨⟩⟩
theorem orphanHoldExpiry : Statement .orphanHoldExpiry := ⟨rfl, wf_len _, by rintro o ⟨⟩⟩
theorem grantExpiry (us : Nat) : Statement (.grantExpiry us) := ⟨rfl, wf_len _, by rintro o ⟨⟩⟩
theorem claimLockoutEnd (us : Nat) : Statement (.claimLockoutEnd us) := ⟨rfl, wf_len _, by rintro o ⟨⟩⟩
theorem napEnter : Statement (.napEnter) := ⟨rfl, wf_len _, by rintro o ⟨⟩⟩
theorem napWake (srcs : List WakeSrc) : Statement (.napWake srcs) := ⟨rfl, wf_len _, by rintro o ⟨⟩⟩
theorem wakeReady (x : WakeIn) : Statement (.wakeReady x) := ⟨rfl, wf_len _, by rintro o ⟨⟩⟩
theorem frameRx (f : Frame) : Statement (.frameRx f) := ⟨rfl, wf_len _, by rintro o ⟨⟩⟩
theorem reassemblyTimeout (port : Fin 6) (src : Byte) (us : Nat) : Statement (.reassemblyTimeout port src us) := ⟨rfl, wf_len _, by rintro o ⟨⟩⟩
theorem frameTx (port : Fin 6) (won : Bool) : Statement (.frameTx port won) := ⟨rfl, wf_len _, by rintro o ⟨⟩⟩
theorem busOff (port : Fin 6) : Statement (.busOff port) := ⟨rfl, wf_len _, by rintro o ⟨⟩⟩
theorem busOffEnd (port : Fin 6) : Statement (.busOffEnd port) := ⟨rfl, wf_len _, by rintro o ⟨⟩⟩
theorem loadWindowEnd (port : Fin 6) (busy : Nat) : Statement (.loadWindowEnd port busy) := ⟨rfl, wf_len _, by rintro o ⟨⟩⟩
theorem heldPacketRelease (port : Fin 6) : Statement (.heldPacketRelease port) := ⟨rfl, wf_len _, by rintro o ⟨⟩⟩
theorem hopLost (up : Bool) : Statement (.hopLost up) := ⟨rfl, wf_len _, by rintro o ⟨⟩⟩
theorem hopRestored (up : Bool) : Statement (.hopRestored up) := ⟨rfl, wf_len _, by rintro o ⟨⟩⟩
theorem stackForm (ms : List ModInfo) (self : Nat) : Statement (.stackForm ms self) := ⟨rfl, wf_len _, by rintro o ⟨⟩⟩
theorem cascadeFrame (x : CascIn) : Statement (.cascadeFrame x) := ⟨rfl, wf_len _, by rintro o ⟨⟩⟩
theorem moduleJoin (x : ModInfo) (stack : Option StackInfo) : Statement (.moduleJoin x stack) := ⟨rfl, wf_len _, by rintro o ⟨⟩⟩
theorem moduleLeave (addr : Byte) : Statement (.moduleLeave addr) := ⟨rfl, wf_len _, by rintro o ⟨⟩⟩
theorem altTakeover : Statement (.altTakeover) := ⟨rfl, wf_len _, by rintro o ⟨⟩⟩
theorem masterSilent : Statement (.masterSilent) := ⟨rfl, wf_len _, by rintro o ⟨⟩⟩
theorem smWindowRead (s : Side) (off : Nat) (fetch : Bool) (x : SmIn) : Statement (.smWindowRead s off fetch x) := ⟨rfl, wf_len _, by rintro o ⟨⟩⟩
theorem smWindowWrite (s : Side) (off : Nat) (v : Byte) : Statement (.smWindowWrite s off v) := ⟨rfl, wf_len _, by rintro o ⟨⟩⟩
theorem smPageFlush (s : Side) (idle : Nat) : Statement (.smPageFlush s idle) := ⟨rfl, wf_len _, by rintro o ⟨⟩⟩
theorem smBusyRetry (s : Side) : Statement (.smBusyRetry s) := ⟨rfl, wf_len _, by rintro o ⟨⟩⟩
theorem smPollDone (x : PollIn) : Statement (.smPollDone x) := ⟨rfl, wf_len _, by rintro o ⟨⟩⟩
theorem smPollTimeout (s : Side) : Statement (.smPollTimeout s) := ⟨rfl, wf_len _, by rintro o ⟨⟩⟩
theorem camSlotWrite (s : Side) (t : Fin 64) : Statement (.camSlotWrite s t) := ⟨rfl, wf_len _, by rintro o ⟨⟩⟩
theorem logEntryWrite (s : Side) (ok : Bool) : Statement (.logEntryWrite s ok) := ⟨rfl, wf_len _, by rintro o ⟨⟩⟩
theorem bootstrapCharged (n : Fin 48) (leg : Fin 5) : Statement (.bootstrapCharged n leg) := ⟨rfl, wf_len _, by rintro o ⟨⟩⟩
theorem comparatorInside (k : CompId) (cyc : Nat) : Statement (.comparatorInside k cyc) := ⟨rfl, wf_len _, by rintro o ⟨⟩⟩
theorem cellClockLoss (n : Fin 48) : Statement (.cellClockLoss n) := ⟨rfl, wf_len _, by rintro o ⟨⟩⟩
theorem cellClockReturn (x : ClockIn) : Statement (.cellClockReturn x) := ⟨rfl, wf_len _, by rintro o ⟨⟩⟩
theorem supplyReturn (i : Input) (mV : Nat) : Statement (.supplyReturn i mV) := ⟨rfl, wf_len _, by rintro o ⟨⟩⟩
theorem aux24Change (mV : Nat) : Statement (.aux24Change mV) := ⟨rfl, wf_len _, by rintro o ⟨⟩⟩
theorem stbyPllLock : Statement (.stbyPllLock) := ⟨rfl, wf_len _, by rintro o ⟨⟩⟩
theorem calStale (n : Fin 48) (k : Fin 2) : Statement (.calStale n k) := ⟨rfl, wf_len _, by rintro o ⟨⟩⟩
theorem stoLineRise (a : Bool) : Statement (.stoLineRise a) := ⟨rfl, wf_len _, by rintro o ⟨⟩⟩

end Sys2Proof.Laws.Sane
end

