-- ==== Sys2Proof/Laws/Protocol.lean ====
section
/-!
SUPPORT. How packets are judged, taken and answered: a packet that fits runs its command on the module that has taken it, and an
answer stands in the buffers of its port.
-/

namespace Sys2Proof.Machine

/-! ### Judging -/

theorem Blk.served_judged (b : Blk) (h : Hdr) (q : Req) : (b.served h).judged q = b.judged q := rfl

/-- A packet that fits passes steps 1 to 6. -/
theorem Blk.judged_of_fits {b : Blk} {h : Hdr} {opc : Nat} {body : List Byte} (hf : b.fits h opc = true) (hl : body.length ≤ 1016)
    (h2 : opc ≠ 0x02) (hx : (Req.mk h opc body (.port h.port)).exempt = false) :
    b.judged ⟨h, opc, body, .port h.port⟩ = .go := by
  have hne : opc ≠ 1 ∧ opc ≠ 6 := by
    simp only [Req.exempt, Bool.or_eq_false_iff, decide_eq_false_iff_not, List.mem_cons, not_or] at hx
    tauto
  obtain ⟨⟨hr, ho⟩, ht⟩ := by simpa only [Blk.fits, Bool.and_eq_true] using hf
  simp only [Blk.reached, Bool.and_eq_true, decide_eq_true_eq, Bool.not_eq_true', Option.isNone_iff_eq_none, beq_iff_eq, Bool.or_eq_true] at hr
  simp only [Blk.owned, Option.elim] at ho
  obtain ⟨⟨⟨⟨⟨⟨⟨⟨hr1, hr2⟩, hr3⟩, hr4⟩, hr5⟩, hr6⟩, hr7⟩, hcls⟩, hd⟩ := hr
  have hph : b.phase = 4 := by simpa [Blk.ready] using hr1
  cases hs : b.sess with
  | none => simp [hs] at ho
  | some z =>
    simp only [hs, Bool.and_eq_true, Bool.not_eq_true', decide_eq_true_eq] at ho
    cases hop : opcode opc with
    | none => simp [hop] at ho
    | some o =>
      simp only [hop, Bool.and_eq_true, decide_eq_true_eq] at ho
      obtain ⟨⟨⟨⟨ho1, ho2⟩, ho3⟩, ho4⟩, ho5, ho6⟩ := ho
      have hheed : b.heeds ⟨h, opc, body, .port h.port⟩ = true := by
        have hc : (h.cls = 0 ∧ opc = 0x42) ∨ h.cls = 1 ∨ h.cls = 4 ∨ h.cls = 6 ∨ h.cls = 7 := by tauto
        simp only [Blk.heeds, Bool.and_eq_true, Bool.or_eq_true, decide_eq_true_eq]
        refine ⟨⟨⟨⟨⟨Or.inr ⟨⟨⟨?_, Or.inl hd⟩, hl⟩, Or.inl (by simp [hr7])⟩, hr3⟩, ?_⟩, ?_⟩, ?_⟩, Or.inl ⟨hr1, hr2⟩⟩
        · tauto
        · simp [hr4]
        · simp [hr5]
        · simp [hr6]
      have hown : b.isOwner h.src = true := by simp [Blk.isOwner, hs, ho1, ho2]
      have hpl : (match o.1 with | none => true | some x => x == portPlane h.port) = true := by
        cases ho' : o.1 with
        | none => rfl
        | some x => simpa [ho'] using ho6
      simp only [Blk.inTurn, Bool.and_eq_true, decide_eq_true_eq] at ht
      obtain ⟨o1, o2⟩ := o
      have hver : ¬ b.version < o2 := by simp [Blk.version, hs]; exact ho5
      have hpl' : o1.elim true (· == portPlane h.port) = true := ho6
      simp only [Blk.judged, hheed, hph, hop, hown, hx, Blk.judgeSeq, hs, Req.plane, Option.elim, ho3, ho4, ht.1, Blk.version] at *
      have hlt : ¬ z.version < o2 := Nat.not_lt.2 ho5
      simp_all

/-- A packet that fits runs its command on the module that has taken it (11 R365 to R368). -/
theorem Blk.serve_of_fits {b : Blk} {h : Hdr} {opc : Nat} {body : List Byte} (run : Blk → Req → Blk) (hf : b.fits h opc = true)
    (hl : body.length ≤ 1016) (h2 : opc ≠ 0x02) (hx : (Req.mk h opc body (.port h.port)).exempt = false) :
    (b.served h).serve run ⟨h, opc, body, .port h.port⟩ = run (b.begun ⟨h, opc, body, .port h.port⟩) ⟨h, opc, body, .port h.port⟩ := by
  have hj := Blk.judged_of_fits hf hl h2 hx
  have hf' := hf
  simp only [Blk.fits, Bool.and_eq_true, Blk.reached, Blk.inTurn, decide_eq_true_eq] at hf'
  have hph : ((b.served h).heard h.src h.sid h.port h.endUs).phase ≠ 1 := by
    have : b.phase = 4 := by simpa [Blk.ready] using hf'.1.1.1.1.1.1.1.1.1.1
    have e : ((b.served h).heard h.src h.sid h.port h.endUs).phase = b.phase := by simp [Blk.phase, Blk.r]
    rw [e, this]; decide
  have hop : ¬ 128 ≤ (((b.served h).heard h.src h.sid h.port h.endUs).planes.get (portPlane h.port).idx).open_ := by
    have := hf'.2.2
    simp only [Blk.heard_planes, Blk.served_planes]
    omega
  unfold Blk.serve
  rw [Blk.served_judged, hj]
  have e1 : (decide (Judged.go = Judged.drop) || decide (Via.port h.port = Via.ring)) = false := by simp
  simp only [e1, Bool.false_eq_true, if_false, hx, Req.plane, Bool.false_or, decide_eq_true_eq, hph, hop]
  rfl

theorem Blk.packet_of_fits {b : Blk} {p : Pkt} {opc : Nat} (run : Blk → Req → Blk) (hf : b.fits p.toHdr opc = true)
    (hw : p.wf = true) (h2 : opc ≠ 0x02) (hx : (Pkt.req p opc).exempt = false) :
    b.packet p opc run = run (b.begun (Pkt.req p opc)) (Pkt.req p opc) :=
  Blk.serve_of_fits run hf (by simpa [Pkt.wf] using hw) h2 hx

/-! ### Taking -/

@[simp] theorem Blk.begun_regs (b : Blk) (q : Req) : (b.begun q).regs = b.regs := by simp [Blk.begun]
@[simp] theorem Blk.begun_axis (b : Blk) (q : Req) (n : Fin 48) : (b.begun q).axis n = b.axis n := by simp [Blk.begun]
@[simp] theorem Blk.begun_ax (b : Blk) (q : Req) : (b.begun q).ax = b.ax := by simp [Blk.begun]
@[simp] theorem Blk.begun_sm (b : Blk) (q : Req) : (b.begun q).sm = b.sm := by simp [Blk.begun]
@[simp] theorem Blk.begun_lastSid (b : Blk) (q : Req) : (b.begun q).lastSid = b.lastSid := by simp [Blk.begun]
@[simp] theorem Blk.begun_claimFails (b : Blk) (q : Req) : (b.begun q).claimFails = b.claimFails := by simp [Blk.begun]
@[simp] theorem Blk.begun_lockout (b : Blk) (q : Req) : (b.begun q).lockout = b.lockout := by simp [Blk.begun]
@[simp] theorem Blk.begun_ports (b : Blk) (q : Req) : (b.begun q).ports = b.ports := by simp [Blk.begun]
@[simp] theorem Blk.begun_swath (b : Blk) (q : Req) : (b.begun q).swath = b.swath := by simp [Blk.begun]
@[simp] theorem Blk.begun_tick (b : Blk) (q : Req) : (b.begun q).tick = b.tick := by simp [Blk.begun]
@[simp] theorem Blk.begun_plan (b : Blk) (q : Req) : (b.begun q).plan = b.plan := by simp [Blk.begun]
@[simp] theorem Blk.begun_ledg (b : Blk) (q : Req) : (b.begun q).ledg = b.ledg := by simp [Blk.begun]
@[simp] theorem Blk.begun_meas (b : Blk) (q : Req) : (b.begun q).meas = b.meas := by simp [Blk.begun]
@[simp] theorem Blk.begun_sides (b : Blk) (q : Req) : (b.begun q).sides = b.sides := by simp [Blk.begun]
@[simp] theorem Blk.begun_act (b : Blk) (q : Req) : (b.begun q).act = b.act := by simp [Blk.begun]
@[simp] theorem Blk.begun_switchReq (b : Blk) (q : Req) : (b.begun q).switchReq = b.switchReq := by simp [Blk.begun]
@[simp] theorem Blk.begun_fw (b : Blk) (q : Req) : (b.begun q).fw = b.fw := by simp [Blk.begun]
@[simp] theorem Blk.begun_pw (b : Blk) (q : Req) : (b.begun q).pw = b.pw := by simp [Blk.begun]
@[simp] theorem Blk.begun_nap (b : Blk) (q : Req) : (b.begun q).nap = b.nap := by simp [Blk.begun]
@[simp] theorem Blk.begun_cams (b : Blk) (q : Req) : (b.begun q).cams = b.cams := by simp [Blk.begun]
@[simp] theorem Blk.begun_camDirty (b : Blk) (q : Req) : (b.begun q).camDirty = b.camDirty := by simp [Blk.begun]
@[simp] theorem Blk.begun_streams (b : Blk) (q : Req) : (b.begun q).streams = b.streams := by simp [Blk.begun]
@[simp] theorem Blk.begun_resets (b : Blk) (q : Req) : (b.begun q).resets = b.resets := by simp [Blk.begun]
@[simp] theorem Blk.begun_graze (b : Blk) (q : Req) : (b.begun q).graze = b.graze := by simp [Blk.begun]
@[simp] theorem Blk.begun_casc (b : Blk) (q : Req) : (b.begun q).casc = b.casc := by simp [Blk.begun]

/-- The plane of a taken command: L is its SEQ, and it waits in front. -/
theorem Blk.begun_plane (b : Blk) (q : Req) : ∃ keep, (b.begun q).planes.get q.plane.idx =
    { b.planes.get q.plane.idx with l := q.h.seq, acc := ⟨q, b.swath, [q.via], none, true⟩ :: keep } := by
  refine ⟨(b.planes.get q.plane.idx).acc.filter fun x => x.reply.isNone || decide ((q.h.seq - x.q.h.seq).toNat < 64), ?_⟩
  simp only [Blk.begun, Blk.take, get_set_same, Blk.heard_planes, Blk.served_planes, Blk.heard_swath, Blk.served_swath]

theorem Blk.begun_plane_ne (b : Blk) (q : Req) {i : Fin 3} (h : i ≠ q.plane.idx) : (b.begun q).planes.get i = b.planes.get i := by
  simp only [Blk.begun, Blk.take]
  rw [get_set_other _ _ h]
  simp

/-! ### Answering -/

/-- A packet sent to a port, outside class 3, is in its buffers. -/
theorem Blk.carries_send (b : Blk) (p : Fin 6) (o : OutPkt) (h : o.cls ≠ 3) : (b.send p o).carries p o := by
  unfold Blk.send
  rw [if_neg (by simp [h])]
  simp only [Blk.carries, get_set_same]
  by_cases hc : ((b.ports.get p).tx.get (txIndex o.cls)).cur.isNone = true
  · rw [if_pos hc]
    exact Or.inl ⟨⟨o, 0, (b.ports.get p).ord, false⟩, by simp, rfl⟩
  · rw [if_neg hc]
    exact Or.inr (by simp)

theorem Req.replyClass_ne (q : Req) : q.replyClass ≠ 3 := by
  unfold Req.replyClass
  split
  · decide
  · split
    · decide
    · split <;> decide

/-- An answer to the command in front of its plane stands on its port. -/
theorem Blk.answers_of_front {b : Blk} {q : Req} {st sw : Nat} {x : List Byte} {p : Fin 6} {keep : List Acc} {fr : Bool}
    (hv : q.via = .port p) (hp : q.h.port = p) (hx : q.exempt = false)
    (hb : (b.planes.get q.plane.idx).acc = ⟨q, sw, [q.via], none, fr⟩ :: keep) :
    (b.answer q st x).answers q.h q.opc st x := by
  refine ⟨b.mkReply q st x, ?_, rfl, rfl, rfl, rfl, rfl, rfl, rfl⟩
  have hw : Acc.waitsFor ⟨q, sw, [q.via], none, fr⟩ q = true := by simp [Acc.waitsFor]
  have hfind : (b.planes.get q.plane.idx).acc.find? (·.waitsFor q) = some ⟨q, sw, [q.via], none, fr⟩ := by
    rw [hb]; simp [List.find?, hw]
  unfold Blk.answer
  simp only [hx, hfind, List.foldl, hv, Blk.sendVia, hp, Bool.false_eq_true, if_false]
  exact Blk.carries_send _ _ _ (Req.replyClass_ne q)

/-- The answer to a command out of the sequence stands on its port. -/
theorem Blk.answers_of_exempt {b : Blk} {q : Req} {st : Nat} {x : List Byte} {p : Fin 6}
    (hv : q.via = .port p) (hp : q.h.port = p) (hx : q.exempt = true) : (b.answer q st x).answers q.h q.opc st x := by
  refine ⟨b.mkReply q st x, ?_, rfl, rfl, rfl, rfl, rfl, rfl, rfl⟩
  unfold Blk.answer
  simp only [hx, hv, Blk.sendVia, hp, if_true]
  exact Blk.carries_send _ _ _ (Req.replyClass_ne q)

end Sys2Proof.Machine
end

