-- ==== Sys2Proof/Tests/Base.lean ====
section
/-!
SUPPORT. The states that the tests run on: a module that is ready, with a session and its axes configured, and packets of its
owner.
-/

namespace Sys2Proof.Tests

open Sys2Proof.Machine

/-- A session at 2.1 of owner 0x10, its key 1 to 8. -/
def z0 : Session :=
  { sid := 5, owner := 0x10, version := 0x21, tmo := 500, events := true, keyCrc := crc32 [1, 2, 3, 4, 5, 6, 7, 8], keyZero := false, hbFrom := 0 }

/-- A ready module, side A active, one supply at 48 V, STO released. -/
def b0 : Blk :=
  { Blk.reset.set MOD.STATE.PHASE 4 with
    act := some .a, sess := some z0
    sides := #v[{ st := .active, img := some ⟨1, 1, 2, 1, 2, 1, 2⟩, fit := true }, { st := .standby, img := some ⟨1, 1, 2, 1, 2, 1, 2⟩, fit := true }]
    pw := { supMv := #v[48000, 0], stoA := true, stoB := true, ext := true, gd := true } }

/-- An axis that may move: its type, a model, its reset mark, a known position. -/
def ready (m : Motor) (a : Axis) : Axis :=
  let a := { a with motor := m, mot := { a.mot with mode := .fallow }, model := some ⟨1000, 1000, 1000, 1000, 1000, 1000⟩ }
  (((a.setB AX.RST_STAT.SESS_RST true).setB AX.ST_STAT.POS_UNC false).setB AX.BL_STAT.POS_UNC false).set AX.MOT_CFG.GRP
    (if m = .stepper then 1 else 0)

/-- The ready module with a stepper on axes 3 and 4, and a brushless motor on axis 5. -/
def b1 : Blk := ((b0.mapAx 3 (ready .stepper)).mapAx 4 (ready .stepper)).mapAx 5 (ready .brushless)

/-- The same, axis 3 in HOLD, and axis 5 too. -/
def bHold : Blk :=
  let hold := fun (a : Axis) => { a with mot := { a.mot with mode := .hold } }
  (b1.mapAx 3 hold).mapAx 5 hold

/-- What a cell measures at a boundary on a grid point of axis 0, at 48 V without currents. -/
def xb : BoundaryIn :=
  { at8 := 0, cyc := 1000, vLink := 48000, role := Vector.replicate 4 0, star := 0, edges := [], conv0 := [⟨0x800, 0x800⟩], conv1 := [⟨0x800, 0x800⟩]
    ilFault := 0 }

/-- The ready module as the master of a stack of two. -/
def bStack : Blk :=
  { b1.setB CASC.CFG.EN true with casc := { formed := true, selfPos := 0, lver := 1, mods := [
      ⟨0x40, 0, 1, 1, true, false, true, false, false, false, false, 0⟩, ⟨0x41, 1, 2, 1, false, true, true, false, false, false, false, 0⟩] } }

/-- An image of 40 bytes, version 7. -/
def image7 : List Byte :=
  let body : List Byte := [1, 2, 3, 4, 5, 6, 7, 8]
  let head := [0x4D, 0x58, 0x47, 0x46] ++ leBytes 4 40 ++ leBytes 2 7 ++ [0x21, 0x11, 0x10, 0x21, 0, 0] ++ leBytes 4 (crc32 body).toNat
  head ++ leBytes 4 (crc32 head).toNat ++ List.replicate 8 0xFF ++ body

/-- The ready module, its standby with a valid image in bank 1. -/
def bSwap : Blk :=
  b1.mapSm .b fun p => { p with mem := putRec (memPut p.mem (bankBase 1) image7) fun r => { r with st := r.st.set 1 0 } }

/-- A command of the owner on a port, to a target. -/
def pk (port : Fin 6) (tgt : Byte) (body : List Byte) : Pkt :=
  { port := port, cls := 1, dest := 0x40, src := 0x10, major := 2, sid := 5, seq := 1, tgt := tgt, endUs := 1000, body := body }

/-- The state of a next outcome; the reset state of another. -/
def nextOf : Host.Outcome State Fault Refusal → State
  | .next s => s
  | _ => State.reset

end Sys2Proof.Tests
end

