-- ==== Sys2Proof/Tests/Slice0.lean ====
section
/-!
SUPPORT. The model's own tests: values that the spec works out or tabulates, terms that each check of well-formedness
refuses, and for every statement with hypotheses one state and operands that meet them together.
-/

section

set_option Elab.async false

open Sys2Proof Sys2Proof.Machine Sys2Proof.Safety Sys2Proof.Tests

/-! ### Values of the spec's tables and worked examples -/

/-- 05 R145, its table of codes; `HALL_DIR` turns the order round. -/
theorem test_hall_sectors :
    [1, 3, 2, 6, 4, 5, 0, 7].map (fun c => hallSector (BitVec.ofNat 3 c) false)
      = [some 0, some 1, some 2, some 3, some 4, some 5, none, none] ∧ hallSector 1 true = some 5 := by
  decide +kernel

/-- 03, the example after R77: 25 ns asked at 50 kHz with a threshold of 60 ns, in units of 0.3125 ns. -/
theorem test_carry_example :
    carryStep 4000 192 31960 0 = (.complementary 0, 80) ∧ carryStep 4000 192 31960 80 = (.complementary 0, 160)
      ∧ carryStep 4000 192 31960 160 = (.complementary 240, 0) := by
  decide +kernel

/-- 03, after R79: cell 17 at 50 kHz stands 22666 eighths after the module's grid. -/
theorem test_stagger_offset : (Axis.reset 17).gridOffset 17 = 22666 := by decide +kernel

/-- 16 R489: write-enable goes as 0x06 then 0xF9 under eight-lane DDR, and as 0x06 on one lane otherwise. -/
theorem test_write_enable_frame :
    let b := (b1.set (SMP.CFG.LANES.smp .b) 3).setB (SMP.CFG.DDR.smp .b) true
    (b.opFrames .b (.erase 0 0)).head?.map (·.cmd) = some ⟨[0x06, 0xF9], 8, true⟩
      ∧ ((b1.set (SMP.CFG.LANES.smp .b) 0).opFrames .b (.erase 0 0)).head?.map (·.cmd) = some ⟨[0x06], 1, false⟩ := by
  decide +kernel

/-- 03 R90: as the clock returns, the window of a source that is active has its whole length from then, whatever went before. -/
theorem test_restarted_window :
    let c : Cell := { ax := { b1.axis 3 with trip := { (b1.axis 3).trip with win := ⟨none, none, some 7⟩ } } }
    (c.restartWindows ⟨true, false⟩ 500).ax.trip.win = ⟨none, some (500 + (b1.axis 3).inForce AX.TRIP_CFG.TRIP_FLT), none⟩
      ∧ (c.restartWindows ⟨true, false⟩ 500).ax.trip.latch = false := by
  decide +kernel

/-- 06, opening a leaf at Sedge Lane (after R187): the ticks of the ramps and of the segments. -/
theorem test_sedge_lane_segments :
    let l : Lims := ⟨64424509 / 256, 1319414 / 65536, 1319414 / 65536, 33777 / 2 ^ 24⟩
    rampCounts l.v l.a l.j = (10000, 2500)
      ∧ (planMove 0 8388608000 l).segs.map (fun s => (s.n, s.no))
        = [(10000, 1), (2500, 2), (10000, 3), (10834, 4), (10000, 5), (2500, 6), (10000, 7)] := by
  decide +kernel

/-- The same move lands exactly on its target (06 R184). -/
theorem test_short_move_lands :
    ((List.range 20).foldl (fun x _ => Prof.tick x) (planMove 0 100 ⟨10, 1, 1, 0⟩)).p = 100 := by
  decide +kernel

/-- 13 after R424 and 14 R457: the examples of full addresses. -/
theorem test_axis_addresses :
    axRegAddr 17 AX.SC_CFG.SC_THR = 0x210300 ∧ axRegAddr 47 AX.MOT_CNT.MOVES = 0x3F0928 ∧ axRegAddr 17 AX.MOT_STAT.MODE = 0x210640 := by
  decide +kernel

/-- CRC-32 of IEEE 802.3 (11 R375) and the frame check (11 R359), on the nine digits: the check values of both codes. -/
theorem test_crc_check_values :
    crc32 (("123456789".toList).map fun c => BitVec.ofNat 8 c.toNat) = 0xCBF43926
      ∧ crc16 (("123456789".toList).map fun c => BitVec.ofNat 8 c.toNat) = 0x29B1 := by
  decide +kernel

/-- 04, after R138: at `STEP_RES` = 12 an edge moves the step target by 1,024 ac. -/
theorem test_step_size :
    let a := (ready .stepper (b0.ax.get 3)).set AX.STEP_CFG.STEP_RES 12
    let c : Cell := { ax := { a with mot := { a.mot with mode := .followStep } } }
    (c.stepEdge 100000 true).ax.mot.stepTgt = 1024 ∧ (c.stepEdge 100000 false).ax.mot.stepTgt = -1024 := by
  decide +kernel

/-- 01 R18: a command of the motion family has no place in the management plane. -/
theorem test_wrong_plane :
    let b := (exec (.moveAbs (pk 4 3 [])) ⟨[], b1⟩)
    (nextOf b).blk.planes.get 0 = b1.planes.get 0 := by
  decide +kernel

/-- 11 R370, R371: the highest version that both sides speak. -/
theorem test_common_version :
    commonVersion 0x10 0x21 = some 0x21 ∧ commonVersion 0x10 0x20 = some 0x20 ∧ commonVersion 0x30 0x40 = none := by
  decide +kernel

/-- 11 after R380, opening a session byte by byte: the reply's bytes, its identifier and its data length. -/
theorem test_open_session_reply :
    let p : Pkt := { pk 0 0xFE ([0x10, 0x21, 0xF4, 0x01, 0x01, 0, 0, 0] ++ [0x5C, 0x0E, 0x93, 0x71, 0xA8, 0x26, 0xD4, 0x3B]) with sid := 0, seq := 0x100 }
    let t := nextOf (exec (.openSession p) ⟨[], { b0 with sess := none, swath := 22 }⟩)
    let o := (((t.blk.ports.get 0).tx.get 0).cur).map (·.pkt)
    o.map (·.bytes) = some [0x24, 0x17, 0x00, 0x01, 0x02, 0xFE, 0x0A, 0x00, 0x00, 0x17, 0x21, 0x00, 0xF4, 0x01, 0x00, 0x01, 0x00, 0x00]
      ∧ o.map (·.id 0) = some 0x08410000 ∧ o.map (fun x => (x.frameData 0).length) = some 20 := by
  decide +kernel

/-- The frame of the same example as it is received (12 R409, 11 R359): its header, with the check over bytes 0 to 29. -/
theorem test_open_session_frame :
    let bs : List Byte := [0x20, 0x00, 0x00, 0x01, 0x02, 0xFE, 0x10, 0x00, 0x10, 0x21, 0xF4, 0x01, 0x01, 0x00, 0x00, 0x00,
      0x5C, 0x0E, 0x93, 0x71, 0xA8, 0x26, 0xD4, 0x3B, 0, 0, 0, 0, 0, 0]
    let f : Frame := { port := 0, id := 0x05004000, ext := true, fd := true, rtr := false, brs := true, early := false
                       data := bs ++ leBytes 2 (crc16 bs).toNat, endUs := 0 }
    f.wf = true ∧ f.good = true ∧ f.cls = 1 ∧ f.dest = 0x40 ∧ f.src = 0x10 ∧ f.opc = 2 ∧ f.hdr.seq = 0x100 ∧ f.hdr.major = 2
      ∧ ({ f with data := bs ++ [0, 0] } : Frame).good = false := by
  decide +kernel

/-- A word of the reply of R392 (11, a deferred leaf at Ling Common): its identifier, for SEQ 0x031D in class 2 from the module. -/
theorem test_reply_identifier :
    OutPkt.id { cls := 2, dest := 0x10, src := 0x40, major := 2, async := false, reply := true, sid := 0x17, seq := 0x31D, opc := 0x30, tgt := 0x1D
                body := List.replicate 17 0 } 0 = 0x084103A0 := by
  decide +kernel

/-- 12 R406: the frame of a chunk takes the least data length of CAN FD that holds it. -/
theorem test_frame_lengths : [0, 2, 3, 6, 22, 23, 38, 54].map frameLen = [12, 12, 16, 16, 32, 48, 48, 64] := by
  decide +kernel

/-- 14 R450: the reset value of `MOD.VER`. -/
theorem test_reset_version : (State.reset.blk.readReg .ctrl 0x4 0).1 = 0x03212110 := by
  decide +kernel

/-- A packet row waits its turn: `step` takes the front of the queue. -/
theorem test_step_takes_front :
    step ⟨[.stoRelease, .stoAssert true true], b0⟩ = exec .stoRelease ⟨[.stoAssert true true], b0⟩ := by
  rfl

/-- The table gives no bits, so no word spells a command. -/
theorem test_no_word_decodes : decodeTableWord 32 0x1234 = none ∧ State.reset.withFetchWord 32 0x1234 = State.reset :=
  ⟨rfl, rfl⟩

/-! ### Well-formedness refuses -/

theorem test_ill_packet_too_long : (Instr.hold (pk 0 3 (List.replicate 1017 0))).wf = false ∧ (Instr.hold (pk 0 3 (List.replicate 1016 0))).wf = true := by
  decide +kernel

/-- The frames that CAN does not have (12 R406): a length, a classical frame of 12 bytes, an FD remote frame. -/
theorem test_ill_frames :
    let f : Frame := { port := 0, id := 0, ext := true, fd := true, rtr := false, brs := false, early := false, data := List.replicate 12 0, endUs := 0 }
    f.wf = true ∧ (Instr.frameRx { f with data := List.replicate 13 0 }).wf = false ∧ (Instr.frameRx { f with fd := false }).wf = false
      ∧ (Instr.frameRx { f with rtr := true }).wf = false := by
  decide +kernel

theorem test_ill_selectors :
    (Instr.takeoverGrant (pk 0 0xFE [1])).wf = false ∧ (Instr.takeoverClaim (pk 0 0xFE [0])).wf = false
      ∧ (Instr.zoneTableSpeed (pk 0 3 [1])).wf = false ∧ (Instr.zoneTableForce (pk 0 3 [0])).wf = false
      ∧ (Instr.zoneTableCorrection (pk 0 3 [0])).wf = false ∧ (Instr.fwLoadBegin (pk 0 0xFE [1])).wf = false
      ∧ (Instr.fwLoadData (pk 0 0xFE [0])).wf = false ∧ (Instr.fwLoadEnd (pk 0 0xFE [1])).wf = false
      ∧ (Instr.moveVel (pk 0 3 [0, 2])).wf = false ∧ (Instr.moveVelHome (pk 0 3 [0, 0])).wf = false := by
  decide +kernel

theorem test_ill_figures :
    (Instr.smWindowRead .a 0x4000000 false ⟨false, none⟩).wf = false ∧ (Instr.smWindowWrite .b 0x4000000 0).wf = false
      ∧ (Instr.loadWindowEnd 0 101).wf = false ∧ (Instr.stackForm [] 0).wf = false := by
  decide +kernel

/-! ### Witnesses: each statement's hypotheses are met together -/

theorem witness_StepIdlesOnEmptyQueue :
    (let s : State := ⟨[], b0⟩; (s.pending = [])) := by
  decide +kernel

theorem witness_StepKeepsMemoryCanonical :
    (let s : State := ⟨[.smPollDone ⟨.a, 0⟩], b0.mapSm .a fun p => { p with op := some (.program 0 0x100 [(0, 0x12), (1, 0xFF)]) }⟩; let t : State := nextOf (step ⟨[.smPollDone ⟨.a, 0⟩], b0.mapSm .a fun p => { p with op := some (.program 0 0x100 [(0, 0x12), (1, 0xFF)]) }⟩); (MemInv s) ∧ (step s = .next t)) := by
  exact ⟨by unfold MemInv; decide +kernel, rfl⟩

theorem witness_AcceptedCommandTakesItsPlace :
    (let c : Instr := .camDisengage (pk 0 3 []); let p : Pkt := pk 0 3 []; let s : State := ⟨[], b0⟩; let opc : Nat := 0x3C; (c.opcode? = some opc) ∧ (c.pkt? = some p) ∧ ((Pkt.req p opc).exempt = false) ∧ (opc ≠ 0x02) ∧ (s.blk.takes p opc)) := by
  unfold Blk.takes
  decide +kernel

theorem witness_RefusedCommandDoesNothing :
    (let c : Instr := .hold { pk 0 3 [0, 0, 0, 0] with seq := 9 }; let p : Pkt := { pk 0 3 [0, 0, 0, 0] with seq := 9 }; let s : State := ⟨[], b0⟩; let opc : Nat := 0x34; (c.opcode? = some opc) ∧ (c.pkt? = some p) ∧ (s.blk.judged (Pkt.req p opc) ≠ .go)) := by
  decide +kernel

theorem witness_CommandBeyond128IsBusy :
    (let c : Instr := .hold (pk 0 3 [0, 0, 0, 0]); let p : Pkt := pk 0 3 [0, 0, 0, 0]; let s : State := ⟨[], { b0 with planes := b0.planes.set 0 { b0.planes.get 0 with acc := List.replicate 128 ⟨Pkt.req { pk 0 4 [] with seq := 0 } 0x34, 0, [], none, false⟩ } }⟩; let opc : Nat := 0x34; (c.opcode? = some opc) ∧ (c.pkt? = some p) ∧ (p.wf = true) ∧ ((Pkt.req p opc).exempt = false) ∧ (opc ≠ 0x02) ∧ (s.blk.reached p.toHdr = true) ∧ (s.blk.owned p.toHdr opc = true) ∧ (p.seq = (s.blk.planes.get p.toHdr.pl).l + 1) ∧ (128 ≤ (s.blk.planes.get p.toHdr.pl).open_)) := by
  decide +kernel

theorem witness_SessionOpensAndCloses :
    (let s : State := ⟨[], { b0 with sess := none }⟩; let p : Pkt := pk 0 0xFE ([0x10, 0x21, 0, 0, 1, 0, 0, 0] ++ [1, 2, 3, 4, 5, 6, 7, 8]); let v : Nat := 0x21; (s.blk.reached p.toHdr = true) ∧ (portPlane p.port = .ctrl) ∧ (p.wf = true) ∧ (p.tgt = 0xFE) ∧ (p.major ≠ 0) ∧ ((if p.major.val = 1 then 8 else 16) ≤ p.body.length) ∧ (commonVersion (u p.body 0 1) (u p.body 1 1) = some v) ∧ (u p.body 2 2 = 0 ∨ (20 ≤ u p.body 2 2 ∧ u p.body 2 2 ≤ 10000)) ∧ (∀ z ∈ s.blk.sess, (z.owner = p.src ∧ z.version / 16 = p.major.val ∨ z.owner ≠ p.src ∧ z.orphan = true) ∧ z.version ∈ spoken) ∧ (s.blk.slave = false)) ∧
    (let s : State := ⟨[], b0⟩; let p : Pkt := { pk 0 0xFE ([0x10, 0x21, 0, 0, 1, 0, 0, 0] ++ [1, 2, 3, 4, 5, 6, 7, 8]) with src := 0x11 }; (s.blk.reached p.toHdr = true) ∧ (p.major ≠ 0) ∧ (p.wf = true) ∧ (s.blk.slave = true ∨ ∃ z ∈ s.blk.sess, z.orphan = false ∧ z.owner ≠ p.src) ∧ (∀ z ∈ s.blk.sess, z.owner ≠ p.src)) ∧
    (let s : State := ⟨[], b0⟩; let p : Pkt := pk 0 0xFE []; (s.blk.takes p 0x03) ∧ (p.tgt = 0xFE)) := by
  unfold Blk.takes
  decide +kernel

theorem witness_TakeoverMovesSession :
    (let s : State := ⟨[], b0⟩; let p : Pkt := pk 0 0xFE ([0, 0x22] ++ List.replicate 14 0); (s.blk.takes p 0x04) ∧ (p.tgt = 0xFE) ∧ (16 ≤ p.body.length) ∧ (u p.body 0 1 = 0) ∧ (BitVec.ofNat 8 (u p.body 1 1) ≠ p.src) ∧ (u p.body 1 1 ≠ 0xFF)) ∧
    (let s : State := ⟨[], b0⟩; let p : Pkt := pk 0 0xFE ([0, 0xFF] ++ List.replicate 14 0); (s.blk.takes p 0x04) ∧ (p.tgt = 0xFE) ∧ (16 ≤ p.body.length) ∧ (u p.body 0 1 = 0) ∧ (BitVec.ofNat 8 (u p.body 1 1) = p.src ∨ u p.body 1 1 = 0xFF)) ∧
    (let s : State := ⟨[], { b0 with sess := some { z0 with orphan := true }, orphanAt := some 3 }⟩; let p : Pkt := { pk 0 0xFE ([1, 0, 7, 0, 0, 0, 0, 0] ++ [1, 2, 3, 4, 5, 6, 7, 8]) with src := 0x11 }; let z : Session := { z0 with orphan := true }; (s.blk.reached p.toHdr = true) ∧ (portPlane p.port = .ctrl) ∧ (p.wf = true) ∧ (p.tgt = 0xFE) ∧ (16 ≤ p.body.length) ∧ (p.body.head? = some 1) ∧ (s.blk.sess = some z) ∧ (z.sid = p.sid) ∧ (z.version / 16 = p.major.val) ∧ (0x20 ≤ z.version) ∧ (s.blk.lockedOut p.endUs = false) ∧ ((∃ g ∈ z.grant, g.to_ = p.src ∧ p.endUs < g.endUs) ∨ (z.orphan = true ∧ z.keyZero = false ∧ crc32 ((p.body.drop 8).take 8) = z.keyCrc))) ∧
    (let s : State := ⟨[], b0⟩; let p : Pkt := { pk 0 0xFE ([1, 0, 7, 0, 0, 0, 0, 0] ++ [1, 2, 3, 4, 5, 6, 7, 8]) with src := 0x11 }; let z : Session := z0; (s.blk.reached p.toHdr = true) ∧ (portPlane p.port = .ctrl) ∧ (p.wf = true) ∧ (p.body.head? = some 1) ∧ (s.blk.sess = some z) ∧ (0x20 ≤ z.version) ∧ (z.owner ≠ p.src) ∧ (s.blk.claimOk (Pkt.req p 0x04) = false)) := by
  unfold Blk.takes
  decide +kernel

theorem witness_SessionReadsAnswer :
    (let s : State := ⟨[], b0⟩; let p : Pkt := pk 0 0xFE [0x10, 0x21, 0, 0, 0, 0]; (s.blk.reached p.toHdr = true) ∧ (portPlane p.port = .ctrl) ∧ (p.wf = true) ∧ (p.tgt = 0xFE) ∧ (p.major ≠ 0) ∧ (6 ≤ p.body.length) ∧ (∀ z ∈ s.blk.sess, z.version ∈ spoken)) ∧
    (let s : State := ⟨[], b0⟩; let p : Pkt := pk 2 0xFE []; (s.blk.reached p.toHdr = true) ∧ (p.wf = true) ∧ (p.tgt = 0xFE) ∧ (p.major ≠ 0) ∧ (∀ z ∈ s.blk.sess, z.version ∈ spoken)) ∧
    (let s : State := ⟨[], b0⟩; let p : Pkt := pk 0 0xFE []; let z : Session := z0; (s.blk.reached p.toHdr = true) ∧ (s.blk.owned p.toHdr 0x05 = true) ∧ (p.wf = true) ∧ (p.tgt = 0xFE) ∧ (s.blk.sess = some z)) := by
  decide +kernel

theorem witness_ModuleResets :
    (let s : State := ⟨[], b0⟩; let p : Pkt := pk 0 0xFE [0x5A, 0xA5]; (s.blk.takes p 0x08) ∧ (p.tgt = 0xFE) ∧ (2 ≤ p.body.length) ∧ (u p.body 0 1 = 0x5A) ∧ (u p.body 1 1 = 0xA5)) ∧
    (let s : State := ⟨[], { b0 with pw := { b0.pw with resetDue := some true } }⟩; let x : Straps := ⟨true, false, false⟩; let pin : Bool := true; (s.blk.pw.resetDue = some pin) ∧ (s.blk.pw.powered = true) ∧ (s.blk.pw.held = false) ∧ (pin = true ∨ s.blk.resetReplyWaits = false)) ∧
    (let s : State := ⟨[], (nextOf (exec (.moduleReset (pk 0 0xFE [0x5A, 0xA5])) ⟨[], b0⟩)).blk⟩; let x : Straps := ⟨true, false, false⟩; (s.blk.pw.resetDue = some false) ∧ (s.blk.resetReplyWaits = true)) ∧
    (let s : State := ⟨[], { b0 with pw := { b0.pw with held := true } }⟩; (s.blk.pw.held = true)) := by
  unfold Blk.takes
  decide +kernel

theorem witness_AxisResetReaches :
    (let s : State := ⟨[], b0⟩; let p : Pkt := pk 0 3 [0]; let n : Fin 48 := 3; (s.blk.takes p 0x09) ∧ (p.tgt.toNat = n.val) ∧ (p.body ≠ []) ∧ ((u p.body 0 1).testBit 0 = false) ∧ ((s.blk.axis n).legs.phase ≠ .lost)) ∧
    (let s : State := ⟨[], b0⟩; let p : Pkt := pk 0 3 [1]; let n : Fin 48 := 3; (s.blk.takes p 0x09) ∧ (p.tgt.toNat = n.val) ∧ (p.body ≠ []) ∧ ((u p.body 0 1).testBit 0 = true) ∧ (0x21 ≤ s.blk.version) ∧ ((s.blk.axis n).legs.phase ≠ .lost)) ∧
    (let s : State := ⟨[], b0.mapAx 3 fun a => { a with legs := { a.legs with phase := .lost } }⟩; let p : Pkt := pk 0 3 [0]; let n : Fin 48 := 3; (s.blk.takes p 0x09) ∧ (p.tgt.toNat = n.val) ∧ (p.body ≠ []) ∧ ((u p.body 0 1).testBit 0 = false) ∧ ((s.blk.axis n).legs.phase = .lost)) := by
  unfold Blk.takes
  decide +kernel

theorem witness_SessionTimersExpire :
    (let s : State := ⟨[], b0⟩; let us : Nat := 600000; let z : Session := z0; (s.blk.sess = some z) ∧ (z.orphan = false) ∧ (s.blk.slave = false) ∧ (s.blk.nap = .awake)) ∧
    (let s : State := ⟨[], { b0 with sess := some { z0 with orphan := true }, orphanAt := some 0, swath := 30000 }⟩; let at_ : Nat := 0; let z : Session := { z0 with orphan := true }; (s.blk.r MOD.ORPHAN.HOLD_T ≠ 0xFFFF) ∧ (s.blk.sess = some z) ∧ (z.orphan = true) ∧ (s.blk.orphanAt = some at_)) ∧
    (let s : State := ⟨[], { b0 with sess := some { z0 with grant := some ⟨0x11, 5⟩ } }⟩; let us : Nat := 5; let z : Session := { z0 with grant := some ⟨0x11, 5⟩ }; let g : Grant := ⟨0x11, 5⟩; (s.blk.sess = some z) ∧ (z.grant = some g)) ∧
    (let s : State := ⟨[], { b0 with lockout := some 7 }⟩; let us : Nat := 7; let x : Nat := 7; (s.blk.lockout = some x)) := by
  decide +kernel

theorem witness_RegisterReadShows :
    (let s : State := ⟨[], b1⟩; let p : Pkt := pk 0 0xFE (leBytes 3 0x130604) |> fun x => { x with body := leBytes 3 0x130604 ++ [0] }; let n : Fin 48 := 3; let i : Nat := 96; let d : RegDef := (axDefs[96]?).getD { addr := 0, reset := 0 }; (s.blk.takes p 0x10) ∧ (p.tgt = 0xFE) ∧ (4 ≤ p.body.length) ∧ (axDefs[i]? = some d) ∧ (u p.body 0 3 = axAddr n d.addr)) ∧
    (let s : State := ⟨[], b1⟩; let p : Pkt := pk 0 0xFE (leBytes 4 0x400000); (s.blk.takes p 0x10) ∧ (p.tgt = 0xFE) ∧ (4 ≤ p.body.length) ∧ (u p.body 0 3 % 4 = 0) ∧ (locate (u p.body 0 3) = .none)) := by
  unfold Blk.takes
  decide +kernel

theorem witness_RegisterWriteStores :
    (let s : State := ⟨[], b1⟩; let p : Pkt := pk 0 0xFE (leBytes 3 0x130604 ++ [0] ++ leBytes 4 0xFFFFFFFF); let n : Fin 48 := 3; let i : Nat := 96; let d : RegDef := (axDefs[96]?).getD { addr := 0, reset := 0 }; (s.blk.takes p 0x11) ∧ (p.tgt = 0xFE) ∧ (8 ≤ p.body.length) ∧ (axDefs[i]? = some d) ∧ (u p.body 0 3 = axAddr n d.addr) ∧ (d.writer = portPlane p.port) ∧ (i ∉ axEvRegs) ∧ (i ≠ AX.AX_SUPV.HELD.reg) ∧ ((s.blk.axis n).foreign i = false) ∧ ((s.blk.axis n).locked i = false)) ∧
    (let s : State := ⟨[], b1⟩; let p : Pkt := pk 0 0xFE (leBytes 3 0x30000 ++ [0] ++ leBytes 4 0xFFFFFFFF); let i : Nat := 24; let d : RegDef := (modDefs[24]?).getD { addr := 0, reset := 0 }; (s.blk.takes p 0x11) ∧ (p.tgt = 0xFE) ∧ (8 ≤ p.body.length) ∧ (modDefs[i]? = some d) ∧ (u p.body 0 3 = d.addr) ∧ (d.writer = portPlane p.port) ∧ (i ∉ modEvRegs) ∧ (i ≠ MOD.VIOL.CTRL.reg) ∧ (i ≠ MOD.PWM_LOAD_LO.SEL.reg) ∧ (i ≠ MOD.PWM_LOAD_HI.SEL.reg) ∧ (s.blk.slave = false ∨ i ∉ stackRegs)) ∧
    (let s : State := ⟨[], b1⟩; let p : Pkt := pk 4 0xFE (leBytes 3 0x130604 ++ [0] ++ leBytes 4 0xFFFFFFFF); let n : Fin 48 := 3; let i : Nat := 96; let d : RegDef := (axDefs[96]?).getD { addr := 0, reset := 0 }; (s.blk.takes p 0x11) ∧ (p.tgt = 0xFE) ∧ (8 ≤ p.body.length) ∧ (axDefs[i]? = some d) ∧ (u p.body 0 3 = axAddr n d.addr) ∧ (d.writer ≠ portPlane p.port)) ∧
    (let s : State := ⟨[], { bStack with casc := { bStack.casc with selfPos := 1 } }⟩; let p : Pkt := { pk 0 0xFE (leBytes 3 0x30000 ++ [0] ++ leBytes 4 0xFFFFFFFF) with dest := 0x41 }; let i : Nat := 24; let d : RegDef := (modDefs[24]?).getD { addr := 0, reset := 0 }; (s.blk.takes p 0x11) ∧ (p.tgt = 0xFE) ∧ (8 ≤ p.body.length) ∧ (s.blk.slave = true) ∧ (i ∈ stackRegs) ∧ (modDefs[i]? = some d) ∧ (u p.body 0 3 = d.addr)) := by
  unfold Blk.takes
  decide +kernel

theorem witness_RegisterBlocksTransfer :
    (let s : State := ⟨[], b1⟩; let p : Pkt := pk 0 0xFE (leBytes 3 0x1305FC ++ [9]); (s.blk.takes p 0x12) ∧ (p.tgt = 0xFE) ∧ (4 ≤ p.body.length) ∧ (u p.body 0 3 % 4 = 0) ∧ (1 ≤ u p.body 3 1) ∧ (u p.body 3 1 ≤ 253) ∧ (∀ k < u p.body 3 1, ∀ x ∈ runAddr (u p.body 0 3) k, locate x = .none ∨ ∃ n : Fin 48, ∃ i : Fin 131, locate x = .axis n i.val ∧ i.val ∉ [AX.SLC_DATA0.I.reg, AX.SLC_DATA0.I.reg + 1, AX.PWM_STAT.CNT.reg, AX.SLC_STAT.ILV.reg])) ∧
    (let s : State := ⟨[], b1⟩; let p : Pkt := pk 0 0xFE (leBytes 3 0x130604 ++ [4] ++ leBytes 4 0xFFFFFFFF ++ leBytes 4 1000 ++ leBytes 4 2000 ++ leBytes 4 3000); let n : Fin 48 := 3; (s.blk.takes p 0x13) ∧ (portPlane p.port = .ctrl) ∧ (p.tgt = 0xFE) ∧ (20 ≤ p.body.length) ∧ (u p.body 0 3 = axAddr n 0x604) ∧ (u p.body 3 1 = 4)) ∧
    (let s : State := ⟨[], b1⟩; let p : Pkt := pk 0 0xFE (leBytes 3 0x130604 ++ [0]); (s.blk.takes p 0x13) ∧ (p.tgt = 0xFE) ∧ (4 ≤ p.body.length) ∧ (u p.body 0 3 % 4 = 0) ∧ (u p.body 3 1 = 0 ∨ 253 < u p.body 3 1)) := by
  refine ⟨?_, ?_, ?_⟩ <;> unfold Blk.takes
  all_goals decide +kernel

theorem witness_UnlockAndLoadAll :
    (let h : Hdr := (pk 0 0xFE []).toHdr; let upper : BitVec 16 := 0; let s : State := ⟨[], b1⟩; (s.blk.fits h 0x11 = true) ∧ (h.tgt = 0xFE)) ∧
    (let h : Hdr := (pk 0 0xFE []).toHdr; let sel : BitVec 16 := 1; let s : State := ⟨[], b1.set MOD.PWM_LOAD_LO.SEL 0x18⟩; (s.blk.fits h 0x11 = true) ∧ (portPlane h.port = .ctrl) ∧ (h.tgt = 0xFE) ∧ (s.blk.bit MOD.PWM_LOAD_HI.LOAD_ALL = false)) := by
  decide +kernel

theorem witness_MailboxCaptures :
    (let h : Hdr := (pk 0 0xFE []).toHdr; let id : Word := 0x100301; let s : State := ⟨[], b1⟩; (s.blk.fits h 0x11 = true) ∧ (h.tgt = 0xFE)) ∧
    (let pl : Plane := .ctrl; let s : State := ⟨[], { b1 with planes := b1.planes.set 0 { b1.planes.get 0 with due := true, sel := 0x100301 } }⟩; ((s.blk.planes.get pl.idx).due = true)) ∧
    (let pl : Plane := .ctrl; let s : State := ⟨[], b1⟩; ((s.blk.planes.get pl.idx).due = false)) ∧
    (let p : Pkt := pk 0 0xFE ([2, 0, 0, 0] ++ leBytes 4 0x100301 ++ leBytes 4 1); let s : State := ⟨[], b1⟩; (s.blk.takes p 0x14) ∧ (p.tgt = 0xFE) ∧ (1 ≤ u p.body 0 1) ∧ (u p.body 0 1 ≤ 32) ∧ (4 + 4 * u p.body 0 1 ≤ p.body.length)) ∧
    (let p : Pkt := pk 0 0xFE [0, 0, 0, 0]; let s : State := ⟨[], b1⟩; (s.blk.takes p 0x14) ∧ (p.tgt = 0xFE) ∧ (1 ≤ p.body.length) ∧ (u p.body 0 1 = 0 ∨ 32 < u p.body 0 1)) := by
  unfold Blk.takes
  decide +kernel

theorem witness_AxisRequestRows :
    (let h : Hdr := (pk 0 0xFE []).toHdr; let n : Fin 48 := 3; let s : State := ⟨[], b1⟩; (s.blk.fits h 0x11 = true) ∧ (portPlane h.port = .ctrl) ∧ (h.tgt = 0xFE)) ∧
    (let h : Hdr := (pk 0 0xFE []).toHdr; let n : Fin 48 := 3; let req : BitVec 2 := 2; let dsrc : Bool := true; let s : State := ⟨[], b1⟩; (s.blk.fits h 0x11 = true) ∧ (portPlane h.port = .ctrl) ∧ (h.tgt = 0xFE)) ∧
    (let n : Fin 48 := 3; let k : Fin 2 := 1; let x : SingleIn := ⟨100, 740, ⟨0x765, 0x800⟩⟩; let r : Nat := 0; let s : State := ⟨[], b1.mapAx 3 fun a => { a.set AX.SLC_CFG.DSRC 1 with slc := a.slc.set 1 { single := some 0 } }⟩; (((s.blk.axis n).slc.get k).single = some r) ∧ (r ≤ x.reqAt8) ∧ ((s.blk.axis n).legs.phase ≠ .drain) ∧ (x.at8 = (s.blk.axis n).singleAt k x.reqAt8)) ∧
    (let n : Fin 48 := 3; let k : Fin 2 := 1; let x : SingleIn := ⟨100, 739, ⟨0x765, 0x800⟩⟩; let s : State := ⟨[], b1.mapAx 3 fun a => { a with slc := a.slc.set 1 { single := some 0 } }⟩; (((s.blk.axis n).slc.get k).single = none ∨ (s.blk.axis n).legs.phase = .drain ∨ x.at8 < x.reqAt8 + 640)) ∧
    (let h : Hdr := (pk 0 0xFE []).toHdr; let n : Fin 48 := 3; let k : Fin 2 := 1; let s : State := ⟨[], b1.mapAx 3 fun a => a.putData 1 1234 99⟩; (s.blk.fits h 0x10 = true) ∧ (h.tgt = 0xFE)) ∧
    (let h : Hdr := (pk 0 0xFE []).toHdr; let i : Fin 8 := 3; let s : State := ⟨[], { b1 with regs := b1.regs.set 60 0xC0001234 }⟩; (s.blk.fits h 0x10 = true) ∧ (h.tgt = 0xFE)) := by
  decide +kernel

theorem witness_EventWriteBackClears :
    (let h : Hdr := (pk 0 0xFE []).toHdr; let n : Fin 48 := 3; let k : Fin 6 := 1; let r : Nat := 26; let d : RegDef := (axDefs[26]?).getD { addr := 0, reset := 0 }; let v : Word := 0x05000003; let s : State := ⟨[], b1.mapAx 3 fun a => { a with regs := a.regs.set 26 0x07000007, stamps := a.stamps.set 1 ((Vector.replicate 24 0).set 0 6 |>.set 1 5) }⟩; (s.blk.fits h 0x11 = true) ∧ (portPlane h.port = .ctrl) ∧ (h.tgt = 0xFE) ∧ (axEvRegs[k.val]? = some r) ∧ (axDefs[r]? = some d) ∧ ((s.blk.axis n).foreign r = false)) ∧
    (let h : Hdr := (pk 0 0xFE []).toHdr; let k : Fin 16 := 0; let r : Nat := 6; let d : RegDef := (modDefs[6]?).getD { addr := 0, reset := 0 }; let v : Word := 0x05000003; let s : State := ⟨[], { b1 with regs := b1.regs.set 6 0x07000007, stamps := b1.stamps.set 0 ((Vector.replicate 24 0).set 0 6 |>.set 1 5) }⟩; (s.blk.fits h 0x11 = true) ∧ (h.tgt = 0xFE) ∧ (modEvRegs[k.val]? = some r) ∧ (modDefs[r]? = some d) ∧ (d.writer = portPlane h.port) ∧ (k = 0 ∨ k = 15 → s.blk.pw.straps.bench = true ∨ (((s.blk.regs[r]?).getD 0) ^^^ v) &&& ~~~ (BitVec.ofNat 32 d.rc) = 0)) := by
  decide +kernel

theorem witness_WindingMeasurement :
    (let h : Hdr := (pk 4 0xFE []).toHdr; let axis : BitVec 6 := 3; let pair : BitVec 2 := 2; let iTest : BitVec 16 := 5000; let s : State := ⟨[], b1⟩; (s.blk.fits h 0x11 = true) ∧ (portPlane h.port = .mgmt) ∧ (h.tgt = 0xFE)) ∧
    (let w : Winding := { axis := 3, pair := 0, mA := 500, volt := some 700000 }; let uV : Int := 700000; let node : Vector Int 2 := #v[0, 0]; let code : Vector (Nat × Nat) 2 := #v[(40000, 0), (40000, 0)]; let s : State := ⟨[], { b1 with meas := { b1.meas with rw := some { axis := 3, pair := 0, mA := 500, volt := some 700000 } } }⟩; (s.blk.meas.rw = some w) ∧ (w.volt = some uV)) ∧
    (let w : Winding := { axis := 3, pair := 0, mA := 500 }; let o : RwOut := .aborted; let s : State := ⟨[], { b1 with meas := { b1.meas with rw := some { axis := 3, pair := 0, mA := 500 } } }⟩; (s.blk.meas.rw = some w) ∧ (o = .notReached ∨ o = .aborted)) ∧
    (let node : Vector Int 2 := #v[0, 0]; let code : Vector (Nat × Nat) 2 := #v[(0, 0), (0, 0)]; let s : State := ⟨[], { b1 with meas := { b1.meas with rw := some { axis := 3, pair := 0, mA := 500 } } }⟩; (∀ w ∈ s.blk.meas.rw, w.volt = none)) := by
  decide +kernel

theorem witness_ManagementRegisterRows :
    (let h : Hdr := (pk 4 0xFE []).toHdr; let cfg : BitVec 26 := 1; let s : State := ⟨[], b1⟩; (s.blk.fits h 0x11 = true) ∧ (portPlane h.port = .mgmt) ∧ (h.tgt = 0xFE)) ∧
    (let h : Hdr := (pk 4 0xFE []).toHdr; let v : BitVec 3 := 3; let s : State := ⟨[], b1.mapSide .b fun x => { x with st := .out }⟩; (s.blk.fits h 0x11 = true) ∧ (portPlane h.port = .mgmt) ∧ (h.tgt = 0xFE)) ∧
    (let h : Hdr := (pk 4 0xFE []).toHdr; let s : State := ⟨[], { b1 with ledg := { b1.ledg with e := Vector.replicate 14 5 } }⟩; (s.blk.fits h 0x11 = true) ∧ (portPlane h.port = .mgmt) ∧ (h.tgt = 0xFE)) ∧
    (let h : Hdr := (pk 4 0xFE []).toHdr; let axis : BitVec 6 := 3; let s : State := ⟨[], b1.mapAx 3 fun a => { a with eOut := 5 }⟩; (s.blk.fits h 0x11 = true) ∧ (portPlane h.port = .mgmt) ∧ (h.tgt = 0xFE)) ∧
    (let h : Hdr := (pk 4 0xFE []).toHdr; let i : Fin 6 := 4; let v : Word := 0x004B500B; let s : State := ⟨[], b1⟩; (s.blk.fits h 0x11 = true) ∧ (portPlane h.port = .mgmt) ∧ (h.tgt = 0xFE)) ∧
    (let h : Hdr := (pk 4 0xFE []).toHdr; let i : Fin 6 := 2; let j : Fin 16 := 3; let second : Bool := true; let v : Word := 0x1234; let s : State := ⟨[], b1⟩; let r : Nat := 105 + 76 + 6; let d : RegDef := (modDefs[187]?).getD { addr := 0, reset := 0 }; (s.blk.fits h 0x11 = true) ∧ (portPlane h.port = .mgmt) ∧ (h.tgt = 0xFE) ∧ (r = (if second then MB.FLTB.SRC.reg else MB.FLTA.CLS.reg) + 38 * i.val + 2 * j.val) ∧ (modDefs[r]? = some d)) := by
  decide +kernel

theorem witness_AxisConfigSets :
    (let s : State := ⟨[], b1⟩; let p : Pkt := pk 0 9 ([1, 0, 0, 0, 0, 0, 0, 0] ++ leBytes 8 5 ++ leBytes 8 500); let n : Fin 48 := 9; let m : Motor := .stepper; (s.blk.takes p 0x20) ∧ (p.tgt.toNat = n.val) ∧ (24 ≤ p.body.length) ∧ (motorOf (u p.body 0 1) = some m) ∧ (sI p.body 8 8 ≤ sI p.body 16 8)) ∧
    (let s : State := ⟨[], b1⟩; let p : Pkt := pk 0 9 ([1, 0, 0, 0, 0, 0, 0, 0] ++ leBytes 8 500 ++ leBytes 8 5); let n : Fin 48 := 9; let m : Motor := .stepper; (s.blk.takes p 0x20) ∧ (p.tgt.toNat = n.val) ∧ (24 ≤ p.body.length) ∧ (motorOf (u p.body 0 1) = some m) ∧ (sI p.body 16 8 < sI p.body 8 8)) := by
  unfold Blk.takes
  decide +kernel

theorem witness_TablesLoad :
    (let s : State := ⟨[], b1⟩; let p : Pkt := pk 0 3 (leBytes 4 100 ++ leBytes 4 200 ++ leBytes 4 300 ++ leBytes 12 0); let n : Fin 48 := 3; (s.blk.takes p 0x21) ∧ (p.tgt.toNat = n.val) ∧ (24 ≤ p.body.length) ∧ (u p.body 0 4 ≠ 0) ∧ (u p.body 4 4 ≠ 0) ∧ (u p.body 8 4 ≠ 0)) ∧
    (let s : State := ⟨[], b1⟩; let p : Pkt := pk 0 3 ([0, 2, 0, 0, 0, 0, 0, 0] ++ leBytes 8 5 ++ leBytes 8 9 ++ leBytes 8 6 ++ leBytes 8 10); let n : Fin 48 := 3; let k : Nat := 2; (s.blk.takes p 0x22) ∧ (p.tgt.toNat = n.val) ∧ (8 ≤ p.body.length) ∧ (u p.body 0 1 = 0) ∧ (zoneEntries p.body true = .ok k)) ∧
    (let s : State := ⟨[], b1⟩; let p : Pkt := pk 0 3 ([1, 1, 0, 0, 0, 0, 0, 0] ++ leBytes 8 5 ++ leBytes 8 9); let n : Fin 48 := 3; let k : Nat := 1; (s.blk.takes p 0x22) ∧ (p.tgt.toNat = n.val) ∧ (8 ≤ p.body.length) ∧ (u p.body 0 1 = 1) ∧ (zoneEntries p.body false = .ok k)) ∧
    (let s : State := ⟨[], b1⟩; let p : Pkt := pk 0 3 ([2, 0, 0, 0, 0, 0, 0, 0] ++ List.replicate 512 7); let n : Fin 48 := 3; (s.blk.takes p 0x22) ∧ (p.tgt.toNat = n.val) ∧ (520 ≤ p.body.length) ∧ (u p.body 0 1 = 2) ∧ (u p.body 1 1 ≤ 1) ∧ (u p.body 1 1 = 1 → (s.blk.axis n).corrLoad ≠ []) ∧ ((s.blk.axis n).brushless = false)) := by
  unfold Blk.takes
  decide +kernel

theorem witness_MovesBecomeCandidates :
    (let c : Instr := .moveAbs (pk 0 3 ([0, 0, 0, 0] ++ leBytes 8 5000 ++ leBytes 20 0)); let s : State := ⟨[], b1⟩; let p : Pkt := pk 0 3 ([0, 0, 0, 0] ++ leBytes 8 5000 ++ leBytes 20 0); let opc : Nat := 0x30; let a : Ask := ⟨0, 0, [⟨3, .abs 5000, ⟨0, 0, 0, 0⟩, false⟩], none, 19⟩; (c.pkt? = some p) ∧ (c.opcode? = some opc) ∧ (opc ∈ [0x30, 0x31, 0x32, 0x33, 0x37, 0x38, 0x39, 0x3B]) ∧ (s.blk.takes p opc) ∧ (s.blk.ask opc p.tgt p.body = .ok a) ∧ (s.blk.askFault a = none)) ∧
    (let s : State := ⟨[], b1⟩; let p : Pkt := pk 0 3 ([0x30, 0, 0, 0, 0, 0, 0, 0] ++ [0, 0, 0, 0] ++ leBytes 8 5000 ++ leBytes 20 0); let opc : Nat := 0x30; let a : Ask := ⟨0, 0, [⟨3, .abs 5000, ⟨0, 0, 0, 0⟩, false⟩], none, 19⟩; (s.blk.takes p 0x53) ∧ (8 ≤ p.body.length) ∧ (opc = u p.body 0 1) ∧ (opc ∈ [0x30, 0x31, 0x32, 0x33, 0x37, 0x38, 0x39, 0x3B]) ∧ (s.blk.ask opc p.tgt (p.body.drop 8) = .ok a) ∧ (s.blk.askFault a = none)) ∧
    (let c : Instr := .moveAbs (pk 0 7 ([0, 0, 0, 0] ++ leBytes 8 5000 ++ leBytes 20 0)); let s : State := ⟨[], b1⟩; let p : Pkt := pk 0 7 ([0, 0, 0, 0] ++ leBytes 8 5000 ++ leBytes 20 0); let opc : Nat := 0x30; let a : Ask := ⟨0, 0, [⟨7, .abs 5000, ⟨0, 0, 0, 0⟩, false⟩], none, 23⟩; let st : Nat := 0x12; let x : List Byte := []; (c.pkt? = some p) ∧ (c.opcode? = some opc) ∧ (opc ∈ [0x30, 0x31, 0x32, 0x33, 0x37, 0x38, 0x39, 0x3B]) ∧ (s.blk.takes p opc) ∧ (s.blk.ask opc p.tgt p.body = .ok a) ∧ (s.blk.askFault a = some (st, x))) ∧
    (let c : Instr := .moveAbs (pk 0 3 []); let s : State := ⟨[], b1⟩; let p : Pkt := pk 0 3 []; let opc : Nat := 0x30; let st : Nat := 0x31; let x : List Byte := [0xFF]; (c.pkt? = some p) ∧ (c.opcode? = some opc) ∧ (opc ∈ [0x30, 0x31, 0x32, 0x33, 0x37, 0x38, 0x39, 0x3B]) ∧ (s.blk.takes p opc) ∧ (s.blk.ask opc p.tgt p.body = .error (st, x))) ∧
    (let b : Blk := b1; let opc : Nat := 0x31; let t : Byte := 3; let n : Fin 48 := 3; let bs : List Byte := [0, 1, 5, 0] ++ leBytes 8 5000 ++ leBytes 20 0; (opc ∈ [0x30, 0x31, 0x32]) ∧ (t.toNat = n.val) ∧ (32 ≤ bs.length) ∧ ((moveBlock opc bs).bad opc b.version = none)) := by
  unfold Blk.takes
  decide +kernel

theorem witness_HoldAndBrake :
    (let s : State := ⟨[], b1⟩; let p : Pkt := pk 0 3 []; let ns : List (Fin 48) := [3]; (s.blk.takes p 0x34) ∧ (s.blk.targets .many p.tgt = some ns)) ∧
    (let s : State := ⟨[], b1.mapAx 5 fun a => { a with mot := { a.mot with mode := .hold } }⟩; let p : Pkt := pk 0 5 []; let n : Fin 48 := 5; (s.blk.takes p 0x36) ∧ (p.tgt.toNat = n.val)) := by
  unfold Blk.takes
  decide +kernel

theorem witness_StopsAct :
    (let s : State := ⟨[], b1⟩; let p : Pkt := pk 0 3 []; let ns : List (Fin 48) := [3]; let q : Bool := true; (s.blk.takes p (if q then 0x41 else 0x40)) ∧ (s.blk.targets .many p.tgt = some ns)) ∧
    (let s : State := ⟨[], b1.mapAx 3 fun a => { a with mot := { a.mot with mode := .hold } }⟩; let p : Pkt := pk 0 3 []; let ns : List (Fin 48) := [3]; (s.blk.takes p 0x35) ∧ (s.blk.targets .many p.tgt = some ns)) ∧
    (let s : State := ⟨[], b1.mapAx 4 fun a => { a with mot := { a.mot with mode := .velocity, prof := { p := 0, v := 30, a := 0, segs := [] } } }⟩; let p : Pkt := pk 0 0xFE [0]; (s.blk.judged (Pkt.req p 0x42) = .go) ∧ (p.tgt = 0xFE ∨ p.tgt = 0xFF)) := by
  unfold Blk.takes
  decide +kernel

theorem witness_CamCommands :
    (let s : State := ⟨[], b1⟩; let p : Pkt := pk 0 0xFE ([2, 1, 0, 0, 2, 0, 0, 0] ++ [2, 0, 0, 0, 0, 0, 0, 0] ++ leBytes 4 1 ++ leBytes 4 1 ++ leBytes 4 2 ++ leBytes 4 2); let k : Fin 64 := 2; let tab : CamTable := ⟨2, 0, 0, 0, false, [none, none], false⟩; (s.blk.takes p 0x3A) ∧ (p.tgt = 0xFE) ∧ (8 ≤ p.body.length) ∧ (u p.body 0 1 = k.val) ∧ (u p.body 4 2 ≤ 125) ∧ ((if (u p.body 1 1).testBit 0 then 16 else 8) + 8 * u p.body 4 2 ≤ p.body.length) ∧ ((if (u p.body 1 1).testBit 0 then camDesc p.body else .ok (s.blk.cams.get k)) = .ok tab) ∧ (u p.body 2 2 + u p.body 4 2 ≤ tab.count)) ∧
    (let s : State := ⟨[], b1.mapAx 3 fun a => { a with mot := { a.mot with mode := .cam, engage := some ⟨.cam ⟨0, .cmd 4, 0, true, 0, none, 0, false⟩, 0, 0, 0, false, false, none⟩ } }⟩; let p : Pkt := pk 0 3 ([1, 2, 0, 0, 0, 0, 0, 0] ++ leBytes 8 500); let n : Fin 48 := 3; (s.blk.takes p 0x3C) ∧ (p.tgt.toNat = n.val) ∧ (16 ≤ p.body.length) ∧ (u p.body 0 1 ≤ 1)) := by
  unfold Blk.takes
  decide +kernel

theorem witness_BudgetSettingsStore :
    (let s : State := ⟨[], b1⟩; let p : Pkt := pk 0 0xFE ([0x10, 0x27, 0xFF, 0xFF, 100, 0, 0xFF, 0xFF, 0x90, 1, 0xFF, 0xFF, 0xFF, 0xFF, 0, 1, 3, 0, 0xFF, 0xFF, 1, 0, 1, 0, 5, 0]); (s.blk.takes p 0x50) ∧ (p.tgt = 0xFE) ∧ (26 ≤ p.body.length) ∧ (s.blk.slave = false)) ∧
    (let s : State := ⟨[], { bStack with casc := { bStack.casc with selfPos := 1 } }⟩; let p : Pkt := { pk 0 0xFE (List.replicate 26 1) with dest := 0x41 }; (s.blk.takes p 0x50) ∧ (p.tgt = 0xFE) ∧ (26 ≤ p.body.length) ∧ (s.blk.slave = true)) ∧
    (let s : State := ⟨[], { bStack with casc := { bStack.casc with selfPos := 1 } }⟩; let p : Pkt := { pk 0 0xFE [9, 0, 0, 0, 1, 2, 3, 4, 5, 6, 7, 8, 9, 10, 11, 12] with dest := 0x41 }; (s.blk.takes p 0x51) ∧ (p.tgt = 0xFE) ∧ (16 ≤ p.body.length)) := by
  unfold Blk.takes
  decide +kernel

theorem witness_DataPlaneReads :
    (let s : State := ⟨[], b1⟩; let p : Pkt := pk 2 0xFE ([2, 0, 0, 0] ++ leBytes 4 0x30001 ++ leBytes 4 0x130301); (s.blk.takes p 0x52) ∧ (p.tgt = 0xFE) ∧ (1 ≤ u p.body 0 1) ∧ (u p.body 0 1 ≤ 32) ∧ (4 + 4 * u p.body 0 1 ≤ p.body.length)) ∧
    (let s : State := ⟨[], { b1 with logs := b1.logs.set 0 { head := 3, tail := 1 } }⟩; let p : Pkt := pk 2 0xFE ([0, 0, 0, 0, 5]); (s.blk.takes p 0x62) ∧ (p.tgt = 0xFE) ∧ (5 ≤ p.body.length) ∧ (1 ≤ u p.body 4 1) ∧ (u p.body 4 1 ≤ 30)) ∧
    (let s : State := ⟨[], b1⟩; let p : Pkt := pk 4 0xFE ([0xFE, 1, 3, 0]); (s.blk.takes p 0x73) ∧ (p.tgt = 0xFE) ∧ (4 ≤ p.body.length) ∧ (1 ≤ u p.body 2 2) ∧ (u p.body 2 2 ≤ 252) ∧ (u p.body 0 2 + u p.body 2 2 ≤ 1024)) := by
  unfold Blk.takes
  decide +kernel

theorem witness_StreamsStartAndStop :
    (let s : State := ⟨[], b1⟩; let p : Pkt := pk 2 0xFE ([1, 0, 1, 0] ++ leBytes 6 0x38); let i : Fin 4 := 1; let x : Fin 6 := 2; (s.blk.takes p 0x60) ∧ (p.tgt = 0xFE) ∧ (10 ≤ p.body.length) ∧ (u p.body 0 1 = i.val) ∧ (u p.body 1 1 = 0) ∧ (1 ≤ u p.body 2 1) ∧ (u p.body 2 1 ≤ 250) ∧ (x = (if u p.body 3 1 = 0 then p.port else if u p.body 3 1 = 2 then 2 else 3)) ∧ (u p.body 3 1 ∈ [0, 2, 3])) ∧
    (let s : State := ⟨[], { b1 with streams := b1.streams.set 1 (some ⟨0, 1, 2, 0x10, 5, 2, 0⟩) }⟩; let p : Pkt := pk 3 0xFE [1]; let i : Fin 4 := 1; (s.blk.takes p 0x61) ∧ (p.tgt = 0xFE) ∧ (1 ≤ p.body.length) ∧ (u p.body 0 1 = i.val)) := by
  unfold Blk.takes
  decide +kernel

theorem witness_GrazeAndCalibrationStart :
    (let s : State := ⟨[], b1⟩; let p : Pkt := pk 4 0xFE ([0xFF, 0xFF, 0, 0, 2, 5]); (s.blk.takes p 0x70) ∧ (p.tgt = 0xFE) ∧ (6 ≤ p.body.length) ∧ (u p.body 4 1 = 0xFF ∨ u p.body 4 1 < 11) ∧ (u p.body 4 1 ≤ 5 → u p.body 5 1 < 48)) ∧
    (let s : State := ⟨[], b1⟩; let p : Pkt := pk 4 0xFE (leBytes 6 0x18); (s.blk.takes p 0x71) ∧ (p.tgt = 0xFE) ∧ (6 ≤ p.body.length) ∧ (s.blk.meas.calSelf = none) ∧ (s.blk.meas.calWrite = none) ∧ (∀ r ∈ s.blk.meas.rw, r.axis ∉ maskAxes (u p.body 0 6))) ∧
    (let s : State := ⟨[], { b1 with planes := b1.planes.set 2 { b1.planes.get 2 with armed := true } }⟩; let p : Pkt := pk 4 0xFE ([15, 0, 2, 0] ++ leBytes 4 0x8001 ++ leBytes 4 0x7FFF); (s.blk.takes p 0x72) ∧ (p.tgt = 0xFE) ∧ (1 ≤ u p.body 2 2) ∧ (u p.body 2 2 ≤ 253) ∧ (4 + 4 * u p.body 2 2 ≤ p.body.length) ∧ (u p.body 0 2 + u p.body 2 2 ≤ 1023) ∧ (∀ k, k < u p.body 2 2 → calGain (u p.body 0 2 + k) = true → u p.body (4 + 4 * k) 4 % 65536 ≠ 0) ∧ (∀ k, k < u p.body 2 2 → calStored (u p.body 0 2 + k) (BitVec.ofNat 32 (u p.body (4 + 4 * k) 4)) = calLookup (s.blk.meas.copies.get s.blk.meas.inUse).ent (u p.body 0 2 + k) ∨ ∀ n ∈ calAxis (u p.body 0 2 + k), (s.blk.axis n).mot.mode = .fallow) ∧ ((s.blk.planes.get 2).armed = true) ∧ (s.blk.meas.calSelf = none) ∧ (s.blk.meas.calWrite = none)) := by
  unfold Blk.takes
  decide +kernel

theorem witness_FirmwareLoads :
    (let s : State := ⟨[], b1⟩; let p : Pkt := pk 4 0xFE ([0, 0, 0, 0] ++ leBytes 4 1000); let sides : List Side := [.b]; let k : Fin 2 := 1; (s.blk.takes p 0x78) ∧ (p.tgt = 0xFE) ∧ (8 ≤ p.body.length) ∧ (u p.body 0 1 = 0) ∧ (u p.body 4 4 ≤ bankSize) ∧ (s.blk.fwTarget = some (sides, k))) ∧
    (let s : State := ⟨[], { b1 with fw := some ⟨[.b], 0, 1000, 3, #v[0, 1]⟩ }⟩; let p : Pkt := pk 4 0xFE ([1, 0, 0, 0] ++ leBytes 4 3 ++ [0xFF, 1, 2, 3]); let f : FwLoad := ⟨[.b], 0, 1000, 3, #v[0, 1]⟩; (MemInv s) ∧ (s.blk.takes p 0x78) ∧ (p.tgt = 0xFE) ∧ (8 ≤ p.body.length) ∧ (u p.body 0 1 = 1) ∧ (s.blk.fw = some f) ∧ (u p.body 4 4 = f.got) ∧ (f.got + ((p.body.drop 8).take 1008).length ≤ bankSize) ∧ (∀ d ∈ f.sides, f.got + ((p.body.drop 8).take 1008).length ≤ f.erased.get d.idx * 65536)) ∧
    (let s : State := ⟨[], { b1 with fw := some ⟨[.b], 0, 1000, 3, #v[0, 1]⟩ }⟩; let p : Pkt := pk 4 0xFE ([2, 0, 0, 0] ++ leBytes 4 3); let f : FwLoad := ⟨[.b], 0, 1000, 3, #v[0, 1]⟩; (s.blk.takes p 0x78) ∧ (p.tgt = 0xFE) ∧ (8 ≤ p.body.length) ∧ (u p.body 0 1 = 2) ∧ (s.blk.fw = some f)) ∧
    (let s : State := ⟨[], bSwap⟩; let p : Pkt := pk 4 0xFE []; let d : Side := .a; let im : Image := ⟨7, 1, 2, 1, 1, 0x10, 0x21⟩; let k : Fin 2 := 1; (s.blk.takes p 0x79) ∧ (p.tgt = 0xFE) ∧ (s.blk.act = some d) ∧ ((s.blk.side d.other).st = .standby) ∧ (k = (if (s.blk.side d.other).img.isNone then 0 else 1 - (s.blk.side d.other).bank)) ∧ ((bankRec (s.blk.smp d.other).mem).st.get k = 0) ∧ (imageAt (s.blk.smp d.other).mem k = some im) ∧ (s.blk.xver ≠ 0) ∧ (im.xmin ≤ s.blk.xver ∧ s.blk.xver ≤ im.xmax) ∧ (∀ z ∈ s.blk.sess, im.pmin ≤ z.version ∧ z.version ≤ im.pmax) ∧ (s.blk.stacked = true → im.lmin ≤ s.blk.casc.lver ∧ s.blk.casc.lver ≤ im.lmax) ∧ (s.blk.fw = none)) := by
  unfold Blk.takes MemInv
  decide +kernel

theorem witness_SideAndStackRequests :
    (let s : State := ⟨[], b1⟩; let p : Pkt := pk 4 0xFE []; (s.blk.takes p 0x7A) ∧ (p.tgt = 0xFE) ∧ (s.blk.switchReq = none)) ∧
    (let s : State := ⟨[], b1⟩; let p : Pkt := pk 4 0xFE []; (s.blk.takes p 0x7C) ∧ (p.tgt = 0xFE)) ∧
    (let s : State := ⟨[], bStack⟩; let p : Pkt := pk 4 0xFE ([0x41, 0, 0, 0, 0, 0, 0, 0] ++ [0x20, 5, 1, 0, 0x34, 3, 0, 0]); (s.blk.takes p 0x7D) ∧ (p.tgt = 0xFE) ∧ (16 ≤ p.body.length) ∧ (s.blk.master = true) ∧ (∃ m ∈ s.blk.casc.mods, m.heldOut = false ∧ m.addr = BitVec.ofNat 8 (u p.body 0 1) ∧ m.pos ≠ s.blk.casc.selfPos) ∧ (u p.body 1 1 ≤ 2) ∧ (u p.body 14 2 + 16 = p.body.length) ∧ (u p.body 14 2 ≤ 1000) ∧ (u p.body 12 1 ∉ [0x42, 0x02, 0x04, 0x7D])) := by
  unfold Blk.takes
  decide +kernel

theorem witness_PowerUpAndReady :
    (let s : State := State.reset; let x : PowerIn := ⟨48000, 0, 0, ⟨true, false, false⟩, true, true, true⟩; (x.supA ≤ 100000) ∧ (x.supB ≤ 100000) ∧ (x.aux ≤ 36000) ∧ (s.blk.pw.powered = false ∨ s.blk.phase = 0)) ∧
    (let s : State := State.reset; let x : ReadyIn := ⟨true, true, Vector.replicate 2 (Vector.replicate 8 0x20BA19)⟩; (s.blk.pw.powered = true) ∧ (s.blk.pw.held = false) ∧ (s.blk.pw.resetDue = none) ∧ (s.blk.phase ≠ 1 ∧ s.blk.phase ≠ 4) ∧ (∀ i : Fin 2, (s.blk.sm.get i).lost < 4) ∧ (∀ i : Fin 2, ∀ c ∈ (s.blk.sm.get i).mem, 2 ^ 32 ≤ c.1)) ∧
    (let s : State := ⟨[], b1.mapAx 3 fun a => { a with nvPending := true, legs := { a.legs with fail := 2 } }⟩; (s.blk.pw.powered = true) ∧ (s.blk.pw.auxMv < 18000)) ∧
    (let s : State := ⟨[], { b1 with pw := { b1.pw with auxMv := 18000 } }⟩; (18000 ≤ s.blk.pw.auxMv)) := by
  decide +kernel

theorem witness_SafeTorqueOff :
    (let s : State := ⟨[], b1.mapAx 3 fun a => { a with mot := { a.mot with mode := .velocity } }⟩; let a : Bool := true; let b : Bool := false; (a = true ∨ b = true)) ∧
    (let s : State := ⟨[], { b1 with regs := b1.regs.set 6 0xFF000101, pw := { b1.pw with stoA := false } }⟩; (s.blk.pw.stoA ≠ s.blk.pw.stoB)) ∧
    (let s : State := ⟨[], b1.mapAx 3 fun a => { a with force := AX.TRIP_CFG.EXT_EN.put a.force 1 }⟩; let high : Bool := false; let cyc : Nat := 1000; let seen : Bool := true; (s.blk.pw.ext ≠ high)) := by
  decide +kernel

theorem witness_SuppliesChange :
    (let s : State := ⟨[], b1⟩; let i : Input := .b; let mV : Nat := 76001; (mV ≤ 100000)) ∧
    (let s : State := ⟨[], { b1 with plan := { b1.plan with budget := b1.plan.budget.set 4 1 } }⟩; let i : Input := .a; let mV : Nat := 33000; (mV ≤ 100000)) ∧
    (let s : State := ⟨[], b1⟩; let i : Input := .b; let mV : Nat := 33000; (mV ≤ 100000)) ∧
    (let s : State := ⟨[], b1⟩; let mV : Nat := 36000; (mV ≤ 36000)) := by
  decide +kernel

theorem witness_PeriodBoundaryTakesValues :
    (let s : State := ⟨[], bHold⟩; let n : Fin 48 := 3; let x : BoundaryIn := xb; (s.blk.pw.powered = true) ∧ (s.blk.pw.held = false) ∧ (s.blk.nap ≠ .napping)) := by
  decide +kernel

theorem witness_LegFaultsAreHandled :
    (let s : State := ⟨[], { bHold with pw := { bHold.pw with gd := false } }⟩; let n : Fin 48 := 3; let leg : Fin 5 := 2; (s.blk.pw.gd = false)) ∧
    (let s : State := ⟨[], bHold⟩; let n : Fin 48 := 3; let leg : Fin 5 := 2; (s.blk.pw.gd = true)) := by
  decide +kernel

theorem witness_SubstitutionRuns :
    (let s : State := ⟨[], bHold.mapAx 3 fun a => { a with pwm := { a.pwm with halted := true }, legs := { a.legs with phase := .tapWait 2 } }⟩; let n : Fin 48 := 3; ((s.blk.axis n).pwm.halted = true)) ∧
    (let s : State := ⟨[], bHold.mapAx 3 fun a => { a with pwm := { a.pwm with cmd := Vector.replicate 4 (.complementary 9000) }, legs := { a.legs with phase := .tapWait 1 } }⟩; let n : Fin 48 := 3; let k : Fin 4 := 1; ((s.blk.axis n).legs.phase = .tapWait k) ∧ ((s.blk.axis n).pwm.halted = false)) ∧
    (let s : State := ⟨[], bHold.mapAx 3 fun a => { a with legs := { a.legs with phase := .tapWait 2 } }⟩; let n : Fin 48 := 3; let k : Fin 4 := 2; ((s.blk.axis n).legs.phase = .isoWait k ∨ (s.blk.axis n).legs.phase = .tapWait k) ∧ ((s.blk.axis n).pwm.halted = false)) ∧
    (let s : State := ⟨[], b1.mapAx 3 fun a => { a with legs := { a.legs with phase := .drain, iso := 0xF } }⟩; let n : Fin 48 := 3; let x : DrainIn := ⟨3, Vector.replicate 4 0x800, false⟩; (x.cell = n) ∧ ((s.blk.axis n).legs.phase = .drain) ∧ (x.expired = true ∨ ∀ r : Fin 4, Rat.abs' ((s.blk.axis n).drainCurrent (s.blk.cellCal n) x.codes r) < 1000)) ∧
    (let s : State := ⟨[], b1.mapAx 3 fun a => { a with legs := { a.legs with phase := .drain, iso := 0xF } }⟩; let n : Fin 48 := 3; let x : DrainIn := ⟨3, Vector.replicate 4 0xFFF, false⟩; let r : Fin 4 := 2; (x.cell = n) ∧ (x.expired = false) ∧ (1000 ≤ Rat.abs' ((s.blk.axis n).drainCurrent (s.blk.cellCal n) x.codes r))) ∧
    (let s : State := ⟨[], b1.mapAx 3 fun a => { a with legs := { a.legs with phase := .lost, checking := true } }⟩; let n : Fin 48 := 3; let x : LegCheck := ⟨0x1F, 0xF, 0xF⟩; let bad : Bool := false; let miss : List (Fin 4) := []; ((s.blk.axis n).legs.checking = true) ∧ ((s.blk.axis n).legs.phase = .lost) ∧ (bad = !(x.legs.getLsbD 4 && x.tap = 0xF)) ∧ (miss = (s.blk.axis n).roles.filter fun k => !(x.legs.getLsbD k.val) || !(x.iso.getLsbD k.val))) := by
  decide +kernel

theorem witness_MotionTickMoves :
    (let s : State := ⟨[], b1.mapAx 3 fun a => { a with mot := { a.mot with mode := .position, prof := { segs := [⟨2, 3, 0, 2, 1⟩] } } }⟩; let x : TickIn := ⟨[], 1000, []⟩; let n : Fin 48 := 3; (s.blk.running = true) ∧ ((s.blk.axis n).motor ≠ Motor.none) ∧ ((s.blk.axis n).mot.engage = none) ∧ ((s.blk.axis n).mot.group = none) ∧ ((s.blk.axis n).starting = false) ∧ ((s.blk.axis n).mot.mode = .position) ∧ ((s.blk.axis n).mot.prof.segs ≠ [])) ∧
    (let s : State := ⟨[], b1.mapAx 3 fun a => { a with mot := { a.mot with mode := .stopping, prof := { v := 4, segs := [⟨1, -4, 0, 0, 9⟩] } } }⟩; let x : TickIn := ⟨[], 1000, []⟩; let n : Fin 48 := 3; (s.blk.running = true) ∧ ((s.blk.axis n).motor ≠ Motor.none) ∧ ((s.blk.axis n).mot.engage = none) ∧ ((s.blk.axis n).mot.mode = .stopping) ∧ ((s.blk.axis n).bl.start = .none) ∧ ((s.blk.axis n).bl.brake = .none) ∧ ((s.blk.axis n).mot.group = none)) := by
  decide +kernel

theorem witness_MovesStart :
    (let s : State := ⟨[], ({ b1 with swath := 7, tick := 1 }).mapAx 3 fun a => { a with mot := { a.mot with waiting := some ⟨⟨.vel 500 false, ⟨600, 10, 10, 0⟩, ⟨0, 0, 0, 0⟩, 64, 9, .ctrl, none, 0, false⟩, 7, 0, false, 0⟩ } }⟩; let n : Fin 48 := 3; let w : Waiting := ⟨⟨.vel 500 false, ⟨600, 10, 10, 0⟩, ⟨0, 0, 0, 0⟩, 64, 9, .ctrl, none, 0, false⟩, 7, 0, false, 0⟩; ((s.blk.axis n).mot.waiting = some w) ∧ (w.queued = false) ∧ (s.blk.startsNow w)) ∧
    (let s : State := ⟨[], ({ b1 with swath := 7, tick := 4 }).mapAx 3 fun a => { a with mot := { a.mot with waiting := some ⟨⟨.rel 5000, ⟨600, 10, 10, 0⟩, ⟨0, 0, 0, 0⟩, 64, 9, .ctrl, none, 0, false⟩, 7, 3, true, 0⟩ } }⟩; let n : Fin 48 := 3; let w : Waiting := ⟨⟨.rel 5000, ⟨600, 10, 10, 0⟩, ⟨0, 0, 0, 0⟩, 64, 9, .ctrl, none, 0, false⟩, 7, 3, true, 0⟩; ((s.blk.axis n).mot.waiting = some w) ∧ (w.queued = true) ∧ (s.blk.startsNow w)) ∧
    (let s : State := ⟨[], b1⟩; let n : Fin 48 := 3; (∀ w ∈ (s.blk.axis n).mot.waiting, w.queued = true ∨ ¬ s.blk.startsNow w)) ∧
    (let s : State := ⟨[], b1⟩; let n : Fin 48 := 3; (∀ w ∈ (s.blk.axis n).mot.waiting, w.queued = false ∨ ¬ s.blk.startsNow w)) := by
  unfold Blk.startsNow
  decide +kernel

theorem witness_RunsEndByEvents :
    (let s : State := ⟨[], bHold.mapAx 3 fun a => { a with reg := { a.reg with rest := .ceiling 0 } }⟩; let n : Fin 48 := 3; let late : Bool := true; ((s.blk.axis n).stepper = true) ∧ ((s.blk.axis n).mot.mode = .hold) ∧ ((s.blk.axis n).reg.rest = .ceiling 0)) ∧
    (let s : State := ⟨[], b1⟩; let n : Fin 48 := 3; let late : Bool := true; ((s.blk.axis n).stepper = false ∨ (s.blk.axis n).mot.mode ≠ .hold ∨ (s.blk.axis n).reg.rest ≠ .ceiling 0)) ∧
    (let s : State := ⟨[], b1.mapAx 3 fun a => { (a.set AX.OBST_CFG.OBST_ACT 3).setB AX.OBST_CFG.OBST_EN true with mot := { a.mot with mode := .velocity }, reg := { a.reg with obstN := 200 } }⟩; let n : Fin 48 := 3; ((s.blk.axis n).motor ≠ Motor.none) ∧ ((s.blk.axis n).mot.mode.running = true) ∧ ((s.blk.axis n).homing = false) ∧ ((s.blk.axis n).bl.brake ≠ .locked) ∧ ((s.blk.axis n).obstacleDue = true) ∧ ((s.blk.axis n).stallDue = false) ∧ ((s.blk.axis n).lockDue = false)) ∧
    (let s : State := ⟨[], b1.mapAx 3 fun a => { a.setB AX.OBST_CFG.OBST_EN true with mot := { a.mot with mode := .velocity } }⟩; let n : Fin 48 := 3; ((s.blk.axis n).obstacleDue = false)) ∧
    (let s : State := ⟨[], b1.mapAx 3 fun a => { (((a.set AX.OBST_CFG.OBST_ACT 1).setB AX.OBST_CFG.OBST_EN true).setB AX.ST_STAT.LA_VALID true) with mot := { a.mot with mode := .velocity }, reg := { a.reg with obstN := 200, stallN := 300 } }⟩; let n : Fin 48 := 3; ((s.blk.axis n).obstacleDue = true) ∧ ((s.blk.axis n).homing = false) ∧ ((s.blk.axis n).stallDue = true)) ∧
    (let s : State := ⟨[], b1.mapAx 5 fun a => { a.setB AX.BL_OBST.OBST_EN true with mot := { a.mot with mode := .park }, bl := { a.bl with brake := .locked }, reg := { a.reg with obstN := 300 } }⟩; let n : Fin 48 := 5; ((s.blk.axis n).brushless = true) ∧ ((s.blk.axis n).bl.brake = .locked) ∧ ((s.blk.axis n).homing = false) ∧ ((s.blk.axis n).obstacleDue = true)) := by
  decide +kernel

theorem witness_StepEdgeWindow :
    (let s : State := ⟨[], b1.mapAx 3 fun a => { a with mot := { a.mot with mode := .followStep, lastStep := some 100 } }⟩; let n : Fin 48 := 3; let x : StepIn := ⟨149, true, some true⟩; let u : Nat := 100; ((s.blk.axis n).mot.mode = .followStep) ∧ ((s.blk.axis n).activeEdge x.rising = true) ∧ ((s.blk.axis n).mot.lastStep = some u) ∧ (u ≤ x.at200) ∧ (x.at200 < u + 50)) ∧
    (let s : State := ⟨[], b1.mapAx 3 fun a => { a with mot := { a.mot with mode := .followStep, lastStep := some 100 } }⟩; let n : Fin 48 := 3; let x : StepIn := ⟨150, true, some true⟩; ((s.blk.axis n).mot.mode = .followStep) ∧ ((s.blk.axis n).activeEdge x.rising = true) ∧ (∀ u ∈ (s.blk.axis n).mot.lastStep, u + 50 ≤ x.at200)) := by
  decide +kernel

theorem witness_InputsAct :
    (let s : State := ⟨[], b1.mapAx 3 fun a => { a.set AX.STEP_CFG.STEP_RES 0 with mot := { a.mot with mode := .followStep, lastStep := some 100 } }⟩; let n : Fin 48 := 3; let x : StepIn := ⟨150, true, some true⟩; let dir : Bool := true; let d : Int := 4194304; ((s.blk.axis n).stepper = true) ∧ ((s.blk.axis n).mot.mode = .followStep) ∧ ((s.blk.axis n).activeEdge x.rising = true) ∧ (∀ u ∈ (s.blk.axis n).mot.lastStep, u + 50 ≤ x.at200) ∧ (dir = x.dir.getD (Config.freeBool s.blk.fresh)) ∧ (d = if dir = (s.blk.axis n).b AX.STEP_CFG.DIR_INV then -(2 ^ (22 - (s.blk.axis n).r AX.STEP_CFG.STEP_RES)) else 2 ^ (22 - (s.blk.axis n).r AX.STEP_CFG.STEP_RES))) ∧
    (let s : State := ⟨[], bHold⟩; let n : Fin 48 := 5; let x : HallIn := ⟨true, false, false, 100000⟩; let cyc : Nat := 700; let code : BitVec 3 := 1; (code = BitVec.ofNat 3 (4 * Bool.bit x.h3 + 2 * Bool.bit x.h2 + Bool.bit x.h1))) := by
  decide +kernel

theorem witness_SensorlessStartRuns :
    (let s : State := ⟨[], b1.mapAx 5 fun a => { a with bl := { a.bl with start := .observe }, mot := { a.mot with mode := .position } }⟩; let n : Fin 48 := 5; let x : CatchIn := ⟨true, 0, 0⟩; ((s.blk.axis n).bl.start = .observe) ∧ ((s.blk.axis n).mot.mode ≠ .stopping) ∧ ((s.blk.axis n).restSrc ≠ .halls) ∧ (x.rest = true ∨ x.speed.natAbs < (s.blk.axis n).r AX.BL_SPEED.V_BEMF * 16)) ∧
    (let s : State := ⟨[], b1⟩; let n : Fin 48 := 5; let x : CatchIn := ⟨true, 0, 0⟩; ((s.blk.axis n).bl.start ≠ .observe) ∧ (∀ stopped toRest : Bool, (s.blk.axis n).bl.brake = .catching stopped toRest → toRest = true ∧ x.rest = false)) ∧
    (let s : State := ⟨[], b1.mapAx 5 fun a => { a with bl := { a.bl with start := .testPulses 1 9 [] } }⟩; let n : Fin 48 := 5; let peaks : Vector Int 12 := Vector.replicate 12 500; let k : Nat := 1; let len : Nat := 9; let seq : List TestPulse := []; ((s.blk.axis n).bl.start = .testPulses k len seq)) ∧
    (let s : State := ⟨[], b1.mapAx 5 fun a => { a with bl := { a.bl with start := .initAngle 1 9 (Vector.replicate 12 500) } }⟩; let n : Fin 48 := 5; let k : Nat := 1; let len : Nat := 9; let p : Vector Int 12 := Vector.replicate 12 500; ((s.blk.axis n).bl.start = .initAngle k len p)) ∧
    (let s : State := ⟨[], bHold.mapAx 5 fun a => { a with bl := { a.bl with brake := .park, sector := some 2, omega := 10000000 } }⟩; let n : Fin 48 := 5; ((s.blk.axis n).stillTurns = true)) ∧
    (let s : State := ⟨[], bHold.mapAx 5 fun a => { a with bl := { a.bl with brake := .park, quiet := 20000000 } }⟩; let n : Fin 48 := 5; ((s.blk.axis n).stillTurns = false)) := by
  decide +kernel

theorem witness_MastersAndCamsAct :
    (let s : State := ⟨[], b1⟩; let n : Fin 48 := 3; ((s.blk.axis n).mot.camWait = none)) ∧
    (let s : State := ⟨[], b1.mapAx 3 fun a => { a with mot := { a.mot with mode := .hold, camWait := some (⟨2, .cmd 4, 0, false, 0, some (0, true), 0, false⟩, 4, .ctrl) } }⟩; let n : Fin 48 := 3; let cp : CamP := ⟨2, .cmd 4, 0, false, 0, some (0, true), 0, false⟩; let seq : Nat := 4; let pl : Plane := .ctrl; let m : Int := 0; let x : Int × Bool := (0, true); ((s.blk.axis n).mot.camWait = some (cp, seq, pl)) ∧ (s.blk.masters cp.master = some m) ∧ (cp.startAt = some x)) ∧
    (let s : State := ⟨[], b1.mapAx 3 fun a => { a with mot := { a.mot with mode := .gear, engage := some ⟨.gear (.cmd 4) 1 1 0, 0, 0, 0, true, false, some (0, false)⟩ } }⟩; let n : Fin 48 := 3; let e : Engage := ⟨.gear (.cmd 4) 1 1 0, 0, 0, 0, true, false, some (0, false)⟩; let r : MasterRef := .cmd 4; let m : Int := 0; let x : Int × Bool := (0, false); ((s.blk.axis n).mot.engage = some e) ∧ ((s.blk.axis n).master = some r) ∧ (s.blk.masters r = some m) ∧ (e.offAt = some x)) := by
  decide +kernel

theorem witness_PlannerEventsAct :
    (let s : State := ⟨[], b1⟩; (s.blk.running = true)) ∧
    (let s : State := ⟨[], { b1 with nap := .napping }⟩; (s.blk.running = false)) ∧
    (let s : State := ⟨[], b1.mapAx 4 fun a => { a.set AX.AX_SUPV.AGE 50 with mot := { a.mot with mode := .velocity, prof := { p := 0, v := 30, a := 0, segs := [] } } }⟩; let n : Fin 48 := 4; (50 ≤ (s.blk.axis n).r AX.AX_SUPV.AGE)) ∧
    (let s : State := ⟨[], bHold.mapAx 3 fun a => a.set AX.AX_SUPV.AGE 49⟩; let n : Fin 48 := 3; ((s.blk.axis n).r AX.AX_SUPV.AGE < 50)) ∧
    (let s : State := ⟨[], { (b1.mapAx 3 fun a => { a with mot := { a.mot with waiting := some ⟨⟨.vel 500 false, ⟨600, 10, 10, 0⟩, ⟨0, 0, 0, 0⟩, 64, 9, .ctrl, none, 0, false⟩, 7, 0, false, 0⟩ } }) with pw := { b1.pw with supMv := #v[32999, 0] } }⟩; (s.blk.running = true) ∧ (s.blk.reserveOp = false) ∧ (s.blk.supOk 0 = false) ∧ (s.blk.supOk 1 = false)) ∧
    (let s : State := ⟨[], b1⟩; (s.blk.running = false ∨ s.blk.reserveOp = true ∨ s.blk.supOk 0 = true ∨ s.blk.supOk 1 = true)) ∧
    (let s : State := ⟨[], b1.setB LEDG.STAT.RES_OP true⟩; let i : Fin 2 := 0; (s.blk.reserveOp = true) ∧ (36000 ≤ s.blk.pw.supMv.get i) ∧ (s.blk.pw.ovBlock.get i = false)) ∧
    (let s : State := ⟨[], { b1.setB LEDG.STAT.RES_OP true with pw := { b1.pw with supMv := #v[35999, 0] } }⟩; (s.blk.reserveOp = false ∨ ∀ i : Fin 2, s.blk.pw.supMv.get i < 36000 ∨ s.blk.pw.ovBlock.get i = true)) := by
  decide +kernel

theorem witness_MeasurementRuns :
    (let s : State := ⟨[], { b1 with meas := { b1.meas with bgRun := true } }⟩; let k : Fin 8 := 0; let i : Nat := 0; (s.blk.running = true) ∧ (s.blk.meas.bgRun = true) ∧ ((s.blk.spareRec k).use = 0) ∧ ((s.blk.spareRec k).fail = false) ∧ ((s.blk.spareRec k).recheck = false) ∧ (s.blk.spareBusy (s.blk.spareRec k) = false) ∧ (s.blk.ax.any (fun a => a.slc.any (fun x => x.waits)) = false) ∧ (((List.range 104).map fun d => (s.blk.meas.bgPos + d) % 104).find? (fun j => (s.blk.bgItem k j).isSome) = some i)) ∧
    (let s : State := ⟨[], b1.mapAx 3 fun a => { a with slc := a.slc.set 1 { direct := true } }⟩; let id : SliceId := .axis 3 1; let x : CalMeas := ⟨32768, 57344, 8192⟩; let n : Fin 48 := 3; let sl : Fin 2 := 1; (s.blk.calRunning id = true) ∧ (s.blk.calTarget id = .axis n sl)) ∧
    (let s : State := ⟨[], b1.mapSpare 2 fun y => { y with item := some (.spare 2) }⟩; let id : SliceId := .spare 2; let x : CalMeas := ⟨32768, 57344, 8192⟩; let k : Fin 8 := 2; (s.blk.calRunning id = true) ∧ (s.blk.calTarget id = .spare k)) ∧
    (let s : State := ⟨[], bHold⟩; let n : Fin 48 := 3; let k : Fin 2 := 1; (((s.blk.axis n).r AX.SLC_STAT.SUB).testBit k.val = false)) ∧
    (let s : State := ⟨[], bHold.mapAx 3 fun a => (a.set AX.SLC_STAT.SUB 2).set AX.SLC_STAT.SP1 5⟩; let n : Fin 48 := 3; let k : Fin 2 := 1; let j : Fin 8 := 5; (((s.blk.axis n).r AX.SLC_STAT.SUB).testBit k.val = true) ∧ ((s.blk.axis n).r (if k = 0 then AX.SLC_STAT.SP0 else AX.SLC_STAT.SP1) = j.val)) := by
  decide +kernel

theorem witness_GrazeAndLifeRun :
    (let s : State := ⟨[], ((b1.mapAx 0 fun a => { a with mot := { a.mot with mode := .fallow } }).setB GRAZE.CTRL.EN true).set GRAZE.CTRL.ITEMS 0x7FF⟩; let x : GrazeRes := ⟨0, some 0, false, 0x3FF, 0xF, 0xF, 0x1F, 3, Vector.replicate 5 0, 0, 0, true, 0, 0, 0, Vector.replicate 8 0xEF4018⟩; (x.done = false) ∧ (s.blk.yieldDue = false)) ∧
    (let s : State := ⟨[], { b1.setB GRAZE.CTRL.EN true with ax := b1.ax.map (fun a => { a with mot := { a.mot with mode := .fallow } }), graze := { b1.graze with run := some (6, none) } }⟩; let x : GrazeRes := ⟨6, none, true, 0x3FF, 0xF, 0xF, 0x1F, 3, Vector.replicate 5 0, 959, 0, true, 0, 0, 0, Vector.replicate 8 0xEF4018⟩; (x.done = true) ∧ (x.axis = none) ∧ (s.blk.yieldDue = false) ∧ (s.blk.grazeMay = true) ∧ (s.blk.graze.run = some (x.item, none)) ∧ (s.blk.grazeFree (x.item, none) = true) ∧ (noDevice (x.ids.get 0) = false)) ∧
    (let s : State := ⟨[], { b1.setB GRAZE.CTRL.EN true with graze := { b1.graze with run := some (0, some 3) } }⟩; let x : GrazeRes := ⟨0, some 3, true, 0x3FF, 0xF, 0xF, 0x1F, 3, Vector.replicate 5 0, 959, 0, true, 0, 0, 0, Vector.replicate 8 0xEF4018⟩; let n : Fin 48 := 3; (x.done = true) ∧ (x.axis = some n) ∧ (x.item = 0) ∧ (s.blk.yieldDue = false) ∧ (s.blk.grazeMay = true) ∧ (s.blk.graze.run = some (0, some n)) ∧ (s.blk.grazeFree (0, some n) = true)) := by
  decide +kernel

theorem witness_ClocksAndNapAct :
    (let s : State := ⟨[], { b1 with nap := .napping }⟩; let srcs : List WakeSrc := [.sck0, .ext, .sto]; let c : Nat := 3; let p : Nat := 0; (s.blk.wakeFirst srcs = some (c, p))) ∧
    (let s : State := ⟨[], { b1 with nap := .napping }⟩; let srcs : List WakeSrc := [.timer]; (s.blk.wakeFirst srcs = none)) := by
  decide +kernel

theorem witness_BusPortsCarry :
    (let s : State := ⟨[], { ((b1.set (MB.FLTA.EN.port 0) 1).set (MB.FLTA.CLS.port 0) 0xFF).set (MB.FLTA.HIGH.port 0) 0 with rx := { ports := (Vector.replicate 6 {}).set 0 { queue := List.replicate 32 { port := 0, id := 0, ext := true, fd := true, rtr := false, brs := true, early := false, data := [], endUs := 7 } } } }⟩; let f : Frame := { port := 0, id := BitVec.ofNat 29 (2 ^ 26 + 0x40 * 2 ^ 18 + 0x10 * 2 ^ 10 + 33), ext := true, fd := true, rtr := false, brs := true, early := false, data := [], endUs := 7 }; let high : Bool := false; (f.ext = true) ∧ (f.rtr = false) ∧ (s.blk.listening f.port = true) ∧ (s.blk.nap = .awake) ∧ (s.blk.accepts f = some high)) ∧
    (let s : State := ⟨[], b1⟩; let port : Fin 6 := 0; let won : Bool := true; (s.blk.sending port = true) ∧ (s.blk.nap ≠ .waking) ∧ (s.blk.outside = false) ∧ ((s.blk.atIdle port).offered port = none)) ∧
    (let s : State := ⟨[], b1.send 0 { cls := 1, dest := 0x10, src := 0x40, major := 2, async := false, reply := true, sid := 5, seq := 1, opc := 1, tgt := 0, body := List.replicate 60 0 }⟩; let port : Fin 6 := 0; let i : Fin 3 := 0; let c : TxCur := ⟨{ cls := 1, dest := 0x10, src := 0x40, major := 2, async := false, reply := true, sid := 5, seq := 1, opc := 1, tgt := 0, body := List.replicate 60 0 }, 0, 0, false⟩; (s.blk.sending port = true) ∧ (s.blk.nap ≠ .waking) ∧ (s.blk.outside = false) ∧ ((s.blk.atIdle port).offered port = some i) ∧ ((((s.blk.atIdle port).ports.get port).tx.get i).cur = some c)) ∧
    (let s : State := ⟨[], b1.send 0 { cls := 1, dest := 0x10, src := 0x40, major := 2, async := false, reply := true, sid := 5, seq := 1, opc := 1, tgt := 0, body := List.replicate 60 0 }⟩; let port : Fin 6 := 0; let i : Fin 3 := 0; (s.blk.sending port = true) ∧ (s.blk.nap ≠ .waking) ∧ (s.blk.outside = false) ∧ ((s.blk.atIdle port).offered port = some i)) ∧
    (let s : State := ⟨[], { b1 with ports := b1.ports.set 0 { b1.ports.get 0 with timingNext := some (0x12, none) } }⟩; let port : Fin 6 := 0; let i : Fin 6 := 1; let w : Word := 0x12; let r : Option (BitVec 16) := none; ((s.blk.ports.get port).timingNext = some (w, r))) := by
  decide +kernel

theorem witness_StackRuns :
    (let s : State := ⟨[], bStack⟩; let x : CascIn := { num := 1, swath := 9, ofs := 0, errA := 3, errB := 0, heard := [0x41], wraps := [], noSync := [], asks := [(3, 0)], frame0 := none, remote := [], summaries := [], shares := [], replies := [], inners := [], events := [], stopAll := none }; (x.stopAll = none) ∧ (x.inners = []) ∧ (x.frame0 = none) ∧ (x.num ≠ 0)) ∧
    (let s : State := ⟨[], { bStack with casc := { bStack.casc with selfPos := 1 }, sess := none }⟩; let f : Frame0 := { sid := 5, owner := 0x10, open_ := true, orphan := false, tmo := 500, keyCrc := 0, base := 7, l := #v[1, 2, 3], budget := [9, 8, 7, 6, 1, 5, 4], margin := 16 }; let x : CascIn := { num := 0, swath := 9, ofs := 0, errA := 3, errB := 0, heard := [0x41], wraps := [], noSync := [], asks := [], frame0 := some { sid := 5, owner := 0x10, open_ := true, orphan := false, tmo := 500, keyCrc := 0, base := 7, l := #v[1, 2, 3], budget := [9, 8, 7, 6, 1, 5, 4], margin := 16 }, remote := [], summaries := [], shares := [], replies := [], inners := [], events := [], stopAll := none }; (s.blk.cascOn = true) ∧ (s.blk.slave = true) ∧ (s.blk.sess = none) ∧ (x.stopAll = none) ∧ (x.inners = []) ∧ (x.events = []) ∧ (x.replies = []) ∧ (x.num = 0) ∧ (x.frame0 = some f)) ∧
    (let s : State := ⟨[], { bStack with casc := { bStack.casc with selfPos := 1 }, sess := none }⟩; let x : CascIn := { num := 3, swath := 9, ofs := 0, errA := 3, errB := 0, heard := [0x41], wraps := [], noSync := [], asks := [], frame0 := some { sid := 5, owner := 0x10, open_ := true, orphan := false, tmo := 500, keyCrc := 0, base := 7, l := #v[1, 2, 3], budget := [9, 8, 7, 6, 1, 5, 4], margin := 16 }, remote := [], summaries := [], shares := [], replies := [], inners := [], events := [], stopAll := none }; let f : Frame0 := { sid := 5, owner := 0x10, open_ := true, orphan := false, tmo := 500, keyCrc := 0, base := 7, l := #v[1, 2, 3], budget := [9, 8, 7, 6, 1, 5, 4], margin := 16 }; (s.blk.cascOn = true) ∧ (s.blk.slave = true) ∧ (s.blk.sess = none) ∧ (x.stopAll = none) ∧ (x.inners = []) ∧ (x.num ≠ 0) ∧ (x.frame0 = some f) ∧ (f.open_ = true)) := by
  decide +kernel

theorem witness_SerialMemoryRuns :
    (let s : State := ⟨[], b1⟩; let i : Side := .a; let off : Nat := 70; let x : SmIn := ⟨false, none⟩; (s.blk.smOn i = true)) ∧
    (let s : State := ⟨[], (b1.set (SMP.WIN2.ABYTES.smp .a) 3).mapSm .a fun p => { p with mem := [(64, 5), (70, 9), (130, 1)] }⟩; let i : Side := .a; let off : Nat := 70; let fetch : Bool := false; let x : SmIn := ⟨false, none⟩; (s.blk.smOn i = true) ∧ ((s.blk.smp i).page = none) ∧ (off < 2 ^ (8 * s.blk.r (SMP.WIN2.ABYTES.smp i))) ∧ ((s.blk.smp i).absent.getLsbD (s.blk.smDev i fetch).val = false) ∧ (x.gone = false) ∧ (s.blk.bit (SMP.CFG.DDR.smp i) = false ∨ s.blk.bit (SMP.CFG.DQS.smp i) = false ∨ x.dqsLost = none) ∧ (s.blk.bit (SMP.WIN2.BUSY_EN.smp i) = false)) ∧
    (let b : Blk := b1.setB (SMP.CFG.DDR.smp .a) true; let i : Side := .a; let dev : Fin 8 := 2; let addr : Nat := 64; let data : List Byte := [1, 2]; let f : SerFrame := (b1.setB (SMP.CFG.DDR.smp .a) true).readFrame .a 2 64 [1, 2]; let both : Bool := decide (b1.r (SMP.CFG.LANES.smp .a) = 3); (f = b.readFrame i dev addr data) ∧ (both = (b.bit (SMP.CFG.DDR.smp i) && decide (b.r (SMP.CFG.LANES.smp i) = 3)))) ∧
    (let s : State := ⟨[], (b1.set (SMP.WIN2.ABYTES.smp .a) 3).mapSm .a fun p => { p with absent := 0xFF }⟩; let i : Side := .a; let off : Nat := 70; let fetch : Bool := false; let x : SmIn := ⟨true, none⟩; (s.blk.smOn i = true) ∧ ((s.blk.smp i).page = none) ∧ (2 ^ (8 * s.blk.r (SMP.WIN2.ABYTES.smp i)) ≤ off ∨ (fetch = false ∧ (s.blk.smp i).absent.getLsbD (s.blk.smDev i fetch).val = true))) ∧
    (let s : State := ⟨[], (b1.set (SMP.WIN2.ABYTES.smp .a) 3).mapSm .a fun p => { p with absent := 0xFF }⟩; let i : Side := .a; let off : Nat := 70; let x : SmIn := ⟨true, none⟩; (s.blk.smOn i = true) ∧ ((s.blk.smp i).absent.getLsbD 0 = true) ∧ (off < 2 ^ (8 * s.blk.r (SMP.WIN2.ABYTES.smp i))) ∧ (s.blk.act = some i)) ∧
    (let s : State := ⟨[], (((b1.set (SMP.WIN2.ABYTES.smp .a) 3).setB (SMP.CFG.DDR.smp .a) true).setB (SMP.CFG.DQS.smp .a) true).mapSm .a fun p => { p with mem := [(64, 5), (70, 9)] }⟩; let i : Side := .a; let off : Nat := 70; let x : SmIn := ⟨false, some 50⟩; let n : Nat := 50; (s.blk.smOn i = true) ∧ ((s.blk.smp i).page = none) ∧ (off < 2 ^ (8 * s.blk.r (SMP.WIN2.ABYTES.smp i))) ∧ ((s.blk.smp i).absent.getLsbD (s.blk.smDev i false).val = false) ∧ (s.blk.bit (SMP.CFG.DDR.smp i) = true) ∧ (s.blk.bit (SMP.CFG.DQS.smp i) = true) ∧ (x.dqsLost = some n)) ∧
    (let s : State := ⟨[], { b1 with nap := .napping }⟩; let i : Side := .a; let off : Nat := 70; let fetch : Bool := false; let x : SmIn := ⟨false, none⟩; (s.blk.smOn i = false)) ∧
    (let s : State := ⟨[], b1.mapSm .b fun p => { p with page := some ⟨2, 0, [(3, 4)]⟩ }⟩; let i : Side := .b; let idle : Nat := 20; let g : PageBuf := ⟨2, 0, [(3, 4)]⟩; (20 ≤ idle) ∧ (s.blk.smOn i = true) ∧ ((s.blk.smp i).page = some g)) ∧
    (let s : State := ⟨[], b1⟩; let i : Side := .b; let idle : Nat := 20; ((s.blk.smp i).page = none ∨ s.blk.smOn i = false ∨ idle < 20)) ∧
    (let s : State := ⟨[], b1.mapSm .b fun p => { p with retry := some (2, 0, 4, false) }⟩; let i : Side := .b; let dev : Fin 8 := 2; let a : Nat := 0; let n : Nat := 4; let fetch : Bool := false; (s.blk.smOn i = true) ∧ ((s.blk.smp i).retry = some (dev, a, n, fetch))) ∧
    (let s : State := ⟨[], b1⟩; let i : Side := .b; ((s.blk.smp i).retry = none ∨ s.blk.smOn i = false)) ∧
    (let s : State := ⟨[], b1.mapSm .b fun p => { p with op := some (.program 0 0x100 [(0, 0x12), (1, 0xFF)]) }⟩; let i : Side := .b; let st : Byte := 0xFF; let o : SmOp := .program 0 0x100 [(0, 0x12), (1, 0xFF)]; ((s.blk.smp i).op = some o) ∧ ((s.blk.smp i).cut = false)) ∧
    (let s : State := ⟨[], b1⟩; let i : Side := .b; let st : Byte := 0; ((s.blk.smp i).op = none ∨ (s.blk.smp i).cut = true)) := by
  decide +kernel

theorem witness_MailboxAndSerialRowsComplete :
    (let s : State := ⟨[], b1⟩; let h : Hdr := (pk 0 0xFE []).toHdr; let id : Word := 0x100301; (s.blk.fits h 0x11 = true) ∧ (h.tgt = 0xFE)) ∧
    (let s : State := ⟨[], { b1 with planes := b1.planes.set 0 { b1.planes.get 0 with due := true, sel := 0x100301 } }⟩; let pl : Plane := .ctrl; ((s.blk.planes.get pl.idx).due = true)) ∧
    (let s : State := ⟨[], b1⟩; let p : Pkt := pk 0 0xFE ([1, 0, 0, 0] ++ leBytes 4 0x100301); (s.blk.takes p 0x14) ∧ (p.tgt = 0xFE) ∧ (1 ≤ u p.body 0 1) ∧ (u p.body 0 1 ≤ 32) ∧ (4 + 4 * u p.body 0 1 ≤ p.body.length)) ∧
    (let s : State := ⟨[], (b1.set (SMP.WIN2.ABYTES.smp .a) 3).mapSm .a fun p => { p with mem := [(64, 5)] }⟩; let i : Side := .a; let off : Nat := 70; let n : Option Nat := none; (s.blk.smOn i = true) ∧ (s.blk.smReach i off = true) ∧ ((s.blk.smp i).page = none) ∧ ((s.blk.smp i).op = none) ∧ ((s.blk.smp i).absent.getLsbD (s.blk.smDev i false).val = false) ∧ (s.blk.bit (SMP.CFG.DDR.smp i) = false) ∧ (s.blk.bit (SMP.WIN2.BUSY_EN.smp i) = false)) ∧
    (let s : State := ⟨[], b1.set (SMP.WIN2.ABYTES.smp .b) 3⟩; let i : Side := .b; let off : Nat := 0x1FF; let v : Byte := 7; (s.blk.smOn i = true) ∧ (s.blk.smReach i off = true) ∧ ((s.blk.smp i).absent.getLsbD (s.blk.smDev i false).val = false) ∧ ((s.blk.smp i).page = none)) ∧
    (let s : State := ⟨[], b1.mapSm .b fun p => { p with page := some ⟨2, 0, [(3, 4)]⟩ }⟩; let i : Side := .b; let idle : Nat := 20; let g : PageBuf := ⟨2, 0, [(3, 4)]⟩; (s.blk.smOn i = true) ∧ (20 ≤ idle) ∧ ((s.blk.smp i).page = some g) ∧ ((s.blk.smp i).op = none) ∧ ((s.blk.smp i).absent.getLsbD g.dev.val = false)) ∧
    (let s : State := ⟨[], b1.mapSm .b fun p => { p with retry := some (2, 0, 4, false) }⟩; let i : Side := .b; let dev : Fin 8 := 2; let a : Nat := 0; let n : Nat := 4; let fetch : Bool := false; (s.blk.smOn i = true) ∧ ((s.blk.smp i).retry = some (dev, a, n, fetch)) ∧ (s.blk.bit (SMP.WIN2.BUSY_EN.smp i) = false)) ∧
    (let s : State := ⟨[], b1.mapSm .b fun p => { p with op := some (.program 0 0x100 [(0, 0x12), (1, 0xFF)]) }⟩; let i : Side := .b; let st : Byte := 0; let o : SmOp := .program 0 0x100 [(0, 0x12), (1, 0xFF)]; ((s.blk.smp i).op = some o) ∧ ((s.blk.smp i).cut = false) ∧ (st.getLsbD (s.blk.r (SMP.WIN.BUSY_BIT.smp i)) ≠ s.blk.bit (SMP.WIN.BUSY_POL.smp i))) ∧
    (let s : State := ⟨[], b1.mapSm .b fun p => { p with op := some (.program 0 0x100 [(0, 0x12), (1, 0xFF)]) }⟩; let i : Side := .b; let o : SmOp := .program 0 0x100 [(0, 0x12), (1, 0xFF)]; ((s.blk.smp i).op = some o) ∧ ((s.blk.smp i).cut = false)) ∧
    (let s : State := ⟨[], { b1 with cams := b1.cams.set 2 { count := 2, points := [some (0, 0), some (1, 1)], valid := true }, camDirty := #v[4, 4] }⟩; let i : Side := .b; let k : Fin 64 := 2; (s.blk.stores i = true) ∧ ((s.blk.camDirty.get i.idx).getLsbD k.val = true) ∧ ((s.blk.cams.get k).valid = true)) ∧
    (let s : State := ⟨[], b1.raise [LEDG.EVT.SB82]⟩; let i : Side := .a; (s.blk.stores i = true) ∧ ((s.blk.logs.get i.idx).buf ≠ [])) := by
  unfold Blk.takes
  decide +kernel

end
end

section
/-!
Fields of a register file: what a field reads after a field, itself or another, was put.
-/

namespace Sys2Proof.Machine

/-- Two fields share no bit. -/
def Fld.apart (g f : Fld) : Bool := g.reg != f.reg || decide (g.lo + g.w ≤ f.lo) || decide (f.lo + f.w ≤ g.lo)

theorem Fld.testBit_get {k : Nat} (f : Fld) (r : Vector Word k) (i : Nat) :
    (f.get r).testBit i = (decide (i < f.w) && ((r[f.reg]?).getD 0).getLsbD (f.lo + i)) := by
  simp [Fld.get, Nat.testBit_mod_two_pow, Nat.testBit_shiftRight, BitVec.getLsbD]

theorem Fld.getLsbD_ins (f : Fld) (x : Word) (v : Nat) {i : Nat} (hi : i < 32) :
    (f.ins x v).getLsbD i = if f.lo ≤ i ∧ i < f.lo + f.w then v.testBit (i - f.lo) else x.getLsbD i := by
  have hm : (2 ^ f.w - 1 : Nat).testBit (i - f.lo) = decide (i - f.lo < f.w) := Nat.testBit_two_pow_sub_one ..
  simp only [Fld.ins, BitVec.getLsbD_or, BitVec.getLsbD_and, BitVec.getLsbD_not, BitVec.getLsbD_ofNat, Nat.testBit_shiftLeft, hm, hi,
    decide_true, Bool.true_and]
  by_cases h1 : f.lo ≤ i
  · by_cases h2 : i < f.lo + f.w
    · have h3 : i - f.lo < f.w := by omega
      simp [h1, h2, h3]
    · have h3 : ¬ i - f.lo < f.w := by omega
      simp [h1, h2, h3]
  · simp [h1]

theorem Fld.getElem?_put_ne {k : Nat} (f : Fld) (r : Vector Word k) (v : Nat) {i : Nat} (h : i ≠ f.reg) : (f.put r v)[i]? = r[i]? := by
  simp [Fld.put, h.symm]

theorem Fld.get_put_apart {k : Nat} {g f : Fld} (r : Vector Word k) (v : Nat) (h : g.apart f = true) : g.get (f.put r v) = g.get r := by
  by_cases hr : g.reg = f.reg
  · refine Nat.eq_of_testBit_eq fun i => ?_
    simp only [Fld.testBit_get, Fld.put, Vector.getElem?_setIfInBounds, hr]
    by_cases hk : f.reg < k
    · simp only [hk, if_true, Option.getD_some]
      by_cases hi : i < g.w
      · by_cases h32 : g.lo + i < 32
        · rw [Fld.getLsbD_ins _ _ _ h32, if_neg]
          simp only [Fld.apart, hr, bne_self_eq_false, Bool.false_or, Bool.or_eq_true, decide_eq_true_eq] at h
          omega
        · rw [BitVec.getLsbD_of_ge _ _ (by omega), BitVec.getLsbD_of_ge _ _ (by omega)]
      · simp [hi]
    · simp [hk]
  · simp only [Fld.get, Fld.getElem?_put_ne f r v hr]

theorem Fld.get_put_same {k : Nat} (f : Fld) (r : Vector Word k) (v : Nat) (hk : f.reg < k) (hw : f.lo + f.w ≤ 32) :
    f.get (f.put r v) = v % 2 ^ f.w := by
  refine Nat.eq_of_testBit_eq fun i => ?_
  rw [Fld.testBit_get, Nat.testBit_mod_two_pow]
  by_cases hi : i < f.w
  · simp only [hi, decide_true, Bool.true_and, Fld.put, Vector.getElem?_setIfInBounds, hk, if_true, Option.getD_some]
    rw [Fld.getLsbD_ins _ _ _ (by omega), if_pos (by omega), Nat.add_sub_cancel_left]
  · simp [hi]

theorem Fld.get_count_same {k : Nat} (f : Fld) (r : Vector Word k) (d : Nat) (hk : f.reg < k) (hw : f.lo + f.w ≤ 32) :
    f.get (f.count r d) = min (f.get r + d) (2 ^ f.w - 1) := by
  rw [Fld.count, Fld.get_put_same f r _ hk hw]
  have : 0 < 2 ^ f.w := Nat.two_pow_pos f.w
  exact Nat.mod_eq_of_lt (by omega)

/-! ### Fields of an axis and of the module -/

theorem Axis.r_set_apart {g f : Fld} (a : Axis) (v : Nat) (h : g.apart f = true) : (a.set f v).r g = a.r g := Fld.get_put_apart _ _ h
theorem Axis.r_setB_apart {g f : Fld} (a : Axis) (v : Bool) (h : g.apart f = true) : (a.setB f v).r g = a.r g := Fld.get_put_apart _ _ h
theorem Axis.r_count_apart {g f : Fld} (a : Axis) (h : g.apart f = true) : (a.count f).r g = a.r g := Fld.get_put_apart _ _ h

/-- A field of one bit holds the bit that was put. -/
theorem Fld.get_put_bit {k : Nat} (f : Fld) (r : Vector Word k) (v : Bool) (hk : f.reg < k) (hw : f.lo + f.w ≤ 32) (h0 : 0 < f.w) :
    (f.get (f.put r (Bool.bit v)) != 0) = v := by
  have h1 : 1 < 2 ^ f.w := Nat.one_lt_two_pow (by omega)
  rw [Fld.get_put_same f r _ hk hw]
  cases v
  · simp [Bool.bit]
  · simp [Bool.bit, Nat.mod_eq_of_lt h1]

theorem Axis.b_of_r {a c : Axis} {f : Fld} (h : a.r f = c.r f) : a.b f = c.b f := congrArg (· != 0) h

theorem Axis.b_setB_same (a : Axis) (f : Fld) (v : Bool) (hk : f.reg < 131) (hw : f.lo + f.w ≤ 32) (h0 : 0 < f.w) :
    (a.setB f v).b f = v := Fld.get_put_bit f a.regs v hk hw h0

theorem Blk.bit_setB_apart {g f : Fld} (b : Blk) (v : Bool) (h : g.apart f = true) : (b.setB f v).bit g = b.bit g :=
  congrArg (· != 0) (Fld.get_put_apart _ _ h)

theorem Blk.bit_setB_same (b : Blk) (f : Fld) (v : Bool) (hk : f.reg < 356) (hw : f.lo + f.w ≤ 32) (h0 : 0 < f.w) :
    (b.setB f v).bit f = v := Fld.get_put_bit f b.regs v hk hw h0

/-- A put field leaves every other register. -/
theorem Blk.setB_regs_ne (b : Blk) (f : Fld) (v : Bool) (i : Fin 356) (h : i.val ≠ f.reg) : (b.setB f v).regs.get i = b.regs.get i := by
  have := f.getElem?_put_ne b.regs (Bool.bit v) h
  simpa [Vector.get_eq_getElem, Blk.setB] using this

end Sys2Proof.Machine
end

section
/-!
Event registers and the frame of the shared operations: a raise sets its flags and keeps every flag that stands, and flags, log entries,
events and steps on cells leave the module as it was but for axes, flags, log, ports, sequence and draws.
-/

namespace Sys2Proof.Machine

/-! ### Folds -/

/-- A fold reaches what the step of one of its items makes and every step keeps, under an invariant of the fold. -/
theorem foldl_reaches {α β : Type} {I P : β → Prop} (op : β → α → β) (l : List α) {x : α} (hx : x ∈ l) (hI : ∀ b y, y ∈ l → I b → I (op b y))
    (make : ∀ b, I b → P (op b x)) (keep : ∀ b y, y ∈ l → P b → P (op b y)) {b : β} (hb : I b) : P (l.foldl op b) := by
  obtain ⟨l1, l2, rfl⟩ := List.append_of_mem hx
  rw [List.foldl_append, List.foldl_cons]
  refine List.foldlRecOn l2 op (make _ ?_) fun c hc y hy => keep c y (by simp [hy]) hc
  exact List.foldlRecOn l1 op hb fun c hc y hy => hI c y (by simp [hy]) hc

/-- A fold whose steps on its own items keep an observation keeps it. -/
theorem foldl_keeps_mem {α β γ : Type} (g : β → γ) (op : β → α → β) (l : List α) (h : ∀ b, ∀ x ∈ l, g (op b x) = g b) (b : β) :
    g (l.foldl op b) = g b :=
  List.foldlRecOn l op (motive := fun c => g c = g b) rfl fun c hc x hx => (h c x hx).trans hc

/-! ### Words of flags -/

/-- A raise leaves each flag as it was, or raised by the mask (13 R440). -/
theorem getLsbD_raiseWord (w : Word) (m : Nat) {i : Nat} (hi : i < 24) :
    (raiseWord w m).getLsbD i = (w.getLsbD i || m.testBit i) := by
  have hlt : (w.toNat % 2 ^ 24 ||| m % 2 ^ 24) < 2 ^ 24 := Nat.or_lt_two_pow (Nat.mod_lt _ (by decide)) (Nat.mod_lt _ (by decide))
  rw [raiseWord, BitVec.getLsbD_ofNat, Nat.mul_comm, Nat.testBit_two_pow_mul_add _ hlt]
  simp only [hi, if_true, Nat.testBit_or, Nat.testBit_mod_two_pow, decide_true, Bool.true_and, BitVec.getLsbD]
  simp [show i < 32 by omega]

/-- The mask of a raise holds each of its flags. -/
theorem flagMask_testBit {fs : List Flag} {f : Flag} (h : f ∈ fs) : (flagMask fs f.ev).testBit f.bit = true := by
  refine foldl_reaches (I := fun _ => True) (P := fun m => m.testBit f.bit = true) (fun m (g : Flag) => m ||| 2 ^ g.bit) _
    (List.mem_filter.2 ⟨h, by simp⟩ : f ∈ fs.filter fun g => g.ev == f.ev) (fun _ _ _ _ => trivial) (fun m _ => ?_) (fun m g _ hm => ?_) trivial
  · simp [Nat.testBit_or]
  · simp [Nat.testBit_or, hm]

@[simp] theorem flagMask_nil (ev : Nat) : flagMask [] ev = 0 := rfl

/-! ### What reads the same -/

/-- The registers of the module, event registers apart. -/
def Blk.plainRegs (b : Blk) (i : Fin 356) : Word := if i.val ∈ modEvRegs then 0 else b.regs.get i

/-- The registers of an axis, event registers apart. -/
def Axis.plainRegs (a : Axis) (i : Fin 131) : Word := if i.val ∈ axEvRegs then 0 else a.regs.get i

/-- What `Blk.still` compares. -/
def Blk.frame (b : Blk) : Blk × Option (Byte × Byte × Nat × Bool) × (Fin 356 → Word) := (b.rest, b.owning, b.plainRegs)

theorem Blk.sameRegs_of_plainRegs {b t : Blk} (h : t.plainRegs = b.plainRegs) : b.sameRegs t := fun i hi => by
  have := congrFun h i
  simpa [Blk.plainRegs, hi] using this

theorem Blk.still_of_frame {b t : Blk} (h : t.frame = b.frame) : b.still t :=
  ⟨congrArg Prod.fst h, congrArg (·.2.1) h, Blk.sameRegs_of_plainRegs (congrArg (·.2.2) h)⟩

theorem getElem?_of_get {k : Nat} {r s : Vector Word k} {i : Nat} (h : ∀ hi : i < k, r.get ⟨i, hi⟩ = s.get ⟨i, hi⟩) : r[i]? = s[i]? := by
  by_cases hi : i < k
  · have := h hi
    simp only [Vector.get_eq_getElem] at this
    simp [Vector.getElem?_eq_getElem hi, this]
  · simp [Nat.le_of_not_lt hi]

theorem Axis.word_of_plainRegs {a c : Axis} (h : a.plainRegs = c.plainRegs) {i : Nat} (hi : i ∉ axEvRegs) : a.regs[i]? = c.regs[i]? :=
  getElem?_of_get fun hk => by
    have := congrFun h ⟨i, hk⟩
    simpa [Axis.plainRegs, hi] using this

theorem Blk.word_of_plainRegs {b c : Blk} (h : b.plainRegs = c.plainRegs) {i : Nat} (hi : i ∉ modEvRegs) : b.regs[i]? = c.regs[i]? :=
  getElem?_of_get fun hk => by
    have := congrFun h ⟨i, hk⟩
    simpa [Blk.plainRegs, hi] using this

theorem Axis.r_of_plainRegs {a c : Axis} (h : a.plainRegs = c.plainRegs) {f : Fld} (hf : f.reg ∉ axEvRegs) : a.r f = c.r f := by
  simp only [Axis.r, Fld.get, Axis.word_of_plainRegs h hf]

theorem Axis.b_of_plainRegs {a c : Axis} (h : a.plainRegs = c.plainRegs) {f : Fld} (hf : f.reg ∉ axEvRegs) : a.b f = c.b f :=
  Axis.b_of_r (Axis.r_of_plainRegs h hf)

theorem Blk.r_of_plainRegs {b c : Blk} (h : b.plainRegs = c.plainRegs) {f : Fld} (hf : f.reg ∉ modEvRegs) : b.r f = c.r f := by
  simp only [Blk.r, Fld.get, Blk.word_of_plainRegs h hf]

theorem Blk.bit_of_plainRegs {b c : Blk} (h : b.plainRegs = c.plainRegs) {f : Fld} (hf : f.reg ∉ modEvRegs) : b.bit f = c.bit f :=
  congrArg (· != 0) (Blk.r_of_plainRegs h hf)

/-- A register that no flag register is changes no plain register. -/
theorem plain_setIfInBounds {k : Nat} (l : List Nat) (r : Vector Word k) {j : Nat} (w : Word) (hj : j ∈ l) (i : Fin k) :
    (if i.val ∈ l then (0 : Word) else (r.setIfInBounds j w).get i) = if i.val ∈ l then 0 else r.get i := by
  split
  · rfl
  · next hi =>
    have hne : j ≠ i.val := fun e => hi (e ▸ hj)
    simp [Vector.get_eq_getElem, hne]

theorem modEvReg_mem {e : Nat} (h : e < 16) : (modEvRegs[e]?).getD 0 ∈ modEvRegs := by
  have : e < modEvRegs.length := h
  simp [List.getElem?_eq_getElem this]

theorem axEvReg_mem {e : Nat} (h : e < 6) : (axEvRegs[e]?).getD 0 ∈ axEvRegs := by
  have : e < axEvRegs.length := h
  simp [List.getElem?_eq_getElem this]

/-! ### The frame of the shared operations -/

theorem Blk.rawRaise_plainRegs (b : Blk) {e : Nat} (m : Nat) (h : e < 16) : (b.rawRaise e m).plainRegs = b.plainRegs :=
  funext fun i => plain_setIfInBounds modEvRegs b.regs _ (modEvReg_mem h) i

theorem Blk.rawRaise_frame (b : Blk) {e : Nat} (m : Nat) (h : e < 16) : (b.rawRaise e m).frame = b.frame :=
  congrArg (fun r => (b.rest, b.owning, r)) (b.rawRaise_plainRegs m h)

@[simp] theorem Blk.logEntry_frame (b : Blk) (c k a p : Nat) (d : List Byte) : (b.logEntry c k a p d).frame = b.frame := by
  unfold Blk.logEntry
  split
  · rfl
  · refine ite_keeps Blk.frame rfl ?_
    generalize (if c = 7 then 960 else 1024) = lim
    exact ite_keeps Blk.frame rfl (b.rawRaise_frame _ (by decide))

@[simp] theorem Blk.raise_frame (b : Blk) (l : List Flag) : (b.raise l).frame = b.frame := by
  refine foldl_keeps_mem Blk.frame _ _ (fun b ev hev => ite_keeps Blk.frame rfl ?_) b
  rw [Blk.logRaise, Blk.logEntry_frame, Blk.rawRaise_frame _ _ (List.mem_range.1 hev)]

@[simp] theorem Blk.raiseIf_frame (b : Blk) (x : Bool) (f : Flag) : (b.raiseIf x f).frame = b.frame :=
  ite_keeps Blk.frame (b.raise_frame _) rfl

@[simp] theorem Blk.send_frame (b : Blk) (p : Fin 6) (o : OutPkt) : (b.send p o).frame = b.frame := by
  unfold Blk.send; split <;> rfl

@[simp] theorem Blk.sendVia_frame (b : Blk) (v : Via) (o : OutPkt) : (b.sendVia v o).frame = b.frame := by
  cases v with
  | port p => exact b.send_frame p o
  | ring => rfl

@[simp] theorem Blk.event_frame (b : Blk) (k t x : Nat) (d : List Byte) : (b.event k t x d).frame = b.frame := by
  unfold Blk.event
  extract_lets mg l
  have hl : l.frame = b.frame := b.logEntry_frame ..
  clear_value l
  split
  · exact hl
  · next s hs =>
    refine ite_keeps Blk.frame hl ?_
    have hb : ({ l with sess := some { s with evSeq := s.evSeq + 1 } } : Blk).frame = l.frame :=
      congrArg (fun o => (l.rest, o, l.plainRegs)) (by simp [Blk.owning, hs])
    exact ite_keeps Blk.frame (hb.trans hl) ((Blk.send_frame ..).trans (hb.trans hl))

@[simp] theorem Blk.raiseAx_frame (b : Blk) (n : Fin 48) (l : List Flag) : (b.raiseAx n l).frame = b.frame := by
  refine foldl_keeps Blk.frame _ (fun b ev => ite_keeps Blk.frame rfl ?_) _ b
  exact (Blk.logEntry_frame ..).trans rfl

@[simp] theorem Blk.commit_frame (b : Blk) (n : Fin 48) (c : Cell) : (b.commit n c).frame = b.frame := by
  unfold Blk.commit
  rw [foldl_keeps Blk.frame _ (fun b e => b.event_frame ..), Blk.raise_frame, Blk.raiseAx_frame]
  rfl

@[simp] theorem Blk.cell_frame (b : Blk) (n : Fin 48) (f : Cell → Cell) : (b.cell n f).frame = b.frame := b.commit_frame ..

@[simp] theorem Blk.cells_frame (b : Blk) (l : List (Fin 48)) (f : Fin 48 → Cell → Cell) : (b.cells l f).frame = b.frame :=
  foldl_keeps Blk.frame _ (fun b n => b.cell_frame n (f n)) l b

/-! ### Flags of the module -/

theorem Blk.rawRaise_flagged (b : Blk) (e m : Nat) {f : Flag} (hf : f.bit < 24) (h : b.flagged f) : (b.rawRaise e m).flagged f := by
  simp only [Blk.flagged, Blk.rawRaise, Vector.getElem?_setIfInBounds] at h ⊢
  split
  · next he =>
    split
    · rw [Option.getD_some, getLsbD_raiseWord _ _ hf, he, Bool.or_eq_true]
      exact Or.inl h
    · next hk => simp [← he, hk] at h
  · exact h

theorem Blk.logEntry_flagged (b : Blk) (c k a p : Nat) (d : List Byte) {f : Flag} (hf : f.bit < 24) (h : b.flagged f) :
    (b.logEntry c k a p d).flagged f := by
  unfold Blk.logEntry
  split
  · exact h
  · split
    · exact h
    · generalize (if c = 7 then 960 else 1024) = lim
      dsimp only
      split
      · exact h
      · exact b.rawRaise_flagged _ _ hf h

theorem Blk.raise_flagged (b : Blk) (l : List Flag) {f : Flag} (hf : f.bit < 24) (h : b.flagged f) : (b.raise l).flagged f := by
  unfold Blk.raise
  refine List.foldlRecOn (motive := fun b : Blk => b.flagged f) _ _ h fun b h ev _ => ?_
  dsimp only
  split
  · exact h
  · exact Blk.logEntry_flagged _ _ _ _ _ _ hf (b.rawRaise_flagged _ _ hf h)

/-- A raised flag stands (13 R440). -/
theorem Blk.flagged_raise (b : Blk) {l : List Flag} {f : Flag} (hl : f ∈ l) (hev : f.ev < 16) (hf : f.bit < 24) : (b.raise l).flagged f := by
  have hreg : (modEvRegs[f.ev]?).getD 0 < 356 := by
    have : ∀ e < 16, (modEvRegs[e]?).getD 0 < 356 := by decide
    exact this _ hev
  have hm := flagMask_testBit hl
  have h0 : flagMask l f.ev ≠ 0 := fun e => by simp [e] at hm
  unfold Blk.raise
  refine foldl_reaches (I := fun _ => True) (P := fun b : Blk => b.flagged f) _ _ (List.mem_range.2 hev) (fun _ _ _ _ => trivial)
    (fun b _ => ?_) (fun b ev _ h => ?_) trivial
  · simp only [h0, if_false]
    refine Blk.logEntry_flagged _ _ _ _ _ _ hf ?_
    simp [Blk.flagged, Blk.rawRaise, hreg, getLsbD_raiseWord _ _ hf, hm]
  · dsimp only
    split
    · exact h
    · exact Blk.logEntry_flagged _ _ _ _ _ _ hf (b.rawRaise_flagged _ _ hf h)

theorem Blk.flagged_of_regs {b t : Blk} {f : Flag} (h : t.regs = b.regs) (hb : b.flagged f) : t.flagged f := by
  rw [Blk.flagged, h]; exact hb

theorem Blk.event_flagged (b : Blk) (k t x : Nat) (d : List Byte) {f : Flag} (hf : f.bit < 24) (h : b.flagged f) : (b.event k t x d).flagged f := by
  unfold Blk.event
  extract_lets mg l
  have hl : l.flagged f := b.logEntry_flagged _ _ _ _ _ hf h
  clear_value l
  split
  · exact hl
  · split
    · exact hl
    · dsimp only
      split
      · exact Blk.flagged_of_regs rfl hl
      · exact Blk.flagged_of_regs ((Blk.send_regs ..).trans rfl) hl

theorem Blk.raiseAx_flagged (b : Blk) (n : Fin 48) (l : List Flag) {f : Flag} (hf : f.bit < 24) (h : b.flagged f) : (b.raiseAx n l).flagged f := by
  unfold Blk.raiseAx
  refine List.foldlRecOn (motive := fun b : Blk => b.flagged f) _ _ h fun b h ev _ => ?_
  dsimp only
  split
  · exact h
  · exact Blk.logEntry_flagged _ _ _ _ _ _ hf (Blk.flagged_of_regs rfl h)

theorem Blk.cell_flagged (b : Blk) (n : Fin 48) (g : Cell → Cell) {f : Flag} (hf : f.bit < 24) (h : b.flagged f) : (b.cell n g).flagged f := by
  unfold Blk.cell Blk.commit
  refine List.foldlRecOn (motive := fun b : Blk => b.flagged f) _ _ ?_ fun b h _ _ => b.event_flagged _ _ _ _ hf h
  exact Blk.raise_flagged _ _ hf (Blk.raiseAx_flagged _ _ _ hf (Blk.flagged_of_regs rfl h))

theorem Blk.cells_flagged (b : Blk) (l : List (Fin 48)) (g : Fin 48 → Cell → Cell) {f : Flag} (hf : f.bit < 24) (h : b.flagged f) :
    (b.cells l g).flagged f :=
  List.foldlRecOn (motive := fun b : Blk => b.flagged f) _ _ h fun b h n _ => b.cell_flagged n (g n) hf h

end Sys2Proof.Machine
end

section
/-!
The axes under steps on cells: a step on a cell leaves its axis as the step does, with the flags raised that the step raised, and a list of
steps acts on each of its axes alone.
-/

namespace Sys2Proof.Machine

theorem Blk.raiseAx_axis_plainRegs (b : Blk) (n m : Fin 48) (l : List Flag) :
    ((b.raiseAx n l).axis m).plainRegs = (b.axis m).plainRegs := by
  by_cases h : m = n
  · subst h
    refine foldl_keeps_mem (fun b : Blk => (b.axis m).plainRegs) _ _ (fun b ev hev => ?_) b
    refine ite_keeps (fun b : Blk => (b.axis m).plainRegs) rfl ?_
    rw [Blk.axis_of_ax (Blk.logRaise_ax ..), Blk.axis_mapAx]
    exact funext fun i => plain_setIfInBounds axEvRegs (b.axis m).regs _ (axEvReg_mem (List.mem_range.1 hev)) i
  · rw [b.raiseAx_axis_ne l h]

/-- The axis of a step on a cell, before its flags. -/
theorem Blk.cell_axis_eq (b : Blk) (n : Fin 48) (f : Cell → Cell) :
    (b.cell n f).axis n = (({ b with ax := b.ax.set n (f (b.cellOf n)).ax } : Blk).raiseAx n (f (b.cellOf n)).flags).axis n :=
  Blk.axis_of_ax (b.commit_ax n _) n

theorem Blk.cell_axis_plainRegs (b : Blk) (n : Fin 48) (f : Cell → Cell) :
    ((b.cell n f).axis n).plainRegs = (f (b.cellOf n)).ax.plainRegs := by
  rw [Blk.cell_axis_eq, Blk.raiseAx_axis_plainRegs]
  exact congrArg Axis.plainRegs (get_set_same ..)

theorem Blk.raiseAx_nil (b : Blk) (n : Fin 48) : b.raiseAx n [] = b := by
  unfold Blk.raiseAx
  exact foldl_keeps id _ (fun b ev => by simp) _ b

theorem Blk.raise_nil (b : Blk) : b.raise [] = b := by
  unfold Blk.raise
  exact foldl_keeps id _ (fun b ev => by simp) _ b

/-- A step that leaves the cell as it is leaves the module as it is. -/
theorem Blk.cell_of_same (b : Blk) (n : Fin 48) {f : Cell → Cell} (h : f (b.cellOf n) = b.cellOf n) : b.cell n f = b := by
  have hax : b.ax.set n (b.axis n) = b.ax := by simp [Blk.axis, Vector.get_eq_getElem]
  rw [Blk.cell, h]
  simp only [Blk.commit, Blk.cellOf, hax, Blk.raiseAx_nil, Blk.raise_nil, List.foldl_nil]

/-! ### Flags of an axis -/

theorem Blk.raiseAx_keeps_flagged (b : Blk) (n : Fin 48) (ev : Nat) (m : Nat) {f : Flag} (hf : f.bit < 24) (h : (b.axis n).flagged f) :
    ((b.mapAx n fun a => { a with
      regs := a.regs.setIfInBounds ((axEvRegs[ev]?).getD 0) (raiseWord (((b.axis n).regs[(axEvRegs[ev]?).getD 0]?).getD 0) m)
      stamps := a.stamps.setIfInBounds ev (raiseStamps (((b.axis n).regs[(axEvRegs[ev]?).getD 0]?).getD 0) m
        ((a.stamps[ev]?).getD (Vector.replicate 24 0))) }).axis n).flagged f := by
  rw [Blk.axis_mapAx]
  simp only [Axis.flagged, Vector.getElem?_setIfInBounds] at h ⊢
  split
  · next he =>
    split
    · rw [Option.getD_some, getLsbD_raiseWord _ _ hf, he, Bool.or_eq_true]
      exact Or.inl h
    · next hk => simp [← he, hk] at h
  · exact h

/-- A raised flag of an axis stands (13 R440). -/
theorem Blk.flagged_raiseAx (b : Blk) (n : Fin 48) {l : List Flag} {f : Flag} (hl : f ∈ l) (hev : f.ev < 6) (hf : f.bit < 24) :
    ((b.raiseAx n l).axis n).flagged f := by
  have hreg : (axEvRegs[f.ev]?).getD 0 < 131 := by
    have : ∀ e < 6, (axEvRegs[e]?).getD 0 < 131 := by decide
    exact this _ hev
  have hm := flagMask_testBit hl
  have h0 : flagMask l f.ev ≠ 0 := fun e => by simp [e] at hm
  unfold Blk.raiseAx
  refine foldl_reaches (I := fun _ => True) (P := fun b : Blk => (b.axis n).flagged f) _ _ (List.mem_range.2 hev) (fun _ _ _ _ => trivial)
    (fun b _ => ?_) (fun b ev _ h => ?_) trivial
  · simp only [h0, if_false]
    rw [Blk.axis_of_ax (Blk.logRaise_ax ..), Blk.axis_mapAx]
    simp [Axis.flagged, hreg, getLsbD_raiseWord _ _ hf, hm]
  · dsimp only
    split
    · exact h
    · rw [Blk.axis_of_ax (Blk.logRaise_ax ..)]
      exact b.raiseAx_keeps_flagged n ev _ hf h

theorem Blk.cell_axis_flagged (b : Blk) (n : Fin 48) (g : Cell → Cell) {f : Flag} (h : f ∈ (g (b.cellOf n)).flags) (hev : f.ev < 6)
    (hf : f.bit < 24) : ((b.cell n g).axis n).flagged f := by
  rw [Blk.cell_axis_eq]
  exact Blk.flagged_raiseAx _ n h hev hf

/-! ### Steps on several cells -/

theorem Blk.cells_axis_notMem (b : Blk) {l : List (Fin 48)} (f : Fin 48 → Cell → Cell) {m : Fin 48} (h : m ∉ l) :
    (b.cells l f).axis m = b.axis m :=
  foldl_keeps_mem (fun b : Blk => b.axis m) _ l (fun b n hn => b.cell_axis_ne (f n) fun e => h (e ▸ hn)) b

/-- Steps on other cells leave what a step on this cell sees. -/
theorem Blk.cells_cellOf_notMem (b : Blk) {l : List (Fin 48)} (f : Fin 48 → Cell → Cell) {m : Fin 48} (h : m ∉ l) :
    (b.cells l f).cellOf m = b.cellOf m := by
  simp only [Blk.cellOf, b.cells_axis_notMem f h, Blk.cells_swath, Blk.cells_tick]

/-- Of steps on several cells, each once, an axis sees its own. -/
theorem Blk.cells_axis_mem (b : Blk) {l : List (Fin 48)} (f : Fin 48 → Cell → Cell) {m : Fin 48} (hl : l.Nodup) (h : m ∈ l) :
    ∃ c : Blk, c.cellOf m = b.cellOf m ∧ (b.cells l f).axis m = (c.cell m (f m)).axis m := by
  obtain ⟨l1, l2, rfl⟩ := List.append_of_mem h
  have h12 := List.nodup_append.1 hl
  have h1 : m ∉ l1 := fun hm => h12.2.2 _ hm _ (by simp) rfl
  have h2 : m ∉ l2 := (List.nodup_cons.1 h12.2.1).1
  refine ⟨b.cells l1 f, b.cells_cellOf_notMem f h1, ?_⟩
  have : b.cells (l1 ++ m :: l2) f = ((b.cells l1 f).cell m (f m)).cells l2 f := by
    simp [Blk.cells, List.foldl_append]
  rw [this, Blk.cells_axis_notMem _ f h2]

theorem allAxes_nodup : allAxes.Nodup := List.nodup_finRange 48
theorem mem_allAxes (n : Fin 48) : n ∈ allAxes := List.mem_finRange n

end Sys2Proof.Machine
end

section
/-!
Stops of a cell: what ends or brakes a move leaves its position and its supervision as they were, and lets no move wait.
-/

namespace Sys2Proof.Machine

/-- No move waits for its start or behind another. -/
def Motion.drained (m : Motion) : Prop := m.waiting = none ∧ m.queued = none

/-- From one cell to another no position moves, no move begins to wait, and the supervision register stays. -/
structure Cell.Calm (c d : Cell) : Prop where
  pos : d.ax.mot.pCmd = c.ax.mot.pCmd
  drained : c.ax.mot.drained → d.ax.mot.drained
  supv : d.ax.regs[AX.AX_SUPV.HELD.reg]? = c.ax.regs[AX.AX_SUPV.HELD.reg]?

theorem Cell.Calm.refl (c : Cell) : c.Calm c := ⟨rfl, id, rfl⟩

theorem Cell.Calm.trans {c d e : Cell} (h : c.Calm d) (k : d.Calm e) : c.Calm e :=
  ⟨k.pos.trans h.pos, fun w => k.drained (h.drained w), k.supv.trans h.supv⟩

theorem Cell.Calm.of_mot {c d : Cell} (h : d.ax.mot = c.ax.mot) (hr : d.ax.regs[AX.AX_SUPV.HELD.reg]? = c.ax.regs[AX.AX_SUPV.HELD.reg]?) :
    c.Calm d := ⟨by rw [h], by rw [h]; exact id, hr⟩

theorem Cell.Calm.ite {c d e : Cell} {p : Prop} [Decidable p] (hd : c.Calm d) (he : c.Calm e) : c.Calm (if p then d else e) := by
  split
  · exact hd
  · exact he

/-! ### Plain updates -/

theorem Cell.set_calm (c : Cell) {f : Fld} (v : Nat) (h : AX.AX_SUPV.HELD.reg ≠ f.reg) : c.Calm (c.set f v) :=
  .of_mot rfl (f.getElem?_put_ne _ _ h)
theorem Cell.setB_calm (c : Cell) {f : Fld} (v : Bool) (h : AX.AX_SUPV.HELD.reg ≠ f.reg) : c.Calm (c.setB f v) :=
  .of_mot rfl (f.getElem?_put_ne _ _ h)
theorem Cell.count_calm (c : Cell) {f : Fld} (h : AX.AX_SUPV.HELD.reg ≠ f.reg) : c.Calm (c.count f) :=
  .of_mot rfl (f.getElem?_put_ne _ _ h)

theorem Cell.mot_calm (c : Cell) (f : Motion → Motion) (hp : ∀ m, (f m).pCmd = m.pCmd := by intro; rfl)
    (hw : ∀ m : Motion, m.drained → (f m).drained := by intro _ h; exact h) : c.Calm (c.mot f) := ⟨hp _, hw _, rfl⟩

theorem Cell.bl_calm (c : Cell) (f : Bl → Bl) : c.Calm (c.bl f) := .of_mot rfl rfl
theorem Cell.reg_calm (c : Cell) (f : Reg → Reg) : c.Calm (c.reg f) := .of_mot rfl rfl

theorem Axis.supv_setB (a : Axis) {f : Fld} (v : Bool) (h : AX.AX_SUPV.HELD.reg ≠ f.reg) :
    (a.setB f v).regs[AX.AX_SUPV.HELD.reg]? = a.regs[AX.AX_SUPV.HELD.reg]? := f.getElem?_put_ne _ _ h

/-! ### What leaves the motion alone -/

theorem Cell.setUnc_mot (c : Cell) : c.setUnc.ax.mot = c.ax.mot := by
  unfold Cell.setUnc Cell.raiseIf
  repeat' split
  all_goals rfl

theorem Cell.setUnc_calm (c : Cell) : c.Calm c.setUnc := by
  refine .of_mot c.setUnc_mot ?_
  unfold Cell.setUnc
  split
  · rw [Cell.setB_ax, Axis.supv_setB _ _ (by decide), Cell.setB_ax, Axis.supv_setB _ _ (by decide), Cell.raiseIf_ax]
  · rw [Cell.setB_ax, Axis.supv_setB _ _ (by decide), Cell.setB_ax, Axis.supv_setB _ _ (by decide)]

theorem Cell.homeFail_mot (c : Cell) : c.homeFail.ax.mot = c.ax.mot := by
  unfold Cell.homeFail
  repeat' split
  all_goals rfl

theorem Cell.homeFail_calm (c : Cell) : c.Calm c.homeFail := by
  refine .of_mot c.homeFail_mot ?_
  have hkeep : ∀ f : Fld, AX.AX_SUPV.HELD.reg ≠ f.reg →
      (c.ax.setB f false).regs[AX.AX_SUPV.HELD.reg]? = c.ax.regs[AX.AX_SUPV.HELD.reg]? := fun f h => Axis.supv_setB _ false h
  unfold Cell.homeFail
  refine ite_keeps (fun d : Cell => d.ax.regs[AX.AX_SUPV.HELD.reg]?) ?_ ?_
  · exact ite_keeps (fun d : Cell => d.ax.regs[AX.AX_SUPV.HELD.reg]?) (hkeep AX.BL_STAT.HOMING (by decide)) rfl
  · exact ite_keeps (fun d : Cell => d.ax.regs[AX.AX_SUPV.HELD.reg]?) (hkeep AX.ST_STAT.HOMING (by decide)) rfl

theorem Cell.lifeCycle_calm (c : Cell) : c.Calm c.lifeCycle := by
  unfold Cell.lifeCycle
  split
  · exact .ite (c.count_calm (by decide)) (.refl c)
  · exact .refl c

theorem Cell.endGrip_calm (c : Cell) : c.Calm c.endGrip := .ite ⟨rfl, id, rfl⟩ (.refl c)

/-! ### The ends of a move -/

theorem Cell.endJob_calm (c : Cell) (done : Bool) : c.Calm (c.endJob done) := by
  unfold Cell.endJob
  split
  · exact .refl c
  · extract_lets e dev d1 d2 l d3
    have h1 : c.Calm d1 := ((c.set_calm _ (by decide)).trans (Cell.set_calm _ _ (by decide))).trans
      (Cell.setB_calm (f := AX.LEDG_AX.MODEL_DEV) _ _ (by decide))
    have h2 : c.Calm d2 := h1.trans (.ite ⟨rfl, id, rfl⟩ (.refl _))
    have h3 : c.Calm d3 := h2.trans (.ite (Cell.Calm.trans (d := d2.map fun a => { a with learned := l }) ⟨rfl, id, rfl⟩
      (Cell.set_calm (f := AX.LEDG_LEARN.E_LEARN) _ _ (by decide))) (.refl _))
    exact h3.trans ⟨rfl, id, rfl⟩

theorem Cell.discard_drained (c : Cell) : c.discard.ax.mot.drained := ⟨rfl, rfl⟩

theorem Cell.discard_calm (c : Cell) : c.Calm c.discard := ⟨rfl, fun _ => c.discard_drained, rfl⟩

theorem Cell.goFallow_calm (c : Cell) : c.Calm c.goFallow := by
  unfold Cell.goFallow
  extract_lets lose d a _ _ _ _ a0 a1 a2 a3 a4 a5 _
  have hd : c.Calm d := .ite c.setUnc_calm (.refl c)
  have h5 : a5.regs[AX.AX_SUPV.HELD.reg]? = d.ax.regs[AX.AX_SUPV.HELD.reg]? := by
    simp only [a5, a4, a3, a2, Axis.supv_setB _ _ (show AX.AX_SUPV.HELD.reg ≠ AX.RST_STAT.ORPHAN.reg by decide)]
    repeat rw [Axis.supv_setB _ _ (by decide)]
    rfl
  refine hd.trans ⟨rfl, fun h => ⟨h.1, rfl⟩, h5⟩

/-- What keeps what an axis was loaded with keeps its motor type. -/
theorem Cell.motor_of_loaded {c d : Cell} (h : d.loaded = c.loaded) : d.ax.motor = c.ax.motor := by
  simp only [Cell.loaded, Axis.loaded, Prod.mk.injEq] at h
  exact h.1.1.2.1

/-- The mode of FALLOW is that of the motor type (06 R180). -/
theorem Cell.goFallow_mode (c : Cell) : c.goFallow.ax.mot.mode = if c.ax.motor = Motor.none then .unconfigured else .fallow := by
  have hm : ∀ x : Bool, (if x = true then c.setUnc else c).ax.motor = c.ax.motor := fun x =>
    ite_keeps (fun c : Cell => c.ax.motor) (Cell.motor_of_loaded c.setUnc_loaded) rfl
  unfold Cell.goFallow
  extract_lets lose d a _ _ _ _ a0 a1 a2 a3 a4 a5 _
  show (if d.ax.motor = Motor.none then Mode.unconfigured else Mode.fallow) = _
  rw [show d.ax.motor = c.ax.motor from hm lose]

theorem Cell.toHold_calm (c : Cell) : c.Calm c.toHold := by
  unfold Cell.toHold
  extract_lets a d e
  have he : c.Calm e := by
    have hd : c.Calm d := c.mot_calm _
    exact (hd.trans (d.reg_calm _)).trans (Cell.endGrip_calm _)
  refine .ite he (.ite (he.trans e.goFallow_calm) (he.trans ((e.setB_calm true (by decide)).trans ⟨rfl, id, rfl⟩)))

theorem Cell.stopDone_calm (c : Cell) : c.Calm c.stopDone := by
  unfold Cell.stopDone
  extract_lets seq fallow d e
  have hd : c.Calm d := ⟨rfl, id, rfl⟩
  have he : c.Calm e := ((hd.trans d.lifeCycle_calm).trans (Cell.endJob_calm _ _)).trans (Cell.toHold_calm _)
  exact .ite (he.trans e.goFallow_calm) he

theorem Cell.startBrake_calm (c : Cell) (w : Brake) : c.Calm (c.startBrake w) := by
  unfold Cell.startBrake
  extract_lets d e
  have he : c.Calm e := ⟨rfl, id, rfl⟩
  exact .ite (he.trans ((e.setB_calm _ (by decide)).trans (Cell.setB_calm _ _ (by decide)))) he

/-! ### Stops -/

theorem Cell.stopAlong_calm (c : Cell) (k : StopKind) (p : Prof) : c.Calm (c.stopAlong k p) := by
  unfold Cell.stopAlong
  extract_lets d
  have hd : c.Calm d := ⟨rfl, id, rfl⟩
  exact .ite (hd.trans d.stopDone_calm) hd

theorem Cell.stopAgain_calm (c : Cell) (k : StopKind) : c.Calm (c.stopAgain k) := by
  unfold Cell.stopAgain
  extract_lets m
  split
  · refine .ite (.ite (c.stopAlong_calm _ _) (.refl c)) (.ite ?_ (.refl c))
    exact (c.mot_calm _).trans (Cell.stopAlong_calm _ _ _)
  · exact .refl c

theorem Cell.stop_calm_discard (c : Cell) (k : StopKind) : c.discard.Calm (c.stop k) := by
  -- what every stop that ends a profile does first
  have hend : ∀ d : Cell, d.Calm ((d.homeFail.count AX.MOT_CNT.STOPS).mot fun x => { x with left := true }) := fun d =>
    (d.homeFail_calm.trans (Cell.count_calm _ (by decide))).trans (Cell.mot_calm _ _)
  unfold Cell.stop
  extract_lets a m d1 d e f g from_
  refine .ite (.refl _) (.ite ?_ (.ite ?_ (.ite (d.stopAgain_calm k) (.ite ?_ (.ite (.refl d) ?_)))))
  · have hd1 : c.discard.Calm d1 := (Cell.homeFail_calm _).trans (Cell.mot_calm _ _)
    split
    · exact hd1.trans (d1.bl_calm _)
    · exact hd1.trans (d1.mot_calm _)
  · have he : d.Calm e := .ite (.refl d) (hend d)
    have hf : d.Calm f := he.trans (e.endJob_calm _)
    exact .ite (hf.trans (f.startBrake_calm _)) ((hf.trans f.setUnc_calm).trans (Cell.startBrake_calm _ _))
  · exact d.mot_calm _
  · exact (hend d).trans ((g.mot_calm _).trans (Cell.stopAlong_calm _ _ _))

theorem Cell.stop_calm (c : Cell) (k : StopKind) : c.Calm (c.stop k) := c.discard_calm.trans (c.stop_calm_discard k)

/-- A stop leaves no move waiting (06 R189). -/
theorem Cell.stop_drained (c : Cell) (k : StopKind) : (c.stop k).ax.mot.drained := (c.stop_calm_discard k).drained c.discard_drained

/-! ### The mode that a stop leaves -/

/-- A stepper that comes to rest holds, or is fallow where a `FALLOW` waited (06 R180, R200, 10 R341). -/
theorem Cell.toHold_mode (c : Cell) (hm : c.ax.motor = .stepper) : c.toHold.ax.mot.mode ∈ [Mode.stopping, .hold, .fallow] := by
  have hg : ∀ d : Cell, d.endGrip.ax.mot = d.ax.mot ∧ d.endGrip.ax.motor = d.ax.motor := fun d => by
    unfold Cell.endGrip
    extract_lets a
    split <;> exact ⟨rfl, rfl⟩
  unfold Cell.toHold
  extract_lets a d e
  have hmode : e.ax.mot.mode = .hold := congrArg Motion.mode (hg (d.reg _)).1
  have hmot : e.ax.motor = .stepper := (hg (d.reg _)).2.trans hm
  split
  · simp [hmode]
  · split
    · simp [e.goFallow_mode, hmot]
    · show e.ax.mot.mode ∈ _
      simp [hmode]

theorem Cell.endJob_motor (c : Cell) (done : Bool) : (c.endJob done).ax.motor = c.ax.motor :=
  Cell.motor_of_loaded (c.endJob_loaded done)

theorem Cell.lifeCycle_motor (c : Cell) : c.lifeCycle.ax.motor = c.ax.motor := by
  unfold Cell.lifeCycle
  repeat' split
  all_goals rfl

theorem Cell.toHold_motor (c : Cell) : c.toHold.ax.motor = c.ax.motor := by
  have hf : ∀ d : Cell, d.goFallow.ax.motor = d.ax.motor := fun d => Cell.motor_of_loaded d.goFallow_loaded
  have hg : ∀ d : Cell, d.endGrip.ax.motor = d.ax.motor := fun d => by
    unfold Cell.endGrip
    extract_lets a
    split <;> rfl
  unfold Cell.toHold
  extract_lets a d e
  have he : e.ax.motor = c.ax.motor := hg (d.reg _)
  split
  · exact he
  · split
    · exact (hf e).trans he
    · exact he

theorem Cell.stopDone_mode (c : Cell) (hm : c.ax.motor = .stepper) : c.stopDone.ax.mot.mode ∈ [Mode.stopping, .hold, .fallow] := by
  unfold Cell.stopDone
  extract_lets seq fallow d e
  have hj : (d.lifeCycle.endJob false).ax.motor = .stepper := by
    rw [Cell.endJob_motor, Cell.lifeCycle_motor]
    exact hm
  split
  · simp [e.goFallow_mode, show e.ax.motor = .stepper by rw [show e = (d.lifeCycle.endJob false).toHold from rfl, Cell.toHold_motor, hj]]
  · exact Cell.toHold_mode _ hj

theorem Cell.stopAlong_mode (c : Cell) (k : StopKind) (p : Prof) (hm : c.ax.motor = .stepper) :
    (c.stopAlong k p).ax.mot.mode ∈ [Mode.stopping, .hold, .fallow] := by
  unfold Cell.stopAlong
  extract_lets d
  split
  · exact d.stopDone_mode hm
  · simp [d]

/-- A stop ends the profile of a stepper that ramps with a ramp, or at rest (06 R197). -/
theorem Cell.stop_mode_of_ramps (c : Cell) (h : c.ax.ramps false = true) : (c.stop .stop).ax.mot.mode ∈ [Mode.stopping, .hold, .fallow] := by
  simp only [Axis.ramps, Bool.and_eq_true, Bool.false_or, Bool.or_eq_true, bne_iff_ne, ne_eq, Bool.not_eq_true', decide_eq_true_eq,
    Option.isNone_iff_eq_none] at h
  obtain ⟨⟨⟨⟨⟨hst, hrun⟩, hmode⟩, hsb⟩, hfrom⟩, hpos⟩ := h
  have hm : c.ax.motor = .stepper := by simpa [Axis.stepper] using hst
  have hbl : c.ax.brushless = false := by simp [Axis.brushless, hm]
  have hseg : (decide (c.ax.mot.mode = .position) && decide (5 ≤ c.ax.seg)) = false := by
    rcases hpos with hpos | hpos
    · simp [hpos]
    · simp [Nat.not_le.2 hpos]
  unfold Cell.stop
  extract_lets a m d1 d e f g from_
  simp only [a, m, hrun, hbl, hsb, hmode, hfrom, Bool.not_true, Bool.false_and, Bool.false_eq_true, if_false, Option.elim, Bool.and_false]
  rw [if_neg]
  · refine Cell.stopAlong_mode _ _ _ ?_
    have hh : ∀ x : Cell, x.homeFail.ax.motor = x.ax.motor := fun x => Cell.motor_of_loaded x.homeFail_loaded
    exact (hh d).trans hm
  · simpa using hseg

/-! ### What waits in short-circuit handling (02 R69) -/

theorem Cell.orDefer_of_handling (c : Cell) (d : Deferred) (f : Cell → Cell) (h : c.ax.handling = true) :
    c.orDefer d f = c.legs fun l => { l with deferred := l.deferred ++ [d] } := by
  unfold Axis.handling at h
  unfold Cell.orDefer
  split at h <;> simp_all

theorem Cell.orDefer_of_not_handling (c : Cell) (d : Deferred) (f : Cell → Cell) (h : c.ax.handling = false) : c.orDefer d f = f c := by
  unfold Axis.handling at h
  unfold Cell.orDefer
  split at h <;> simp_all

theorem Cell.orDefer_calm (c : Cell) (d : Deferred) {f : Cell → Cell} (h : c.Calm (f c)) : c.Calm (c.orDefer d f) := by
  cases hh : c.ax.handling
  · rwa [c.orDefer_of_not_handling d f hh]
  · rw [c.orDefer_of_handling d f hh]
    exact .of_mot rfl rfl

/-! ### Supervision (01 R14) -/

/-- Marking a cell as held changes neither its handling nor whether a stop ramps it. -/
theorem Axis.ramps_setHeld (a : Axis) (q : Bool) : (a.setB AX.AX_SUPV.HELD true).ramps q = a.ramps q := by
  have hb : (a.setB AX.AX_SUPV.HELD true).b AX.LEDG_AX.SB_STOP = a.b AX.LEDG_AX.SB_STOP :=
    Axis.b_of_r (a.r_setB_apart _ (by decide))
  simp only [Axis.ramps, hb]
  rfl

theorem Cell.supervise_calm (c : Cell) : (c.setB AX.AX_SUPV.HELD true).Calm c.supervise :=
  Cell.orDefer_calm _ _ (.ite (Cell.stop_calm _ _) (.refl _))

theorem Cell.supervise_held (c : Cell) : c.supervise.ax.b AX.AX_SUPV.HELD = true := by
  have h := c.supervise_calm.supv
  have hb : c.supervise.ax.b AX.AX_SUPV.HELD = (c.setB AX.AX_SUPV.HELD true).ax.b AX.AX_SUPV.HELD := by
    simp only [Axis.b, Fld.get, h]
  exact hb.trans (Axis.b_setB_same c.ax _ true (by decide) (by decide) (by decide))

theorem Cell.supervise_of_handling (c : Cell) (h : c.ax.handling = true) :
    c.supervise.ax.legs.deferred = c.ax.legs.deferred ++ [.stop] ∧ c.supervise.ax.mot = c.ax.mot := by
  have hh : (c.setB AX.AX_SUPV.HELD true).ax.handling = true := h
  unfold Cell.supervise
  rw [Cell.orDefer_of_handling _ _ _ hh]
  exact ⟨rfl, rfl⟩

theorem Cell.supervise_of_rest (c : Cell) (h : c.ax.handling = false) (hr : c.ax.mot.mode.running = false) : c.supervise.ax.mot = c.ax.mot := by
  have hh : (c.setB AX.AX_SUPV.HELD true).ax.handling = false := h
  unfold Cell.supervise
  rw [Cell.orDefer_of_not_handling _ _ _ hh, if_neg]
  · rfl
  · show ¬ c.ax.mot.mode.running = true
    simp [hr]

theorem Cell.supervise_of_running (c : Cell) (h : c.ax.handling = false) (hr : c.ax.mot.mode.running = true) :
    c.supervise = (c.setB AX.AX_SUPV.HELD true).stop .stop := by
  have hh : (c.setB AX.AX_SUPV.HELD true).ax.handling = false := h
  unfold Cell.supervise
  rw [Cell.orDefer_of_not_handling _ _ _ hh, if_pos]
  exact hr

theorem Cell.supervise_ramps (c : Cell) (h : c.ax.handling = false) (hr : c.ax.ramps false = true) :
    c.supervise.ax.mot.mode ∈ [Mode.stopping, .hold, .fallow] := by
  have hrun : c.ax.mot.mode.running = true := by
    simp only [Axis.ramps, Bool.and_eq_true] at hr
    exact hr.1.1.1.1.2
  rw [c.supervise_of_running h hrun]
  exact Cell.stop_mode_of_ramps _ (by rw [Cell.setB_ax, Axis.ramps_setHeld, hr])

end Sys2Proof.Machine
end

section
/-!
The planner's events but the swath (07 R246 to R254, 01 R14): supervision, the chopper, the short-brake at 82 V and reserve operation, each
clause of `Obligations.PlannerEventsAct` but those of the swath start as a lemma of its own.
-/

namespace Sys2Proof.Machine

open Sys2Proof.Safety

/-- A command that acts on the module alone completes, with what its effect leaves. -/
theorem does_of_onBlk {c : Instr} {s : State} {f : Blk → Blk} {P : Blk → Prop} (h : exec c s = onBlk f s) (hp : P (f s.blk)) : Does c s P :=
  ⟨{ s with blk := f s.blk }, h, rfl, hp⟩

/-! ### Supervision (01 R14) -/

theorem supervisionTimeout_held (s : State) (n : Fin 48) (h : 50 ≤ (s.blk.axis n).r AX.AX_SUPV.AGE) :
    Does (.supervisionTimeout n) s fun t => s.blk.only t n ∧ s.blk.still t ∧ (t.axis n).b AX.AX_SUPV.HELD = true
      ∧ (t.axis n).mot.pCmd = (s.blk.axis n).mot.pCmd
      ∧ (if (s.blk.axis n).handling = true then
          (t.axis n).legs.deferred = (s.blk.axis n).legs.deferred ++ [.stop] ∧ (t.axis n).mot = (s.blk.axis n).mot
        else if (s.blk.axis n).mot.mode.running = false then (t.axis n).mot = (s.blk.axis n).mot
        else (t.axis n).mot.waiting = none
          ∧ ((s.blk.axis n).ramps false = true → (t.axis n).mot.mode ∈ [.stopping, .hold, .fallow])) := by
  refine does_of_onBlk (f := fun b => b.cell n fun c => if c.ax.r AX.AX_SUPV.AGE < 50 then c else c.supervise) rfl ?_
  have hstep : ∀ g : Cell → Cell, (∀ c : Cell, c.ax = s.blk.axis n → g c = c.supervise) →
      s.blk.cell n g = s.blk.cell n Cell.supervise := fun g hg => by
    unfold Blk.cell
    rw [hg (s.blk.cellOf n) rfl]
  rw [hstep _ fun c hc => if_neg (by rw [hc]; omega)]
  refine ⟨fun m hm => s.blk.cell_axis_ne _ hm, Blk.still_of_frame (Blk.cell_frame ..), ?_, ?_, ?_⟩
  · rw [Axis.b_of_plainRegs (Blk.cell_axis_plainRegs ..) (by decide)]
    exact Cell.supervise_held _
  · rw [Blk.cell_axis_mot]
    exact (Cell.supervise_calm _).pos
  · simp only [Blk.cell_axis_mot, Blk.cell_axis_legs]
    split
    · next hh => exact Cell.supervise_of_handling _ hh
    · next hh =>
      have hh : (s.blk.axis n).handling = false := by simpa using hh
      split
      · next hr => exact Cell.supervise_of_rest _ hh hr
      · next hr =>
        refine ⟨?_, Cell.supervise_ramps (s.blk.cellOf n) hh⟩
        rw [Cell.supervise_of_running _ hh (eq_true_of_ne_false hr)]
        exact (Cell.stop_drained _ _).1

theorem supervisionTimeout_early (s : State) (n : Fin 48) (h : (s.blk.axis n).r AX.AX_SUPV.AGE < 50) :
    Does (.supervisionTimeout n) s fun t => t.ax = s.blk.ax ∧ s.blk.still t := by
  refine does_of_onBlk (f := fun b => b.cell n fun c => if c.ax.r AX.AX_SUPV.AGE < 50 then c else c.supervise) rfl ?_
  rw [Blk.cell_of_same s.blk n (f := fun c => if c.ax.r AX.AX_SUPV.AGE < 50 then c else c.supervise) (if_pos h)]
  exact ⟨rfl, Blk.still_of_frame rfl⟩

/-! ### The chopper (07 R246, R247) -/

/-- What setting a field of the module's registers leaves: all but the register. -/
theorem Blk.setB_leaves (b : Blk) (f : Fld) (v : Bool) : (b.setB f v).ax = b.ax ∧ (b.setB f v).rest = b.rest ∧
    (b.setB f v).planes = b.planes ∧ (b.setB f v).sess = b.sess ∧ ∀ i : Fin 356, i.val ≠ f.reg → (b.setB f v).regs.get i = b.regs.get i :=
  ⟨rfl, rfl, rfl, rfl, b.setB_regs_ne f v⟩

theorem Blk.chopOn_set (b : Blk) (v : Bool) : (b.setB LEDG.STAT.CHOP_ON v).bit LEDG.STAT.CHOP_ON = v :=
  b.bit_setB_same _ v (by decide) (by decide) (by decide)

theorem Blk.chopFault_setOn (b : Blk) (v : Bool) : (b.setB LEDG.STAT.CHOP_ON v).bit LEDG.STAT.CHOP_FAULT = b.bit LEDG.STAT.CHOP_FAULT :=
  b.bit_setB_apart v (by decide)

theorem chopperOn_shows (s : State) (mV : Nat) :
    Does (.chopperOn mV) s fun t => t.ax = s.blk.ax ∧ t.rest = s.blk.rest ∧ t.planes = s.blk.planes ∧ t.sess = s.blk.sess
      ∧ (∀ i : Fin 356, i.val ≠ LEDG.STAT.CHOP_ON.reg → t.regs.get i = s.blk.regs.get i)
      ∧ t.bit LEDG.STAT.CHOP_FAULT = s.blk.bit LEDG.STAT.CHOP_FAULT
      ∧ t.bit LEDG.STAT.CHOP_ON = (s.blk.bit LEDG.STAT.CHOP_ON || (decide (78000 ≤ mV) && s.blk.pw.gd)) := by
  refine does_of_onBlk (f := fun b => if 78000 ≤ mV && b.pw.gd then b.setB LEDG.STAT.CHOP_ON true else b) rfl ?_
  cases hc : decide (78000 ≤ mV) && s.blk.pw.gd
  · rw [if_neg (by simp)]
    exact ⟨rfl, rfl, rfl, rfl, fun _ _ => rfl, rfl, (Bool.or_false _).symm⟩
  · rw [if_pos rfl, Bool.or_true]
    obtain ⟨hax, hrest, hpl, hse, hr⟩ := s.blk.setB_leaves LEDG.STAT.CHOP_ON true
    exact ⟨hax, hrest, hpl, hse, hr, s.blk.chopFault_setOn _, s.blk.chopOn_set _⟩

theorem chopperOff_shows (s : State) (mV : Nat) :
    Does (.chopperOff mV) s fun t => t.ax = s.blk.ax ∧ t.rest = s.blk.rest ∧ t.planes = s.blk.planes ∧ t.sess = s.blk.sess
      ∧ (∀ i : Fin 356, i.val ≠ LEDG.STAT.CHOP_ON.reg → t.regs.get i = s.blk.regs.get i)
      ∧ t.bit LEDG.STAT.CHOP_FAULT = s.blk.bit LEDG.STAT.CHOP_FAULT
      ∧ t.bit LEDG.STAT.CHOP_ON = (s.blk.bit LEDG.STAT.CHOP_ON && decide (77000 ≤ mV)) := by
  refine does_of_onBlk (f := fun b => if mV < 77000 then b.setB LEDG.STAT.CHOP_ON false else b) rfl ?_
  by_cases hc : mV < 77000
  · rw [if_pos hc, decide_eq_false (Nat.not_le.2 hc), Bool.and_false]
    obtain ⟨hax, hrest, hpl, hse, hr⟩ := s.blk.setB_leaves LEDG.STAT.CHOP_ON false
    exact ⟨hax, hrest, hpl, hse, hr, s.blk.chopFault_setOn _, s.blk.chopOn_set _⟩
  · rw [if_neg hc, decide_eq_true (Nat.not_lt.1 hc), Bool.and_true]
    exact ⟨rfl, rfl, rfl, rfl, fun _ _ => rfl, rfl, rfl⟩

/-- A flag with its event (11 R400): the module keeps its frame and its axes, and the flag stands. -/
theorem Blk.raise_event (b : Blk) (f : Flag) (k t x : Nat) (hev : f.ev < 16) (hf : f.bit < 24) :
    ((b.raise [f]).event k t x []).frame = b.frame ∧ ((b.raise [f]).event k t x []).ax = b.ax ∧ ((b.raise [f]).event k t x []).flagged f :=
  ⟨(Blk.event_frame ..).trans (b.raise_frame _), (Blk.event_ax ..).trans (b.raise_ax _),
    Blk.event_flagged _ _ _ _ _ hf (b.flagged_raise (by simp) hev hf)⟩

theorem Blk.bit_of_frame {b t : Blk} (h : t.frame = b.frame) {f : Fld} (hf : f.reg ∉ modEvRegs) : t.bit f = b.bit f :=
  Blk.bit_of_plainRegs (congrArg (·.2.2) h) hf

theorem chopFault_marks (s : State) :
    Does .chopFault s fun t => t.ax = s.blk.ax ∧ t.rest = s.blk.rest ∧ t.owning = s.blk.owning ∧ t.bit LEDG.STAT.CHOP_FAULT = true
      ∧ t.bit LEDG.STAT.CHOP_ON = s.blk.bit LEDG.STAT.CHOP_ON
      ∧ (if s.blk.bit LEDG.STAT.CHOP_FAULT = true then t = s.blk else t.flagged LEDG.EVT.CHOP_FAULT) := by
  refine does_of_onBlk (f := Blk.chopperFails) rfl ?_
  unfold Blk.chopperFails
  by_cases hc : s.blk.bit LEDG.STAT.CHOP_FAULT = true
  · rw [if_pos hc, if_pos hc]
    exact ⟨rfl, rfl, rfl, hc, rfl, rfl⟩
  · rw [if_neg hc, if_neg hc]
    obtain ⟨hfr, hax, hfl⟩ := (s.blk.setB LEDG.STAT.CHOP_FAULT true).raise_event LEDG.EVT.CHOP_FAULT 0x12 0xFE 0xFE (by decide) (by decide)
    refine ⟨hax, congrArg Prod.fst hfr, congrArg (·.2.1) hfr, ?_, ?_, hfl⟩
    · rw [Blk.bit_of_frame hfr (by decide)]
      exact s.blk.bit_setB_same _ true (by decide) (by decide) (by decide)
    · rw [Blk.bit_of_frame hfr (by decide)]
      exact s.blk.bit_setB_apart true (by decide)

/-! ### The short-brake at 82 V (07 R250) -/

/-- A cell that 82 V brakes (07 R250). -/
def Axis.opposes (a : Axis) : Prop := a.mot.mode.running = true ∧ a.starting = false ∧ a.mot.prof.v * a.mot.prof.a < 0

theorem Cell.sb82_of_not (c : Cell) (h : ¬ c.ax.opposes) : c.sb82 = c := by
  unfold Cell.sb82
  refine if_pos ?_
  unfold Axis.opposes at h
  simp only [Bool.or_eq_true, Bool.not_eq_true', decide_eq_false_iff_not]
  cases hr : c.ax.mot.mode.running
  · simp
  · cases hs : c.ax.starting
    · exact Or.inr fun hv => h ⟨hr, hs, hv⟩
    · simp

/-- What short-braking leaves of the motion, and why it brakes. -/
theorem Cell.startBrake_mot (c : Cell) (w : Brake) : (c.startBrake w).ax.mot =
    { c.ax.mot with mode := .park, prof := { p := c.ax.mot.pCmd }, stop := .none, engage := none, camWait := none, depth := 0 } := by
  unfold Cell.startBrake
  extract_lets d e
  split <;> rfl

theorem Cell.startBrake_brake (c : Cell) (w : Brake) : (c.startBrake w).ax.bl.brake = w := by
  unfold Cell.startBrake
  extract_lets d e
  split <;> rfl

theorem Cell.startBrake_flags (c : Cell) (w : Brake) : (c.startBrake w).flags = c.flags := by
  unfold Cell.startBrake
  extract_lets d e
  split <;> rfl

theorem Cell.setUnc_flags (c : Cell) {f : Flag} (h : f ∈ c.flags) : f ∈ c.setUnc.flags := by
  unfold Cell.setUnc
  split
  · show f ∈ (c.raiseIf _ _).flags
    unfold Cell.raiseIf
    split
    · exact List.mem_append_left _ h
    · exact h
  · exact h

theorem Cell.endJob_flags (c : Cell) (done : Bool) : (c.endJob done).flags = c.flags := by
  unfold Cell.endJob
  split
  · rfl
  · extract_lets e dev d1 d2 l d3
    have h2 : d2.flags = c.flags := ite_keeps Cell.flags rfl rfl
    exact (ite_keeps Cell.flags rfl rfl : d3.flags = d2.flags).trans h2

/-- The position of a stepper that the brake takes is uncertain (07 R250). -/
theorem Cell.startBrake_setUnc_posUnc (c : Cell) (w : Brake) (h : c.ax.motor = .stepper) : (c.setUnc.startBrake w).ax.posUnc = true := by
  have hbl : c.ax.brushless = false := by simp [Axis.brushless, h]
  have hu : c.setUnc = (c.setB AX.ST_STAT.POS_UNC true).setB AX.ST_STAT.HOMED false := by
    unfold Cell.setUnc
    rw [if_neg (by simp [hbl])]
  have hs : ∀ d : Cell, d.ax.brushless = false → (d.startBrake w).ax.posUnc = d.ax.posUnc := fun d hd => by
    unfold Cell.startBrake
    extract_lets x y
    rw [if_neg (by rw [show y.ax.brushless = d.ax.brushless from rfl, hd]; simp)]
    rfl
  rw [hs _ (by rw [hu]; exact hbl), hu]
  show (if c.ax.brushless = true then _ else _) = true
  rw [if_neg (by simp [hbl])]
  have hb := (c.ax.setB AX.ST_STAT.POS_UNC true).r_setB_apart (g := AX.ST_STAT.POS_UNC) (f := AX.ST_STAT.HOMED) false (by decide)
  exact (Axis.b_of_r hb).trans (Axis.b_setB_same c.ax _ true (by decide) (by decide) (by decide))

/-- A braked cell: parked where it stands by its short-brake, its move and what waited given up, and the loss reported. -/
theorem Cell.sb82_of_opposes (c : Cell) (h : c.ax.opposes) :
    c.sb82.ax.mot.mode = .park ∧ c.sb82.ax.bl.brake = .sb82 ∧ c.sb82.ax.mot.job = none ∧ c.sb82.ax.mot.waiting = none
      ∧ AX.MOT_EVT.ABANDONED ∈ c.sb82.flags ∧ c.sb82.ax.mot.pCmd = c.ax.mot.pCmd ∧ (c.ax.stepper = true → c.sb82.ax.posUnc = true) := by
  obtain ⟨hr, hs, hv⟩ := h
  unfold Cell.sb82
  extract_lets m d e
  rw [if_neg (by simp [m, hr, hs, hv])]
  have hd : c.Calm d := c.homeFail_calm.trans (.of_mot rfl rfl)
  have hj : d.Calm (d.discard.endJob false) := d.discard_calm.trans (Cell.endJob_calm _ _)
  have he : c.Calm e := (hd.trans hj).trans ((Cell.count_calm _ (by decide)).trans (Cell.mot_calm _ _))
  have hdr : e.ax.mot.drained := (Cell.endJob_calm d.discard false).drained d.discard_drained
  have hjob : e.ax.mot.job = none := Cell.endJob_job d.discard false
  have hfl : AX.MOT_EVT.ABANDONED ∈ e.flags := by
    show AX.MOT_EVT.ABANDONED ∈ (d.discard.endJob false).flags
    rw [Cell.endJob_flags]
    exact List.mem_append_right _ (by simp)
  have hmotor : e.ax.motor = c.ax.motor := by
    have h1 : e.loaded = (d.discard.endJob false).loaded := rfl
    have h2 : d.loaded = c.homeFail.loaded := rfl
    refine Cell.motor_of_loaded ?_
    rw [h1, Cell.endJob_loaded, Cell.discard, Cell.dropWaiting_loaded, h2, Cell.homeFail_loaded]
  generalize hu : (if e.ax.brushless = true then e else e.setUnc) = u
  have hum : u.ax.mot = e.ax.mot := by
    rw [← hu]
    exact ite_keeps (fun c : Cell => c.ax.mot) rfl e.setUnc_mot
  have huf : AX.MOT_EVT.ABANDONED ∈ u.flags := by
    rw [← hu]
    split
    · exact hfl
    · exact e.setUnc_flags hfl
  refine ⟨?_, Cell.startBrake_brake _ _, ?_, ?_, ?_, ?_, fun hst => ?_⟩
  · rw [Cell.startBrake_mot]
  · rw [Cell.startBrake_mot, hum]; exact hjob
  · rw [Cell.startBrake_mot, hum]; exact hdr.1
  · rw [Cell.startBrake_flags]; exact huf
  · rw [Cell.startBrake_mot, hum]; exact he.pos
  · have hm : e.ax.motor = .stepper := by rw [hmotor]; simpa [Axis.stepper] using hst
    rw [← hu, if_neg (by simp [Axis.brushless, hm])]
    exact e.startBrake_setUnc_posUnc _ hm

theorem Axis.posUnc_congr {a c : Axis} (hm : a.motor = c.motor) (hr : a.plainRegs = c.plainRegs) : a.posUnc = c.posUnc := by
  unfold Axis.posUnc Axis.brushless
  rw [hm, Axis.b_of_plainRegs hr (by decide), Axis.b_of_plainRegs hr (by decide)]

theorem shortBrake82V_brakes (s : State) :
    Does .shortBrake82V s fun t => s.blk.still t ∧ t.flagged LEDG.EVT.SB82 ∧ ∀ n,
      if (s.blk.axis n).mot.mode.running = true ∧ (s.blk.axis n).starting = false ∧ (s.blk.axis n).mot.prof.v * (s.blk.axis n).mot.prof.a < 0 then
      (t.axis n).mot.mode = .park ∧ (t.axis n).bl.brake = .sb82 ∧ (t.axis n).mot.job = none ∧ (t.axis n).mot.waiting = none
      ∧ (t.axis n).flagged AX.MOT_EVT.ABANDONED ∧ (t.axis n).mot.pCmd = (s.blk.axis n).mot.pCmd
      ∧ ((s.blk.axis n).stepper = true → (t.axis n).posUnc = true)
      else t.axis n = s.blk.axis n := by
  refine does_of_onBlk (f := fun b => (b.raise [LEDG.EVT.SB82]).cells allAxes fun _ c => c.sb82) rfl ?_
  refine ⟨Blk.still_of_frame ?_, ?_, fun n => ?_⟩
  · rw [Blk.cells_frame, Blk.raise_frame]
  · exact Blk.cells_flagged _ _ _ (by decide) (s.blk.flagged_raise (by simp) (by decide) (by decide))
  · obtain ⟨b, hcell, hax⟩ := (s.blk.raise [LEDG.EVT.SB82]).cells_axis_mem (fun _ c => c.sb82) allAxes_nodup (mem_allAxes n)
    have hn : (b.cellOf n).ax = s.blk.axis n := by rw [hcell]; exact Blk.raise_axis ..
    rw [hax]
    split
    · next h =>
      have ho : (b.cellOf n).ax.opposes := by rw [hn]; exact h
      obtain ⟨hmode, hbrake, hjob, hwait, hflag, hpos, hunc⟩ := Cell.sb82_of_opposes _ ho
      simp only [Blk.cell_axis_mot, Blk.cell_axis_bl]
      refine ⟨hmode, hbrake, hjob, hwait, Blk.cell_axis_flagged _ _ _ hflag (by decide) (by decide), hpos.trans (by rw [hn]), fun hst => ?_⟩
      rw [Axis.posUnc_congr (Blk.cell_axis_motor ..) (Blk.cell_axis_plainRegs ..)]
      exact hunc (by rw [hn]; exact hst)
    · next h =>
      have ho : ¬ (b.cellOf n).ax.opposes := by rw [hn]; exact h
      rw [Blk.cell_of_same b n (Cell.sb82_of_not _ ho)]
      exact hn

end Sys2Proof.Machine
end

section
/-!
Withdrawals and reserve operation (07 R248 to R254): a withdrawal takes what waits from one axis and leaves the rest of the module, and at
the entry of reserve operation nothing moves but the stops of what runs.
-/

namespace Sys2Proof.Machine

open Sys2Proof.Safety

/-! ### What the planner leaves of the module -/

/-- What of the module, outside its axes, registers and sequence, no step of the planner changes but where it says so. -/
structure Core where
  sm : Vector SmPort 2
  owning : Option (Byte × Byte × Nat × Bool)
  pw : Power
  sides : Vector SideS 2
  nap : NapSt
  act : Option Side
  swath : Nat
  tick : Nat
  supply : Int
  budget : Vector Word 12
  cands : List Cand
  hold : Option Nat

def Blk.core (b : Blk) : Core :=
  ⟨b.sm, b.owning, b.pw, b.sides, b.nap, b.act, b.swath, b.tick, b.plan.supply, b.plan.budget, b.plan.cands, b.plan.hold⟩

theorem Blk.core_of_frame {b t : Blk} (h : t.frame = b.frame) : t.core = b.core := by
  have hr : t.rest = b.rest := congrArg Prod.fst h
  have ho : t.owning = b.owning := congrArg (·.2.1) h
  have hsm : t.sm = b.sm := by have e := congrArg Blk.sm hr; exact e
  have hpw : t.pw = b.pw := by have e := congrArg Blk.pw hr; exact e
  have hsides : t.sides = b.sides := by have e := congrArg Blk.sides hr; exact e
  have hnap : t.nap = b.nap := by have e := congrArg Blk.nap hr; exact e
  have hact : t.act = b.act := by have e := congrArg Blk.act hr; exact e
  have hswath : t.swath = b.swath := by have e := congrArg Blk.swath hr; exact e
  have htick : t.tick = b.tick := by have e := congrArg Blk.tick hr; exact e
  have hplan : t.plan = b.plan := by have e := congrArg Blk.plan hr; exact e
  simp only [Blk.core, ho, hsm, hpw, hsides, hnap, hact, hswath, htick, hplan]

/-- The core, the sequence and the plain registers of the module. -/
def Blk.outer (b : Blk) : Core × Vector PlaneSt 3 × (Fin 356 → Word) := (b.core, b.planes, b.plainRegs)

theorem Blk.outer_of_frame {b t : Blk} (h : t.frame = b.frame) (hp : t.planes = b.planes) : t.outer = b.outer := by
  simp only [Blk.outer, Blk.core_of_frame h, hp, show t.plainRegs = b.plainRegs from congrArg (·.2.2) h]

theorem Blk.core_of_outer {b t : Blk} (h : t.outer = b.outer) : t.core = b.core := (Prod.mk.inj h).1
theorem Blk.planes_of_outer {b t : Blk} (h : t.outer = b.outer) : t.planes = b.planes := (Prod.mk.inj (Prod.mk.inj h).2).1
theorem Blk.plainRegs_of_outer {b t : Blk} (h : t.outer = b.outer) : t.plainRegs = b.plainRegs := (Prod.mk.inj (Prod.mk.inj h).2).2

theorem Blk.sm_of_core {b : Blk} {c : Core} (h : b.core = c) : b.sm = c.sm := congrArg Core.sm h
theorem Blk.owning_of_core {b : Blk} {c : Core} (h : b.core = c) : b.owning = c.owning := congrArg Core.owning h
theorem Blk.pw_of_core {b : Blk} {c : Core} (h : b.core = c) : b.pw = c.pw := congrArg Core.pw h
theorem Blk.act_of_core {b : Blk} {c : Core} (h : b.core = c) : b.act = c.act := congrArg Core.act h
theorem Blk.swath_of_core {b : Blk} {c : Core} (h : b.core = c) : b.swath = c.swath := congrArg Core.swath h
theorem Blk.budget_of_core {b : Blk} {c : Core} (h : b.core = c) : b.plan.budget = c.budget := congrArg Core.budget h
theorem Blk.cands_of_core {b : Blk} {c : Core} (h : b.core = c) : b.plan.cands = c.cands := congrArg Core.cands h
theorem Blk.hold_of_core {b : Blk} {c : Core} (h : b.core = c) : b.plan.hold = c.hold := congrArg Core.hold h

theorem Blk.cells_outer (b : Blk) (l : List (Fin 48)) (f : Fin 48 → Cell → Cell) : (b.cells l f).outer = b.outer :=
  Blk.outer_of_frame (b.cells_frame l f) (b.cells_planes l f)

/-! ### Withdrawals (07 R248) -/

/-- The motion of an axis whose admissions are withdrawn: it stays in its mode. -/
def Motion.withdrawn (m : Motion) : Motion :=
  { m with waiting := none, queued := none, camWait := none, job := if m.camWait.isSome then none else m.job }

theorem Motion.withdrawn_drained (m : Motion) : m.withdrawn.drained := ⟨rfl, rfl⟩

theorem Blk.reportWithdrawn_ax (b : Blk) (n : Fin 48) (seq : Nat) (pl : Plane) : (b.reportWithdrawn n seq pl).ax = b.ax :=
  (Blk.event_ax ..).trans (b.raise_ax _)

theorem Blk.reportWithdrawn_outer (b : Blk) (n : Fin 48) (seq : Nat) (pl : Plane) : (b.reportWithdrawn n seq pl).outer = b.outer :=
  Blk.outer_of_frame ((Blk.event_frame ..).trans (b.raise_frame _)) ((Blk.event_planes ..).trans (b.raise_planes _))

theorem Blk.reportWithdrawn_plan (b : Blk) (n : Fin 48) (seq : Nat) (pl : Plane) : (b.reportWithdrawn n seq pl).plan = b.plan :=
  (Blk.event_plan ..).trans (b.raise_plan _)

/-- The groups of the planner are not part of `Blk.outer`. -/
theorem Blk.outer_withGroups {b : Blk} {p : Planner} (h : b.plan = p) (g : List GrpRun) :
    ({ b with plan := { p with groups := g } } : Blk).outer = b.outer := by
  subst h
  rfl

theorem Blk.reportWithdrawn_flagged (b : Blk) (n : Fin 48) (seq : Nat) (pl : Plane) {f : Flag} (hf : f.bit < 24) (h : b.flagged f) :
    (b.reportWithdrawn n seq pl).flagged f := Blk.event_flagged _ _ _ _ _ hf (b.raise_flagged _ hf h)

/-- A module after reports: axes, core, sequence and plain registers as they were, and every flag that stood. -/
structure Blk.Reported (b c : Blk) : Prop where
  ax : c.ax = b.ax
  outer : c.outer = b.outer
  flagged : ∀ f : Flag, f.bit < 24 → b.flagged f → c.flagged f

theorem Blk.Reported.report {b c : Blk} (h : b.Reported c) (n : Fin 48) (k : Nat) (pl : Plane) : b.Reported (c.reportWithdrawn n k pl) :=
  ⟨(c.reportWithdrawn_ax n k pl).trans h.ax, (c.reportWithdrawn_outer n k pl).trans h.outer,
    fun f hb hf => c.reportWithdrawn_flagged n k pl hb (h.flagged f hb hf)⟩

theorem Blk.Reported.withGroups {b c : Blk} (h : b.Reported c) {p : Planner} (hp : c.plan = p) (g : List GrpRun) :
    b.Reported { c with plan := { p with groups := g } } :=
  ⟨h.ax, (Blk.outer_withGroups hp g).trans h.outer, h.flagged⟩

/-- A withdrawal is its reports, and then a step on its axis alone. -/
theorem Blk.withdrawMove_reports (b : Blk) (n : Fin 48) : ∃ c : Blk, b.Reported c
    ∧ b.withdrawMove n = c.mapAx n fun a => Axis.replan c.swath { a with
        mot := { a.mot with waiting := none, queued := none, camWait := none, job := if (b.axis n).mot.camWait.isSome then none else a.mot.job }
        plan := { a.plan with id := none, held := none } } := by
  unfold Blk.withdrawMove
  extract_lets m c d
  have hc : b.Reported c := by
    refine List.foldlRecOn (motive := b.Reported) _ _ ⟨rfl, rfl, fun _ _ h => h⟩ fun c hc x _ => ?_
    cases x with
    | none => exact hc
    | some w => exact (hc.report n w.move.seq w.move.plane).withGroups (c.reportWithdrawn_plan n _ _) _
  have hd : b.Reported d := by
    simp only [d]
    cases m.camWait with
    | none => exact hc
    | some w => exact hc.report n w.2.1 w.2.2
  exact ⟨d, hd, rfl⟩

theorem Blk.withdrawMove_outer (b : Blk) (n : Fin 48) : (b.withdrawMove n).outer = b.outer := by
  obtain ⟨c, hc, he⟩ := b.withdrawMove_reports n
  rw [he]
  exact hc.outer

theorem Blk.withdrawMove_flagged (b : Blk) (n : Fin 48) {f : Flag} (hf : f.bit < 24) (h : b.flagged f) : (b.withdrawMove n).flagged f := by
  obtain ⟨c, hc, he⟩ := b.withdrawMove_reports n
  rw [he]
  exact hc.flagged f hf h

theorem Blk.withdrawMove_axis_ne (b : Blk) {n m : Fin 48} (h : m ≠ n) : (b.withdrawMove n).axis m = b.axis m := by
  obtain ⟨c, hc, he⟩ := b.withdrawMove_reports n
  rw [he, Blk.axis_mapAx_ne _ _ h]
  exact Blk.axis_of_ax hc.ax m

theorem Blk.withdrawMove_axis (b : Blk) (n : Fin 48) :
    ∃ p q, (b.withdrawMove n).axis n = { b.axis n with mot := (b.axis n).mot.withdrawn, plan := p, planned := q } := by
  obtain ⟨c, hc, he⟩ := b.withdrawMove_reports n
  rw [he, Blk.axis_mapAx, Blk.axis_of_ax hc.ax n]
  exact ⟨_, _, rfl⟩

/-- A withdrawal leaves an axis as it is, or withdraws what waits on it. -/
theorem Blk.withdrawMove_cases (b : Blk) (n m : Fin 48) : (b.withdrawMove n).axis m = b.axis m
    ∨ ∃ p q, (b.withdrawMove n).axis m = { b.axis m with mot := (b.axis m).mot.withdrawn, plan := p, planned := q } := by
  by_cases h : m = n
  · exact Or.inr (h ▸ b.withdrawMove_axis n)
  · exact Or.inl (b.withdrawMove_axis_ne h)

theorem Blk.withdrawMove_drained (b : Blk) (n m : Fin 48) (h : (b.axis m).mot.drained) : ((b.withdrawMove n).axis m).mot.drained := by
  rcases b.withdrawMove_cases n m with e | ⟨p, q, e⟩
  · rwa [e]
  · rw [e]; exact Motion.withdrawn_drained _

/-- Where an axis is commanded to, and in what mode. -/
def Blk.place (b : Blk) (n : Fin 48) : Int × Mode := ((b.axis n).mot.pCmd, (b.axis n).mot.mode)

theorem Blk.withdrawMove_place (b : Blk) (n : Fin 48) : (b.withdrawMove n).place = b.place := by
  funext m
  unfold Blk.place
  rcases b.withdrawMove_cases n m with e | ⟨p, q, e⟩ <;> rw [e]
  rfl

/-! ### Axes by their places (07 R252) -/

theorem mem_placesBy (key : Fin 48 → Option (Nat × Nat)) {ns : List (Fin 48)} {n : Fin 48} (h : n ∈ ns) : ∃ l ∈ placesBy key ns, n ∈ l := by
  unfold placesBy
  refine foldl_reaches (I := fun _ => True) (P := fun acc : List (List (Fin 48)) => ∃ l ∈ acc, n ∈ l) _ _ h (fun _ _ _ _ => trivial)
    (fun acc _ => ?_) (fun acc y _ ⟨l, hl, hn⟩ => ?_) trivial
  · dsimp only
    split
    · exact ⟨[n], by simp, by simp⟩
    · next k _ =>
      split
      · next hany =>
        obtain ⟨l, hl, hs⟩ := List.any_eq_true.1 hany
        exact ⟨l ++ [n], List.mem_map.2 ⟨l, hl, if_pos hs⟩, by simp⟩
      · exact ⟨[n], by simp, by simp⟩
  · dsimp only
    split
    · exact ⟨l, List.mem_append_left _ hl, hn⟩
    · split
      · refine ⟨_, List.mem_map.2 ⟨l, hl, rfl⟩, ?_⟩
        split
        · exact List.mem_append_left _ hn
        · exact hn
      · exact ⟨l, List.mem_append_left _ hl, hn⟩

theorem mem_of_placesBy (key : Fin 48 → Option (Nat × Nat)) (ns : List (Fin 48)) : ∀ l ∈ placesBy key ns, ∀ n ∈ l, n ∈ ns := by
  unfold placesBy
  refine List.foldlRecOn (motive := fun acc : List (List (Fin 48)) => ∀ l ∈ acc, ∀ n ∈ l, n ∈ ns) _ _ (by simp) fun acc ih y hy => ?_
  have happ : ∀ l ∈ acc ++ [[y]], ∀ n ∈ l, n ∈ ns := fun l hl n hn => by
    rcases List.mem_append.1 hl with hl | hl
    · exact ih l hl n hn
    · rw [List.mem_singleton.1 hl, List.mem_singleton] at hn
      exact hn ▸ hy
  dsimp only
  split
  · exact happ
  · split
    · intro l hl n hn
      obtain ⟨l', hl', rfl⟩ := List.mem_map.1 hl
      split at hn
      · rcases List.mem_append.1 hn with hn | hn
        · exact ih l' hl' n hn
        · exact List.mem_singleton.1 hn ▸ hy
      · exact ih l' hl' n hn
    · exact happ

/-! ### What waits at the entry of reserve operation (07 R252) -/

/-- A move that waits on the axis, or behind another, is not tagged. -/
def Motion.untagged (m : Motion) : Prop := (∃ w ∈ m.waiting, w.move.tagged = false) ∨ (∃ w ∈ m.queued, w.move.tagged = false)

theorem Blk.withdrawAll_outer (b : Blk) (ns : List (Fin 48)) : (ns.foldl Blk.withdrawMove b).outer = b.outer :=
  foldl_keeps Blk.outer _ Blk.withdrawMove_outer ns b

theorem Blk.withdrawAll_place (b : Blk) (ns : List (Fin 48)) : (ns.foldl Blk.withdrawMove b).place = b.place :=
  foldl_keeps Blk.place _ Blk.withdrawMove_place ns b

theorem Blk.withdrawAll_flagged (b : Blk) (ns : List (Fin 48)) {f : Flag} (hf : f.bit < 24) (h : b.flagged f) :
    (ns.foldl Blk.withdrawMove b).flagged f :=
  List.foldlRecOn (motive := fun b : Blk => b.flagged f) ns _ h fun b h n _ => b.withdrawMove_flagged n hf h

theorem Blk.withdrawAll_keeps_drained (b : Blk) (ns : List (Fin 48)) {m : Fin 48} (h : (b.axis m).mot.drained) :
    ((ns.foldl Blk.withdrawMove b).axis m).mot.drained :=
  List.foldlRecOn (motive := fun b : Blk => (b.axis m).mot.drained) ns _ h fun b h n _ => b.withdrawMove_drained n m h

theorem Blk.withdrawAll_drained (b : Blk) {ns : List (Fin 48)} {m : Fin 48} (h : m ∈ ns) : ((ns.foldl Blk.withdrawMove b).axis m).mot.drained := by
  refine foldl_reaches (I := fun _ => True) (P := fun b : Blk => (b.axis m).mot.drained) _ ns h (fun _ _ _ _ => trivial)
    (fun b _ => ?_) (fun b n _ h => b.withdrawMove_drained n m h) trivial
  obtain ⟨p, q, e⟩ := b.withdrawMove_axis m
  rw [e]
  exact Motion.withdrawn_drained _

theorem Blk.withdrawAll_axis_notMem (b : Blk) {ns : List (Fin 48)} {m : Fin 48} (h : m ∉ ns) :
    (ns.foldl Blk.withdrawMove b).axis m = b.axis m :=
  foldl_keeps_mem (fun b : Blk => b.axis m) _ ns (fun b _ hn => b.withdrawMove_axis_ne fun e => h (e ▸ hn)) b

theorem Blk.reserveWaiting_outer (b : Blk) : b.reserveWaiting.outer = b.outer :=
  foldl_keeps Blk.outer _ (fun c ns => ite_keeps Blk.outer (c.withdrawAll_outer ns) rfl) _ b

theorem Blk.reserveWaiting_place (b : Blk) : b.reserveWaiting.place = b.place :=
  foldl_keeps Blk.place _ (fun c ns => ite_keeps Blk.place (c.withdrawAll_place ns) rfl) _ b

theorem Blk.reserveWaiting_flagged (b : Blk) {f : Flag} (hf : f.bit < 24) (h : b.flagged f) : b.reserveWaiting.flagged f := by
  refine List.foldlRecOn (motive := fun b : Blk => b.flagged f) _ _ h fun c hc ns _ => ?_
  dsimp only
  split
  · exact c.withdrawAll_flagged ns hf hc
  · exact hc

/-- What waits without a tag has an admission that has not started. -/
theorem Blk.pendingSets_of_untagged (b : Blk) {n : Fin 48} (h : (b.axis n).mot.untagged) : ∃ ns ∈ b.pendingSets, n ∈ ns := by
  refine mem_placesBy _ (List.mem_filter.2 ⟨mem_allAxes n, ?_⟩)
  unfold Blk.pendingFrom
  rcases h with ⟨w, hw, _⟩ | ⟨w, hw, _⟩
  · rw [Option.mem_def] at hw
    simp [hw]
  · rw [Option.mem_def] at hw
    cases hw' : (b.axis n).mot.waiting <;> simp [hw, hw']

theorem Motion.not_all_tagged {m : Motion} (h : m.untagged) : ([m.waiting, m.queued].all fun w => w.elim true fun x => x.move.tagged) = false := by
  rcases h with ⟨w, hw, ht⟩ | ⟨w, hw, ht⟩
  · rw [Option.mem_def] at hw
    simp [hw, ht]
  · rw [Option.mem_def] at hw
    simp [hw, ht]

/-- What waits without a tag is withdrawn (07 R252). -/
theorem Blk.reserveWaiting_drained (b : Blk) {n : Fin 48} (h : (b.axis n).mot.untagged) : (b.reserveWaiting.axis n).mot.drained := by
  obtain ⟨ns, hns, hn⟩ := b.pendingSets_of_untagged h
  unfold Blk.reserveWaiting
  refine foldl_reaches (I := fun c : Blk => (c.axis n).mot = (b.axis n).mot ∨ (c.axis n).mot.drained)
    (P := fun c : Blk => (c.axis n).mot.drained) _ _ hns (fun c ms _ hc => ?_) (fun c hc => ?_) (fun c ms _ hc => ?_) (Or.inl rfl)
  · dsimp only
    split
    · by_cases hm : n ∈ ms
      · exact Or.inr (c.withdrawAll_drained hm)
      · rwa [c.withdrawAll_axis_notMem hm]
    · exact hc
  · rcases hc with hc | hc
    · rw [if_pos]
      · exact c.withdrawAll_drained hn
      · rw [Bool.or_eq_true, Bool.not_eq_true', List.all_eq_false]
        refine Or.inl ⟨n, hn, ?_⟩
        simp only [hc, Motion.not_all_tagged h, Bool.false_and, Bool.false_eq_true, not_false_eq_true]
    · dsimp only
      split
      · exact c.withdrawAll_keeps_drained ns hc
      · exact hc
  · dsimp only
    split
    · exact c.withdrawAll_keeps_drained ms hc
    · exact hc

/-! ### What runs at the entry of reserve operation (07 R252) -/

theorem Blk.cell_axis_calm (b : Blk) (n m : Fin 48) {f : Cell → Cell} (h : ∀ c : Cell, c.Calm (f c)) :
    ((b.cell n f).axis m).mot.pCmd = (b.axis m).mot.pCmd ∧ ((b.axis m).mot.drained → ((b.cell n f).axis m).mot.drained) := by
  by_cases hm : m = n
  · subst hm
    rw [Blk.cell_axis_mot]
    exact ⟨(h _).pos, (h (b.cellOf m)).drained⟩
  · rw [b.cell_axis_ne f hm]
    exact ⟨rfl, id⟩

theorem Blk.cells_axis_pos (b : Blk) (l : List (Fin 48)) (m : Fin 48) {f : Fin 48 → Cell → Cell} (h : ∀ n c, Cell.Calm c (f n c)) :
    ((b.cells l f).axis m).mot.pCmd = (b.axis m).mot.pCmd :=
  foldl_keeps (fun b : Blk => (b.axis m).mot.pCmd) _ (fun b n => (b.cell_axis_calm n m (h n)).1) l b

theorem Blk.cells_axis_drained (b : Blk) (l : List (Fin 48)) (m : Fin 48) {f : Fin 48 → Cell → Cell} (h : ∀ n c, Cell.Calm c (f n c))
    (hb : (b.axis m).mot.drained) : ((b.cells l f).axis m).mot.drained :=
  List.foldlRecOn (motive := fun b : Blk => (b.axis m).mot.drained) l _ hb fun b hb n _ => (b.cell_axis_calm n m (h n)).2 hb

/-- The stops of one place, with new plans. -/
def Blk.stopPlace (b : Blk) (ns : List (Fin 48)) : Blk :=
  ns.foldl (fun (b : Blk) n => b.mapAx n (Axis.replan b.swath)) (b.cells ns fun _ c => c.orDefer .stop (·.stop .stop))

theorem Blk.replanAx_mot (b : Blk) (n m : Fin 48) : ((b.mapAx n (Axis.replan b.swath)).axis m).mot = (b.axis m).mot := by
  by_cases h : m = n
  · subst h
    rw [Blk.axis_mapAx]
    rfl
  · rw [b.axis_mapAx_ne _ h]

theorem Blk.stopPlace_mot (b : Blk) (ns : List (Fin 48)) (m : Fin 48) :
    ((b.stopPlace ns).axis m).mot = ((b.cells ns fun _ c => c.orDefer .stop (·.stop .stop)).axis m).mot :=
  foldl_keeps (fun b : Blk => (b.axis m).mot) _ (fun b n => b.replanAx_mot n m) ns _

theorem Blk.stopPlace_outer (b : Blk) (ns : List (Fin 48)) : (b.stopPlace ns).outer = b.outer :=
  (foldl_keeps Blk.outer (fun (b : Blk) n => b.mapAx n (Axis.replan b.swath)) (fun _ _ => rfl) ns _).trans (b.cells_outer ns _)

theorem Blk.stopPlace_flagged (b : Blk) (ns : List (Fin 48)) {f : Flag} (hf : f.bit < 24) (h : b.flagged f) : (b.stopPlace ns).flagged f :=
  List.foldlRecOn (motive := fun b : Blk => b.flagged f) ns _ (b.cells_flagged ns _ hf h) fun _ h _ _ => h

theorem Blk.stopPlace_pos (b : Blk) (ns : List (Fin 48)) (m : Fin 48) : ((b.stopPlace ns).axis m).mot.pCmd = (b.axis m).mot.pCmd := by
  rw [b.stopPlace_mot ns m]
  exact b.cells_axis_pos ns m fun _ c => c.orDefer_calm _ (c.stop_calm _)

theorem Blk.stopPlace_drained (b : Blk) (ns : List (Fin 48)) (m : Fin 48) (h : (b.axis m).mot.drained) : ((b.stopPlace ns).axis m).mot.drained := by
  rw [b.stopPlace_mot ns m]
  exact b.cells_axis_drained ns m (fun _ c => c.orDefer_calm _ (c.stop_calm _)) h

theorem Blk.stopPlace_notMem (b : Blk) {ns : List (Fin 48)} {m : Fin 48} (h : m ∉ ns) : ((b.stopPlace ns).axis m).mot = (b.axis m).mot := by
  rw [b.stopPlace_mot ns m, b.cells_axis_notMem _ h]

/-- A property that the stop of every place keeps holds after the stops of what runs. -/
theorem Blk.reserveRunning_induction (b : Blk) {P : Blk → Prop} (hb : P b)
    (h : ∀ c : Blk, ∀ ns ∈ b.runningSets false, P c → P (c.stopPlace ns)) : P b.reserveRunning := by
  unfold Blk.reserveRunning
  extract_lets sum have_
  refine List.foldlRecOn (motive := fun x : Blk × Rat => P x.1) _ _ hb fun x hx ns hns => ?_
  obtain ⟨c, left⟩ := x
  dsimp only
  split
  · exact hx
  · exact h c ns hns hx

theorem Blk.runningSets_running (b : Blk) {tagged : Bool} {ns : List (Fin 48)} (h : ns ∈ b.runningSets tagged) {n : Fin 48} (hn : n ∈ ns) :
    (b.axis n).mot.mode.running = true := by
  have hm := (List.mem_filter.1 (mem_of_placesBy _ _ ns h n hn)).2
  simp only [Bool.and_eq_true] at hm
  exact hm.1.1

theorem Blk.reserveRunning_rest (b : Blk) {n : Fin 48} (h : (b.axis n).mot.mode.running = false) :
    (b.reserveRunning.axis n).mot = (b.axis n).mot := by
  refine b.reserveRunning_induction (P := fun c => (c.axis n).mot = (b.axis n).mot) rfl fun c ns hns hc => ?_
  have hn : n ∉ ns := fun hn => by simp [b.runningSets_running hns hn] at h
  rw [c.stopPlace_notMem hn, hc]

/-! ### The entry of reserve operation -/

theorem Blk.holdLink_frame (b : Blk) : b.holdLink.ax = b.ax ∧ b.holdLink.planes = b.planes ∧ b.holdLink.plainRegs = b.plainRegs
    ∧ b.holdLink.core = { b.core with hold := if b.reserveOp then some (b.bud LEDG.BUD_LINK.V_LINK_LO) else none } := ⟨rfl, rfl, rfl, rfl⟩

/-- Reserve operation shows itself, with its flag and its event. -/
def Blk.reserveMarked (b : Blk) : Blk := ((b.setB LEDG.STAT.RES_OP true).raise [LEDG.EVT.RES_ENTER]).event 0x10 0xFE 0xFE []

/-- Reserve operation before anything is withdrawn: the stores hold the link (07 R251). -/
def Blk.reserveHeld (b : Blk) : Blk := b.reserveMarked.holdLink

/-- The entry of reserve operation: what waits is withdrawn, and what runs stops, in their orders (07 R252). -/
def Blk.reserveEntered (b : Blk) : Blk := b.reserveHeld.reserveWaiting.reserveRunning

theorem Blk.reserveMarked_keeps (b : Blk) : b.reserveMarked.frame = (b.setB LEDG.STAT.RES_OP true).frame ∧ b.reserveMarked.ax = b.ax
    ∧ b.reserveMarked.flagged LEDG.EVT.RES_ENTER := (b.setB LEDG.STAT.RES_OP true).raise_event LEDG.EVT.RES_ENTER 0x10 0xFE 0xFE (by decide) (by decide)

theorem Blk.reserveMarked_planes (b : Blk) : b.reserveMarked.planes = b.planes := (Blk.event_planes ..).trans (Blk.raise_planes ..)
theorem Blk.reserveMarked_plan (b : Blk) : b.reserveMarked.plan = b.plan := (Blk.event_plan ..).trans (Blk.raise_plan ..)

theorem Blk.reserveMarked_reserveOp (b : Blk) : b.reserveMarked.reserveOp = true :=
  (Blk.bit_of_frame b.reserveMarked_keeps.1 (by decide)).trans (b.bit_setB_same _ true (by decide) (by decide) (by decide))

theorem Blk.setB_core (b : Blk) (f : Fld) (v : Bool) : (b.setB f v).core = b.core := rfl

theorem Blk.bud_of_plan {b t : Blk} (h : t.plan = b.plan) (f : Fld) : t.bud f = b.bud f := by simp only [Blk.bud, h]

/-- The stores hold the link at `V_LINK_LO` (07 R251). -/
theorem Blk.reserveHeld_core (b : Blk) : b.reserveHeld.core = { b.core with hold := some (b.bud LEDG.BUD_LINK.V_LINK_LO) } := by
  obtain ⟨_, _, _, hcore⟩ := b.reserveMarked.holdLink_frame
  rw [Blk.reserveHeld, hcore, if_pos b.reserveMarked_reserveOp, Blk.core_of_frame b.reserveMarked_keeps.1, Blk.setB_core,
    Blk.bud_of_plan b.reserveMarked_plan]

theorem Blk.reserveHeld_planes (b : Blk) : b.reserveHeld.planes = b.planes := by
  obtain ⟨_, hplanes, _, _⟩ := b.reserveMarked.holdLink_frame
  rw [Blk.reserveHeld, hplanes, b.reserveMarked_planes]

theorem Blk.reserveHeld_axis (b : Blk) (n : Fin 48) : b.reserveHeld.axis n = b.axis n := by
  obtain ⟨hax, _, _, _⟩ := b.reserveMarked.holdLink_frame
  exact Blk.axis_of_ax (hax.trans b.reserveMarked_keeps.2.1) n

theorem Blk.reserveHeld_reserveOp (b : Blk) : b.reserveHeld.reserveOp = true := by
  obtain ⟨_, _, hregs, _⟩ := b.reserveMarked.holdLink_frame
  exact (Blk.bit_of_plainRegs hregs (by decide)).trans b.reserveMarked_reserveOp

theorem Blk.reserveHeld_flagged (b : Blk) : b.reserveHeld.flagged LEDG.EVT.RES_ENTER := b.reserveMarked_keeps.2.2

theorem Blk.reserveRunning_outer (b : Blk) : b.reserveRunning.outer = b.outer :=
  b.reserveRunning_induction (P := fun t => t.outer = b.outer) rfl fun c ns _ hc => (c.stopPlace_outer ns).trans hc

theorem Blk.reserveRunning_pos (b : Blk) (n : Fin 48) : (b.reserveRunning.axis n).mot.pCmd = (b.axis n).mot.pCmd :=
  b.reserveRunning_induction (P := fun t => (t.axis n).mot.pCmd = (b.axis n).mot.pCmd) rfl fun c ns _ hc => (c.stopPlace_pos ns n).trans hc

theorem Blk.reserveRunning_flagged (b : Blk) {f : Flag} (hf : f.bit < 24) (h : b.flagged f) : b.reserveRunning.flagged f :=
  b.reserveRunning_induction (P := fun t => t.flagged f) h fun c ns _ hc => c.stopPlace_flagged ns hf hc

theorem Blk.reserveRunning_drained (b : Blk) {n : Fin 48} (h : (b.axis n).mot.drained) : (b.reserveRunning.axis n).mot.drained :=
  b.reserveRunning_induction (P := fun t => (t.axis n).mot.drained) h fun c ns _ hc => c.stopPlace_drained ns n hc

theorem Blk.reserveEntered_outer (b : Blk) : b.reserveEntered.outer = b.reserveHeld.outer :=
  (Blk.reserveRunning_outer _).trans b.reserveHeld.reserveWaiting_outer

theorem Blk.reserveEntered_core (b : Blk) : b.reserveEntered.core = { b.core with hold := some (b.bud LEDG.BUD_LINK.V_LINK_LO) } :=
  (Blk.core_of_outer b.reserveEntered_outer).trans b.reserveHeld_core

/-- Where an axis stands and in which mode, after what waits was withdrawn. -/
theorem Blk.reserveHeld_waiting_place (b : Blk) (n : Fin 48) : b.reserveHeld.reserveWaiting.place n = b.place n := by
  rw [b.reserveHeld.reserveWaiting_place]
  simp only [Blk.place, b.reserveHeld_axis]

theorem Blk.pos_of_place {b t : Blk} {n : Fin 48} (h : t.place n = b.place n) : (t.axis n).mot.pCmd = (b.axis n).mot.pCmd := congrArg Prod.fst h
theorem Blk.mode_of_place {b t : Blk} {n : Fin 48} (h : t.place n = b.place n) : (t.axis n).mot.mode = (b.axis n).mot.mode := congrArg Prod.snd h

theorem Blk.reserveEntered_pos (b : Blk) (n : Fin 48) : (b.reserveEntered.axis n).mot.pCmd = (b.axis n).mot.pCmd :=
  (Blk.reserveRunning_pos _ n).trans (Blk.pos_of_place (b.reserveHeld_waiting_place n))

theorem Blk.reserveEntered_mode (b : Blk) (n : Fin 48) (h : (b.axis n).mot.mode.running = false) :
    (b.reserveEntered.axis n).mot.mode = (b.axis n).mot.mode := by
  have hm := Blk.mode_of_place (b.reserveHeld_waiting_place n)
  rw [Blk.reserveEntered, Blk.reserveRunning_rest _ (by rw [hm, h]), hm]

theorem Blk.reserveEntered_drained (b : Blk) (n : Fin 48) (h : (b.axis n).mot.untagged) : (b.reserveEntered.axis n).mot.drained :=
  Blk.reserveRunning_drained _ (b.reserveHeld.reserveWaiting_drained (by rwa [b.reserveHeld_axis]))

/-! ### The clauses -/

theorem reserveEnter_enters (s : State) (hrun : s.blk.running = true) (hop : s.blk.reserveOp = false) (h0 : s.blk.supOk 0 = false)
    (h1 : s.blk.supOk 1 = false) :
    Does .reserveEnter s fun t => t.reserveOp = true ∧ t.flagged LEDG.EVT.RES_ENTER ∧ t.sm = s.blk.sm ∧ t.planes = s.blk.planes
      ∧ t.owning = s.blk.owning ∧ t.pw = s.blk.pw ∧ t.plan.cands = s.blk.plan.cands
      ∧ t.plan.hold = some (s.blk.bud LEDG.BUD_LINK.V_LINK_LO)
      ∧ (∀ n, (t.axis n).mot.pCmd = (s.blk.axis n).mot.pCmd ∧ ((s.blk.axis n).mot.mode.running = false → (t.axis n).mot.mode = (s.blk.axis n).mot.mode)
      ∧ ((∃ w ∈ (s.blk.axis n).mot.waiting, w.move.tagged = false) ∨ (∃ w ∈ (s.blk.axis n).mot.queued, w.move.tagged = false) →
      (t.axis n).mot.waiting = none ∧ (t.axis n).mot.queued = none)) := by
  refine does_of_onBlk (f := fun b => if !b.running || b.reserveOp || b.supOk 0 || b.supOk 1 then b else b.reserveEntered) rfl ?_
  rw [if_neg (by simp [hrun, hop, h0, h1])]
  have hc := s.blk.reserveEntered_core
  have ho := s.blk.reserveEntered_outer
  exact ⟨(Blk.bit_of_plainRegs (Blk.plainRegs_of_outer ho) (by decide)).trans s.blk.reserveHeld_reserveOp,
    Blk.reserveRunning_flagged _ (by decide) (s.blk.reserveHeld.reserveWaiting_flagged (by decide) s.blk.reserveHeld_flagged),
    Blk.sm_of_core hc, (Blk.planes_of_outer ho).trans s.blk.reserveHeld_planes, Blk.owning_of_core hc, Blk.pw_of_core hc, Blk.cands_of_core hc,
    Blk.hold_of_core hc, fun n => ⟨s.blk.reserveEntered_pos n, s.blk.reserveEntered_mode n, s.blk.reserveEntered_drained n⟩⟩

theorem reserveEnter_stays (s : State)
    (h : s.blk.running = false ∨ s.blk.reserveOp = true ∨ s.blk.supOk 0 = true ∨ s.blk.supOk 1 = true) :
    Does .reserveEnter s fun t => t = s.blk := by
  refine does_of_onBlk (f := fun b => if !b.running || b.reserveOp || b.supOk 0 || b.supOk 1 then b else b.reserveEntered) rfl ?_
  exact if_pos (by simpa [or_assoc] using h)

/-- A supply stands at 36.0 V that is not blocked (07 R254). -/
def Blk.supplyBack (b : Blk) : Bool := (List.finRange 2).any fun i => 36000 ≤ b.pw.supMv.get i && !b.pw.ovBlock.get i

/-- The end of reserve operation: the link is no longer held (07 R254). -/
def Blk.reserveLeft (b : Blk) : Blk := ((b.setB LEDG.STAT.RES_OP false).holdLink.raise [LEDG.EVT.RES_EXIT]).event 0x11 0xFE 0xFE []

theorem reserveExit_ends (s : State) (i : Fin 2) (hop : s.blk.reserveOp = true) (hmv : 36000 ≤ s.blk.pw.supMv.get i)
    (hov : s.blk.pw.ovBlock.get i = false) :
    Does .reserveExit s fun t => t.ax = s.blk.ax ∧ t.reserveOp = false ∧ t.flagged LEDG.EVT.RES_EXIT
      ∧ { t with plan := s.blk.plan }.rest = s.blk.rest ∧ t.plan = { s.blk.plan with hold := none } ∧ t.owning = s.blk.owning := by
  refine does_of_onBlk (f := fun b => if !b.reserveOp || !b.supplyBack then b else b.reserveLeft) rfl ?_
  have hany : s.blk.supplyBack = true :=
    List.any_eq_true.2 ⟨i, List.mem_finRange i, by simp [hmv, hov]⟩
  rw [if_neg (by simp only [hop, hany]; decide)]
  have hbit : (s.blk.setB LEDG.STAT.RES_OP false).reserveOp = false :=
    s.blk.bit_setB_same _ false (by decide) (by decide) (by decide)
  obtain ⟨hfr, hax, hfl⟩ :=
    (s.blk.setB LEDG.STAT.RES_OP false).holdLink.raise_event LEDG.EVT.RES_EXIT 0x11 0xFE 0xFE (by decide) (by decide)
  have hrest := congrArg Prod.fst hfr
  refine ⟨hax, (Blk.bit_of_frame hfr (by decide)).trans hbit, hfl, ?_, ?_, congrArg (·.2.1) hfr⟩
  · exact congrArg (fun r : Blk => { r with plan := s.blk.plan }) hrest
  · refine (congrArg Blk.plan hrest).trans ?_
    show ({ s.blk.plan with hold := if (s.blk.setB LEDG.STAT.RES_OP false).reserveOp then _ else none } : Planner) = _
    rw [hbit]
    rfl

theorem reserveExit_stays (s : State)
    (h : s.blk.reserveOp = false ∨ ∀ i : Fin 2, s.blk.pw.supMv.get i < 36000 ∨ s.blk.pw.ovBlock.get i = true) :
    Does .reserveExit s fun t => t = s.blk := by
  refine does_of_onBlk (f := fun b => if !b.reserveOp || !b.supplyBack then b else b.reserveLeft) rfl ?_
  refine if_pos ?_
  rcases h with h | h
  · simp [h]
  · rw [Bool.or_eq_true, Bool.not_eq_true', Bool.not_eq_true', Blk.supplyBack, List.any_eq_false]
    refine Or.inr fun i _ => ?_
    rcases h i with hi | hi
    · simp [Nat.not_le.2 hi]
    · simp [hi]

end Sys2Proof.Machine
end

section
/-!
The module over a swath start (01 R14, R25, 07 R223, R233): what each step of it leaves of the core, of the registers noted here, and of the
sequence.
-/

namespace Sys2Proof.Machine

/-! ### The registers noted -/

/-- The budget registers as written (07 R223), and the low word of the swath number. -/
def Blk.noted (b : Blk) : (Fin 12 → Word) × Nat := (fun i => (b.regs[24 + i.val]?).getD 0, b.r LEDG.SWATH.SWATH_LO)

/-- A field outside the registers noted. -/
def Fld.unnoted (f : Fld) : Bool := (decide (f.reg < 24) || decide (36 ≤ f.reg)) && f.reg != LEDG.SWATH.SWATH_LO.reg

theorem Blk.noted_of_words {b t : Blk} (h : ∀ i, (24 ≤ i ∧ i < 36) ∨ i = LEDG.SWATH.SWATH_LO.reg → t.regs[i]? = b.regs[i]?) :
    t.noted = b.noted := by
  have hlo : t.r LEDG.SWATH.SWATH_LO = b.r LEDG.SWATH.SWATH_LO := by simp only [Blk.r, Fld.get, h _ (Or.inr rfl)]
  have hbud : ∀ i : Fin 12, t.regs[24 + i.val]? = b.regs[24 + i.val]? := fun i => h _ (Or.inl ⟨by omega, by omega⟩)
  simp only [Blk.noted, hlo, hbud]

/-- The core and the registers noted. -/
def Blk.outline (b : Blk) : Core × (Fin 12 → Word) × Nat := (b.core, b.noted)

theorem Blk.noted_of_plainRegs {b t : Blk} (h : t.plainRegs = b.plainRegs) : t.noted = b.noted := by
  refine Blk.noted_of_words fun i hi => Blk.word_of_plainRegs h ?_
  have hev : ∀ e ∈ modEvRegs, ¬ ((24 ≤ e ∧ e < 36) ∨ e = LEDG.SWATH.SWATH_LO.reg) := by decide
  exact fun hm => hev i hm hi

theorem Blk.outline_of_frame {b t : Blk} (h : t.frame = b.frame) : t.outline = b.outline := by
  simp only [Blk.outline, Blk.core_of_frame h, Blk.noted_of_plainRegs (show t.plainRegs = b.plainRegs from congrArg (·.2.2) h)]

theorem Blk.outline_of_outer {b t : Blk} (h : t.outer = b.outer) : t.outline = b.outline := by
  simp only [Blk.outline, Blk.core_of_outer h, Blk.noted_of_plainRegs (Blk.plainRegs_of_outer h)]

theorem Blk.put_outline (b : Blk) {f : Fld} (v : Nat) (h : f.unnoted = true) : ({ b with regs := f.put b.regs v } : Blk).outline = b.outline := by
  have hn : ({ b with regs := f.put b.regs v } : Blk).noted = b.noted := Blk.noted_of_words fun i hi => by
    simp only [Fld.unnoted, Bool.and_eq_true, Bool.or_eq_true, decide_eq_true_eq, bne_iff_ne, ne_eq] at h
    refine f.getElem?_put_ne _ _ ?_
    rcases hi with hi | hi
    · omega
    · exact fun e => h.2 (e ▸ hi)
  exact congrArg (fun x => (b.core, x)) hn

theorem Blk.set_outline (b : Blk) {f : Fld} (v : Nat) (h : f.unnoted = true) : (b.set f v).outline = b.outline := b.put_outline v h
theorem Blk.setB_outline (b : Blk) {f : Fld} (v : Bool) (h : f.unnoted = true) : (b.setB f v).outline = b.outline := b.put_outline _ h
theorem Blk.count_outline (b : Blk) {f : Fld} (d : Nat) (h : f.unnoted = true) : (b.count f d).outline = b.outline := b.put_outline _ h

theorem Blk.cell_outline (b : Blk) (n : Fin 48) (f : Cell → Cell) : (b.cell n f).outline = b.outline := Blk.outline_of_frame (b.cell_frame n f)
theorem Blk.raise_outline (b : Blk) (l : List Flag) : (b.raise l).outline = b.outline := Blk.outline_of_frame (b.raise_frame l)
theorem Blk.raiseIf_outline (b : Blk) (x : Bool) (f : Flag) : (b.raiseIf x f).outline = b.outline := Blk.outline_of_frame (b.raiseIf_frame x f)

/-- New axes, ledger and shown plan leave the core and the registers noted. -/
theorem Blk.withAx_outline (b : Blk) (v : Vector Axis 48) : ({ b with ax := v } : Blk).outline = b.outline := rfl
theorem Blk.withLedg_outline (b : Blk) (v : Vector Axis 48) (l : Ledger) : ({ b with ax := v, ledg := l } : Blk).outline = b.outline := rfl
theorem Blk.withCharge_outline (b : Blk) (v : Vector Nat 2) :
    ({ b with plan := { b.plan with charge := v } } : Blk).outline = b.outline := rfl

/-! ### The buffers of the ports at a swath start (12 R412) -/

/-- The frame, the axes and the sequence of the module. -/
def Blk.quiet (b : Blk) : (Blk × Option (Byte × Byte × Nat × Bool) × (Fin 356 → Word)) × Vector Axis 48 × Vector PlaneSt 3 := (b.frame, b.ax, b.planes)

theorem Blk.frame_of_quiet {b t : Blk} (h : t.quiet = b.quiet) : t.frame = b.frame := (Prod.mk.inj h).1
theorem Blk.ax_of_quiet {b t : Blk} (h : t.quiet = b.quiet) : t.ax = b.ax := (Prod.mk.inj (Prod.mk.inj h).2).1
theorem Blk.planes_of_quiet {b t : Blk} (h : t.quiet = b.quiet) : t.planes = b.planes := (Prod.mk.inj (Prod.mk.inj h).2).2

theorem Blk.heard_frame (b : Blk) (s i : Byte) (p : Fin 6) (t : Nat) : (b.heard s i p t).frame = b.frame := by
  unfold Blk.heard
  split
  · rfl
  · next z hz =>
    refine ite_keeps Blk.frame rfl ?_
    exact congrArg (fun o => (b.rest, o, b.plainRegs)) (by simp [Blk.owning, hz])

/-- In the ROM phase no packet of an unknown opcode runs (09 R315). -/
theorem judgeRom_unknown {q : Req} (h : (opcode q.opc).isNone = true) : ∃ st ex, judgeRom q = .refuse st ex := by
  have hne : ∀ o : Nat, (opcode o).isSome = true → q.opc ≠ o := fun o ho e => by
    rw [e, Option.isNone_iff_eq_none] at h
    simp [h] at ho
  have h1 : q.opc ∉ [0x01, 0x06, 0x42] := by
    simp only [List.mem_cons, List.not_mem_nil, or_false, not_or]
    exact ⟨hne _ (by decide), hne _ (by decide), hne _ (by decide)⟩
  unfold judgeRom
  rw [if_neg h1, if_neg (hne 0x78 (by decide))]
  split <;> exact ⟨_, _, rfl⟩

/-- A packet of an unknown opcode is dropped or refused (11 R364). -/
theorem Blk.judged_unknown (b : Blk) {q : Req} (h : (opcode q.opc).isNone = true) :
    b.judged q = .drop ∨ ∃ st ex, b.judged q = .refuse st ex := by
  have ho : opcode q.opc = none := by simpa using h
  unfold Blk.judged
  extract_lets owner free verOk
  split
  · exact Or.inl rfl
  · refine Or.inr ?_
    split
    · exact judgeRom_unknown h
    · simp only [ho]
      repeat' split
      all_goals exact ⟨_, _, rfl⟩

theorem Blk.serve_unknown (b : Blk) {q : Req} (h : (opcode q.opc).isNone = true) : (b.serve (fun b _ => b) q).quiet = b.quiet := by
  have hh : ∀ x : Prop, ∀ _ : Decidable x, (if x then b else b.heard q.h.src q.h.sid q.h.port q.h.endUs).quiet = b.quiet := fun x _ =>
    ite_keeps Blk.quiet rfl (by simp only [Blk.quiet, Blk.heard_frame, Blk.heard_ax, Blk.heard_planes])
  unfold Blk.serve
  rcases b.judged_unknown h with hj | ⟨st, ex, hj⟩
  · simp only [hj]
    exact hh _ _
  · simp only [hj]
    refine Eq.trans ?_ (hh ((decide (Judged.refuse st ex = .drop) || decide (q.via = .ring)) = true) inferInstance)
    simp only [Blk.quiet, Blk.logEntry_frame, Blk.logEntry_ax, Blk.logEntry_planes, Blk.sendVia_frame, Blk.sendVia_ax, Blk.sendVia_planes]

theorem Blk.complete_quiet (b : Blk) (f : Frame) (body : List Byte) : (b.complete f body).quiet = b.quiet := by
  unfold Blk.complete
  split
  · rfl
  · split
    · next h => exact b.serve_unknown h
    · rfl

theorem Blk.reassemble_quiet (b : Blk) (f : Frame) : (b.reassemble f).1.quiet = b.quiet := by
  unfold Blk.reassemble
  extract_lets data c
  repeat' split
  all_goals rfl

theorem Blk.join_quiet (b : Blk) (f : Frame) : (b.join f).quiet = b.quiet := by
  unfold Blk.join
  have h := b.reassemble_quiet f
  split
  next c p hp =>
    rw [hp] at h
    cases p with
    | none => exact h
    | some body => exact (c.complete_quiet f body).trans h

theorem Blk.drain_quiet (b : Blk) (p : Fin 6) (us : Nat) : (b.drain p us).quiet = b.quiet :=
  foldl_keeps Blk.quiet _ Blk.join_quiet _ _

theorem Blk.drainAll_quiet (b : Blk) : b.drainAll.quiet = b.quiet :=
  foldl_keeps Blk.quiet _ (fun c p => c.drain_quiet p _) _ b

/-! ### The steps before the decisions -/

theorem Blk.closeSwath_outline (b : Blk) : b.closeSwath.outline = ({ b.core with supply := 0 }, b.noted) := by
  unfold Blk.closeSwath
  extract_lets excess _ _ c
  exact ite_keeps Blk.outline (((c.count LEDG.OVER_CNT.OVER_CNT).raise_outline _).trans (c.count_outline _ (by decide))) rfl

theorem Blk.closeSwath_planes (b : Blk) : b.closeSwath.planes = b.planes := by
  unfold Blk.closeSwath
  extract_lets excess _ _ c
  exact ite_keeps Blk.planes (Blk.raise_planes ..) rfl

theorem Blk.nextSwath_outline (b : Blk) :
    b.nextSwath.outline = ({ b.core with swath := b.swath + 1, tick := 0 }, b.noted.1, (b.swath + 1) % 2 ^ 32) := by
  have h1 : b.nextSwath.noted.1 = b.noted.1 := funext fun i => by
    simp only [Blk.noted, Blk.nextSwath, Blk.set]
    rw [Fld.getElem?_put_ne _ _ _ (show 24 + i.val ≠ LEDG.SWATH.SWATH_LO.reg by
      have := i.isLt
      simp only [LEDG.SWATH.SWATH_LO]
      omega)]
  have h2 : b.nextSwath.noted.2 = (b.swath + 1) % 2 ^ 32 :=
    (Fld.get_put_same LEDG.SWATH.SWATH_LO b.regs _ (by decide) (by decide)).trans (Nat.mod_mod _ _)
  exact congrArg (Prod.mk _) (Prod.ext h1 h2)

theorem Blk.drainAll_outline (b : Blk) : b.drainAll.outline = b.outline := Blk.outline_of_frame (Blk.frame_of_quiet b.drainAll_quiet)
theorem Blk.drainAll_ax (b : Blk) : b.drainAll.ax = b.ax := Blk.ax_of_quiet b.drainAll_quiet
theorem Blk.drainAll_planes (b : Blk) : b.drainAll.planes = b.planes := Blk.planes_of_quiet b.drainAll_quiet

theorem Blk.refresh_outline (b : Blk) : b.refresh.outline = b.outline := by
  unfold Blk.refresh
  exact ite_keeps Blk.outline rfl (Blk.outline_of_frame (b.cells_frame _ _))

theorem Blk.refresh_planes (b : Blk) : b.refresh.planes = b.planes := by
  unfold Blk.refresh
  exact ite_keeps Blk.planes rfl (b.cells_planes _ _)

theorem Blk.growAges_outline (b : Blk) (d : Nat) : (b.growAges d).outline = b.outline := by
  unfold Blk.growAges
  split
  · rfl
  · refine (Blk.raiseIf_outline ..).trans (foldl_keeps Blk.outline _ (fun c k => ?_) _ _)
    refine c.set_outline _ ?_
    have hk : ∀ k : Fin 8, (MEAS.SPF0.AGE.skip k.val).unnoted = true := by decide
    exact hk k

theorem Blk.growAges_planes (b : Blk) (d : Nat) : (b.growAges d).planes = b.planes := by
  unfold Blk.growAges
  split
  · rfl
  · refine (Blk.raiseIf_planes ..).trans ?_
    refine (foldl_keeps Blk.planes _ ?_ _ _).trans ?_
    · exact fun _ _ => rfl
    · rfl

theorem Blk.ageSwath_outline (b : Blk) : b.ageSwath.outline = b.outline := by
  unfold Blk.ageSwath
  extract_lets c d up
  have hc : c.outline = b.outline := ite_keeps Blk.outline (b.growAges_outline 1) rfl
  have hd : d.outline = b.outline := ite_keeps Blk.outline ((c.count_outline _ (by decide)).trans hc) hc
  exact ite_keeps Blk.outline ((d.set_outline (f := GRAZE.PASS.LAST_H) _ (by decide)).trans hd) hd

theorem Blk.ageSwath_planes (b : Blk) : b.ageSwath.planes = b.planes := by
  unfold Blk.ageSwath
  extract_lets c d up
  have hc : c.planes = b.planes := ite_keeps Blk.planes (b.growAges_planes 1) rfl
  have hd : d.planes = b.planes := ite_keeps Blk.planes hc hc
  exact ite_keeps Blk.planes hd hd

/-! ### The decision point -/

theorem Blk.showShare_outline (b : Blk) : b.showShare.outline = b.outline := by
  unfold Blk.showShare
  refine ite_keeps Blk.outline rfl ?_
  split
  exact (Blk.set_outline _ _ (by decide)).trans (b.set_outline _ (by decide))

theorem Blk.reportWithdrawn_outline (b : Blk) (n : Fin 48) (seq : Nat) (pl : Plane) : (b.reportWithdrawn n seq pl).outline = b.outline :=
  Blk.outline_of_outer (b.reportWithdrawn_outer n seq pl)

theorem Blk.reportLapsed_outline (b : Blk) (n : Fin 48) (l : List (Nat × Plane)) :
    (l.foldl (fun (b : Blk) x => b.reportWithdrawn n x.1 x.2) b).outline = b.outline :=
  List.foldlRecOn (motive := fun c : Blk => c.outline = b.outline) l _ rfl fun c hc x _ => (c.reportWithdrawn_outline n x.1 x.2).trans hc

/-- The budgets come into force at the decision point (07 R223). -/
theorem Blk.takePlan_outline (b : Blk) :
    b.takePlan.outline = ({ b.core with budget := Vector.ofFn b.noted.1, hold := b.takePlan.core.hold }, b.noted) := by
  have key : ∃ h, b.takePlan.outline = ({ b.core with budget := Vector.ofFn b.noted.1, hold := h }, b.noted) := by
    unfold Blk.takePlan
    extract_lets n _ _ c d e
    have hd : d.outline = ({ c.core with hold := d.core.hold }, c.noted) := by
      have hs := c.showShare_outline
      show (({ c.showShare.core with hold := d.core.hold } : Core), c.showShare.noted) = _
      rw [show c.showShare.core = c.core from congrArg Prod.fst hs, show c.showShare.noted = c.noted from congrArg Prod.snd hs]
    have he : e.outline = d.outline := by
      refine foldl_keeps Blk.outline _ (fun x m => ?_) _ d
      exact x.reportLapsed_outline m _
    refine ⟨d.core.hold, (e.withAx_outline _).trans (he.trans (hd.trans ?_))⟩
    have hc : c.core = { b.core with budget := Vector.ofFn b.noted.1 } := rfl
    have hn : c.noted = b.noted := rfl
    rw [hc, hn]
  obtain ⟨h, hk⟩ := key
  have hh : b.takePlan.core.hold = h := congrArg (fun o => o.1.hold) hk
  rw [hk, hh]

theorem Blk.reserveCheck_outline (b : Blk) : b.reserveCheck.outline = b.outline := by
  unfold Blk.reserveCheck
  exact (Blk.raiseIf_outline ..).trans ((Blk.setB_outline _ _ (by decide)).trans (b.withLedg_outline _ _))

theorem Blk.answer_outline (b : Blk) (q : Req) (st : Nat) (x : List Byte) : (b.answer q st x).outline = b.outline := by
  refine Blk.outline_of_frame ?_
  unfold Blk.answer
  extract_lets o p l
  have hl : l.frame = b.frame := ite_keeps Blk.frame rfl (b.logEntry_frame ..)
  split
  · exact (foldl_keeps Blk.frame _ (fun b v => b.sendVia_frame v o) _ _).trans hl
  · exact (Blk.sendVia_frame ..).trans (ite_keeps Blk.frame hl hl)

theorem Blk.commitMember_outline (b : Blk) (c : Cand) (x : Verdict) (p : Pred) : (b.commitMember c x p).outline = b.outline := by
  unfold Blk.commitMember
  extract_lets t direct
  split
  · rfl
  · exact b.cell_outline _ _

theorem Blk.commitCand_outline (b : Blk) (c : Cand) (x : Verdict) : (b.commitCand c x).outline = b.outline := by
  unfold Blk.commitCand
  extract_lets d
  have hd : d.outline = b.outline :=
    (ite_keeps Blk.outline rfl rfl : d.outline = (x.preds.foldl (fun (b : Blk) p => b.commitMember c x p) b).outline).trans
      (foldl_keeps Blk.outline _ (fun e p => e.commitMember_outline c x p) _ b)
  split
  · exact hd
  · exact hd

theorem Blk.countVerdict_outline (b : Blk) (c : Cand) (x : Verdict) : (b.countVerdict c x).outline = b.outline := by
  unfold Blk.countVerdict
  repeat' split
  · rfl
  · exact b.count_outline _ (by decide)
  · exact b.count_outline _ (by decide)
  · exact b.count_outline _ (by decide)
  · exact b.count_outline _ (by decide)
  · rfl

theorem Blk.decideCand_outline (b : Blk) (c : Cand) : (b.decideCand c).outline = b.outline := by
  unfold Blk.decideCand
  extract_lets d x block admitted e
  have he : e.outline = b.outline := ite_keeps Blk.outline (b.commitCand_outline d x) rfl
  exact ((Blk.answer_outline ..).trans (e.countVerdict_outline d x)).trans he

/-- Every candidate is decided (07 R233, R234). -/
theorem Blk.decideAll_outline (b : Blk) : b.decideAll.outline = ({ b.core with cands := [] }, b.noted) :=
  foldl_keeps Blk.outline _ Blk.decideCand_outline _ _

theorem Blk.recheck_outer (b : Blk) : b.recheck.outer = b.outer :=
  foldl_keeps Blk.outer _ (fun c ns => ite_keeps Blk.outer (c.withdrawAll_outer ns) rfl) _ b

theorem Blk.takeChopper_outline (b : Blk) : b.takeChopper.outline = b.outline := by
  unfold Blk.takeChopper
  extract_lets f was _ c
  exact ite_keeps Blk.outline (Blk.outline_of_outer c.recheck_outer) rfl

theorem Blk.flagStops_outline (b : Blk) : b.flagStops.outline = b.outline := by
  unfold Blk.flagStops
  exact ite_keeps Blk.outline (b.withAx_outline _) (b.withAx_outline _)

theorem Blk.showPlan_outline (b : Blk) : b.showPlan.outline = b.outline := by
  unfold Blk.showPlan
  extract_lets n v tot w now d dn sup room charged each c e
  have hc : c.outline = b.outline := b.setB_outline (f := LEDG.STAT.PLAN_OVER) _ (by decide)
  have he : e.outline = c.outline := (Blk.set_outline _ (f := LEDG.NOW.P_ALLOW) _ (by decide)).trans (c.set_outline (f := LEDG.NOW.P_DEMAND) _ (by decide))
  exact (e.withCharge_outline _).trans (he.trans hc)

/-- At the decision point every candidate is decided, and the rest of the core stays (07 R233). -/
theorem Blk.decisionPoint_outline (b : Blk) : b.decisionPoint.outline = ({ b.core with cands := [] }, b.noted) := by
  unfold Blk.decisionPoint
  rw [Blk.showPlan_outline, Blk.flagStops_outline, Blk.takeChopper_outline, Blk.decideAll_outline]
  have h : b.growPredictions.reserveCheck.chopperBack.outline = b.outline := b.growPredictions.reserveCheck_outline
  rw [show b.growPredictions.reserveCheck.chopperBack.core = b.core from congrArg Prod.fst h,
    show b.growPredictions.reserveCheck.chopperBack.noted = b.noted from congrArg Prod.snd h]

/-! ### At one instant (13 R440) -/

/-- `Blk.plainRegs`, of the registers alone. -/
def plainOf (r : ModRegs) (i : Fin 356) : Word := if i.val ∈ modEvRegs then 0 else r.get i

theorem Blk.atOnce_outer (b old : Blk) : (b.atOnce old).outer = b.outer := by
  have h : (b.atOnce old).plainRegs = b.plainRegs := by
    unfold Blk.atOnce
    refine foldl_keeps plainOf _ (fun r k => ?_) _ b.regs
    exact funext fun i => plain_setIfInBounds modEvRegs r _ (modEvReg_mem k.isLt) i
  have hc : (b.atOnce old).core = b.core := by simp only [Blk.core, Blk.owning, Blk.atOnce]
  have hp : (b.atOnce old).planes = b.planes := by simp only [Blk.atOnce]
  simp only [Blk.outer, hc, hp, h]

end Sys2Proof.Machine
end

section
/-!
The axes over a swath start (01 R14, 07 R233): which of its steps reach what the obligation says of an axis, and how.
-/

namespace Sys2Proof.Machine

open Sys2Proof.Safety

/-! ### Posture and stance -/

/-- What of an axis the steps of a swath start leave as it is, or of which they say what they make of it. -/
structure Posture where
  pos : Int
  mode : Mode
  lapsed : List (Nat × Plane)
  legs : Legs
  trip : Trip
  pwm : Pwm
  age : Nat

def Axis.posture (a : Axis) : Posture :=
  ⟨a.mot.pCmd, a.mot.mode, a.mot.lapsed, a.legs, a.trip, a.pwm, a.r AX.AX_SUPV.AGE⟩

/-- Posture and the hold of 01 R14. -/
def Axis.stance (a : Axis) : Posture × Bool := (a.posture, a.b AX.AX_SUPV.HELD)

/-- Lapsed admissions have been reported. -/
def Posture.settled (p : Posture) : Posture := { p with lapsed := [] }

/-- The registers of supervision decide what a stance reads of the registers. -/
theorem Axis.stance_of_supv {a t : Axis} (hp : { t with regs := a.regs }.posture = a.posture)
    (hr : t.regs[AX.AX_SUPV.AGE.reg]? = a.regs[AX.AX_SUPV.AGE.reg]?) : t.stance = a.stance := by
  have hage : t.r AX.AX_SUPV.AGE = a.r AX.AX_SUPV.AGE := by simp only [Axis.r, Fld.get, hr]
  have hheld : t.b AX.AX_SUPV.HELD = a.b AX.AX_SUPV.HELD := Axis.b_of_r (by
    have : AX.AX_SUPV.HELD.reg = AX.AX_SUPV.AGE.reg := rfl
    simp only [Axis.r, Fld.get, this, hr])
  have hpos : t.posture = { ({ t with regs := a.regs } : Axis).posture with age := a.r AX.AX_SUPV.AGE } := by
    simp only [Axis.posture, hage]
  simp only [Axis.stance, hpos, hp, hheld]
  rfl

theorem Axis.set_stance (a : Axis) {f : Fld} (v : Nat) (h : AX.AX_SUPV.AGE.reg ≠ f.reg) : (a.set f v).stance = a.stance :=
  Axis.stance_of_supv rfl (Fld.getElem?_put_ne _ _ _ h)

theorem Axis.setB_stance (a : Axis) {f : Fld} (v : Bool) (h : AX.AX_SUPV.AGE.reg ≠ f.reg) : (a.setB f v).stance = a.stance :=
  Axis.stance_of_supv rfl (Fld.getElem?_put_ne _ _ _ h)

/-- The stance of axis `n`. -/
def Blk.stanceOf (n : Fin 48) (b : Blk) : Posture × Bool := (b.axis n).stance

theorem Blk.stanceOf_of_ax {b t : Blk} (n : Fin 48) (h : t.ax = b.ax) : t.stanceOf n = b.stanceOf n :=
  congrArg Axis.stance (Blk.axis_of_ax h n)

theorem Blk.axis_withMap (b : Blk) (f : Axis → Axis) (n : Fin 48) : ({ b with ax := b.ax.map f } : Blk).axis n = f (b.axis n) := by
  simp [Blk.axis, Vector.get_eq_getElem]

theorem Blk.stanceOf_map (b : Blk) {f : Axis → Axis} (n : Fin 48) (h : ∀ a, (f a).stance = a.stance) :
    ({ b with ax := b.ax.map f } : Blk).stanceOf n = b.stanceOf n := by
  unfold Blk.stanceOf
  rw [Blk.axis_withMap, h]

theorem Blk.stanceOf_ofFn {b t : Blk} {f : Fin 48 → Axis} (n : Fin 48) (ht : t.ax = Vector.ofFn f) (h : (f n).stance = (b.axis n).stance) :
    t.stanceOf n = b.stanceOf n := by
  have hn : t.axis n = f n := by simp [Blk.axis, Vector.get_eq_getElem, ht]
  rw [Blk.stanceOf, hn, h, Blk.stanceOf]

/-! ### Before the decisions -/

/-- The end of a swath saves lifetime energy of an axis (10 R350), and no more. -/
theorem Blk.closeSwath_axis (b : Blk) (n : Fin 48) :
    b.closeSwath.axis n = b.axis n ∨ ∃ v l, b.closeSwath.axis n = { (b.axis n).set AX.LIFE_E.E v with life := l } := by
  unfold Blk.closeSwath
  extract_lets excess _ _ c
  have hc : c.axis n = b.axis n ∨ ∃ v l, c.axis n = { (b.axis n).set AX.LIFE_E.E v with life := l } := by
    simp only [c, Blk.axis, Vector.get_eq_getElem, Vector.getElem_map]
    split
    · exact Or.inl rfl
    · exact Or.inr ⟨_, _, rfl⟩
  split
  · rwa [Blk.raise_axis, Blk.count_axis]
  · exact hc

/-- What the clauses on supervision read of an axis. -/
def Axis.superv (a : Axis) : (Posture × Bool) × Bool × Bool := (a.stance, a.handling, a.ramps false)

theorem Blk.closeSwath_superv (b : Blk) (n : Fin 48) : (b.closeSwath.axis n).superv = (b.axis n).superv := by
  rcases b.closeSwath_axis n with e | ⟨v, l, e⟩
  · rw [e]
  · rw [e]
    have hs : ({ (b.axis n).set AX.LIFE_E.E v with life := l } : Axis).stance = (b.axis n).stance :=
      ((b.axis n).set_stance (f := AX.LIFE_E.E) v (by decide))
    have hb : ({ (b.axis n).set AX.LIFE_E.E v with life := l } : Axis).b AX.LEDG_AX.SB_STOP = (b.axis n).b AX.LEDG_AX.SB_STOP :=
      Axis.b_of_r ((b.axis n).r_set_apart (f := AX.LIFE_E.E) v (by decide))
    have hr : ({ (b.axis n).set AX.LIFE_E.E v with life := l } : Axis).ramps false = (b.axis n).ramps false := by
      simp only [Axis.ramps, hb]
      rfl
    simp only [Axis.superv, hs, hr]
    rfl

/-- The module at the refresh of its cells. -/
def Blk.atRefresh (b : Blk) : Blk := b.closeSwath.nextSwath.drainAll

theorem Blk.atRefresh_superv (b : Blk) (n : Fin 48) : (b.atRefresh.axis n).superv = (b.axis n).superv := by
  have h : b.atRefresh.axis n = b.closeSwath.axis n := Blk.axis_of_ax (b.closeSwath.nextSwath.drainAll_ax) n
  rw [h, b.closeSwath_superv n]

theorem Blk.growAges_stance (b : Blk) (d : Nat) (n : Fin 48) : (b.growAges d).stanceOf n = b.stanceOf n := by
  unfold Blk.growAges
  split
  · rfl
  · extract_lets up _ c
    have hup : ∀ a : Axis, (up (up a AX.SLC_FAC0.AGE) (AX.SLC_FAC0.AGE.skip 1)).stance = a.stance := fun a =>
      (Axis.set_stance _ _ (by decide)).trans (a.set_stance (f := AX.SLC_FAC0.AGE) _ (by decide))
    have hc : c.stanceOf n = b.stanceOf n := b.stanceOf_map n hup
    refine (Blk.stanceOf_of_ax n ((Blk.raiseIf_ax ..).trans ?_)).trans hc
    refine foldl_keeps Blk.ax _ ?_ _ c
    exact fun _ _ => rfl

theorem Blk.ageSwath_stance (b : Blk) (n : Fin 48) : b.ageSwath.stanceOf n = b.stanceOf n := by
  unfold Blk.ageSwath
  extract_lets c d up
  have hc : c.stanceOf n = b.stanceOf n := ite_keeps (Blk.stanceOf n) (b.growAges_stance 1 n) rfl
  have hd : d.stanceOf n = c.stanceOf n := ite_keeps (Blk.stanceOf n) rfl rfl
  refine ite_keeps (Blk.stanceOf n) ?_ (hd.trans hc)
  refine Eq.trans (Blk.stanceOf_map _ n fun a => ?_) (hd.trans hc)
  exact a.set_stance (f := AX.GZ_AGE.AGE) _ (by decide)

/-! ### The refresh (01 R14) -/

/-- What supervision makes of an axis that no side refreshed in time. -/
def Axis.halted (a t : Axis) : Prop :=
  (a.handling = true → t.legs.deferred = a.legs.deferred ++ [.stop])
    ∧ (a.handling = false → a.ramps false = true → t.mot.mode ∈ [.stopping, .hold, .fallow])

/-- The cell is refreshed late: its 50 ms end on this swath, and it is not held yet (00 R6). -/
def Axis.late (a : Axis) : Bool := decide (49 ≤ a.r AX.AX_SUPV.AGE) && !a.b AX.AX_SUPV.HELD

theorem Axis.age_count (a : Axis) :
    (a.count AX.AX_SUPV.AGE).stance = ({ a.posture with age := min (a.r AX.AX_SUPV.AGE + 1) (2 ^ AX.AX_SUPV.AGE.w - 1) }, a.b AX.AX_SUPV.HELD) := by
  have hage : (a.count AX.AX_SUPV.AGE).r AX.AX_SUPV.AGE = min (a.r AX.AX_SUPV.AGE + 1) (2 ^ AX.AX_SUPV.AGE.w - 1) :=
    Fld.get_count_same _ _ 1 (by decide) (by decide)
  have hheld : (a.count AX.AX_SUPV.AGE).b AX.AX_SUPV.HELD = a.b AX.AX_SUPV.HELD := Axis.b_of_r (a.r_count_apart (by decide))
  simp only [Axis.stance, Axis.posture, hage, hheld]
  rfl

theorem Axis.age_clear (a : Axis) : (a.set AX.AX_SUPV.AGE 0).stance = ({ a.posture with age := 0 }, a.b AX.AX_SUPV.HELD) := by
  have hage : (a.set AX.AX_SUPV.AGE 0).r AX.AX_SUPV.AGE = 0 := Fld.get_put_same _ _ 0 (by decide) (by decide)
  have hheld : (a.set AX.AX_SUPV.AGE 0).b AX.AX_SUPV.HELD = a.b AX.AX_SUPV.HELD := Axis.b_of_r (a.r_set_apart 0 (by decide))
  simp only [Axis.stance, Axis.posture, hage, hheld]
  rfl

theorem Blk.refresh_missing (b : Blk) (n : Fin 48) (h : b.act = none) : b.refresh.axis n = (b.axis n).count AX.AX_SUPV.AGE := by
  unfold Blk.refresh
  rw [if_pos (by simp [h])]
  exact b.axis_withMap _ n

/-- A cell that is late runs its supervision, and every cell is refreshed. -/
theorem Blk.refresh_axis (b : Blk) (n : Fin 48) (h : b.act ≠ none) : ∃ c : Blk, c.cellOf n = b.cellOf n
    ∧ b.refresh.axis n = (if (b.axis n).late then (c.cell n Cell.supervise).axis n else b.axis n).set AX.AX_SUPV.AGE 0 := by
  unfold Blk.refresh
  rw [if_neg (by simpa using h)]
  extract_lets late d
  have hmem : n ∈ late ↔ (b.axis n).late = true := by simp only [late, List.mem_filter, mem_allAxes, true_and, Axis.late]
  by_cases hl : (b.axis n).late = true
  · obtain ⟨c, hc, he⟩ := b.cells_axis_mem (fun _ c => c.supervise) (allAxes_nodup.filter _) (hmem.2 hl)
    exact ⟨c, hc, by rw [if_pos hl, Blk.axis_withMap, he]⟩
  · exact ⟨b, rfl, by rw [if_neg hl, Blk.axis_withMap, b.cells_axis_notMem _ (mt hmem.1 hl)]⟩

/-- A cell refreshed in time stays as it is. -/
theorem Blk.refresh_inTime (b : Blk) (n : Fin 48) (h : b.act ≠ none) (hl : (b.axis n).late = false) :
    b.refresh.stanceOf n = ({ (b.axis n).posture with age := 0 }, (b.axis n).b AX.AX_SUPV.HELD) := by
  obtain ⟨c, _, he⟩ := b.refresh_axis n h
  unfold Blk.stanceOf
  rw [he, if_neg (by simp [hl]), Axis.age_clear]

/-- A cell refreshed late has stopped and holds (01 R14, 00 R6). -/
theorem Blk.refresh_late (b : Blk) (n : Fin 48) (h : b.act ≠ none) (hl : (b.axis n).late = true) :
    (b.refresh.axis n).mot.pCmd = (b.axis n).mot.pCmd ∧ (b.refresh.axis n).r AX.AX_SUPV.AGE = 0
      ∧ (b.refresh.axis n).b AX.AX_SUPV.HELD = true ∧ (b.axis n).halted (b.refresh.axis n) := by
  obtain ⟨c, hc, he⟩ := b.refresh_axis n h
  rw [if_pos hl] at he
  have hax : (c.cellOf n).ax = b.axis n := congrArg Cell.ax hc
  have hmot : (b.refresh.axis n).mot = (c.cellOf n).supervise.ax.mot := by rw [he]; exact c.cell_axis_mot n _
  have hlegs : (b.refresh.axis n).legs = (c.cellOf n).supervise.ax.legs := by rw [he]; exact c.cell_axis_legs n _
  have hst := Axis.age_clear ((c.cell n Cell.supervise).axis n)
  rw [← he] at hst
  refine ⟨?_, congrArg (fun x => x.1.age) hst, ?_, fun hh => ?_, fun hh hr => ?_⟩
  · rw [hmot, (c.cellOf n).supervise_calm.pos, ← hax]
    rfl
  · refine (congrArg Prod.snd hst).trans ?_
    rw [Axis.b_of_plainRegs (c.cell_axis_plainRegs n _) (by decide)]
    exact Cell.supervise_held _
  · rw [hlegs, ((c.cellOf n).supervise_of_handling (by rw [hax]; exact hh)).1, hax]
  · rw [hmot]
    exact (c.cellOf n).supervise_ramps (by rw [hax]; exact hh) (by rw [hax]; exact hr)

/-! ### The decision point (07 R233) -/

/-- The posture of axis `n`. -/
def Blk.postureOf (n : Fin 48) (b : Blk) : Posture := (b.axis n).posture

theorem Blk.postureOf_of_stance {b t : Blk} {n : Fin 48} (h : t.stanceOf n = b.stanceOf n) : t.postureOf n = b.postureOf n := congrArg Prod.fst h

theorem Axis.replan_stance (k : Nat) (a : Axis) : (Axis.replan k a).stance = a.stance := rfl

theorem Blk.reportLapsed_ax (b : Blk) (n : Fin 48) (l : List (Nat × Plane)) :
    (l.foldl (fun (b : Blk) x => b.reportWithdrawn n x.1 x.2) b).ax = b.ax :=
  List.foldlRecOn (motive := fun c : Blk => c.ax = b.ax) l _ rfl fun c hc x _ => (c.reportWithdrawn_ax n x.1 x.2).trans hc

/-- The stance of an axis whose lapsed admissions have been reported. -/
def settledStance (s : Posture × Bool) : Posture × Bool := (s.1.settled, s.2)

/-- The lapsed admissions of one axis are reported (07 R233). -/
def Blk.settleAxis (b : Blk) (n : Fin 48) : Blk :=
  ((b.axis n).mot.lapsed.foldl (fun (b : Blk) x => b.reportWithdrawn n x.1 x.2) b).mapAx n fun a => { a with mot := { a.mot with lapsed := [] } }

theorem Blk.settleAxis_stance (b : Blk) (m n : Fin 48) :
    (b.settleAxis m).stanceOf n = if m = n then settledStance (b.stanceOf n) else b.stanceOf n := by
  have hax := Blk.axis_of_ax (b.reportLapsed_ax m (b.axis m).mot.lapsed)
  unfold Blk.stanceOf Blk.settleAxis
  split
  · next h =>
    subst h
    rw [Blk.axis_mapAx, hax]
    rfl
  · next h => rw [Blk.axis_mapAx_ne _ _ (Ne.symm h), hax]

theorem Blk.settleAll_stance (b : Blk) (n : Fin 48) : (allAxes.foldl Blk.settleAxis b).stanceOf n = settledStance (b.stanceOf n) := by
  refine foldl_reaches (I := fun e : Blk => settledStance (e.stanceOf n) = settledStance (b.stanceOf n))
    (P := fun e : Blk => e.stanceOf n = settledStance (b.stanceOf n)) Blk.settleAxis _ (mem_allAxes n) (fun e m _ he => ?_) (fun e he => ?_)
    (fun e m _ he => ?_) rfl
  · rw [e.settleAxis_stance]
    split
    · exact he
    · exact he
  · rw [e.settleAxis_stance, if_pos rfl, he]
  · rw [e.settleAxis_stance, he]
    split <;> rfl

theorem Blk.showShare_ax (b : Blk) : b.showShare.ax = b.ax := by
  unfold Blk.showShare
  refine ite_keeps Blk.ax rfl ?_
  split
  rfl

/-- Lapsed admissions are reported at the decision point, and nothing else of a stance changes there (07 R233). -/
theorem Blk.takePlan_stance (b : Blk) (n : Fin 48) : b.takePlan.stanceOf n = settledStance (b.stanceOf n) := by
  unfold Blk.takePlan
  extract_lets s _ _ c d e
  have hd : d.stanceOf n = b.stanceOf n := Blk.stanceOf_of_ax n c.showShare_ax
  have he : e.stanceOf n = settledStance (d.stanceOf n) := d.settleAll_stance n
  exact (e.stanceOf_map n (Axis.replan_stance s)).trans (he.trans (by rw [hd]))

end Sys2Proof.Machine
end

section
/-!
The swath start as a whole (01 R14, R25, 07 R223, R233), and with it the planner's events.
-/

namespace Sys2Proof.Machine

open Sys2Proof.Safety

/-! ### The axes at the decision point (07 R233) -/

theorem Blk.growPredictions_stance (b : Blk) (n : Fin 48) : b.growPredictions.stanceOf n = b.stanceOf n :=
  b.stanceOf_map n fun a => by
    split
    · split <;> rfl
    · rfl

theorem Blk.reserveCheck_stance (b : Blk) (n : Fin 48) : b.reserveCheck.stanceOf n = b.stanceOf n := by
  unfold Blk.reserveCheck
  exact Blk.stanceOf_ofFn n (Blk.raiseIf_ax ..) ((b.axis n).setB_stance (f := AX.LEDG_AX.UNLEARNED) _ (by decide))

theorem Cell.setB_posture (c : Cell) {f : Fld} (v : Bool) (h : AX.AX_SUPV.AGE.apart f = true) : (c.setB f v).ax.posture = c.ax.posture := by
  have hage : (c.setB f v).ax.r AX.AX_SUPV.AGE = c.ax.r AX.AX_SUPV.AGE := Axis.r_setB_apart _ v h
  simp only [Axis.posture, hage]
  rfl

theorem Cell.written_posture (c : Cell) : c.written.ax.posture = c.ax.posture := c.setB_posture (f := AX.AX_SUPV.HELD) false (by decide)

theorem Cell.accepted_posture (c : Cell) : c.accepted.ax.posture = c.ax.posture := by
  unfold Cell.accepted
  extract_lets d
  have hd : d.ax.posture = c.ax.posture := ite_keeps (fun c : Cell => c.ax.posture)
    ((Cell.setB_posture _ _ (by decide)).trans (c.setB_posture (f := AX.BL_STAT.OBST) _ (by decide)))
    ((Cell.setB_posture _ _ (by decide)).trans (c.setB_posture (f := AX.ST_STAT.STALLED) _ (by decide)))
  exact hd

theorem Cell.mot_posture (c : Cell) {f : Motion → Motion} (h : ∀ m, (f m).pCmd = m.pCmd ∧ (f m).mode = m.mode ∧ (f m).lapsed = m.lapsed) :
    (c.mot f).ax.posture = c.ax.posture := by
  obtain ⟨hpos, hmode, hlapsed⟩ := h c.ax.mot
  have hage : (c.mot f).ax.r AX.AX_SUPV.AGE = c.ax.r AX.AX_SUPV.AGE := rfl
  simp only [Axis.posture, Cell.mot_ax_mot, Cell.mot_ax_legs, Cell.mot_ax_trip, Cell.mot_ax_pwm, hpos, hmode, hlapsed, hage]

theorem Cell.withPlan_posture (c : Cell) (g : Axis → Curve) :
    (c.map fun a => { a with planned := true, plan := g a }).ax.posture = c.ax.posture := rfl

/-- A step that keeps the posture of its cell keeps every posture. -/
theorem Blk.cell_posture (b : Blk) (m n : Fin 48) {g : Cell → Cell} (h : ∀ c, (g c).ax.posture = c.ax.posture) :
    (b.cell m g).postureOf n = b.postureOf n := by
  unfold Blk.postureOf
  by_cases hn : n = m
  · subst hn
    have hage := Axis.r_of_plainRegs (b.cell_axis_plainRegs n g) (f := AX.AX_SUPV.AGE) (by decide)
    refine Eq.trans ?_ (h (b.cellOf n))
    simp only [Axis.posture, Blk.cell_axis_mot, Blk.cell_axis_legs, Blk.cell_axis_trip, Blk.cell_axis_pwm, hage]
  · rw [b.cell_axis_ne g hn]

/-- An admitted move waits for its start: of the posture of its axis nothing changes. -/
theorem Blk.commitMember_posture (b : Blk) (c : Cand) (x : Verdict) (p : Pred) (n : Fin 48) :
    (b.commitMember c x p).postureOf n = b.postureOf n := by
  unfold Blk.commitMember
  extract_lets t direct
  split
  · rfl
  · next m _ =>
    extract_lets e mv w
    refine b.cell_posture _ _ fun cl => (Cell.withPlan_posture _ _).trans ?_
    refine (Cell.mot_posture _ fun y => ?_).trans (cl.written.accepted_posture.trans cl.written_posture)
    cases p.queued <;> exact ⟨rfl, rfl, rfl⟩

theorem Blk.needLink_ax (b : Blk) : b.needLink.ax = b.ax := ite_keeps Blk.ax rfl rfl

theorem Blk.countVerdict_ax (b : Blk) (c : Cand) (x : Verdict) : (b.countVerdict c x).ax = b.ax := by
  unfold Blk.countVerdict
  repeat' split
  all_goals rfl

theorem Blk.commitCand_posture (b : Blk) (c : Cand) (x : Verdict) (n : Fin 48) : (b.commitCand c x).postureOf n = b.postureOf n := by
  unfold Blk.commitCand
  extract_lets d
  have hd : d.postureOf n = b.postureOf n := by
    refine (Blk.postureOf_of_stance (Blk.stanceOf_of_ax n (Blk.needLink_ax _))).trans ?_
    refine foldl_keeps (Blk.postureOf n) _ ?_ _ b
    exact fun e p => e.commitMember_posture c x p n
  split <;> exact hd

theorem Blk.decideCand_posture (b : Blk) (c : Cand) (n : Fin 48) : (b.decideCand c).postureOf n = b.postureOf n := by
  unfold Blk.decideCand
  extract_lets d x block admitted e
  have he : e.postureOf n = b.postureOf n := ite_keeps (Blk.postureOf n) (b.commitCand_posture d x n) rfl
  have hax : (((e.countVerdict d x).answer d.q x.st block).draw).ax = e.ax := (Blk.answer_ax ..).trans (e.countVerdict_ax d x)
  exact (Blk.postureOf_of_stance (Blk.stanceOf_of_ax n hax)).trans he

theorem Blk.decideAll_posture (b : Blk) (n : Fin 48) : b.decideAll.postureOf n = b.postureOf n :=
  foldl_keeps (Blk.postureOf n) _ (fun c d => c.decideCand_posture d n) _ _

/-- Without candidates nothing is decided. -/
theorem Blk.decideAll_ax_of_none (b : Blk) (h : b.plan.cands = []) : b.decideAll.ax = b.ax := by
  unfold Blk.decideAll
  rw [h]
  rfl

/-- A withdrawal leaves an axis in its mode, at its position (07 R248). -/
theorem Blk.withdrawMove_stance (b : Blk) (m n : Fin 48) : (b.withdrawMove m).stanceOf n = b.stanceOf n := by
  unfold Blk.stanceOf
  rcases b.withdrawMove_cases m n with e | ⟨p, q, e⟩
  · rw [e]
  · rw [e]
    rfl

theorem Blk.recheck_stance (b : Blk) (n : Fin 48) : b.recheck.stanceOf n = b.stanceOf n := by
  refine foldl_keeps (Blk.stanceOf n) _ (fun c ns => ite_keeps (Blk.stanceOf n) ?_ rfl) _ b
  exact foldl_keeps (Blk.stanceOf n) _ (fun d m => d.withdrawMove_stance m n) ns c

theorem Blk.takeChopper_stance (b : Blk) (n : Fin 48) : b.takeChopper.stanceOf n = b.stanceOf n := by
  unfold Blk.takeChopper
  extract_lets f was _ c
  exact ite_keeps (Blk.stanceOf n) (c.recheck_stance n) rfl

theorem Blk.flagStops_stance (b : Blk) (n : Fin 48) : b.flagStops.stanceOf n = b.stanceOf n := by
  unfold Blk.flagStops
  refine ite_keeps (Blk.stanceOf n) (b.stanceOf_map n fun a => a.setB_stance _ (by decide)) ?_
  exact Blk.stanceOf_ofFn n rfl ((b.axis n).setB_stance (f := AX.LEDG_AX.SB_STOP) _ (by decide))

theorem Blk.showPlan_ax (b : Blk) : b.showPlan.ax = b.ax := rfl

/-- The decision point leaves every posture (07 R233). -/
theorem Blk.decisionPoint_posture (b : Blk) (n : Fin 48) : b.decisionPoint.postureOf n = b.postureOf n := by
  have hbefore : b.growPredictions.reserveCheck.chopperBack.stanceOf n = b.stanceOf n :=
    (b.growPredictions.reserveCheck_stance n).trans (b.growPredictions_stance n)
  have hafter : b.decisionPoint.stanceOf n = b.growPredictions.reserveCheck.chopperBack.decideAll.stanceOf n := by
    unfold Blk.decisionPoint
    rw [Blk.stanceOf_of_ax n (Blk.showPlan_ax _), Blk.flagStops_stance, Blk.takeChopper_stance]
  exact (Blk.postureOf_of_stance hafter).trans ((Blk.decideAll_posture _ n).trans (Blk.postureOf_of_stance hbefore))

/-- Without candidates the decision point leaves every hold of 01 R14. -/
theorem Blk.decisionPoint_stance (b : Blk) (n : Fin 48) (h : b.plan.cands = []) : b.decisionPoint.stanceOf n = b.stanceOf n := by
  have hc : b.growPredictions.reserveCheck.chopperBack.plan.cands = [] := by
    have e := congrArg (fun o => o.1.cands) b.growPredictions.reserveCheck_outline
    exact Eq.trans e h
  unfold Blk.decisionPoint
  rw [Blk.stanceOf_of_ax n (Blk.showPlan_ax _), Blk.flagStops_stance, Blk.takeChopper_stance, Blk.stanceOf_of_ax n (Blk.decideAll_ax_of_none _ hc)]
  exact (b.growPredictions.reserveCheck_stance n).trans (b.growPredictions_stance n)

/-! ### The swath start (07 R233) -/

/-- The module when the swath has begun, before the planner decides. -/
def Blk.begunSwath (b : Blk) : Blk := b.atRefresh.refresh.ageSwath.remoteSwath

theorem Blk.swathStart_eq (b : Blk) :
    b.swathStart = if b.begunSwath.act.isSome then b.begunSwath.takePlan.countRun.decisionPoint else b.begunSwath := rfl

theorem Blk.core_of_outline {b : Blk} {c : Core} {x : (Fin 12 → Word) × Nat} (h : b.outline = (c, x)) : b.core = c := congrArg Prod.fst h
theorem Blk.noted_of_outline {b : Blk} {c : Core} {x : (Fin 12 → Word) × Nat} (h : b.outline = (c, x)) : b.noted = x := congrArg Prod.snd h

theorem Blk.remoteSwath_outline (b : Blk) : b.remoteSwath.outline = b.outline := rfl
theorem Blk.remoteSwath_planes (b : Blk) : b.remoteSwath.planes = b.planes := rfl
theorem Blk.remoteSwath_ax (b : Blk) : b.remoteSwath.ax = b.ax := rfl

theorem Blk.withRun_outline (b : Blk) (x : Nat) : ({ b with plan := { b.plan with overRun := x } } : Blk).outline = b.outline := rfl
theorem Blk.countRun_outline (b : Blk) : b.countRun.outline = b.outline := b.withRun_outline _
theorem Blk.withRun_ax (b : Blk) (x : Nat) : ({ b with plan := { b.plan with overRun := x } } : Blk).ax = b.ax := rfl
theorem Blk.countRun_ax (b : Blk) : b.countRun.ax = b.ax := b.withRun_ax _

/-- A swath counts, its ticks begin at 0 and its supply at 0 (01 R25, 07 R223). -/
theorem Blk.atRefresh_outline (b : Blk) : b.atRefresh.outline =
    ({ b.core with supply := 0, swath := b.swath + 1, tick := 0 }, b.noted.1, (b.swath + 1) % 2 ^ 32) := by
  have hcore := Blk.core_of_outline b.closeSwath_outline
  have hnoted := Blk.noted_of_outline b.closeSwath_outline
  have hswath : b.closeSwath.swath = b.swath := Blk.swath_of_core hcore
  rw [Blk.atRefresh, Blk.drainAll_outline, Blk.nextSwath_outline, hcore, hnoted, hswath]

theorem Blk.begunSwath_outline (b : Blk) : b.begunSwath.outline =
    ({ b.core with supply := 0, swath := b.swath + 1, tick := 0 }, b.noted.1, (b.swath + 1) % 2 ^ 32) := by
  rw [Blk.begunSwath, Blk.remoteSwath_outline, Blk.ageSwath_outline, Blk.refresh_outline, Blk.atRefresh_outline]

theorem Blk.begunSwath_act (b : Blk) : b.begunSwath.act = b.act := Blk.act_of_core (Blk.core_of_outline b.begunSwath_outline)

theorem Blk.begunSwath_planes (b : Blk) : b.begunSwath.planes = b.planes := by
  rw [Blk.begunSwath, Blk.remoteSwath_planes, Blk.ageSwath_planes, Blk.refresh_planes, Blk.atRefresh, Blk.drainAll_planes]
  exact b.closeSwath_planes

theorem Blk.begunSwath_stance (b : Blk) (n : Fin 48) : b.begunSwath.stanceOf n = b.atRefresh.refresh.stanceOf n := by
  rw [Blk.begunSwath, Blk.stanceOf_of_ax n (Blk.remoteSwath_ax _), Blk.ageSwath_stance]

theorem Blk.swathStart_missing (b : Blk) (h : b.act = none) : b.swathStart = b.begunSwath := by
  rw [b.swathStart_eq, b.begunSwath_act, h]
  rfl

theorem Blk.swathStart_served (b : Blk) (h : b.act ≠ none) : b.swathStart = b.begunSwath.takePlan.countRun.decisionPoint := by
  rw [b.swathStart_eq, b.begunSwath_act, if_pos (by simpa [Option.isSome_iff_ne_none] using h)]

/-- What the planner leaves of the core, and what it makes of it: budgets in force, every candidate decided (07 R223, R233). -/
theorem Blk.swathStart_served_outline (b : Blk) (h : b.act ≠ none) : b.swathStart.outline =
    ({ b.begunSwath.core with budget := Vector.ofFn b.noted.1, hold := b.begunSwath.takePlan.core.hold, cands := [] },
      b.noted.1, (b.swath + 1) % 2 ^ 32) := by
  have ht := (Blk.countRun_outline _).trans b.begunSwath.takePlan_outline
  have hc := Blk.core_of_outline ht
  have hn := Blk.noted_of_outline ht
  have hb : b.begunSwath.noted = _ := Blk.noted_of_outline b.begunSwath_outline
  rw [b.swathStart_served h, Blk.decisionPoint_outline, hc, hn, hb]

/-- The cores of a swath start: what it counts, and what it leaves (01 R25, 07 R223). -/
theorem Blk.swathStart_core (b : Blk) : ∃ g c h, b.swathStart.core =
    { b.core with supply := 0, swath := b.swath + 1, tick := 0, budget := g, cands := c, hold := h } := by
  by_cases h : b.act = none
  · rw [b.swathStart_missing h]
    exact ⟨_, _, _, Blk.core_of_outline b.begunSwath_outline⟩
  · have hs := Blk.core_of_outline (b.swathStart_served_outline h)
    rw [Blk.core_of_outline b.begunSwath_outline] at hs
    exact ⟨_, _, _, hs⟩

theorem Blk.swathStart_lo (b : Blk) : b.swathStart.r LEDG.SWATH.SWATH_LO = (b.swath + 1) % 2 ^ 32 := by
  have hlo : b.swathStart.noted.2 = (b.swath + 1) % 2 ^ 32 := by
    by_cases h : b.act = none
    · rw [b.swathStart_missing h, Blk.noted_of_outline b.begunSwath_outline]
    · rw [Blk.noted_of_outline (b.swathStart_served_outline h)]
  exact hlo

/-- Past the refresh an axis keeps its posture, but for the lapsed admissions reported; without candidates also the hold of 01 R14. -/
theorem Blk.swathStart_posture (b : Blk) (n : Fin 48) (h : b.act ≠ none) :
    b.swathStart.postureOf n = (b.atRefresh.refresh.postureOf n).settled := by
  have ht : b.begunSwath.takePlan.countRun.stanceOf n = settledStance (b.atRefresh.refresh.stanceOf n) := by
    rw [Blk.stanceOf_of_ax n (Blk.countRun_ax _), Blk.takePlan_stance, b.begunSwath_stance]
  rw [b.swathStart_served h, Blk.decisionPoint_posture]
  exact congrArg Prod.fst ht

theorem Blk.swathStart_held (b : Blk) (n : Fin 48) (h : b.act ≠ none) (hc : b.plan.cands = []) :
    (b.swathStart.axis n).b AX.AX_SUPV.HELD = (b.atRefresh.refresh.axis n).b AX.AX_SUPV.HELD := by
  have hcands : b.begunSwath.takePlan.countRun.plan.cands = [] := by
    have e := Blk.core_of_outline ((Blk.countRun_outline _).trans b.begunSwath.takePlan_outline)
    have e' := Blk.core_of_outline b.begunSwath_outline
    rw [e'] at e
    exact (Blk.cands_of_core e).trans hc
  have ht : b.swathStart.stanceOf n = settledStance (b.atRefresh.refresh.stanceOf n) := by
    rw [b.swathStart_served h, Blk.decisionPoint_stance _ n hcands, Blk.stanceOf_of_ax n (Blk.countRun_ax _), Blk.takePlan_stance,
      b.begunSwath_stance]
  exact congrArg Prod.snd ht

/-! ### The clauses on an axis -/

/-- Of a module refreshed in time, or not at all, the axes keep mode, legs, trip and switches. -/
theorem Blk.refresh_posture_kept (b : Blk) (n : Fin 48) (h : b.act = none ∨ (b.axis n).late = false) :
    ∃ k, b.refresh.postureOf n = { (b.axis n).posture with age := k } := by
  by_cases ha : b.act = none
  · refine ⟨min ((b.axis n).r AX.AX_SUPV.AGE + 1) (2 ^ AX.AX_SUPV.AGE.w - 1), ?_⟩
    rw [Blk.postureOf, b.refresh_missing n ha]
    exact congrArg Prod.fst (Axis.age_count _)
  · exact ⟨0, congrArg Prod.fst (b.refresh_inTime n ha (h.resolve_left ha))⟩

theorem Axis.stance_of_superv {a t : Axis} (h : t.superv = a.superv) : t.stance = a.stance := (Prod.mk.inj h).1
theorem Axis.handling_of_superv {a t : Axis} (h : t.superv = a.superv) : t.handling = a.handling := (Prod.mk.inj (Prod.mk.inj h).2).1
theorem Axis.ramps_of_superv {a t : Axis} (h : t.superv = a.superv) : t.ramps false = a.ramps false := (Prod.mk.inj (Prod.mk.inj h).2).2
theorem Axis.posture_of_pair {t : Axis} {p : Posture} {q : Bool} (h : t.stance = (p, q)) : t.posture = p := (Prod.mk.inj h).1
theorem Axis.posture_of_stance {a t : Axis} (h : t.stance = a.stance) : t.posture = a.posture := (Prod.mk.inj h).1
theorem Axis.held_of_stance {a t : Axis} (h : t.stance = a.stance) : t.b AX.AX_SUPV.HELD = a.b AX.AX_SUPV.HELD := (Prod.mk.inj h).2

theorem Axis.pos_of_posture {t : Axis} {p : Posture} (h : t.posture = p) : t.mot.pCmd = p.pos := congrArg Posture.pos h
theorem Axis.mode_of_posture {t : Axis} {p : Posture} (h : t.posture = p) : t.mot.mode = p.mode := congrArg Posture.mode h
theorem Axis.lapsed_of_posture {t : Axis} {p : Posture} (h : t.posture = p) : t.mot.lapsed = p.lapsed := congrArg Posture.lapsed h
theorem Axis.legs_of_posture {t : Axis} {p : Posture} (h : t.posture = p) : t.legs = p.legs := congrArg Posture.legs h
theorem Axis.trip_of_posture {t : Axis} {p : Posture} (h : t.posture = p) : t.trip = p.trip := congrArg Posture.trip h
theorem Axis.pwm_of_posture {t : Axis} {p : Posture} (h : t.posture = p) : t.pwm = p.pwm := congrArg Posture.pwm h
theorem Axis.age_of_posture {t : Axis} {p : Posture} (h : t.posture = p) : t.r AX.AX_SUPV.AGE = p.age := congrArg Posture.age h

theorem Blk.atRefresh_act (b : Blk) : b.atRefresh.act = b.act := Blk.act_of_core (Blk.core_of_outline b.atRefresh_outline)

theorem Blk.atRefresh_stance (b : Blk) (n : Fin 48) : (b.atRefresh.axis n).stance = (b.axis n).stance := Axis.stance_of_superv (b.atRefresh_superv n)

theorem Blk.atRefresh_posture (b : Blk) (n : Fin 48) : (b.atRefresh.axis n).posture = (b.axis n).posture :=
  Axis.posture_of_stance (b.atRefresh_stance n)

theorem Axis.late_of_stance {a t : Axis} (h : t.stance = a.stance) : t.late = a.late := by
  simp only [Axis.late, Axis.age_of_posture (Axis.posture_of_stance h), Axis.held_of_stance h]
  rfl

/-- An axis without a side, or refreshed in time, keeps its posture over a swath start, but for age and lapsed admissions. -/
theorem Blk.swathStart_kept (b : Blk) (n : Fin 48) (h : b.act = none ∨ (b.axis n).late = false) :
    ∃ k l, b.swathStart.postureOf n = { (b.axis n).posture with age := k, lapsed := l } := by
  obtain ⟨k, hk⟩ := b.atRefresh.refresh_posture_kept n (by rwa [b.atRefresh_act, Axis.late_of_stance (b.atRefresh_stance n)])
  rw [b.atRefresh_posture n] at hk
  by_cases ha : b.act = none
  · rw [b.swathStart_missing ha, Blk.postureOf_of_stance (b.begunSwath_stance n), hk]
    exact ⟨k, (b.axis n).posture.lapsed, rfl⟩
  · rw [b.swathStart_posture n ha, hk]
    exact ⟨k, [], rfl⟩

/-- What the refresh made of an axis that is late stands when its lapsed admissions have been reported. -/
theorem Axis.halted_of_settled {a r d t : Axis} (hr : r.superv = a.superv) (hd : r.halted d) (ht : t.posture = d.posture.settled) : a.halted t := by
  have hlegs : r.legs = a.legs := Axis.legs_of_posture (Axis.posture_of_stance (Axis.stance_of_superv hr))
  have htl : t.legs = d.legs := Axis.legs_of_posture ht
  have htm : t.mot.mode = d.mot.mode := Axis.mode_of_posture ht
  obtain ⟨hdef, hramp⟩ := hd
  rw [Axis.handling_of_superv hr] at hdef hramp
  rw [Axis.ramps_of_superv hr] at hramp
  exact ⟨fun hh => by rw [htl, hdef hh, hlegs], fun hh hrm => by rw [htm]; exact hramp hh hrm⟩

theorem Axis.pos_of_settled {d t : Axis} (ht : t.posture = d.posture.settled) : t.mot.pCmd = d.mot.pCmd := Axis.pos_of_posture ht
theorem Axis.age_of_settled {d t : Axis} (ht : t.posture = d.posture.settled) : t.r AX.AX_SUPV.AGE = d.r AX.AX_SUPV.AGE := Axis.age_of_posture ht
theorem Axis.lapsed_of_settled {d t : Axis} (ht : t.posture = d.posture.settled) : t.mot.lapsed = [] := Axis.lapsed_of_posture ht

/-- An axis refreshed late has stopped and holds, where it stands (01 R14, 00 R6). -/
theorem Blk.swathStart_late (b : Blk) (n : Fin 48) (ha : b.act ≠ none) (hl : (b.axis n).late = true) :
    (b.swathStart.axis n).mot.pCmd = (b.axis n).mot.pCmd ∧ (b.axis n).halted (b.swathStart.axis n)
      ∧ (b.plan.cands = [] → (b.swathStart.axis n).b AX.AX_SUPV.HELD = true) := by
  obtain ⟨hpos, _, hheld, hhalt⟩ := b.atRefresh.refresh_late n (by rwa [b.atRefresh_act])
    (by rwa [Axis.late_of_stance (b.atRefresh_stance n)])
  have ht := b.swathStart_posture n ha
  refine ⟨?_, Axis.halted_of_settled (b.atRefresh_superv n) hhalt ht, fun hc => ?_⟩
  · rw [Axis.pos_of_settled ht, hpos]
    exact Axis.pos_of_posture (b.atRefresh_posture n)
  · rw [b.swathStart_held n ha hc]
    exact hheld

theorem Axis.pos_of_stance {a t : Axis} (h : t.stance = a.stance) : t.mot.pCmd = a.mot.pCmd := Axis.pos_of_posture (Axis.posture_of_stance h)
theorem Axis.age_of_stance {a t : Axis} (h : t.stance = a.stance) : t.r AX.AX_SUPV.AGE = a.r AX.AX_SUPV.AGE :=
  Axis.age_of_posture (Axis.posture_of_stance h)
theorem Axis.age_of_pair {t : Axis} {p : Posture} {k : Nat} {q : Bool} (h : t.stance = ({ p with age := k }, q)) : t.r AX.AX_SUPV.AGE = k :=
  Axis.age_of_posture (Axis.posture_of_pair h)

/-- The age of a refresh counts the swaths without one (01 R14). -/
theorem Blk.swathStart_age_missing (b : Blk) (n : Fin 48) (h : b.act = none) :
    (b.swathStart.axis n).r AX.AX_SUPV.AGE = min ((b.axis n).r AX.AX_SUPV.AGE + 1) (2 ^ AX.AX_SUPV.AGE.w - 1) := by
  rw [b.swathStart_missing h, Axis.age_of_stance (b.begunSwath_stance n), b.atRefresh.refresh_missing n (by rwa [b.atRefresh_act]),
    Axis.age_of_pair (Axis.age_count _), Axis.age_of_stance (b.atRefresh_stance n)]

theorem Blk.swathStart_age_served (b : Blk) (n : Fin 48) (h : b.act ≠ none) : (b.swathStart.axis n).r AX.AX_SUPV.AGE = 0 := by
  have ha : b.atRefresh.act ≠ none := by rwa [b.atRefresh_act]
  rw [Axis.age_of_settled (b.swathStart_posture n h)]
  cases hl : (b.atRefresh.axis n).late
  · exact Axis.age_of_pair (b.atRefresh.refresh_inTime n ha hl)
  · exact (b.atRefresh.refresh_late n ha hl).2.1

/-! ### At one instant (13 R440) -/

/-- Event registers and stamps are no part of a stance. -/
theorem Axis.withEvents_stance (a : Axis) {r : AxRegs} (st : Vector (Vector Nat 24) 6)
    (h : r[AX.AX_SUPV.AGE.reg]? = a.regs[AX.AX_SUPV.AGE.reg]?) : ({ a with regs := r, stamps := st } : Axis).stance = a.stance :=
  Axis.stance_of_supv rfl h

theorem Axis.atOnce_stance (a old : Axis) : (a.atOnce old).stance = a.stance := by
  unfold Axis.atOnce
  refine a.withEvents_stance _ ?_
  refine foldl_keeps (fun r : AxRegs => r[AX.AX_SUPV.AGE.reg]?) _ (fun r k => ?_) _ a.regs
  have hev : ∀ i ∈ axEvRegs, i ≠ AX.AX_SUPV.AGE.reg := by decide
  simp [hev _ (axEvReg_mem k.isLt)]

theorem Blk.atOnce_stance (b old : Blk) (n : Fin 48) : (b.atOnce old).stanceOf n = b.stanceOf n :=
  Blk.stanceOf_ofFn n rfl ((b.axis n).atOnce_stance (old.axis n))

theorem Axis.halted_of_posture {a d t : Axis} (h : t.posture = d.posture) (hd : a.halted d) : a.halted t := by
  have htl : t.legs = d.legs := Axis.legs_of_posture h
  have htm : t.mot.mode = d.mot.mode := Axis.mode_of_posture h
  exact ⟨fun hh => by rw [htl]; exact hd.1 hh, fun hh hr => by rw [htm]; exact hd.2 hh hr⟩

/-- A swath start as it stands at its instant. -/
def Blk.swathStep (b : Blk) : Blk := b.swathStart.atOnce b

theorem Blk.swathStep_outer (b : Blk) : b.swathStep.outer = b.swathStart.outer := b.swathStart.atOnce_outer b
theorem Blk.swathStep_stance (b : Blk) (n : Fin 48) : (b.swathStep.axis n).stance = (b.swathStart.axis n).stance := b.swathStart.atOnce_stance b n


/-! ### The clauses of a swath start -/

/-- A swath start counts the swath and begins its ticks and its supply at 0; memories, session and power stay (01 R25, 07 R223). -/
theorem Blk.swathStep_counts (b : Blk) : b.swathStep.swath = b.swath + 1 ∧ b.swathStep.tick = 0 ∧ b.swathStep.plan.supply = 0
    ∧ b.swathStep.sm = b.sm ∧ b.swathStep.owning = b.owning ∧ b.swathStep.pw = b.pw ∧ b.swathStep.sides = b.sides ∧ b.swathStep.nap = b.nap := by
  obtain ⟨g, c, h, hs⟩ := b.swathStart_core
  have ht := (Blk.core_of_outer b.swathStep_outer).trans hs
  simp only [Blk.core, Core.mk.injEq] at ht
  obtain ⟨hsm, hown, hpw, hsides, hnap, _, hswath, htick, hsupply, _⟩ := ht
  exact ⟨hswath, htick, hsupply, hsm, hown, hpw, hsides, hnap⟩

theorem Blk.swathStep_lo (b : Blk) : b.swathStep.r LEDG.SWATH.SWATH_LO = (b.swath + 1) % 2 ^ 32 := by
  rw [Blk.r_of_plainRegs (Blk.plainRegs_of_outer b.swathStep_outer) (by decide), b.swathStart_lo]

theorem Axis.late_eq_false (a : Axis) : a.late = false ↔ a.r AX.AX_SUPV.AGE < 49 ∨ a.b AX.AX_SUPV.HELD = true := by
  rw [Axis.late, Bool.and_eq_false_iff, decide_eq_false_iff_not, Nat.not_le, Bool.not_eq_false']

/-- An axis without a side, refreshed in time or held already stays as it is; one refreshed late has stopped and holds (01 R14, 00 R6). -/
theorem Blk.swathStep_axis (b : Blk) (n : Fin 48) : (b.swathStep.axis n).mot.pCmd = (b.axis n).mot.pCmd ∧
    (if b.act = none ∨ (b.axis n).r AX.AX_SUPV.AGE < 49 ∨ (b.axis n).b AX.AX_SUPV.HELD = true then
      (b.swathStep.axis n).mot.mode = (b.axis n).mot.mode ∧ (b.swathStep.axis n).legs = (b.axis n).legs
        ∧ (b.swathStep.axis n).trip = (b.axis n).trip ∧ (b.swathStep.axis n).pwm = (b.axis n).pwm
    else ((b.axis n).handling = true → (b.swathStep.axis n).legs.deferred = (b.axis n).legs.deferred ++ [.stop])
      ∧ ((b.axis n).handling = false → (b.axis n).ramps false = true → (b.swathStep.axis n).mot.mode ∈ [.stopping, .hold, .fallow])
      ∧ (b.plan.cands = [] → (b.swathStep.axis n).b AX.AX_SUPV.HELD = true)) := by
  have hst := b.swathStep_stance n
  have hcond : (b.act = none ∨ (b.axis n).r AX.AX_SUPV.AGE < 49 ∨ (b.axis n).b AX.AX_SUPV.HELD = true) ↔
      (b.act = none ∨ (b.axis n).late = false) := or_congr_right (Axis.late_eq_false _).symm
  by_cases hc : b.act = none ∨ (b.axis n).late = false
  · obtain ⟨k, l, hk⟩ := b.swathStart_kept n hc
    have hp := (Axis.posture_of_stance hst).trans hk
    rw [if_pos (hcond.2 hc)]
    exact ⟨Axis.pos_of_posture hp, Axis.mode_of_posture hp, Axis.legs_of_posture hp, Axis.trip_of_posture hp, Axis.pwm_of_posture hp⟩
  · obtain ⟨ha, hl⟩ := not_or.1 hc
    obtain ⟨hpos, hhalt, hheld⟩ := b.swathStart_late n ha (eq_true_of_ne_false hl)
    obtain ⟨hdef, hramp⟩ := Axis.halted_of_posture (Axis.posture_of_stance hst) hhalt
    rw [if_neg (mt hcond.1 hc)]
    exact ⟨(Axis.pos_of_stance hst).trans hpos, hdef, hramp, fun h => (Axis.held_of_stance hst).trans (hheld h)⟩

/-- Without a side nothing is decided and every age counts (01 R14). -/
theorem Blk.swathStep_missing (b : Blk) (h : b.act = none) : b.swathStep.plan.cands = b.plan.cands ∧ b.swathStep.planes = b.planes
    ∧ ∀ n, (b.swathStep.axis n).r AX.AX_SUPV.AGE = min ((b.axis n).r AX.AX_SUPV.AGE + 1) (2 ^ AX.AX_SUPV.AGE.w - 1) := by
  have hs : b.swathStep.outer = b.begunSwath.outer := by rw [b.swathStep_outer, b.swathStart_missing h]
  refine ⟨?_, (Blk.planes_of_outer hs).trans b.begunSwath_planes, fun n => ?_⟩
  · exact Blk.cands_of_core ((Blk.core_of_outer hs).trans (Blk.core_of_outline b.begunSwath_outline))
  · rw [Axis.age_of_stance (b.swathStep_stance n), b.swathStart_age_missing n h]

/-- With a side every candidate is decided, the budgets are in force and every cell is refreshed (01 R14, 07 R223, R233). -/
theorem Blk.swathStep_served (b : Blk) (h : b.act ≠ none) : b.swathStep.plan.cands = []
    ∧ (∀ i : Fin 12, b.swathStep.plan.budget.get i = (b.regs[24 + i.val]?).getD 0)
    ∧ ∀ n, (b.swathStep.axis n).r AX.AX_SUPV.AGE = 0 ∧ (b.swathStep.axis n).mot.lapsed = [] := by
  have hs := (Blk.core_of_outer b.swathStep_outer).trans (Blk.core_of_outline (b.swathStart_served_outline h))
  refine ⟨Blk.cands_of_core hs, fun i => ?_, fun n => ⟨?_, ?_⟩⟩
  · rw [Blk.budget_of_core hs, Vector.get_eq_getElem, Vector.getElem_ofFn]
    rfl
  · rw [Axis.age_of_stance (b.swathStep_stance n), b.swathStart_age_served n h]
  · exact Axis.lapsed_of_settled ((Axis.posture_of_stance (b.swathStep_stance n)).trans (b.swathStart_posture n h))

theorem swathStart_runs (s : State) (h : s.blk.running = true) {P : Blk → Prop} (hp : P s.blk.swathStep) : Does .swathStart s P := by
  refine does_of_onBlk (f := fun b => if !b.running then b else b.swathStep) rfl ?_
  rwa [if_neg (by simp [h])]

/-- A module that does not run has no swath start. -/
theorem swathStart_idle (s : State) (h : s.blk.running = false) : Does .swathStart s fun t => t = s.blk := by
  refine does_of_onBlk (f := fun b => if !b.running then b else b.swathStep) rfl ?_
  exact if_pos (by simp [h])

/-- Settles O52: a swath start by what each of its steps leaves of the core, of the sequence and of the stance of an axis, and every other
event of the planner by its own lemma. -/
theorem plannerEventsAct : Obligations.PlannerEventsAct := by
  unfold Obligations.PlannerEventsAct
  refine ⟨fun s h => swathStart_runs s h ?_, swathStart_idle, supervisionTimeout_held, supervisionTimeout_early, chopperOn_shows,
    chopperOff_shows, chopFault_marks, shortBrake82V_brakes, reserveEnter_enters, reserveEnter_stays, reserveExit_ends, reserveExit_stays⟩
  obtain ⟨hswath, htick, hsupply, hsm, hown, hpw, hsides, hnap⟩ := s.blk.swathStep_counts
  exact ⟨hswath, htick, s.blk.swathStep_lo, hsupply, hsm, hown, hpw, hsides, hnap, s.blk.swathStep_axis, s.blk.swathStep_missing,
    s.blk.swathStep_served⟩

end Sys2Proof.Machine
end

section
/-!
Legs under the operations of a move: what ends, stops or abandons a profile leaves the legs of the cell, its halt and every raised flag as
they were, and switches on no leg that is off.
-/

namespace Sys2Proof.Machine

/-- Every switch is off by command, and no carry waits (03 R78). -/
def Pwm.blank (p : Pwm) : Prop := p.pulses = Vector.replicate 4 .off ∧ p.carry = Vector.replicate 4 0

/-- From one cell to another the legs and the debug halt stay, every raised flag stays raised, and legs that are off stay off. -/
structure Cell.LegsKept (c d : Cell) : Prop where
  legs : d.ax.legs = c.ax.legs
  halted : d.ax.pwm.halted = c.ax.pwm.halted
  flags : c.flags ⊆ d.flags
  blank : c.ax.pwm.blank → d.ax.pwm.blank

theorem Cell.LegsKept.trans {c d e : Cell} (h : c.LegsKept d) (k : d.LegsKept e) : c.LegsKept e :=
  ⟨k.legs.trans h.legs, k.halted.trans h.halted, fun _ m => k.flags (h.flags m), fun b => k.blank (h.blank b)⟩

/-- A step that leaves the generator and the legs, and at most raises flags. -/
theorem Cell.LegsKept.of_eq {c d : Cell} (hl : d.ax.legs = c.ax.legs := by rfl) (hp : d.ax.pwm = c.ax.pwm := by rfl)
    (hf : c.flags ⊆ d.flags := by exact fun _ h => h) : c.LegsKept d :=
  ⟨hl, congrArg Pwm.halted hp, hf, fun b => hp ▸ b⟩

theorem Cell.LegsKept.refl (c : Cell) : c.LegsKept c := .of_eq

theorem Cell.LegsKept.ite {c d e : Cell} {p : Prop} [Decidable p] (hd : c.LegsKept d) (he : c.LegsKept e) : c.LegsKept (if p then d else e) := by
  split
  · exact hd
  · exact he

theorem Cell.raise_legsKept (c : Cell) (f : Flag) : c.LegsKept (c.raise f) := .of_eq rfl rfl (List.subset_append_left ..)

/-! ### The ends of a move -/

theorem Cell.setUnc_legsKept (c : Cell) : c.LegsKept c.setUnc := by
  refine .ite ?_ .of_eq
  have hr : c.LegsKept (c.raiseIf (!c.ax.b AX.BL_STAT.POS_UNC) AX.BL_EVT.POS_UNC) := .ite (c.raise_legsKept _) (.refl c)
  exact hr.trans .of_eq

theorem Cell.homeFail_legsKept (c : Cell) : c.LegsKept c.homeFail := by
  have hr : ∀ (d : Cell) (f : Flag), d.LegsKept ((d.raise f).event 0x08) := fun d f => (d.raise_legsKept f).trans .of_eq
  exact .ite (.ite (.trans (d := c.setB AX.BL_STAT.HOMING false) .of_eq (hr _ _)) (.refl c))
    (.ite (.trans (d := c.setB AX.ST_STAT.HOMING false) .of_eq (hr _ _)) (.refl c))

theorem Cell.endJob_legsKept (c : Cell) (done : Bool) : c.LegsKept (c.endJob done) := by
  unfold Cell.endJob
  split
  · exact .refl c
  · extract_lets e dev d1 d2 l d3
    have h2 : c.LegsKept d2 := .trans (d := d1) .of_eq (.ite .of_eq (.refl d1))
    have h3 : d2.LegsKept d3 := .ite .of_eq (.refl d2)
    exact (h2.trans h3).trans .of_eq

theorem Cell.dropWaiting_legsKept (c : Cell) (report : Bool) : c.LegsKept (c.dropWaiting report) := .of_eq

theorem Cell.goFallow_legsKept (c : Cell) : c.LegsKept c.goFallow := by
  unfold Cell.goFallow
  extract_lets lose d a _ _ _ _ a0 a1 a2 a3 a4 a5 _
  have hd : c.LegsKept d := .ite c.setUnc_legsKept (.refl c)
  have h1 : a1.legs = d.ax.legs ∧ a1.pwm = { d.ax.pwm.off with cmd := Vector.replicate 4 .off } := by
    simp only [a1, Axis.takeHall]
    exact ⟨rfl, rfl⟩
  have h5 : a5.legs = a1.legs ∧ a5.pwm = a1.pwm := by
    simp only [a5, a4, a3, a2, Axis.setB_legs, Axis.setB_pwm, and_self]
  have hl : a5.legs = d.ax.legs := h5.1.trans h1.1
  have hp : a5.pwm.halted = d.ax.pwm.halted ∧ a5.pwm.blank := by rw [h5.2, h1.2]; exact ⟨rfl, rfl, rfl⟩
  clear_value a5
  exact hd.trans ⟨hl, hp.1, fun _ h => h, fun _ => hp.2⟩

theorem Cell.abandon_legsKept (c : Cell) : c.LegsKept c.abandon := by
  unfold Cell.abandon
  extract_lets m report d e f
  refine .ite ?_ (.ite .of_eq (.refl c))
  have he : d.LegsKept e := .ite ((d.raise_legsKept _).trans .of_eq) (.refl d)
  have hf : e.LegsKept f := .ite .of_eq (.refl e)
  have hj : f.LegsKept ((f.endJob false).dropWaiting true) := (f.endJob_legsKept false).trans (Cell.dropWaiting_legsKept _ _)
  exact ((c.homeFail_legsKept.trans he).trans hf).trans (hj.trans (Cell.goFallow_legsKept _))

/-- A fallow or unconfigured axis is not enabled (06 R179). -/
theorem Cell.goFallow_enabled (c : Cell) : c.goFallow.ax.mot.mode.enabled = false := by
  rw [Cell.goFallow_mode]
  split <;> rfl

/-- An abandoned profile leaves no axis enabled (06 R180, R199). -/
theorem Cell.abandon_enabled (c : Cell) : c.abandon.ax.mot.mode.enabled = false := by
  unfold Cell.abandon
  extract_lets m report d e f
  split
  · exact Cell.goFallow_enabled _
  · next h =>
    have hm : c.ax.mot.mode.enabled = false := eq_false_of_ne_true h
    exact ite_keeps (fun c : Cell => c.ax.mot.mode.enabled) hm hm

theorem Cell.interruptTest_legsKept (c : Cell) : c.LegsKept c.interruptTest := by
  unfold Cell.interruptTest
  split
  · refine .ite .of_eq ?_
    have h : c.LegsKept (((c.raise AX.BL_EVT.INIT_FAIL).homeFail.endJob false).dropWaiting false) :=
      (((c.raise_legsKept _).trans (Cell.homeFail_legsKept _)).trans (Cell.endJob_legsKept _ _)).trans (Cell.dropWaiting_legsKept _ _)
    exact h.trans (Cell.goFallow_legsKept _)
  · exact .refl c

/-- Without test pulses there is nothing to interrupt (05 R177). -/
theorem Cell.interruptTest_of_not_testing (c : Cell) (h : c.ax.testing = false) : c.interruptTest = c := by
  unfold Cell.interruptTest
  unfold Axis.testing at h
  split <;> simp_all

theorem Cell.when_legsKept (c : Cell) (x : Bool) {f : Cell → Cell} (h : c.LegsKept (f c)) : c.LegsKept (c.when x f) := .ite h (.refl c)

/-! ### Coming to rest -/

theorem Cell.lifeCycle_legsKept (c : Cell) : c.LegsKept c.lifeCycle := by
  unfold Cell.lifeCycle
  split
  · exact .ite .of_eq (.refl c)
  · exact .refl c

theorem Cell.endGrip_legsKept (c : Cell) : c.LegsKept c.endGrip := .ite .of_eq (.refl c)

theorem Cell.toHold_legsKept (c : Cell) : c.LegsKept c.toHold := by
  unfold Cell.toHold
  extract_lets a d e
  have he : c.LegsKept e := .trans (d := d.reg _) .of_eq (Cell.endGrip_legsKept _)
  exact .ite he (.ite (he.trans e.goFallow_legsKept) (he.trans .of_eq))

theorem Cell.stopDone_legsKept (c : Cell) : c.LegsKept c.stopDone := by
  unfold Cell.stopDone
  extract_lets seq fallow d e
  have hd : c.LegsKept d := (c.raise_legsKept _).trans .of_eq
  have he : d.LegsKept e := (d.lifeCycle_legsKept.trans (Cell.endJob_legsKept _ _)).trans (Cell.toHold_legsKept _)
  exact .ite ((hd.trans he).trans e.goFallow_legsKept) (hd.trans he)

theorem Cell.startBrake_legsKept (c : Cell) (w : Brake) : c.LegsKept (c.startBrake w) := by
  unfold Cell.startBrake
  extract_lets d e
  exact .ite .of_eq .of_eq

/-! ### Stops -/

theorem Cell.stopAlong_legsKept (c : Cell) (k : StopKind) (p : Prof) : c.LegsKept (c.stopAlong k p) := by
  unfold Cell.stopAlong
  extract_lets d
  exact .ite (.trans (d := d) .of_eq d.stopDone_legsKept) .of_eq

theorem Cell.stopAgain_legsKept (c : Cell) (k : StopKind) : c.LegsKept (c.stopAgain k) := by
  unfold Cell.stopAgain
  extract_lets m
  split
  · refine .ite (.ite (c.stopAlong_legsKept _ _) (.refl c)) (.ite ?_ (.refl c))
    exact .trans (d := c.mot _) .of_eq (Cell.stopAlong_legsKept _ _ _)
  · exact .refl c

theorem Cell.stop_legsKept (c : Cell) (k : StopKind) : c.LegsKept (c.stop k) := by
  have hdis : c.LegsKept c.discard := c.dropWaiting_legsKept false
  -- what every stop that ends a profile does first
  have hend : ∀ d : Cell, d.LegsKept ((d.homeFail.count AX.MOT_CNT.STOPS).mot fun x => { x with left := true }) := fun d =>
    d.homeFail_legsKept.trans .of_eq
  unfold Cell.stop
  extract_lets a m d1 d e f g from_
  refine .ite hdis (.ite ?_ (hdis.trans (.ite ?_ (.ite (d.stopAgain_legsKept k) (.ite .of_eq (.ite (.refl d) ?_))))))
  · have hd1 : c.LegsKept d1 := (hdis.trans (Cell.homeFail_legsKept _)).trans .of_eq
    split
    · exact hd1.trans .of_eq
    · exact hd1.trans .of_eq
  · have he : d.LegsKept e := .ite (.refl d) (hend d)
    have hf : d.LegsKept f := he.trans (e.endJob_legsKept _)
    exact .ite (hf.trans (f.startBrake_legsKept _)) ((hf.trans f.setUnc_legsKept).trans (Cell.startBrake_legsKept _ _))
  · exact (hend d).trans (.trans (d := g.mot _) .of_eq (Cell.stopAlong_legsKept _ _ _))

theorem Cell.fallowCmd_legsKept (c : Cell) : c.LegsKept c.fallowCmd := by
  have hdis : ∀ d : Cell, d.LegsKept d.discard := fun d => d.dropWaiting_legsKept false
  unfold Cell.fallowCmd
  extract_lets m d
  refine .ite (hdis c) (.ite ?_ (.ite .of_eq ?_))
  · exact ((c.homeFail_legsKept.trans (hdis _)).trans (Cell.endJob_legsKept _ _)).trans (Cell.goFallow_legsKept _)
  · exact (c.stop_legsKept .stop).trans (.ite .of_eq (.ite (Cell.goFallow_legsKept _) .of_eq))

/-! ### What waited in short-circuit handling (02 R69) -/

/-- What waited acts on a cell with nothing left to wait; before that nothing happens. -/
theorem Cell.runDeferred_legsKept (c : Cell) (h : c.ax.legs.phase = .normal) :
    (c.legs fun l => { l with deferred := [] }).LegsKept c.runDeferred := by
  unfold Cell.runDeferred
  rw [if_pos h]
  refine List.foldlRecOn (motive := fun d : Cell => (c.legs fun l => { l with deferred := [] }).LegsKept d) _ _ (.refl _) fun d hd k _ => ?_
  cases k with
  | stop => exact hd.trans (d.stop_legsKept .stop)
  | qstop => exact hd.trans (d.stop_legsKept .qstop)
  | fallow => exact hd.trans d.fallowCmd_legsKept

theorem Cell.runDeferred_of_handling (c : Cell) (h : c.ax.legs.phase ≠ .normal) : c.runDeferred = c := if_neg h

theorem Cell.runDeferred_of_nil (c : Cell) (h : c.ax.legs.deferred = []) : c.runDeferred = c := by
  have hc : (c.legs fun l => { l with deferred := [] }) = c := by rw [Cell.legs, ← h]
  unfold Cell.runDeferred
  split
  · simp only [h, List.foldl_nil, hc]
  · rfl

/-! ### The reset of an axis (10 R344, R345) -/

theorem Cell.clearTrip_legsKept (c : Cell) (w : Wide) (cyc : Nat) : c.LegsKept (c.clearTrip w cyc).1 := by
  unfold Cell.clearTrip
  repeat' split
  · exact .refl c
  · exact .of_eq
  · exact c.raise_legsKept _

theorem Cell.resetSteps_legsKept (c : Cell) (w : Wide) (cyc : Nat) (keep : Bool) : c.LegsKept (c.resetSteps w cyc keep) := by
  unfold Cell.resetSteps
  extract_lets d1 d2 d3 d4 p d5
  have h2 : c.LegsKept d2 := .trans (d := d1) .of_eq
    (.ite d1.abandon_legsKept ((d1.endJob_legsKept false).trans (Cell.goFallow_legsKept _)))
  have h4 : c.LegsKept d4 := .trans (d := d3) (h2.trans (d2.clearTrip_legsKept w cyc)) .of_eq
  have hr : ∀ (d : Cell) (p : Int), d.LegsKept (d.redefine p) := fun _ _ => .of_eq
  have hm : ∀ (d : Cell) (p : Int), d.LegsKept (d.setMeas p) := fun _ _ => .of_eq
  have hb : ∀ (d : Cell) (v : Bool), d.LegsKept (d.setB AX.RST_STAT.CARRIED v) := fun _ _ => .of_eq
  clear_value d4
  exact .ite ((h4.trans (hr _ _)).trans (hb _ _))
    ((((h4.trans d4.setUnc_legsKept).trans (hr _ _)).trans (hm _ _)).trans (hb _ _))

end Sys2Proof.Machine
end

section
/-!
Faults of legs (02 R53 to R62, R42, R43, 10 R337): what short-circuit handling makes of a cell, and each clause of
`Obligations.LegFaultsAreHandled` as a lemma of its own.
-/

namespace Sys2Proof.Machine

open Sys2Proof.Safety

/-! ### A step on one cell -/

theorem Blk.cell_only (b : Blk) (n : Fin 48) (f : Cell → Cell) : b.only (b.cell n f) n := fun _ h => b.cell_axis_ne f h

theorem Blk.cell_still (b : Blk) (n : Fin 48) (f : Cell → Cell) : b.still (b.cell n f) := Blk.still_of_frame (b.cell_frame n f)

/-- A step on a cell leaves the rest of the module and the session, and of the axes only its own changes. -/
theorem Blk.cell_apart (b : Blk) (n : Fin 48) (f : Cell → Cell) :
    b.only (b.cell n f) n ∧ (b.cell n f).rest = b.rest ∧ (b.cell n f).owning = b.owning :=
  ⟨b.cell_only n f, (b.cell_still n f).1, (b.cell_still n f).2.1⟩

/-- A step that leaves the cell leaves its axis. -/
theorem Blk.cell_axis_of_same (b : Blk) (n : Fin 48) {f : Cell → Cell} (h : f (b.cellOf n) = b.cellOf n) : (b.cell n f).axis n = b.axis n := by
  rw [b.cell_of_same n h]

/-- A step that raises no flag leaves the axis that it makes. -/
theorem Blk.cell_axis_of_flags (b : Blk) (n : Fin 48) {f : Cell → Cell} (h : (f (b.cellOf n)).flags = []) :
    (b.cell n f).axis n = (f (b.cellOf n)).ax := by
  rw [Blk.cell_axis_eq, h, Blk.raiseAx_nil]
  exact get_set_same ..

/-! ### Bits of the legs -/

theorem getLsbD_bitSet {w : Nat} (v : BitVec w) {k : Nat} (x : Bool) {i : Nat} (hi : i < w) :
    (bitSet v k x).getLsbD i = if i = k then x else v.getLsbD i := by
  have hm : (BitVec.ofNat w (2 ^ k)).getLsbD i = decide (i = k) := by
    rw [BitVec.getLsbD_ofNat, Nat.testBit_two_pow, decide_eq_true hi, Bool.true_and]
    exact decide_eq_decide.2 eq_comm
  have ho : (bitSet v k x).getLsbD i = if x then v.getLsbD i || decide (i = k) else v.getLsbD i && !decide (i = k) := by
    cases x
    · simp only [bitSet, BitVec.getLsbD_and, BitVec.getLsbD_not, hm, hi, decide_true, Bool.true_and, if_neg Bool.false_ne_true]
    · simp only [bitSet, BitVec.getLsbD_or, hm, if_true]
  rw [ho]
  by_cases hk : i = k
  · cases x <;> simp [hk]
  · cases x <;> simp [hk]

theorem getLsbD_bitSet_same {w k : Nat} (v : BitVec w) (x : Bool) (hk : k < w) : (bitSet v k x).getLsbD k = x := by
  simp [getLsbD_bitSet v x hk]

/-- A fold that sets the bit of each of its items leaves the other bits. -/
theorem getLsbD_foldl_bitSet {w : Nat} (g : Fin w → Bool) (i : Fin w) (l : List (Fin w)) (v : BitVec w) :
    (l.foldl (fun v k => bitSet v k.val (g k)) v).getLsbD i.val = if i ∈ l then g i else v.getLsbD i.val := by
  induction l generalizing v with
  | nil => simp
  | cons k t ih =>
    rw [List.foldl_cons, ih, getLsbD_bitSet v (g k) i.isLt]
    by_cases hk : i = k
    · subst hk
      simp
    · simp [hk, Fin.val_ne_of_ne hk]

/-! ### Legs forced off, and DRAIN (02 R61, R63) -/

theorem Cell.forceOff_legs (c : Cell) (didt : Bool) :
    (c.forceOff didt).ax.legs = { c.ax.legs with forced := (c.forceOff didt).ax.legs.forced } := rfl

theorem Cell.forceOff_blank (c : Cell) (didt : Bool) : (c.forceOff didt).ax.pwm.blank := ⟨rfl, rfl⟩

/-- Past the forcing off, DRAIN only abandons the profile. -/
theorem Cell.toDrain_legsKept (c : Cell) (didt : Bool) :
    ((c.legs fun l => { l with phase := .drain, holdLeg := none, deferred := [] }).forceOff didt).LegsKept (c.toDrain didt) :=
  (Cell.abandon_legsKept _).trans .of_eq

/-- What a cell is in DRAIN: its legs forced off, with nothing left to wait. -/
theorem Cell.toDrain_legs (c : Cell) (didt : Bool) : (c.toDrain didt).ax.legs =
    { c.ax.legs with phase := .drain, holdLeg := none, deferred := [], forced := (c.toDrain didt).ax.legs.forced } := by
  rw [(c.toDrain_legsKept didt).legs]
  rfl

theorem Cell.toDrain_blank (c : Cell) (didt : Bool) : (c.toDrain didt).ax.pwm.blank := (c.toDrain_legsKept didt).blank (Cell.forceOff_blank _ _)

theorem Cell.toDrain_flags (c : Cell) (didt : Bool) : c.flags ⊆ (c.toDrain didt).flags := (c.toDrain_legsKept didt).flags

theorem Cell.toDrain_enabled (c : Cell) (didt : Bool) : (c.toDrain didt).ax.mot.mode.enabled = false := Cell.abandon_enabled _

/-! ### A fault on a leg (02 R61) -/

/-- A fault counts for the role of its leg; a detection raises `SC` and counts in the leg's `SC_CNT` (02 R56, R70). -/
def Cell.marked (c : Cell) (leg : Fin 5) (didt : Bool) : Cell :=
  (if didt then (c.raise AX.LEG_EVT.SC).count (scCnt leg) else c).legs fun l =>
    { l with hit := (c.ax.roleOf leg).elim l.hit fun k => bitSet l.hit k.val true }

theorem Cell.marked_legs (c : Cell) (leg : Fin 5) (didt : Bool) :
    (c.marked leg didt).ax.legs = { c.ax.legs with hit := (c.marked leg didt).ax.legs.hit } := by cases didt <;> rfl

theorem Cell.marked_mot (c : Cell) (leg : Fin 5) (didt : Bool) : (c.marked leg didt).ax.mot = c.ax.mot := by cases didt <;> rfl

theorem Cell.marked_testing (c : Cell) (leg : Fin 5) (didt : Bool) : (c.marked leg didt).ax.testing = c.ax.testing := by cases didt <;> rfl

theorem Cell.marked_flags (c : Cell) (leg : Fin 5) (didt : Bool) : c.flags ⊆ (c.marked leg didt).flags := by
  cases didt
  · exact fun _ h => h
  · exact List.subset_append_left ..

theorem Cell.marked_sc (c : Cell) (leg : Fin 5) : AX.LEG_EVT.SC ∈ (c.marked leg true).flags := List.mem_append_right _ (List.mem_singleton_self _)

theorem Cell.marked_hit (c : Cell) (leg : Fin 5) (didt : Bool) {k : Fin 4} (h : k ∈ c.ax.roleOf leg) :
    (c.marked leg didt).ax.legs.hit.getLsbD k.val = true := by
  have hh : (c.marked leg didt).ax.legs.hit = bitSet c.ax.legs.hit k.val true := by
    rw [Option.mem_def] at h
    cases didt <;> simp [Cell.marked, h]
  rw [hh]
  exact getLsbD_bitSet_same _ _ k.isLt

/-- A marked cell in the fault hold of a leg, its legs forced off (02 R53, R54). -/
def Cell.held (c : Cell) (leg : Fin 5) (didt : Bool) : Cell :=
  ((c.marked leg didt).legs fun l => { l with phase := .hold, holdLeg := some leg }).forceOff didt

/-- From NORMAL, with no other role's fault counted, a fault begins the fault hold. -/
theorem Cell.legFault_of_first (c : Cell) (leg : Fin 5) (didt : Bool) (hp : c.ax.legs.phase = .normal)
    (ho : c.ax.otherCount (c.ax.roleOf leg) = false) : c.legFault leg didt = (c.held leg didt).when c.ax.legsFree Cell.interruptTest := by
  unfold Cell.legFault
  extract_lets a k mark
  split
  · exact if_neg (Bool.eq_false_iff.1 ho)
  · next hh => exact absurd (hp.symm.trans hh) LegPhase.noConfusion
  · next hn _ => exact absurd hp hn

/-- With another role's, or from another leg's hold, it leads to DRAIN. -/
theorem Cell.legFault_of_further (c : Cell) (leg : Fin 5) (didt : Bool)
    (h : (c.ax.legs.phase = .normal ∧ c.ax.otherCount (c.ax.roleOf leg) = true) ∨ (c.ax.legs.phase = .hold ∧ c.ax.legs.holdLeg ≠ some leg)) :
    c.legFault leg didt = (c.marked leg didt).toDrain didt := by
  unfold Cell.legFault
  extract_lets a k mark
  split
  · next hn =>
    obtain ⟨-, ho⟩ := h.resolve_right fun hh => LegPhase.noConfusion (hn.symm.trans hh.1)
    exact if_pos ho
  · next hh =>
    obtain ⟨-, hl⟩ := h.resolve_left fun hn => LegPhase.noConfusion (hh.symm.trans hn.1)
    exact if_neg hl
  · next hn hh => exact absurd h (not_or.2 ⟨fun x => hn x.1, fun x => hh x.1⟩)

/-- A fault that R61 has no row for changes nothing (notes/assumptions/54.md). -/
theorem Cell.legFault_of_handled (c : Cell) (leg : Fin 5) (didt : Bool)
    (h : c.ax.legs.phase ≠ .normal ∧ (c.ax.legs.phase = .hold → c.ax.legs.holdLeg = some leg)) : c.legFault leg didt = c := by
  obtain ⟨hn, hh⟩ := h
  unfold Cell.legFault
  extract_lets a k mark
  split
  · next hp => exact absurd hp hn
  · next hp => exact if_pos (hh hp)
  · rfl

/-- What the first fault of a period makes of a cell: legs off in the fault hold, and a profile that runs on unless test pulses ran. -/
theorem Cell.legFault_holds (c : Cell) (leg : Fin 5) (didt : Bool) (hp : c.ax.legs.phase = .normal)
    (ho : c.ax.otherCount (c.ax.roleOf leg) = false) :
    (c.held leg didt).LegsKept (c.legFault leg didt) ∧ (c.ax.testing = false → (c.legFault leg didt).ax.mot = c.ax.mot) := by
  rw [c.legFault_of_first leg didt hp ho]
  refine ⟨Cell.when_legsKept _ _ (Cell.interruptTest_legsKept _), fun ht => ?_⟩
  have hi : (c.held leg didt).interruptTest = c.held leg didt :=
    Cell.interruptTest_of_not_testing _ ((c.marked_testing leg didt).trans ht)
  have hm : (c.held leg didt).ax.mot = c.ax.mot := c.marked_mot leg didt
  unfold Cell.when
  rw [hi, ite_self, hm]

theorem Cell.held_legs (c : Cell) (leg : Fin 5) (didt : Bool) : (c.held leg didt).ax.legs =
    { c.ax.legs with phase := .hold, holdLeg := some leg, hit := (c.marked leg didt).ax.legs.hit, forced := (c.held leg didt).ax.legs.forced } := by
  have h := Cell.forceOff_legs ((c.marked leg didt).legs fun l => { l with phase := .hold, holdLeg := some leg }) didt
  rw [Cell.legs_ax_legs, c.marked_legs leg didt] at h
  exact h

/-- A fault on a leg lowers no flag and moves no bootstrap. -/
theorem Cell.legFault_keeps (c : Cell) (leg : Fin 5) (didt : Bool) :
    (c.legFault leg didt).ax.legs.bootOk = c.ax.legs.bootOk ∧ c.flags ⊆ (c.legFault leg didt).flags := by
  by_cases hfirst : c.ax.legs.phase = .normal ∧ c.ax.otherCount (c.ax.roleOf leg) = false
  · obtain ⟨hk, -⟩ := c.legFault_holds leg didt hfirst.1 hfirst.2
    exact ⟨by rw [hk.legs, Cell.held_legs], List.Subset.trans (c.marked_flags leg didt) hk.flags⟩
  by_cases hmore : (c.ax.legs.phase = .normal ∧ c.ax.otherCount (c.ax.roleOf leg) = true) ∨
      (c.ax.legs.phase = .hold ∧ c.ax.legs.holdLeg ≠ some leg)
  · rw [c.legFault_of_further leg didt hmore]
    exact ⟨by rw [Cell.toDrain_legs, Cell.marked_legs], List.Subset.trans (c.marked_flags leg didt) (Cell.toDrain_flags _ _)⟩
  · rw [c.legFault_of_handled leg didt ⟨fun hp => ?_, fun hp => ?_⟩]
    · exact ⟨rfl, fun _ h => h⟩
    · rcases Bool.eq_false_or_eq_true (c.ax.otherCount (c.ax.roleOf leg)) with ho | ho
      · exact hmore (.inl ⟨hp, ho⟩)
      · exact hfirst ⟨hp, ho⟩
    · exact not_not.1 fun hl => hmore (.inr ⟨hp, hl⟩)

/-! ### The clauses -/

/-- Without gate-drive power no detector works (02 R48). -/
theorem didtDetect_unpowered (s : State) (n : Fin 48) (leg : Fin 5) (h : s.blk.pw.gd = false) :
    Does (.didtDetect n leg) s fun t => t = s.blk :=
  does_of_onBlk (f := fun b => if b.pw.gd then b.cell n fun c => c.legFault leg true else b) rfl (if_neg (by simp [h]))

theorem didtDetect_faults (s : State) (n : Fin 48) (leg : Fin 5) (h : s.blk.pw.gd = true) :
    Does (.didtDetect n leg) s fun t => s.blk.only t n ∧ t.rest = s.blk.rest ∧ t.owning = s.blk.owning ∧
      (if (s.blk.axis n).legs.phase = .normal ∧ (s.blk.axis n).otherCount ((s.blk.axis n).roleOf leg) = false then
      (t.axis n).legs.phase = .hold ∧ (t.axis n).legs.holdLeg = some leg ∧ ((s.blk.axis n).testing = false → (t.axis n).mot = (s.blk.axis n).mot)
      ∧ (t.axis n).pwm.pulses = Vector.replicate 4 .off ∧ (t.axis n).pwm.carry = Vector.replicate 4 0 ∧ (t.axis n).flagged AX.LEG_EVT.SC
      ∧ (∀ k ∈ (s.blk.axis n).roleOf leg, (t.axis n).legs.hit.getLsbD k.val = true)
      else if (s.blk.axis n).legs.phase = .normal ∨ ((s.blk.axis n).legs.phase = .hold ∧ (s.blk.axis n).legs.holdLeg ≠ some leg) then
      (t.axis n).legs.phase = .drain ∧ (t.axis n).mot.mode.enabled = false ∧ (t.axis n).flagged AX.LEG_EVT.SC
      ∧ (t.axis n).pwm.pulses = Vector.replicate 4 .off
      else t.axis n = s.blk.axis n) := by
  refine does_of_onBlk (f := fun b => if b.pw.gd then b.cell n fun c => c.legFault leg true else b) rfl ?_
  rw [if_pos h]
  obtain ⟨honly, hrest, hown⟩ := s.blk.cell_apart n fun c => c.legFault leg true
  refine ⟨honly, hrest, hown, ?_⟩
  have hflag := s.blk.cell_axis_flagged n (fun c => c.legFault leg true) (f := AX.LEG_EVT.SC)
  split
  · next hfirst =>
    obtain ⟨hk, hmot⟩ := (s.blk.cellOf n).legFault_holds leg true hfirst.1 hfirst.2
    obtain ⟨hpulses, hcarry⟩ := hk.blank (Cell.forceOff_blank _ _)
    have hsc := hflag (hk.flags ((s.blk.cellOf n).marked_sc leg)) (by decide) (by decide)
    simp only [Blk.cell_axis_legs, Blk.cell_axis_mot, Blk.cell_axis_pwm]
    rw [hk.legs, Cell.held_legs]
    exact ⟨rfl, rfl, hmot, hpulses, hcarry, hsc, fun k hr => (s.blk.cellOf n).marked_hit leg true hr⟩
  · next hfirst =>
    split
    · next hmore =>
      have heq : (s.blk.cellOf n).legFault leg true = _ := Cell.legFault_of_further _ leg true
        (hmore.imp_left fun hp => ⟨hp, eq_true_of_ne_false fun ho => hfirst ⟨hp, ho⟩⟩)
      have hsc := hflag (by rw [heq]; exact Cell.toDrain_flags _ _ (Cell.marked_sc _ leg)) (by decide) (by decide)
      simp only [Blk.cell_axis_legs, Blk.cell_axis_mot, Blk.cell_axis_pwm, heq]
      exact ⟨by rw [Cell.toDrain_legs], Cell.toDrain_enabled _ _, hsc, (Cell.toDrain_blank _ _).1⟩
    · next hmore =>
      refine s.blk.cell_axis_of_same n (Cell.legFault_of_handled _ leg true ⟨fun hp => hmore (.inl hp), fun hp => ?_⟩)
      exact not_not.1 fun hl => hmore (.inr ⟨hp, hl⟩)

/-- A cell whose bootstrap has fallen (02 R43). -/
def Cell.uncharged (c : Cell) (leg : Fin 5) : Cell :=
  (c.legs fun l => { l with bootOk := bitSet l.bootOk leg.val false }).raise AX.LEG_EVT.BOOT_UV

theorem Cell.bootUv_of_role (c : Cell) (leg : Fin 5) (hb : c.ax.legs.bootOk.getLsbD leg.val = true) (hr : c.ax.roleOf leg ≠ none) :
    c.bootUv leg = (c.uncharged leg).legFault leg false := by
  unfold Cell.bootUv
  simp only [hb, Bool.not_true, Bool.false_eq_true, if_false]
  exact if_pos (Option.isSome_iff_ne_none.2 hr)

/-- A leg without a role: only an unused spare is the worse for it. -/
theorem Cell.bootUv_of_idle (c : Cell) (leg : Fin 5) (hb : c.ax.legs.bootOk.getLsbD leg.val = true) (hr : c.ax.roleOf leg = none) :
    c.bootUv leg = if leg = 4 && !c.ax.legs.spareUsed && c.ax.legs.subRole.isNone then
      ((c.uncharged leg).map fun a => { a with legs := { a.legs with spareBad := true }, nvPending := true }).raise AX.LEG_EVT.SPARE_BAD
    else c.uncharged leg := by
  unfold Cell.bootUv
  simp only [hb, Bool.not_true, Bool.false_eq_true, if_false]
  exact if_neg (by rw [Option.not_isSome_iff_eq_none]; exact hr)

theorem Cell.uncharged_bootOk (c : Cell) (leg : Fin 5) : (c.uncharged leg).ax.legs.bootOk.getLsbD leg.val = false :=
  getLsbD_bitSet_same _ _ leg.isLt

theorem Cell.uncharged_flag (c : Cell) (leg : Fin 5) : AX.LEG_EVT.BOOT_UV ∈ (c.uncharged leg).flags :=
  List.mem_append_right _ (List.mem_singleton_self _)

/-- From NORMAL a fallen bootstrap of a leg with a role is a fault of it (02 R43, R53). -/
theorem Cell.bootUv_phase (c : Cell) (leg : Fin 5) (hb : c.ax.legs.bootOk.getLsbD leg.val = true) (hr : c.ax.roleOf leg ≠ none)
    (hp : c.ax.legs.phase = .normal) : (c.bootUv leg).ax.legs.phase = if c.ax.otherCount (c.ax.roleOf leg) then .drain else .hold := by
  rw [c.bootUv_of_role leg hb hr]
  split
  · next ho => rw [Cell.legFault_of_further (c.uncharged leg) leg false (.inl ⟨hp, ho⟩), Cell.toDrain_legs]
  · next ho =>
    obtain ⟨hk, -⟩ := (c.uncharged leg).legFault_holds leg false hp (eq_false_of_ne_true ho)
    rw [hk.legs, Cell.held_legs]

/-- What every fall of a bootstrap leaves. -/
theorem Cell.bootUv_falls (c : Cell) (leg : Fin 5) (hb : c.ax.legs.bootOk.getLsbD leg.val = true) :
    (c.bootUv leg).ax.legs.bootOk.getLsbD leg.val = false ∧ AX.LEG_EVT.BOOT_UV ∈ (c.bootUv leg).flags := by
  have hlow := c.uncharged_bootOk leg
  have hflag := c.uncharged_flag leg
  by_cases hr : c.ax.roleOf leg = none
  · rw [c.bootUv_of_idle leg hb hr]
    split
    · exact ⟨hlow, List.mem_append_left _ hflag⟩
    · exact ⟨hlow, hflag⟩
  · obtain ⟨hboot, hkept⟩ := (c.uncharged leg).legFault_keeps leg false
    rw [c.bootUv_of_role leg hb hr, hboot]
    exact ⟨hlow, hkept hflag⟩

theorem Cell.bootUv_idle (c : Cell) (leg : Fin 5) (hb : c.ax.legs.bootOk.getLsbD leg.val = true) (hr : c.ax.roleOf leg = none) :
    (c.bootUv leg).ax.legs.phase = c.ax.legs.phase ∧ (c.bootUv leg).ax.mot = c.ax.mot
      ∧ (leg = 4 → c.ax.legs.spareUsed = false → c.ax.legs.subRole = none →
        (c.bootUv leg).ax.legs.spareBad = true ∧ (c.bootUv leg).ax.nvPending = true) := by
  rw [c.bootUv_of_idle leg hb hr]
  split
  · exact ⟨rfl, rfl, fun _ _ _ => ⟨rfl, rfl⟩⟩
  · next hs => exact ⟨rfl, rfl, fun hl hu hn => absurd (by simp [hl, hu, hn]) hs⟩

theorem bootUvEvent_falls (s : State) (n : Fin 48) (leg : Fin 5) :
    Does (.bootUvEvent n leg) s fun t => s.blk.only t n ∧ t.rest = s.blk.rest ∧ t.owning = s.blk.owning ∧
      (if (s.blk.axis n).legs.bootOk.getLsbD leg.val = false then t.axis n = s.blk.axis n
      else (t.axis n).legs.bootOk.getLsbD leg.val = false ∧ (t.axis n).flagged AX.LEG_EVT.BOOT_UV
      ∧ ((s.blk.axis n).roleOf leg ≠ none → (s.blk.axis n).legs.phase = .normal →
      (t.axis n).legs.phase = (if (s.blk.axis n).otherCount ((s.blk.axis n).roleOf leg) then .drain else .hold))
      ∧ ((s.blk.axis n).roleOf leg = none → (t.axis n).legs.phase = (s.blk.axis n).legs.phase ∧ (t.axis n).mot = (s.blk.axis n).mot
      ∧ (leg = 4 → (s.blk.axis n).legs.spareUsed = false → (s.blk.axis n).legs.subRole = none →
      (t.axis n).legs.spareBad = true ∧ (t.axis n).nvPending = true))) := by
  refine does_of_onBlk (f := fun b => b.cell n fun c => c.bootUv leg) rfl ?_
  obtain ⟨honly, hrest, hown⟩ := s.blk.cell_apart n fun c => c.bootUv leg
  refine ⟨honly, hrest, hown, ?_⟩
  split
  · next hb =>
    refine s.blk.cell_axis_of_same n ?_
    unfold Cell.bootUv
    exact if_pos (congrArg not hb)
  · next hb =>
    have hb' : (s.blk.cellOf n).ax.legs.bootOk.getLsbD leg.val = true := eq_true_of_ne_false hb
    obtain ⟨hlow, hflag⟩ := (s.blk.cellOf n).bootUv_falls leg hb'
    simp only [Blk.cell_axis_legs, Blk.cell_axis_mot, Blk.cell_axis_nvPending]
    exact ⟨hlow, Blk.cell_axis_flagged _ _ _ hflag (by decide) (by decide), (s.blk.cellOf n).bootUv_phase leg hb', (s.blk.cellOf n).bootUv_idle leg hb'⟩

/-- A current in its switch's forward direction above 0.5 A, at which an open edge counts (10 R337). -/
def Axis.opens (a : Axis) (leg : Fin 5) (high : Bool) (mA : Int) : Prop :=
  if high then 500 < mA ∧ a.legs.bootOk.getLsbD leg.val = true else mA < -500

theorem Axis.opens_iff (a : Axis) (leg : Fin 5) (high : Bool) (mA : Int) : a.opens leg high mA ↔
    ¬ (if high then decide (mA ≤ 500) || !a.legs.bootOk.getLsbD leg.val else decide (-500 ≤ mA)) = true := by
  unfold Axis.opens
  cases high <;> simp

theorem Cell.openFault_of_opens (c : Cell) (leg : Fin 5) (high : Bool) (mA : Int) {k : Fin 4} (hr : c.ax.roleOf leg = some k)
    (hp : c.ax.legs.phase = .normal) (ho : c.ax.opens leg high mA) :
    c.openFault leg high mA = (c.raise AX.LEG_EVT.SC).legs fun l => { l with hit := bitSet l.hit k.val true } := by
  unfold Cell.openFault
  rw [if_neg ((c.ax.opens_iff leg high mA).1 ho)]
  simp only [hr, hp]

theorem Cell.openFault_of_not (c : Cell) (leg : Fin 5) (high : Bool) (mA : Int)
    (h : ¬ (c.ax.roleOf leg ≠ none ∧ c.ax.legs.phase = .normal ∧ c.ax.opens leg high mA)) : c.openFault leg high mA = c := by
  unfold Cell.openFault
  by_cases ho : c.ax.opens leg high mA
  · rw [if_neg ((c.ax.opens_iff leg high mA).1 ho)]
    split
    · next k hr hp => exact absurd ⟨by rw [hr]; exact Option.some_ne_none k, hp, ho⟩ h
    · rfl
  · exact if_pos (not_not.1 (mt (c.ax.opens_iff leg high mA).2 ho))

theorem openEdge_counts (s : State) (n : Fin 48) (leg : Fin 5) (high : Bool) (mA : Int) :
    Does (.openEdge n ⟨leg, high, mA⟩) s fun t => s.blk.only t n ∧ s.blk.still t ∧ (t.axis n).mot = (s.blk.axis n).mot
      ∧ (t.axis n).legs.phase = (s.blk.axis n).legs.phase
      ∧ (if (s.blk.axis n).roleOf leg ≠ none ∧ (s.blk.axis n).legs.phase = .normal
      ∧ (if high then 500 < mA ∧ (s.blk.axis n).legs.bootOk.getLsbD leg.val = true else mA < -500) then
      (∀ k ∈ (s.blk.axis n).roleOf leg, (t.axis n).legs.hit.getLsbD k.val = true) ∧ (t.axis n).flagged AX.LEG_EVT.SC
      else t.axis n = s.blk.axis n) := by
  refine does_of_onBlk (f := fun b => b.cell n fun c => c.openFault leg high mA) rfl ?_
  refine ⟨s.blk.cell_only n _, s.blk.cell_still n _, ?_⟩
  by_cases h : (s.blk.axis n).roleOf leg ≠ none ∧ (s.blk.axis n).legs.phase = .normal ∧ (s.blk.axis n).opens leg high mA
  · obtain ⟨hr, hp, ho⟩ := id h
    obtain ⟨k, hk⟩ := Option.ne_none_iff_exists'.1 hr
    have heq := (s.blk.cellOf n).openFault_of_opens leg high mA hk hp ho
    have hsc := s.blk.cell_axis_flagged n (fun c => c.openFault leg high mA) (f := AX.LEG_EVT.SC)
      (by rw [heq]; exact List.mem_append_right _ (List.mem_singleton_self _)) (by decide) (by decide)
    unfold Axis.opens at h
    rw [if_pos h]
    simp only [Blk.cell_axis_legs, Blk.cell_axis_mot, heq]
    refine ⟨rfl, rfl, fun j hj => ?_, hsc⟩
    obtain rfl : k = j := Option.some.inj (hk.symm.trans hj)
    exact getLsbD_bitSet_same _ _ k.isLt
  · have heq := s.blk.cell_axis_of_same n (f := fun c => c.openFault leg high mA) (Cell.openFault_of_not _ leg high mA h)
    unfold Axis.opens at h
    rw [if_neg h]
    exact ⟨congrArg Axis.mot heq, congrArg (fun a : Axis => a.legs.phase) heq, heq⟩

theorem bootstrapCharged_marks (s : State) (n : Fin 48) (leg : Fin 5) :
    Does (.bootstrapCharged n leg) s fun t => s.blk.only t n ∧ s.blk.still t
      ∧ t.axis n = (if (s.blk.axis n).legs.pumpOn.getLsbD leg.val then
      { s.blk.axis n with legs := { (s.blk.axis n).legs with bootOk := (s.blk.axis n).legs.bootOk ||| BitVec.ofNat 5 (2 ^ leg.val) } }
      else s.blk.axis n) := by
  refine does_of_onBlk (f := fun b => b.cell n fun c => c.legs fun l =>
    if l.pumpOn.getLsbD leg.val then { l with bootOk := bitSet l.bootOk leg.val true } else l) rfl ?_
  refine ⟨s.blk.cell_only n _, s.blk.cell_still n _, ?_⟩
  rw [s.blk.cell_axis_of_flags n rfl]
  simp only [Cell.legs, Blk.cellOf]
  by_cases h : (s.blk.axis n).legs.pumpOn.getLsbD leg.val = true
  · simp only [h, if_true]
    rfl
  · simp only [h, Bool.false_eq_true, if_false]

/-- Settles O41: each event by what a fault on a leg, the fall of a bootstrap or an open edge makes of its cell. -/
theorem legFaultsAreHandled : Obligations.LegFaultsAreHandled := by
  unfold Obligations.LegFaultsAreHandled
  exact ⟨didtDetect_unpowered, didtDetect_faults, bootUvEvent_falls, openEdge_counts, bootstrapCharged_marks⟩

end Sys2Proof.Machine
end

section
/-!
Substitution and DRAIN (02 R57 to R64, R69): what each event of the sequence makes of its cell, and the clauses of
`Obligations.SubstitutionRuns` but that of the leg check.
-/

namespace Sys2Proof.Machine

open Sys2Proof.Safety

/-! ### The isolator opens (02 R58) -/

theorem Cell.substIsoOpen_of_wait (c : Cell) {k : Fin 4} (hp : c.ax.legs.phase = .isoWait k) (hh : c.ax.pwm.halted = false) :
    c.substIsoOpen = c.legs fun l => { l with iso := bitSet l.iso k.val false, phase := .tapWait k } := by
  unfold Cell.substIsoOpen
  rw [if_neg (Bool.eq_false_iff.1 hh), hp]

/-- A debug halt stops the sequence, and no other state waits for an isolator (02 R69). -/
theorem Cell.substIsoOpen_of_not (c : Cell) (h : (∀ k : Fin 4, c.ax.legs.phase ≠ .isoWait k) ∨ c.ax.pwm.halted = true) : c.substIsoOpen = c := by
  unfold Cell.substIsoOpen
  split
  · rfl
  · next hh =>
    split
    · next k hp => exact absurd hp (h.resolve_right hh k)
    · rfl

theorem substIsoOpenDone_opens (s : State) (n : Fin 48) :
    Does (.substIsoOpenDone n) s fun t => s.blk.only t n ∧ s.blk.still t
      ∧ (∀ k : Fin 4, (s.blk.axis n).legs.phase = .isoWait k → (s.blk.axis n).pwm.halted = false → (t.axis n).legs = { (s.blk.axis n).legs with
      phase := .tapWait k, iso := (s.blk.axis n).legs.iso &&& ~~~ (BitVec.ofNat 4 (2 ^ k.val)) })
      ∧ ((∀ k : Fin 4, (s.blk.axis n).legs.phase ≠ .isoWait k) ∨ (s.blk.axis n).pwm.halted = true → t.axis n = s.blk.axis n) := by
  refine does_of_onBlk (f := fun b => b.cell n Cell.substIsoOpen) rfl ?_
  refine ⟨s.blk.cell_only n _, s.blk.cell_still n _, fun k hp hh => ?_, fun h => s.blk.cell_axis_of_same n (Cell.substIsoOpen_of_not _ h)⟩
  rw [Blk.cell_axis_legs, Cell.substIsoOpen_of_wait _ hp hh]
  rfl

/-! ### The tap closes (02 R58, R59, R69) -/

theorem Cell.substTapClosed_of_halted (c : Cell) (gd : Bool) (h : c.ax.pwm.halted = true) : c.substTapClosed gd = c := if_pos h

/-- What waits acts or goes on waiting; of the legs and the halt it changes nothing else. -/
theorem Cell.runDeferred_keeps (c : Cell) :
    c.runDeferred.ax.legs = { c.ax.legs with deferred := c.runDeferred.ax.legs.deferred } ∧ c.runDeferred.ax.pwm.halted = c.ax.pwm.halted := by
  by_cases h : c.ax.legs.phase = .normal
  · have hk := c.runDeferred_legsKept h
    exact ⟨by rw [hk.legs]; rfl, hk.halted⟩
  · rw [c.runDeferred_of_handling h]
    exact ⟨rfl, rfl⟩

theorem substTapCloseDone_halted (s : State) (n : Fin 48) (h : (s.blk.axis n).pwm.halted = true) :
    Does (.substTapCloseDone n) s fun t => (t.axis n).legs.phase = (s.blk.axis n).legs.phase ∧ (t.axis n).legs.tap = (s.blk.axis n).legs.tap
      ∧ (t.axis n).legs.spareUsed = (s.blk.axis n).legs.spareUsed ∧ (t.axis n).pwm.halted = true ∧ s.blk.only t n := by
  refine does_of_onBlk (f := fun b => b.cell n fun c => (c.substTapClosed b.pw.gd).runDeferred) rfl ?_
  have hstop : (s.blk.cellOf n).substTapClosed s.blk.pw.gd = s.blk.cellOf n := Cell.substTapClosed_of_halted _ _ h
  obtain ⟨hlegs, hhalt⟩ := (s.blk.cellOf n).runDeferred_keeps
  simp only [Blk.cell_axis_legs, Blk.cell_axis_pwm, hstop, hhalt]
  rw [hlegs]
  exact ⟨rfl, rfl, rfl, h, s.blk.cell_only n _⟩

/-- A cell whose tap is confirmed: the spare serves the role, whose count starts again. -/
def Cell.tapped (c : Cell) (k : Fin 4) : Cell := c.legs fun l =>
  { l with tap := bitSet l.tap k.val true, phase := .normal, count := l.count.set k 0, spareUsed := true }

theorem Cell.substTapClosed_of_wait (c : Cell) (gd : Bool) {k : Fin 4} (hp : c.ax.legs.phase = .tapWait k) (hh : c.ax.pwm.halted = false) :
    c.substTapClosed gd = ((((c.tapped k).gate ((c.tapped k).ax.enabled && (c.tapped k).ax.legsFree && gd)).raise AX.LEG_EVT.SUBST).count
      AX.SC_CNT4.SUBST_CNT).event 0x0B [BitVec.ofNat 8 k.val] := by
  unfold Cell.substTapClosed
  rw [if_neg (Bool.eq_false_iff.1 hh), hp]
  rfl

/-- After a substitution the legs may switch where no trip keeps them off (02 R59). -/
theorem Cell.tapped_may (c : Cell) (k : Fin 4) (gd : Bool) : ((c.tapped k).ax.enabled && (c.tapped k).ax.legsFree && gd) = true ↔
    c.ax.enabled = true ∧ c.ax.trip.pre = false ∧ c.ax.trip.latch = false ∧ gd = true := by
  have he : (c.tapped k).ax.enabled = c.ax.enabled := rfl
  have hf : (c.tapped k).ax.legsFree = (!c.ax.trip.pre && !c.ax.trip.latch) := rfl
  simp only [he, hf, Bool.and_eq_true, Bool.not_eq_true', and_assoc]

theorem Cell.substTapClosed_legs (c : Cell) (gd : Bool) {k : Fin 4} (hp : c.ax.legs.phase = .tapWait k) (hh : c.ax.pwm.halted = false) :
    (c.substTapClosed gd).ax.legs = (c.tapped k).ax.legs ∧ AX.LEG_EVT.SUBST ∈ (c.substTapClosed gd).flags := by
  rw [c.substTapClosed_of_wait gd hp hh]
  exact ⟨rfl, List.mem_append_right _ (List.mem_singleton_self _)⟩

theorem Cell.substTapClosed_pulses (c : Cell) (gd : Bool) {k : Fin 4} (hp : c.ax.legs.phase = .tapWait k) (hh : c.ax.pwm.halted = false) :
    (c.substTapClosed gd).ax.mot = c.ax.mot ∧ (c.substTapClosed gd).ax.pwm.pulses =
      if c.ax.enabled = true ∧ c.ax.trip.pre = false ∧ c.ax.trip.latch = false ∧ gd = true then c.ax.pwm.cmd else Vector.replicate 4 .off := by
  rw [c.substTapClosed_of_wait gd hp hh]
  exact ⟨rfl, if_congr (c.tapped_may k gd) rfl rfl⟩

theorem substTapCloseDone_substitutes (s : State) (n : Fin 48) (k : Fin 4) (hp : (s.blk.axis n).legs.phase = .tapWait k)
    (hh : (s.blk.axis n).pwm.halted = false) :
    Does (.substTapCloseDone n) s fun t => s.blk.only t n ∧ t.rest = s.blk.rest ∧ t.owning = s.blk.owning ∧ (t.axis n).legs.phase = .normal
      ∧ (t.axis n).legs.tap.getLsbD k.val = true ∧ (t.axis n).legs.spareUsed = true ∧ (t.axis n).legs.count.get k = 0
      ∧ (t.axis n).legs.deferred = [] ∧ (t.axis n).flagged AX.LEG_EVT.SUBST
      ∧ ((s.blk.axis n).legs.deferred = [] → (t.axis n).mot = (s.blk.axis n).mot
      ∧ (t.axis n).pwm.pulses = (if (s.blk.axis n).enabled = true ∧ (s.blk.axis n).trip.pre = false ∧ (s.blk.axis n).trip.latch = false ∧ s.blk.pw.gd = true
      then (s.blk.axis n).pwm.cmd else Vector.replicate 4 .off)) := by
  refine does_of_onBlk (f := fun b => b.cell n fun c => (c.substTapClosed b.pw.gd).runDeferred) rfl ?_
  obtain ⟨honly, hrest, hown⟩ := s.blk.cell_apart n fun c => (c.substTapClosed s.blk.pw.gd).runDeferred
  obtain ⟨hlegs, hflag⟩ := (s.blk.cellOf n).substTapClosed_legs s.blk.pw.gd hp hh
  have hk := Cell.runDeferred_legsKept ((s.blk.cellOf n).substTapClosed s.blk.pw.gd) (by rw [hlegs]; rfl)
  refine ⟨honly, hrest, hown, ?_⟩
  have hsubst := s.blk.cell_axis_flagged n (fun c => (c.substTapClosed s.blk.pw.gd).runDeferred) (hk.flags hflag) (by decide) (by decide)
  simp only [Blk.cell_axis_legs, Blk.cell_axis_mot, Blk.cell_axis_pwm]
  rw [hk.legs, Cell.legs_ax_legs, hlegs]
  refine ⟨rfl, getLsbD_bitSet_same _ _ k.isLt, rfl, get_set_same .., rfl, hsubst, fun hd => ?_⟩
  rw [Cell.runDeferred_of_nil _ (by rw [hlegs]; exact hd)]
  exact (s.blk.cellOf n).substTapClosed_pulses s.blk.pw.gd hp hh

/-! ### A switch misses its time (02 R61) -/

theorem Cell.substTimeout_of_wait (c : Cell) {k : Fin 4} (hp : c.ax.legs.phase = .isoWait k ∨ c.ax.legs.phase = .tapWait k)
    (hh : c.ax.pwm.halted = false) :
    c.substTimeout = ((c.raise AX.LEG_EVT.ISO_FAULT).legs fun l => { l with inTime := false }).toDrain := by
  unfold Cell.substTimeout
  rw [if_neg (Bool.eq_false_iff.1 hh)]
  rcases hp with hp | hp
  · rw [hp]
  · rw [hp]

theorem substConfirmTimeout_drains (s : State) (n : Fin 48) (k : Fin 4)
    (hp : (s.blk.axis n).legs.phase = .isoWait k ∨ (s.blk.axis n).legs.phase = .tapWait k) (hh : (s.blk.axis n).pwm.halted = false) :
    Does (.substConfirmTimeout n) s fun t => s.blk.only t n ∧ t.rest = s.blk.rest ∧ (t.axis n).legs.phase = .drain
      ∧ (t.axis n).legs.inTime = false ∧ (t.axis n).mot.mode.enabled = false ∧ (t.axis n).flagged AX.LEG_EVT.ISO_FAULT := by
  refine does_of_onBlk (f := fun b => b.cell n Cell.substTimeout) rfl ?_
  obtain ⟨honly, hrest, -⟩ := s.blk.cell_apart n Cell.substTimeout
  refine ⟨honly, hrest, ?_⟩
  have heq := (s.blk.cellOf n).substTimeout_of_wait hp hh
  have hflag := s.blk.cell_axis_flagged n Cell.substTimeout (f := AX.LEG_EVT.ISO_FAULT)
    (by rw [heq]; exact Cell.toDrain_flags _ _ (List.mem_append_right _ (List.mem_singleton_self _))) (by decide) (by decide)
  simp only [Blk.cell_axis_legs, Blk.cell_axis_mot, heq]
  rw [Cell.toDrain_legs]
  exact ⟨rfl, rfl, Cell.toDrain_enabled _ _, hflag⟩

/-! ### The end of DRAIN (02 R63, R64, R52) -/

/-- An uncertain position is a matter of registers alone. -/
theorem Cell.setUnc_ax (c : Cell) : c.setUnc.ax = { c.ax with regs := c.setUnc.ax.regs } := by
  unfold Cell.setUnc
  split
  · simp only [Cell.setB_ax, Cell.raiseIf_ax]
    rfl
  · rfl

theorem Cell.setUnc_stepper (c : Cell) (h : c.ax.stepper = true) : c.setUnc.ax.b AX.ST_STAT.POS_UNC = true := by
  have hm : c.ax.motor = .stepper := by simpa [Axis.stepper] using h
  have hu : c.setUnc = (c.setB AX.ST_STAT.POS_UNC true).setB AX.ST_STAT.HOMED false := by
    unfold Cell.setUnc
    rw [if_neg (by simp [Axis.brushless, hm])]
  rw [hu, Cell.setB_ax]
  exact (Axis.b_of_r (Axis.r_setB_apart _ _ (by decide))).trans (Axis.b_setB_same c.ax _ true (by decide) (by decide) (by decide))

/-- What a cell is in LOST. -/
theorem Cell.toLost_ax (c : Cell) : c.toLost.ax = { c.ax with
    regs := c.toLost.ax.regs
    legs := { c.ax.legs with phase := .lost, iso := 0, tap := 0, pumpOn := 0, pumpHold := 0, bootOk := 0, hit := 0, count := Vector.replicate 4 0 }
    trip := { c.ax.trip with latch := true, srcDidt := true }
    reg := c.ax.reg.endTest
    nvPending := true } := by
  unfold Cell.toLost
  extract_lets d1 d2 d3 d4
  have h4 : d4.ax = { d3.ax with regs := d4.ax.regs } := by
    show (if c.ax.stepper = true then d3.setUnc else d3).ax = { d3.ax with regs := (if c.ax.stepper = true then d3.setUnc else d3).ax.regs }
    split
    · exact d3.setUnc_ax
    · rfl
  show { d4.ax with reg := d4.ax.reg.endTest, nvPending := true } = _
  rw [h4]
  rfl

theorem Cell.toLost_lost (c : Cell) : AX.LEG_EVT.AXIS_LOST ∈ c.toLost.flags ∧ (c.ax.stepper = true → c.toLost.ax.b AX.ST_STAT.POS_UNC = true) := by
  unfold Cell.toLost
  extract_lets d1 d2 d3 d4
  have h3 : AX.LEG_EVT.AXIS_LOST ∈ d3.flags :=
    List.mem_append_left _ (List.mem_append_right _ (List.mem_singleton_self _))
  have h4 : d3.LegsKept d4 := .ite d3.setUnc_legsKept (.refl d3)
  refine ⟨h4.flags h3, fun hs => ?_⟩
  have hd : d4 = d3.setUnc := if_pos hs
  show d4.ax.b AX.ST_STAT.POS_UNC = true
  rw [hd]
  exact d3.setUnc_stepper hs

/-- A winding measurement that its cell has left already ends without the cell (08 R280). -/
theorem Blk.rwEnd_ax (b : Blk) (st : Nat) (h : ∀ w ∈ b.meas.rw, (b.axis w.axis).reg.test.isNone = true) : (b.rwEnd st).ax = b.ax := by
  unfold Blk.rwEnd
  split
  · rfl
  · next w hw =>
    have ht : (b.axis w.axis).reg.endTest = (b.axis w.axis).reg := if_pos (h w hw)
    rw [Blk.raise_ax]
    show b.ax.set w.axis { b.axis w.axis with reg := (b.axis w.axis).reg.endTest } = b.ax
    rw [ht]
    exact Vector.set_getElem_self ..

@[simp] theorem Blk.rwCheck_ax (b : Blk) : b.rwCheck.ax = b.ax := by
  unfold Blk.rwCheck
  split
  · rfl
  · next w hw =>
    split
    · next ht => exact b.rwEnd_ax 5 fun v hv => by rw [hw] at hv; exact Option.some.inj hv ▸ ht
    · rfl

theorem Blk.raise_rest (b : Blk) (l : List Flag) : (b.raise l).rest = b.rest := congrArg Prod.fst (b.raise_frame l)

/-- The end of a winding measurement is all that the module sees of it. -/
theorem Blk.rwEnd_rest (b : Blk) (st : Nat) : (b.rwEnd st).rest = { b with meas := (b.rwEnd st).meas }.rest := by
  have hraise : ∀ (c : Blk) (l : List Flag), c.rest = { b with meas := c.meas }.rest → (c.raise l).rest = { b with meas := (c.raise l).meas }.rest :=
    fun c l h => by rw [Blk.raise_rest, Blk.raise_meas, h]
  unfold Blk.rwEnd
  split
  · rfl
  · exact hraise _ _ rfl

theorem Blk.rwCheck_rest (b : Blk) : b.rwCheck.rest = { b with meas := b.rwCheck.meas }.rest := by
  unfold Blk.rwCheck
  split
  · rfl
  · split
    · exact b.rwEnd_rest 5
    · rfl

/-- DRAIN ends: in every terminal below 1 A, or after 5 ms. -/
def Axis.drained (a : Axis) (k : CellCal) (x : DrainIn) : Bool :=
  a.legs.phase == .drain && (x.expired || (List.finRange 4).all fun r => decide (Rat.abs' (a.drainCurrent k x.codes r) < 1000))

/-- The step of `DRAIN_END` on its cell. -/
def Cell.drainStep (k : CellCal) (x : DrainIn) (c : Cell) : Cell := if c.ax.drained k x then c.toLost else c

theorem drainEnd_does {s : State} {x : DrainIn} {P : Blk → Prop}
    (h : P (s.blk.cell x.cell (Cell.drainStep (s.blk.cellCal x.cell) x)).rwCheck) : Does (.drainEnd x) s P :=
  does_of_onBlk (f := fun b => (b.cell x.cell (Cell.drainStep (b.cellCal x.cell) x)).rwCheck) rfl h

theorem drainEnd_loses (s : State) (n : Fin 48) (x : DrainIn) (hn : x.cell = n) (hp : (s.blk.axis n).legs.phase = .drain)
    (hx : x.expired = true ∨ ∀ r : Fin 4, Rat.abs' ((s.blk.axis n).drainCurrent (s.blk.cellCal n) x.codes r) < 1000) :
    Does (.drainEnd x) s fun t => s.blk.only t n ∧ t.rest = { s.blk with meas := t.meas }.rest ∧ (t.axis n).legs.phase = .lost ∧ (t.axis n).legs.iso = 0
      ∧ (t.axis n).legs.tap = 0 ∧ (t.axis n).legs.pumpOn = 0 ∧ (t.axis n).trip.latch = true ∧ (t.axis n).trip.srcDidt = true
      ∧ (t.axis n).nvPending = true ∧ (t.axis n).flagged AX.LEG_EVT.AXIS_LOST
      ∧ ((s.blk.axis n).stepper = true → (t.axis n).b AX.ST_STAT.POS_UNC = true) := by
  subst hn
  refine drainEnd_does ?_
  have hd : (s.blk.axis x.cell).drained (s.blk.cellCal x.cell) x = true := by
    simp only [Axis.drained, hp, beq_self_eq_true, Bool.true_and, Bool.or_eq_true, List.all_eq_true, decide_eq_true_eq]
    exact hx.imp_right fun h r _ => h r
  have heq : Cell.drainStep (s.blk.cellCal x.cell) x (s.blk.cellOf x.cell) = (s.blk.cellOf x.cell).toLost := if_pos hd
  generalize Cell.drainStep (s.blk.cellCal x.cell) x = f at heq
  obtain ⟨honly, hrest, -⟩ := s.blk.cell_apart x.cell f
  obtain ⟨hflag, hunc⟩ := (s.blk.cellOf x.cell).toLost_lost
  have hax : ∀ m, (s.blk.cell x.cell f).rwCheck.axis m = (s.blk.cell x.cell f).axis m := Blk.axis_of_ax (Blk.rwCheck_ax _)
  refine ⟨fun m hm => (hax m).trans (honly m hm), ?_, ?_⟩
  · rw [Blk.rwCheck_rest]
    exact congrArg (fun b : Blk => { b with meas := (s.blk.cell x.cell f).rwCheck.meas }) hrest
  · have hlost := s.blk.cell_axis_flagged x.cell f (by rw [heq]; exact hflag) (by decide) (by decide)
    have hb : ((s.blk.cell x.cell f).axis x.cell).b AX.ST_STAT.POS_UNC = (s.blk.cellOf x.cell).toLost.ax.b AX.ST_STAT.POS_UNC :=
      Axis.b_of_plainRegs (by rw [Blk.cell_axis_plainRegs, heq]) (by decide)
    rw [hax, hb]
    simp only [Blk.cell_axis_legs, Blk.cell_axis_trip, Blk.cell_axis_nvPending, heq]
    refine ⟨?_, ?_, ?_, ?_, ?_, ?_, ?_, hlost, hunc⟩ <;> rw [Cell.toLost_ax]

/-- A terminal current of 1 A or more goes on being drained until the 5 ms are over. -/
theorem drainEnd_waits (s : State) (n : Fin 48) (x : DrainIn) (r : Fin 4) (hn : x.cell = n) (he : x.expired = false)
    (hr : 1000 ≤ Rat.abs' ((s.blk.axis n).drainCurrent (s.blk.cellCal n) x.codes r)) :
    Does (.drainEnd x) s fun t => t.axis n = s.blk.axis n ∧ s.blk.only t n := by
  subst hn
  refine drainEnd_does ?_
  have hd : ¬ (s.blk.axis x.cell).drained (s.blk.cellCal x.cell) x = true := by
    simp only [Axis.drained, he, Bool.false_or, Bool.and_eq_true, List.all_eq_true, decide_eq_true_eq, not_and, not_forall]
    exact fun _ => ⟨r, List.mem_finRange r, not_lt.2 hr⟩
  rw [s.blk.cell_of_same x.cell (f := Cell.drainStep (s.blk.cellCal x.cell) x) (if_neg hd)]
  exact ⟨Blk.axis_of_ax s.blk.rwCheck_ax _, fun m _ => Blk.axis_of_ax s.blk.rwCheck_ax m⟩

end Sys2Proof.Machine
end

section
/-!
The leg check (02 R66, 10 R344): what it marks, when the axis leaves LOST, and that the reset which follows leaves the legs as the check made
them; with it the obligation on substitutions.
-/

namespace Sys2Proof

open Sys2Proof.Machine

/-- The legs that fail the check, themselves or by their isolator (02 R66). -/
def LegCheck.failed (x : LegCheck) : BitVec 5 := (List.finRange 5).foldl (fun v k =>
  let isoFails := if h : k.val < 4 then !(x.iso.getLsbD (⟨k.val, h⟩ : Fin 4).val) else false
  bitSet v k.val (!(x.legs.getLsbD k.val) || isoFails)) 0

/-- The spare fails: L4, or one of its taps. -/
def LegCheck.spareFails (x : LegCheck) : Bool := !(x.legs.getLsbD 4 && x.tap = 0xF)

theorem LegCheck.failed_getLsbD (x : LegCheck) (leg : Fin 5) :
    x.failed.getLsbD leg.val = (!(x.legs.getLsbD leg.val) || (decide (leg.val < 4) && !(x.iso.getLsbD leg.val))) := by
  unfold LegCheck.failed
  rw [getLsbD_foldl_bitSet (fun k : Fin 5 => !(x.legs.getLsbD k.val) ||
    if h : k.val < 4 then !(x.iso.getLsbD (⟨k.val, h⟩ : Fin 4).val) else false), if_pos (List.mem_finRange leg)]
  by_cases h : leg.val < 4
  · rw [dif_pos h, decide_eq_true h, Bool.true_and]
  · rw [dif_neg h, decide_eq_false h, Bool.false_and]

/-- The mark of the spare as the check forms it from the mark before. -/
theorem LegCheck.spareFails_eq (x : LegCheck) (bad : Bool) :
    (if x.legs.getLsbD 4 && x.tap = 0xF then false else bad || x.tap != 0xF || !(x.legs.getLsbD 4)) = x.spareFails := by
  have ht : (x.tap != 0xF) = !decide (x.tap = 0xF) := rfl
  rw [LegCheck.spareFails, ht]
  generalize decide (x.tap = 0xF) = t
  cases x.legs.getLsbD 4
  · simp
  · cases t <;> simp

end Sys2Proof

namespace Sys2Proof.Machine

open Sys2Proof.Safety

/-- The roles whose own leg fails the check. -/
def Axis.missed (a : Axis) (x : LegCheck) : List (Fin 4) := a.roles.filter fun k => x.failed.getLsbD k.val

theorem Axis.missed_eq (a : Axis) (x : LegCheck) :
    a.missed x = a.roles.filter fun k => !(x.legs.getLsbD k.val) || !(x.iso.getLsbD k.val) := by
  refine List.filter_congr fun k _ => (x.failed_getLsbD k.castSucc).trans ?_
  rw [Fin.val_castSucc, decide_eq_true k.isLt, Bool.true_and]

/-- The roles can be covered: by their own legs, or all but one by theirs and that one by the spare (02 R66). -/
def Axis.covered (a : Axis) (x : LegCheck) : Prop :=
  a.motor ≠ Motor.none ∧ (a.missed x = [] ∨ ((a.missed x).length = 1 ∧ x.spareFails = false))

/-! ### What the check makes of the legs -/

/-- From one state of the legs to another the check's marks, the phase and the spare's role stay, whatever the isolators and pumps do. -/
structure Legs.SameMarks (l m : Legs) : Prop where
  phase : m.phase = l.phase
  fail : m.fail = l.fail
  spareBad : m.spareBad = l.spareBad
  checking : m.checking = l.checking
  subRole : m.subRole = l.subRole

theorem Legs.SameMarks.trans {l m o : Legs} (h : l.SameMarks m) (k : m.SameMarks o) : l.SameMarks o :=
  ⟨k.phase.trans h.phase, k.fail.trans h.fail, k.spareBad.trans h.spareBad, k.checking.trans h.checking, k.subRole.trans h.subRole⟩

theorem Axis.sameMarks_mapIsolators {a : Axis} {l : Legs} (h : l.SameMarks a.legs) : l.SameMarks a.mapIsolators.legs := by
  refine h.trans ?_
  unfold Axis.mapIsolators
  split <;> exact ⟨rfl, rfl, rfl, rfl, rfl⟩

/-- The legs with the marks of a check. -/
def Legs.judged (l : Legs) (x : LegCheck) : Legs := { l with fail := x.failed, spareBad := x.spareFails, checking := false }

/-- The legs of a cell that is NORMAL, with the spare's role. -/
def Legs.serving (l : Legs) (sub : Option (Fin 4)) : Legs := { l with phase := .normal, subRole := sub }

/-- Where the roles can be covered the axis leaves LOST, and the spare takes the one role that its own leg misses. -/
theorem Cell.legCheck_of_covered (c : Cell) (x : LegCheck) (h : c.ax.covered x) : ∃ sub : Option (Fin 4),
    ((c.ax.legs.judged x).serving sub).SameMarks (c.legCheck x).1.ax.legs ∧ ∀ k, c.ax.missed x = [k] → sub = some k := by
  obtain ⟨hm, hmiss⟩ := h
  unfold Cell.legCheck
  extract_lets a l fail bad need failed l' d l0 _
  have hb : bad = x.spareFails := x.spareFails_eq l.spareBad
  have hmissed : c.ax.missed x = failed := rfl
  clear_value failed
  rw [if_neg hm]
  rw [hmissed] at hmiss ⊢
  split
  · exact ⟨none, Axis.sameMarks_mapIsolators ⟨rfl, rfl, hb, rfl, rfl⟩, fun k hk => absurd hk.symm (List.cons_ne_nil _ _)⟩
  · next k =>
    obtain ⟨-, hs⟩ := hmiss.resolve_left (List.cons_ne_nil _ _)
    rw [if_pos (by rw [hb, hs]; rfl)]
    extract_lets l1 d1
    exact ⟨some k, Axis.sameMarks_mapIsolators ⟨rfl, rfl, hb, rfl, rfl⟩, fun j hj => congrArg some (List.cons.inj hj).1⟩
  · next hnil hone =>
    rcases hmiss with hn | ⟨h1, -⟩
    · exact absurd hn hnil
    · obtain ⟨k, hk⟩ := List.length_eq_one_iff.1 h1
      exact absurd hk (hone k)

/-- Else it stays where it is, with the marks of the check. -/
theorem Cell.legCheck_of_uncovered (c : Cell) (x : LegCheck) (h : ¬ c.ax.covered x) :
    (c.ax.legs.judged x).SameMarks (c.legCheck x).1.ax.legs := by
  unfold Cell.legCheck
  extract_lets a l fail bad need failed l' d l0 _
  have hb : bad = x.spareFails := x.spareFails_eq l.spareBad
  have hd : (c.ax.legs.judged x).SameMarks d.ax.legs := ⟨rfl, rfl, hb, rfl, rfl⟩
  have hmissed : c.ax.missed x = failed := rfl
  clear_value failed
  split
  · exact hd
  · next hm =>
    split
    · exact absurd ⟨hm, .inl hmissed⟩ h
    · split
      · next hs =>
        have hs' : x.spareFails = false := by rw [← hb]; simpa using hs
        exact absurd ⟨hm, .inr ⟨congrArg List.length hmissed, hs'⟩⟩ h
      · exact hd
    · exact hd

/-- Covered or not, the check has ended and left its marks. -/
theorem Cell.legCheck_marks (c : Cell) (x : LegCheck) : (c.legCheck x).1.ax.legs.fail = x.failed
    ∧ (c.legCheck x).1.ax.legs.spareBad = x.spareFails ∧ (c.legCheck x).1.ax.legs.checking = false := by
  by_cases h : c.ax.covered x
  · obtain ⟨sub, hm, -⟩ := c.legCheck_of_covered x h
    exact ⟨hm.fail, hm.spareBad, hm.checking⟩
  · have hm := c.legCheck_of_uncovered x h
    exact ⟨hm.fail, hm.spareBad, hm.checking⟩

/-! ### The reset that follows (10 R344) -/

theorem Axis.resetMarks_legs (a : Axis) : a.resetMarks.legs = a.legs := by
  unfold Axis.resetMarks
  extract_lets mine ks regs a1 a2 a3 _ a4 a5 a6
  have h2 : a2.legs = a.legs := ite_keeps Axis.legs rfl rfl
  have h3 : a3.legs = a2.legs := ite_keeps Axis.legs rfl rfl
  have h5 : a5.legs = a4.legs := ite_keeps Axis.legs rfl rfl
  exact h5.trans (h3.trans h2)

theorem Axis.resetMarks_sess (a : Axis) : a.resetMarks.b AX.RST_STAT.SESS_RST = true := by
  unfold Axis.resetMarks
  extract_lets
  exact (Axis.b_of_r (Axis.r_setB_apart _ _ (by decide))).trans (Axis.b_setB_same _ _ true (by decide) (by decide) (by decide))

theorem Blk.resetAxis_axis_ne (b : Blk) {n m : Fin 48} (keep : Bool) (h : m ≠ n) : (b.resetAxis n keep).axis m = b.axis m :=
  (Blk.axis_mapAx_ne _ _ h).trans (b.cell_axis_ne _ h)

theorem Blk.resetAxis_legs (b : Blk) (n : Fin 48) (keep : Bool) : ((b.resetAxis n keep).axis n).legs = (b.axis n).legs := by
  unfold Blk.resetAxis
  rw [Blk.axis_mapAx, Axis.resetMarks_legs, Blk.cell_axis_legs]
  exact (Cell.resetSteps_legsKept _ _ _ _).legs

theorem Blk.resetAxis_sess (b : Blk) (n : Fin 48) (keep : Bool) : ((b.resetAxis n keep).axis n).b AX.RST_STAT.SESS_RST = true := by
  unfold Blk.resetAxis
  rw [Blk.axis_mapAx]
  exact Axis.resetMarks_sess _

theorem Blk.resetAxis_sm (b : Blk) (n : Fin 48) (keep : Bool) : (b.resetAxis n keep).sm = b.sm := b.cell_sm ..
theorem Blk.resetAxis_plan (b : Blk) (n : Fin 48) (keep : Bool) : (b.resetAxis n keep).plan = b.plan := b.cell_plan ..

/-! ### The clause -/

/-- The axes, the serial memories and the plan of the module. -/
def Blk.lasting (b : Blk) : Vector Axis 48 × Vector SmPort 2 × Planner := (b.ax, b.sm, b.plan)

theorem Blk.answerEach_lasting (b : Blk) (q : Req) (l : List (Fin 48)) (sts : List Nat) : (b.answerEach q l sts).lasting = b.lasting := by
  unfold Blk.answerEach Blk.lasting
  split <;> simp

/-- A check that runs ends with the check and the reset of its cell; what follows are answers. -/
theorem Blk.legCheckDone_lasting (b : Blk) (n : Fin 48) (x : LegCheck) (h : (b.axis n).legs.checking = true) :
    ∃ (f : Cell → Cell) (keep : Bool), (f (b.cellOf n)).ax.legs = ((b.cellOf n).legCheck x).1.ax.legs ∧
      (b.legCheckDone n x).lasting = ((b.cell n f).resetAxis n keep).lasting := by
  unfold Blk.legCheckDone
  rw [if_neg (by simp [h])]
  extract_lets keep
  split
  next c ok hc =>
  extract_lets d e st rs g
  refine ⟨fun _ => d, keep, ?_, ?_⟩
  · rw [hc]
    exact ite_keeps (fun c : Cell => c.ax.legs) rfl rfl
  · exact foldl_keeps Blk.lasting _ (fun b r => b.answerEach_lasting ..) _ _

theorem legCheckDone_judges (s : State) (n : Fin 48) (x : LegCheck) (bad : Bool) (miss : List (Fin 4)) (hc : (s.blk.axis n).legs.checking = true)
    (hp : (s.blk.axis n).legs.phase = .lost) (hbad : bad = !(x.legs.getLsbD 4 && x.tap = 0xF))
    (hmiss : miss = (s.blk.axis n).roles.filter fun k => !(x.legs.getLsbD k.val) || !(x.iso.getLsbD k.val)) :
    Does (.legCheckDone n x) s fun t => s.blk.only t n ∧ (t.axis n).legs.checking = false ∧ (t.axis n).legs.spareBad = bad
      ∧ (∀ leg : Fin 5, (t.axis n).legs.fail.getLsbD leg.val = (!(x.legs.getLsbD leg.val) || (decide (leg.val < 4) && !(x.iso.getLsbD leg.val))))
      ∧ (t.axis n).legs.phase = (if (s.blk.axis n).motor ≠ Motor.none ∧ (miss = [] ∨ (miss.length = 1 ∧ bad = false)) then .normal else .lost)
      ∧ (∀ k : Fin 4, miss = [k] → bad = false → (s.blk.axis n).motor ≠ Motor.none → (t.axis n).legs.subRole = some k)
      ∧ (t.axis n).b AX.RST_STAT.SESS_RST = true ∧ t.sm = s.blk.sm ∧ t.plan = s.blk.plan := by
  refine does_of_onBlk (f := fun b => b.legCheckDone n x) rfl ?_
  obtain ⟨f, keep, hf, hlast⟩ := s.blk.legCheckDone_lasting n x hc
  have hax := Blk.axis_of_ax (congrArg Prod.fst hlast)
  have hsm : (s.blk.legCheckDone n x).sm = ((s.blk.cell n f).resetAxis n keep).sm := congrArg (·.2.1) hlast
  have hplan : (s.blk.legCheckDone n x).plan = ((s.blk.cell n f).resetAxis n keep).plan := congrArg (·.2.2) hlast
  have hlegs : ((s.blk.legCheckDone n x).axis n).legs = ((s.blk.cellOf n).legCheck x).1.ax.legs := by
    rw [hax, Blk.resetAxis_legs, Blk.cell_axis_legs, hf]
  have hmiss' : (s.blk.axis n).missed x = miss := ((s.blk.axis n).missed_eq x).trans hmiss.symm
  have hbad' : x.spareFails = bad := hbad.symm
  have hcov : (s.blk.axis n).covered x ↔ (s.blk.axis n).motor ≠ Motor.none ∧ (miss = [] ∨ (miss.length = 1 ∧ bad = false)) := by
    rw [Axis.covered, hmiss', hbad']
  refine ⟨fun m hm => ?_, ?_⟩
  · rw [hax, Blk.resetAxis_axis_ne _ _ hm, s.blk.cell_axis_ne f hm]
  rw [hlegs, hsm, hplan, hax n, Blk.resetAxis_sess, Blk.resetAxis_sm, Blk.resetAxis_plan, Blk.cell_sm, Blk.cell_plan]
  obtain ⟨hfail, hspare, hcheck⟩ := (s.blk.cellOf n).legCheck_marks x
  refine ⟨hcheck, hspare.trans hbad', fun leg => ?_, ?_⟩
  · rw [hfail, x.failed_getLsbD]
  by_cases h : (s.blk.axis n).covered x
  · obtain ⟨sub, hm, hsub⟩ := (s.blk.cellOf n).legCheck_of_covered x h
    exact ⟨hm.phase.trans (if_pos (hcov.1 h)).symm, fun k hk _ _ => hm.subRole.trans (hsub k (hmiss'.trans hk)), rfl, rfl, rfl⟩
  · have hm := (s.blk.cellOf n).legCheck_of_uncovered x h
    refine ⟨(hm.phase.trans hp).trans (if_neg (mt hcov.2 h)).symm, fun k hk hs hmot => ?_, rfl, rfl, rfl⟩
    exact absurd (hcov.2 ⟨hmot, .inr ⟨congrArg List.length hk, hs⟩⟩) h

/-- Settles O42: each event of a substitution, of DRAIN and of the leg check by what it makes of its cell. -/
theorem substitutionRuns : Obligations.SubstitutionRuns := by
  unfold Obligations.SubstitutionRuns
  exact ⟨substIsoOpenDone_opens, substTapCloseDone_halted, substTapCloseDone_substitutes, substConfirmTimeout_drains, drainEnd_loses,
    drainEnd_waits, legCheckDone_judges⟩

end Sys2Proof.Machine
end

section
/-!
The gait of a cell: the values in force and captured, the state of its counter, a requested clear, and the latches of its trip input (03 R80, R86,
R96, R100, R101).  What ends, stops or abandons a move leaves all of them.
-/

namespace Sys2Proof.Machine

/-- What a period of a cell runs on (03 R71, R80, R86, R88 to R90): the values in force and captured, the counter's state and stops, and a
requested trip clear. -/
structure Pace where
  force : AxRegs
  capt : Option AxRegs
  start : Option Nat
  fill : Bool
  fillHold : Bool
  halted : Bool
  clockLost : Bool
  napped : Bool
  clearReq : Bool

def Axis.pace (a : Axis) : Pace :=
  ⟨a.force, a.pwm.capt, a.pwm.start, a.pwm.fill, a.pwm.fillHold, a.pwm.halted, a.pwm.clockLost, a.pwm.napped, a.trip.clearReq⟩

/-- The pre-trip and the trip latch (03 R96, R100). -/
def Axis.latches (a : Axis) : Bool × Bool := (a.trip.pre, a.trip.latch)

def Axis.gait (a : Axis) : Pace × Bool × Bool := (a.pace, a.latches)

theorem Axis.pace_of_gait {a c : Axis} (h : a.gait = c.gait) : a.pace = c.pace := congrArg Prod.fst h
theorem Axis.latches_of_gait {a c : Axis} (h : a.gait = c.gait) : a.latches = c.latches := congrArg Prod.snd h
theorem Axis.force_of_pace {a c : Axis} (h : a.pace = c.pace) : a.force = c.force := congrArg Pace.force h
theorem Axis.inForce_of_pace {a c : Axis} (h : a.pace = c.pace) (f : Fld) : a.inForce f = c.inForce f :=
  congrArg f.get (Axis.force_of_pace h)
theorem Axis.halted_of_pace {a c : Axis} (h : a.pace = c.pace) : a.pwm.halted = c.pwm.halted := congrArg Pace.halted h
theorem Axis.clockLost_of_pace {a c : Axis} (h : a.pace = c.pace) : a.pwm.clockLost = c.pwm.clockLost := congrArg Pace.clockLost h

/-- The stop of a counter is one of its clock's (03 R90, 09 R308). -/
def Pace.stopped (p : Pace) : Bool := p.halted || p.clockLost || p.napped

theorem Axis.stopped_of_pace {a c : Axis} (h : a.pace = c.pace) : a.pwm.stopped = c.pwm.stopped := congrArg Pace.stopped h
theorem Axis.pre_of_latches {a c : Axis} (h : a.latches = c.latches) : a.trip.pre = c.trip.pre := congrArg Prod.fst h
theorem Axis.latch_of_latches {a c : Axis} (h : a.latches = c.latches) : a.trip.latch = c.trip.latch := congrArg Prod.snd h

@[simp] theorem Axis.setB_gait (a : Axis) (f : Fld) (v : Bool) : (a.setB f v).gait = a.gait := rfl

theorem Cell.gait_ite {c d e : Cell} {p : Prop} [Decidable p] (hd : d.ax.gait = c.ax.gait) (he : e.ax.gait = c.ax.gait) :
    (if p then d else e).ax.gait = c.ax.gait := ite_keeps (fun c : Cell => c.ax.gait) hd he

/-! ### The ends of a move -/

theorem Cell.setUnc_gait (c : Cell) : c.setUnc.ax.gait = c.ax.gait := by rw [Cell.setUnc_ax]; rfl

theorem Cell.homeFail_gait (c : Cell) : c.homeFail.ax.gait = c.ax.gait := by
  unfold Cell.homeFail
  exact Cell.gait_ite (Cell.gait_ite rfl rfl) (Cell.gait_ite rfl rfl)

theorem Cell.endJob_gait (c : Cell) (done : Bool) : (c.endJob done).ax.gait = c.ax.gait := by
  unfold Cell.endJob
  split
  · rfl
  · extract_lets e dev d1 d2 l d3
    have h2 : d2.ax.gait = c.ax.gait := Cell.gait_ite rfl rfl
    have h3 : d3.ax.gait = d2.ax.gait := Cell.gait_ite rfl rfl
    exact h3.trans h2

theorem Cell.goFallow_gait (c : Cell) : c.goFallow.ax.gait = c.ax.gait := by
  unfold Cell.goFallow
  extract_lets lose d a _ _ _ _ a0 a1 a2 a3 a4 a5 _
  have hd : d.ax.gait = c.ax.gait := Cell.gait_ite c.setUnc_gait rfl
  have h1 : a1.gait = d.ax.gait := by simp only [a1, Axis.takeHall]; rfl
  have h5 : a5.gait = a1.gait := by simp only [a5, a4, a3, a2, Axis.setB_gait]
  clear_value a5 a1
  exact h5.trans (h1.trans hd)

theorem Cell.abandon_gait (c : Cell) : c.abandon.ax.gait = c.ax.gait := by
  unfold Cell.abandon
  extract_lets m report d e f
  refine Cell.gait_ite ?_ (Cell.gait_ite rfl rfl)
  have he : e.ax.gait = d.ax.gait := Cell.gait_ite rfl rfl
  have hf : f.ax.gait = e.ax.gait := Cell.gait_ite rfl rfl
  exact (Cell.goFallow_gait _).trans ((f.endJob_gait false).trans (hf.trans (he.trans c.homeFail_gait)))

theorem Cell.startFails_gait (c : Cell) (f : Flag) : (c.startFails f).ax.gait = c.ax.gait :=
  (Cell.goFallow_gait _).trans ((Cell.endJob_gait _ _).trans (Cell.homeFail_gait _))

theorem Cell.interruptTest_gait (c : Cell) : c.interruptTest.ax.gait = c.ax.gait := by
  unfold Cell.interruptTest
  split
  · exact Cell.gait_ite rfl (c.startFails_gait _)
  · rfl

/-! ### Coming to rest, and stops -/

theorem Cell.lifeCycle_gait (c : Cell) : c.lifeCycle.ax.gait = c.ax.gait := by
  unfold Cell.lifeCycle
  split
  · exact Cell.gait_ite rfl rfl
  · rfl

theorem Cell.endGrip_gait (c : Cell) : c.endGrip.ax.gait = c.ax.gait := Cell.gait_ite rfl rfl

theorem Cell.toHold_gait (c : Cell) : c.toHold.ax.gait = c.ax.gait := by
  unfold Cell.toHold
  extract_lets a d e
  have he : e.ax.gait = c.ax.gait := Cell.endGrip_gait _
  exact Cell.gait_ite he (Cell.gait_ite (e.goFallow_gait.trans he) he)

theorem Cell.stopDone_gait (c : Cell) : c.stopDone.ax.gait = c.ax.gait := by
  unfold Cell.stopDone
  extract_lets seq fallow d e
  have he : e.ax.gait = c.ax.gait := (Cell.toHold_gait _).trans ((Cell.endJob_gait _ _).trans d.lifeCycle_gait)
  exact Cell.gait_ite (e.goFallow_gait.trans he) he

theorem Cell.startBrake_gait (c : Cell) (w : Brake) : (c.startBrake w).ax.gait = c.ax.gait := by
  unfold Cell.startBrake
  exact Cell.gait_ite rfl rfl

theorem Cell.stopAlong_gait (c : Cell) (k : StopKind) (p : Prof) : (c.stopAlong k p).ax.gait = c.ax.gait := by
  unfold Cell.stopAlong
  extract_lets d
  exact Cell.gait_ite d.stopDone_gait rfl

theorem Cell.stopAgain_gait (c : Cell) (k : StopKind) : (c.stopAgain k).ax.gait = c.ax.gait := by
  unfold Cell.stopAgain
  extract_lets m
  split
  · exact Cell.gait_ite (Cell.gait_ite (c.stopAlong_gait _ _) rfl) (Cell.gait_ite (Cell.stopAlong_gait _ _ _) rfl)
  · rfl

theorem Cell.stop_gait (c : Cell) (k : StopKind) : (c.stop k).ax.gait = c.ax.gait := by
  unfold Cell.stop
  extract_lets a m d1 d e f g from_
  refine Cell.gait_ite rfl (Cell.gait_ite ?_ (Cell.gait_ite ?_ (Cell.gait_ite (d.stopAgain_gait k) (Cell.gait_ite rfl (Cell.gait_ite rfl ?_)))))
  · have hd1 : d1.ax.gait = c.ax.gait := Cell.homeFail_gait _
    split
    · exact hd1
    · exact hd1
  · have he : e.ax.gait = c.ax.gait := Cell.gait_ite rfl d.homeFail_gait
    have hf : f.ax.gait = c.ax.gait := (e.endJob_gait _).trans he
    exact Cell.gait_ite ((f.startBrake_gait _).trans hf) ((Cell.startBrake_gait _ _).trans (f.setUnc_gait.trans hf))
  · exact (Cell.stopAlong_gait _ _ _).trans d.homeFail_gait

theorem Cell.fallowCmd_gait (c : Cell) : c.fallowCmd.ax.gait = c.ax.gait := by
  unfold Cell.fallowCmd
  extract_lets m d
  have hd : d.ax.gait = c.ax.gait := c.stop_gait .stop
  refine Cell.gait_ite rfl (Cell.gait_ite ?_ (Cell.gait_ite rfl (Cell.gait_ite hd (Cell.gait_ite (d.goFallow_gait.trans hd) hd))))
  exact (Cell.goFallow_gait _).trans ((Cell.endJob_gait _ _).trans c.homeFail_gait)

theorem Cell.runDeferred_gait (c : Cell) : c.runDeferred.ax.gait = c.ax.gait := by
  unfold Cell.runDeferred
  refine Cell.gait_ite ?_ rfl
  refine foldl_keeps (fun c : Cell => c.ax.gait) _ (fun d k => ?_) _ _
  cases k with
  | stop => exact d.stop_gait .stop
  | qstop => exact d.stop_gait .qstop
  | fallow => exact d.fallowCmd_gait

end Sys2Proof.Machine
end

section
/-!
The trip input of a cell (03 R90, R95 to R100): what a source that is seen, a window that ends and a source that goes inside make of a cell.  No trip
undoes a pre-trip or a trip, moves the counter's clock or changes the legs but in how they are forced off.
-/

namespace Sys2Proof.Machine

/-! ### Legs apart from how they are forced off (02 R54) -/

def Axis.undriven (a : Axis) : Legs := { a.legs with forced := Vector.replicate 5 [] }

theorem Axis.undriven_of_legs {a c : Axis} (h : a.legs = c.legs) : a.undriven = c.undriven := by rw [Axis.undriven, h]; rfl

theorem Axis.legs_of_undriven {a c : Axis} (h : a.undriven = c.undriven) : a.legs = { c.legs with forced := a.legs.forced } :=
  congrArg (fun l : Legs => { l with forced := a.legs.forced }) h

/-! ### What every step of the trip input keeps -/

/-- From one cell to another the pace and the legs stay, and no latch and no flag is taken back; legs that are off stay off. -/
structure Cell.Tripping (c d : Cell) : Prop where
  pace : d.ax.pace = c.ax.pace
  undriven : d.ax.undriven = c.ax.undriven
  pre : c.ax.trip.pre = true → d.ax.trip.pre = true
  latch : c.ax.trip.latch = true → d.ax.trip.latch = true
  flags : c.flags ⊆ d.flags
  blank : c.ax.pwm.blank → d.ax.pwm.blank

theorem Cell.Tripping.refl (c : Cell) : c.Tripping c := ⟨rfl, rfl, id, id, List.Subset.refl _, id⟩

theorem Cell.Tripping.trans {c d e : Cell} (h : c.Tripping d) (k : d.Tripping e) : c.Tripping e :=
  ⟨k.pace.trans h.pace, k.undriven.trans h.undriven, fun x => k.pre (h.pre x), fun x => k.latch (h.latch x),
    List.Subset.trans h.flags k.flags, fun x => k.blank (h.blank x)⟩

theorem Cell.Tripping.ite {c d e : Cell} {p : Prop} [Decidable p] (hd : c.Tripping d) (he : c.Tripping e) : c.Tripping (if p then d else e) := by
  split
  · exact hd
  · exact he

/-- What leaves the gait and the legs is a step of the trip input. -/
theorem Cell.Tripping.of_gait {c d : Cell} (hg : d.ax.gait = c.ax.gait) (hl : c.LegsKept d) : c.Tripping d :=
  ⟨Axis.pace_of_gait hg, Axis.undriven_of_legs hl.legs, fun h => (Axis.pre_of_latches (Axis.latches_of_gait hg)).trans h,
    fun h => (Axis.latch_of_latches (Axis.latches_of_gait hg)).trans h, hl.flags, hl.blank⟩

/-- An update of the trip input that takes no latch back and requests no clear. -/
theorem Cell.trip_tripping (c : Cell) {f : Trip → Trip} (hp : c.ax.trip.pre = true → (f c.ax.trip).pre = true := by exact id)
    (hl : c.ax.trip.latch = true → (f c.ax.trip).latch = true := by exact id) (hr : (f c.ax.trip).clearReq = c.ax.trip.clearReq := by rfl) :
    c.Tripping (c.trip f) :=
  ⟨congrArg (fun r => { c.ax.pace with clearReq := r }) hr, rfl, hp, hl, List.Subset.refl _, id⟩

theorem Cell.forceOff_tripping (c : Cell) (didt : Bool) : c.Tripping (c.forceOff didt) :=
  ⟨rfl, rfl, id, id, List.Subset.refl _, fun _ => c.forceOff_blank didt⟩

theorem Cell.raise_tripping (c : Cell) (f : Flag) : c.Tripping (c.raise f) := .of_gait rfl (c.raise_legsKept f)

theorem Cell.interruptTest_tripping (c : Cell) : c.Tripping c.interruptTest := .of_gait c.interruptTest_gait c.interruptTest_legsKept

/-! ### Confirmation (03 R100) -/

theorem Cell.dropWaiting_drained (c : Cell) (report : Bool) : (c.dropWaiting report).ax.mot.drained := ⟨rfl, rfl⟩

theorem Cell.abandon_waiting (c : Cell) : c.abandon.ax.mot.waiting = none := by
  unfold Cell.abandon
  extract_lets m report d e f
  split
  · exact ((Cell.goFallow_calm _).drained (Cell.dropWaiting_drained _ _)).1
  · split
    · rfl
    · next h => simpa using h

/-- A cell whose trip is confirmed: latched, its legs off, its profile abandoned and the axis fallow. -/
structure Cell.Confirmed (c d : Cell) : Prop extends c.Tripping d where
  latched : d.ax.trip.latch = true
  off : d.ax.pwm.blank
  fallow : d.ax.mot.mode.enabled = false
  waiting : d.ax.mot.waiting = none
  conf : AX.TRIP_EVT.CONF ∈ d.flags

theorem Cell.confirm_confirms (c : Cell) (w : Wide) (chat : Bool) (h : c.ax.trip.latch = false) : c.Confirmed (c.confirm w chat) := by
  unfold Cell.confirm
  extract_lets a act unc d1 d2 d3 d4 d5
  rw [if_neg (Bool.eq_false_iff.1 h)]
  have h3 : d2.Tripping d3 ∧ AX.TRIP_EVT.CONF ∈ d3.flags := by
    have hr : (d2.raise AX.TRIP_EVT.CONF).LegsKept ((d2.raise AX.TRIP_EVT.CONF).raiseIf chat AX.TRIP_EVT.CHAT) :=
      .ite (Cell.raise_legsKept _ _) (.refl _)
    have hg : d3.ax.gait = d2.ax.gait := ite_keeps (fun c : Cell => (c.count AX.CONF_CNT.CONF_CNT).ax.gait) rfl rfl
    exact ⟨.of_gait hg ((d2.raise_legsKept _).trans (hr.trans .of_eq)), hr.flags (List.mem_append_right _ (List.mem_singleton_self _))⟩
  have h2 : c.Tripping d2 := ⟨rfl, rfl, id, fun _ => rfl, List.Subset.refl _, id⟩
  have h4 : c.Tripping d4 := (h2.trans h3.1).trans (.of_gait rfl .of_eq)
  have hlatch : d4.ax.trip.latch = true := h3.1.latch rfl
  have h5 : d4.forceOff.Tripping d5 := .of_gait (Cell.abandon_gait _) (Cell.abandon_legsKept _)
  have h6 : d5.Tripping (if unc then d5.setUnc else d5) := .ite (.of_gait d5.setUnc_gait d5.setUnc_legsKept) (.refl d5)
  have hmot : (if unc then d5.setUnc else d5).ax.mot = d5.ax.mot := ite_keeps (fun c : Cell => c.ax.mot) d5.setUnc_mot rfl
  have hoff := (d4.forceOff_tripping false).trans (h5.trans h6)
  exact { toTripping := h4.trans hoff, latched := hoff.latch hlatch, off := (h5.trans h6).blank (d4.forceOff_blank false)
          fallow := by rw [hmot]; exact Cell.abandon_enabled _
          waiting := by rw [hmot]; exact Cell.abandon_waiting _
          conf := hoff.flags h3.2 }

theorem Cell.confirm_tripping (c : Cell) (w : Wide) (chat : Bool) : c.Tripping (c.confirm w chat) := by
  cases h : c.ax.trip.latch
  · exact (c.confirm_confirms w chat h).toTripping
  · rw [c.confirm_latched w chat h]
    exact .refl c

theorem Cell.confirm_latch (c : Cell) (w : Wide) (chat : Bool) : (c.confirm w chat).ax.trip.latch = true := by
  cases h : c.ax.trip.latch
  · exact (c.confirm_confirms w chat h).latched
  · rw [c.confirm_latched w chat h, h]

/-! ### The filter (03 R97) -/

/-- A cell whose filter has seen a source at a cycle. -/
def Cell.sees (c : Cell) (src : TripSrc) (cyc : Nat) : Cell := c.trip fun t => { t with seen := t.seen.put src (some cyc) }

theorem Cell.filterSees_unfiltered (c : Cell) (w : Wide) (src : TripSrc) (cyc : Nat) (h : c.ax.inForce AX.TRIP_CFG.TRIP_FLT = 0) :
    c.filterSees w src cyc = (c.sees src cyc).confirm w false := if_pos h

/-- A window up to a cycle, where none of the source is open yet. -/
def Trip.opened (t : Trip) (src : TripSrc) (till : Nat) : Trip :=
  { t with win := if (t.win.get src).isNone then t.win.put src (some till) else t.win }

theorem Cell.filterSees_filtered (c : Cell) (w : Wide) (src : TripSrc) (cyc : Nat) (h : c.ax.inForce AX.TRIP_CFG.TRIP_FLT ≠ 0) :
    c.filterSees w src cyc = (c.sees src cyc).trip fun t => t.opened src (cyc + c.ax.inForce AX.TRIP_CFG.TRIP_FLT) := if_neg h

theorem Cell.filterSees_tripping (c : Cell) (w : Wide) (src : TripSrc) (cyc : Nat) : c.Tripping (c.filterSees w src cyc) := by
  have hs : c.Tripping (c.sees src cyc) := c.trip_tripping
  by_cases h : c.ax.inForce AX.TRIP_CFG.TRIP_FLT = 0
  · rw [c.filterSees_unfiltered w src cyc h]
    exact hs.trans (Cell.confirm_tripping _ _ _)
  · rw [c.filterSees_filtered w src cyc h]
    exact hs.trans (Cell.trip_tripping _)

theorem Cell.filterSees_latch (c : Cell) (w : Wide) (src : TripSrc) (cyc : Nat) (h : c.ax.inForce AX.TRIP_CFG.TRIP_FLT = 0) :
    (c.filterSees w src cyc).ax.trip.latch = true := by
  rw [c.filterSees_unfiltered w src cyc h]
  exact Cell.confirm_latch _ _ _

/-- What the filter latches is fallow. -/
theorem Cell.filterSees_fallow (c : Cell) (w : Wide) (src : TripSrc) (cyc : Nat) (h : c.ax.trip.latch = false)
    (hl : (c.filterSees w src cyc).ax.trip.latch = true) : (c.filterSees w src cyc).ax.mot.mode.enabled = false := by
  by_cases hf : c.ax.inForce AX.TRIP_CFG.TRIP_FLT = 0
  · rw [c.filterSees_unfiltered w src cyc hf]
    exact ((c.sees src cyc).confirm_confirms w false h).fallow
  · rw [c.filterSees_filtered w src cyc hf] at hl
    exact absurd (hl.symm.trans h) Bool.true_eq_false_eq_False

/-! ### Windows that end (03 R97, R100) -/

/-- The window of a source has ended by a cycle, with the source active throughout. -/
def Axis.windowOver (a : Axis) (w : Wide) (src : TripSrc) (cyc : Nat) : Prop :=
  (∃ e ∈ a.trip.win.get src, e ≤ cyc) ∧ a.pwm.stopped = false ∧ (a.srcActive w).get src = true

@[simp] theorem PerSrc.get_put {α : Type} (p : PerSrc α) (src : TripSrc) (v : α) : (p.put src v).get src = v := by cases src <;> rfl

theorem Cell.windowEnds_of_over (c : Cell) (w : Wide) (src : TripSrc) (cyc : Nat) (h : c.ax.windowOver w src cyc) :
    c.windowEnds w src cyc = (c.confirm w false).trip fun t => { t with win := t.win.put src none } := by
  obtain ⟨⟨e, he, hle⟩, hs, ha⟩ := h
  unfold Cell.windowEnds
  rw [Option.mem_def.1 he]
  exact if_neg (by simp [Nat.not_lt.2 hle, hs, ha])

theorem Cell.windowEnds_of_not (c : Cell) (w : Wide) (src : TripSrc) (cyc : Nat) (h : ¬ c.ax.windowOver w src cyc) :
    c.windowEnds w src cyc = c := by
  unfold Cell.windowEnds
  split
  · rfl
  · next e he =>
    refine if_pos (by_contra fun hn => h ⟨⟨e, he, ?_⟩, ?_, ?_⟩) <;> simp_all

theorem Cell.windowEnds_tripping (c : Cell) (w : Wide) (src : TripSrc) (cyc : Nat) : c.Tripping (c.windowEnds w src cyc) := by
  by_cases h : c.ax.windowOver w src cyc
  · rw [c.windowEnds_of_over w src cyc h]
    exact (c.confirm_tripping w false).trans (Cell.trip_tripping _)
  · rw [c.windowEnds_of_not w src cyc h]
    exact .refl c

/-- The rest of what a source's going inactive does (03 R97): its window ends. -/
def Trip.ended (t : Trip) (src : TripSrc) (cyc : Nat) : Trip :=
  { t with win := t.win.put src none, stand := t.stand.put src false
           seen := if (t.seen.get src).isSome then t.seen.put src (some cyc) else t.seen }

theorem Cell.srcInactive_eq (c : Cell) (w : Wide) (src : TripSrc) (cyc : Nat) :
    c.srcInactive w src cyc = (c.windowEnds w src cyc).trip fun t => t.ended src cyc := rfl

theorem Cell.srcInactive_tripping (c : Cell) (w : Wide) (src : TripSrc) (cyc : Nat) : c.Tripping (c.srcInactive w src cyc) :=
  (c.windowEnds_tripping w src cyc).trans (Cell.trip_tripping _)

theorem Cell.srcInactive_win (c : Cell) (w : Wide) (src : TripSrc) (cyc : Nat) : (c.srcInactive w src cyc).ax.trip.win.get src = none :=
  PerSrc.get_put ..

/-- An open window ends without confirmation. -/
theorem Cell.srcInactive_of_not (c : Cell) (w : Wide) (src : TripSrc) (cyc : Nat) (h : ¬ c.ax.windowOver w src cyc) :
    c.srcInactive w src cyc = c.trip fun t => t.ended src cyc := by
  rw [Cell.srcInactive_eq, c.windowEnds_of_not w src cyc h]

theorem Cell.srcInactive_latch (c : Cell) (w : Wide) (src : TripSrc) (cyc : Nat) (h : c.ax.windowOver w src cyc) :
    (c.srcInactive w src cyc).ax.trip.latch = true := by
  rw [Cell.srcInactive_eq, c.windowEnds_of_over w src cyc h]
  exact c.confirm_latch w false

/-! ### A leg comparator goes inside (03 R92) -/

/-- A live comparator goes inside: the source of the leg comparators goes with it, where none of another role is active. -/
theorem Cell.compInside_cases (c : Cell) (w : Wide) (k : Fin 4) (cyc : Nat) (h : c.ax.trip.live = true) :
    (c.ax.trip.cmp.get k = .inside ∧ c.compInside w k cyc = c) ∨
    c.compInside w k cyc = (c.trip fun t => { t with cmp := t.cmp.set k .inside }) ∨
    c.compInside w k cyc = (c.srcInactive w (.comp k true) cyc).trip fun t => if t.live then { t with cmp := t.cmp.set k .inside } else t := by
  unfold Cell.compInside
  rw [if_neg (by simp [h])]
  extract_lets others
  split
  · next hk => exact .inl ⟨hk, rfl⟩
  · split
    · exact .inr (.inl rfl)
    · exact .inr (.inr rfl)

theorem Cell.compInside_asleep (c : Cell) (w : Wide) (k : Fin 4) (cyc : Nat) (h : c.ax.trip.live = false) : c.compInside w k cyc = c := by
  unfold Cell.compInside
  exact if_pos (by simp [h])

theorem Cell.compInside_tripping (c : Cell) (w : Wide) (k : Fin 4) (cyc : Nat) : c.Tripping (c.compInside w k cyc) := by
  cases h : c.ax.trip.live
  · rw [c.compInside_asleep w k cyc h]
    exact .refl c
  · rcases c.compInside_cases w k cyc h with ⟨-, he⟩ | he | he
    · rw [he]
      exact .refl c
    · rw [he]
      exact c.trip_tripping
    · rw [he]
      refine (c.srcInactive_tripping w _ cyc).trans (Cell.trip_tripping _ ?_ ?_ ?_)
      · exact fun hp => ite_keeps Trip.pre hp hp
      · exact fun hp => ite_keeps Trip.latch hp hp
      · exact ite_keeps Trip.clearReq rfl rfl

/-! ### A pre-trip (03 R96, R99) -/

/-- The comparator of a live cell that is armed shows the side on which its current has left the window (03 R92). -/
def Cell.shows (c : Cell) : TripSrc → Cell
  | .comp k hi => if c.ax.trip.live && c.ax.trip.cmp.get k != .unarmed then
      c.trip fun t => { t with cmp := t.cmp.set k (if hi then .high else .low) } else c
  | _ => c

/-- The pre-trips within 1 ms, with the one of a cycle. -/
def Axis.recent (a : Axis) (cyc : Nat) : List Nat := (a.trip.pres.filter fun t => cyc < t + 25000) ++ [cyc]

/-- A cell that has pre-tripped, before its filter judges it. -/
def Cell.preTripped (c : Cell) (src : TripSrc) (cyc : Nat) : Cell :=
  let d := c.trip fun t => { t with pre := true, pres := c.ax.recent cyc, stand := t.stand.put src true }
  let e := ((d.raise AX.TRIP_EVT.PRE).count AX.TRIP_CNT.PRE_CNT).forceOff
  e.when c.ax.legsFree Cell.interruptTest

/-- What follows a pre-trip, by the number of pre-trips within 1 ms: more than `TRIP_CHAT` confirm; else the filter sees the source (03 R97, R99). -/
def Cell.judges (c : Cell) (w : Wide) (src : TripSrc) (cyc : Nat) (seen : Bool) (n : Nat) : Cell :=
  if !c.ax.trip.latch && decide (n > c.ax.inForce AX.TRIP_CFG.TRIP_CHAT) then c.confirm w true
  else if seen && !c.ax.pwm.stopped then c.filterSees w src cyc
  else c

theorem Cell.shows_gait (c : Cell) (src : TripSrc) : (c.shows src).ax.gait = c.ax.gait := by
  cases src with
  | comp k hi => exact Cell.gait_ite rfl rfl
  | link => rfl
  | ext => rfl

theorem Cell.shows_legsKept (c : Cell) (src : TripSrc) : c.LegsKept (c.shows src) := by
  cases src with
  | comp k hi => exact .ite .of_eq (.refl c)
  | link => exact .refl c
  | ext => exact .refl c

theorem Cell.shows_keeps (c : Cell) (src : TripSrc) {α : Type} {g : Cell → α} (h : ∀ v, g (c.trip fun t => { t with cmp := v }) = g c) :
    g (c.shows src) = g c := by
  cases src with
  | comp k hi => exact ite_keeps g (h _) rfl
  | link => rfl
  | ext => rfl

theorem Cell.preTrip_of_disabled (c : Cell) (w : Wide) (src : TripSrc) (cyc : Nat) (seen : Bool) (h : c.ax.srcEnabled src = false) :
    c.preTrip w src cyc seen = c.shows src := by
  have he : (c.shows src).ax.srcEnabled src = false :=
    (c.shows_keeps src (g := fun d => d.ax.srcEnabled src) fun v => by cases src <;> rfl).trans h
  cases src <;> exact if_pos (congrArg not he)

theorem Cell.preTrip_of_enabled (c : Cell) (w : Wide) (src : TripSrc) (cyc : Nat) (seen : Bool) (h : c.ax.srcEnabled src = true) :
    c.preTrip w src cyc seen = ((c.shows src).preTripped src cyc).judges w src cyc seen (c.ax.recent cyc).length := by
  have he : (c.shows src).ax.srcEnabled src = true :=
    (c.shows_keeps src (g := fun d => d.ax.srcEnabled src) fun v => by cases src <;> rfl).trans h
  have hr : (c.shows src).ax.recent cyc = c.ax.recent cyc := c.shows_keeps src (g := fun d => d.ax.recent cyc) fun _ => rfl
  have hf : (c.shows src).ax.legsFree = c.ax.legsFree := c.shows_keeps src (g := fun d => d.ax.legsFree) fun _ => rfl
  unfold Cell.preTrip Cell.preTripped
  rw [hf, ← hr]
  extract_lets free d pres e f
  have hd : d = c.shows src := by cases src <;> rfl
  clear_value d
  subst hd
  exact if_neg (Bool.eq_false_iff.1 (congrArg not he))

theorem Cell.preTripped_tripping (c : Cell) (src : TripSrc) (cyc : Nat) : c.Tripping (c.preTripped src cyc) := by
  unfold Cell.preTripped
  extract_lets d e
  have hd : c.Tripping d := c.trip_tripping fun _ => rfl
  have hp : d.Tripping ((d.raise AX.TRIP_EVT.PRE).count AX.TRIP_CNT.PRE_CNT) := (d.raise_tripping _).trans (.of_gait rfl .of_eq)
  exact ((hd.trans hp).trans (Cell.forceOff_tripping _ false)).trans (.ite e.interruptTest_tripping (.refl e))

/-- A pre-trip is marked and reported, with the legs off; a trip it is not yet. -/
theorem Cell.preTripped_marks (c : Cell) (src : TripSrc) (cyc : Nat) : (c.preTripped src cyc).ax.trip.pre = true ∧
    (c.preTripped src cyc).ax.trip.latch = c.ax.trip.latch ∧ (c.preTripped src cyc).ax.pwm.blank ∧ AX.TRIP_EVT.PRE ∈ (c.preTripped src cyc).flags := by
  unfold Cell.preTripped
  extract_lets d e
  have hk : e.LegsKept (e.when c.ax.legsFree Cell.interruptTest) := e.when_legsKept _ e.interruptTest_legsKept
  have hl : (e.when c.ax.legsFree Cell.interruptTest).ax.latches = e.ax.latches := Axis.latches_of_gait (Cell.gait_ite e.interruptTest_gait rfl)
  have he : e.ax.latches = (true, c.ax.trip.latch) := rfl
  exact ⟨congrArg Prod.fst (hl.trans he), congrArg Prod.snd (hl.trans he), hk.blank (Cell.forceOff_blank _ false),
    hk.flags (List.mem_append_right _ (List.mem_singleton_self _))⟩

theorem Cell.judges_tripping (c : Cell) (w : Wide) (src : TripSrc) (cyc : Nat) (seen : Bool) (n : Nat) : c.Tripping (c.judges w src cyc seen n) :=
  .ite (c.confirm_tripping w true) (.ite (c.filterSees_tripping w src cyc) (.refl c))

theorem Cell.preTrip_tripping (c : Cell) (w : Wide) (src : TripSrc) (cyc : Nat) (seen : Bool) : c.Tripping (c.preTrip w src cyc seen) := by
  have hs : c.Tripping (c.shows src) := .of_gait (c.shows_gait src) (c.shows_legsKept src)
  cases h : c.ax.srcEnabled src
  · rw [c.preTrip_of_disabled w src cyc seen h]
    exact hs
  · rw [c.preTrip_of_enabled w src cyc seen h]
    exact (hs.trans (Cell.preTripped_tripping _ src cyc)).trans (Cell.judges_tripping ..)

/-- An enabled source leaves the cell pre-tripped, its legs off (03 R96). -/
theorem Cell.preTrip_marks (c : Cell) (w : Wide) (src : TripSrc) (cyc : Nat) (seen : Bool) (h : c.ax.srcEnabled src = true) :
    (c.preTrip w src cyc seen).ax.trip.pre = true ∧ (c.preTrip w src cyc seen).ax.pwm.blank ∧ AX.TRIP_EVT.PRE ∈ (c.preTrip w src cyc seen).flags := by
  obtain ⟨hpre, -, hoff, hflag⟩ := (c.shows src).preTripped_marks src cyc
  rw [c.preTrip_of_enabled w src cyc seen h]
  have ht := ((c.shows src).preTripped src cyc).judges_tripping w src cyc seen (c.ax.recent cyc).length
  exact ⟨ht.pre hpre, ht.blank hoff, ht.flags hflag⟩

theorem Cell.preTripped_shown_pace (c : Cell) (src : TripSrc) (cyc : Nat) : ((c.shows src).preTripped src cyc).ax.pace = c.ax.pace :=
  (Cell.preTripped_tripping _ src cyc).pace.trans (Axis.pace_of_gait (c.shows_gait src))

theorem Cell.preTripped_shown_latch (c : Cell) (src : TripSrc) (cyc : Nat) : ((c.shows src).preTripped src cyc).ax.trip.latch = c.ax.trip.latch :=
  ((c.shows src).preTripped_marks src cyc).2.1.trans (Axis.latch_of_latches (Axis.latches_of_gait (c.shows_gait src)))

/-- Chatter, or a source that is seen without a filter, confirms at once (03 R97, R99). -/
theorem Cell.preTrip_latch (c : Cell) (w : Wide) (src : TripSrc) (cyc : Nat) (seen : Bool) (h : c.ax.srcEnabled src = true)
    (hc : c.ax.inForce AX.TRIP_CFG.TRIP_CHAT < (c.ax.recent cyc).length ∨
      (seen = true ∧ c.ax.pwm.stopped = false ∧ c.ax.inForce AX.TRIP_CFG.TRIP_FLT = 0)) : (c.preTrip w src cyc seen).ax.trip.latch = true := by
  have hp := c.preTripped_shown_pace src cyc
  rw [c.preTrip_of_enabled w src cyc seen h]
  generalize (c.shows src).preTripped src cyc = d at hp ⊢
  cases hl : d.ax.trip.latch
  · unfold Cell.judges
    rw [Axis.stopped_of_pace hp, Axis.inForce_of_pace hp]
    split
    · exact d.confirm_latch w true
    · next hn =>
      obtain ⟨hseen, hstop, hflt⟩ := hc.resolve_left fun hlt => hn (by simpa [hl] using hlt)
      rw [if_pos (by simp [hseen, hstop])]
      exact d.filterSees_latch w src cyc ((Axis.inForce_of_pace hp _).trans hflt)
  · exact (d.judges_tripping ..).latch hl

/-- A pre-trip that is confirmed at once leaves the axis fallow. -/
theorem Cell.preTrip_fallow (c : Cell) (w : Wide) (src : TripSrc) (cyc : Nat) (seen : Bool) (h : c.ax.srcEnabled src = true)
    (hl : c.ax.trip.latch = false) (ht : (c.preTrip w src cyc seen).ax.trip.latch = true) :
    (c.preTrip w src cyc seen).ax.mot.mode.enabled = false := by
  have hd := (c.preTripped_shown_latch src cyc).trans hl
  rw [c.preTrip_of_enabled w src cyc seen h] at ht ⊢
  generalize (c.shows src).preTripped src cyc = d at hd ht ⊢
  unfold Cell.judges at ht ⊢
  split
  · exact (d.confirm_confirms w true hd).fallow
  · next hn =>
    rw [if_neg hn] at ht
    split
    · next hs =>
      rw [if_pos hs] at ht
      exact d.filterSees_fallow w src cyc hd ht
    · next hs =>
      rw [if_neg hs, hd] at ht
      exact absurd ht Bool.false_ne_true

/-! ### A clock that returns (03 R90) -/

/-- The filter looks at a source: where it is active, it sees it. -/
def Cell.looks (c : Cell) (w : Wide) (cyc : Nat) (src : TripSrc) : Cell := if (c.ax.srcActive w).get src then c.filterSees w src cyc else c

theorem Cell.startWindows_eq (c : Cell) (w : Wide) (cyc : Nat) :
    c.startWindows w cyc = ((c.looks w cyc (.comp 0 true)).looks w cyc .link).looks w cyc .ext := rfl

theorem Cell.looks_tripping (c : Cell) (w : Wide) (cyc : Nat) (src : TripSrc) : c.Tripping (c.looks w cyc src) :=
  .ite (c.filterSees_tripping w src cyc) (.refl c)

theorem Cell.looks_latch (c : Cell) (w : Wide) (cyc : Nat) (src : TripSrc) (h : c.ax.inForce AX.TRIP_CFG.TRIP_FLT = 0)
    (ha : (c.ax.srcActive w).get src = true) : (c.looks w cyc src).ax.trip.latch = true := by
  rw [Cell.looks, if_pos ha]
  exact c.filterSees_latch w src cyc h

theorem Cell.looks_inactive (c : Cell) (w : Wide) (cyc : Nat) (src : TripSrc) (ha : (c.ax.srcActive w).get src = false) :
    c.looks w cyc src = c := if_neg (Bool.eq_false_iff.1 ha)

/-- Without a filter the first active source trips. -/
theorem Cell.startWindows_latch (c : Cell) (w : Wide) (cyc : Nat) (h : c.ax.inForce AX.TRIP_CFG.TRIP_FLT = 0)
    (ha : (c.ax.srcActive w).any = true) : (c.startWindows w cyc).ax.trip.latch = true := by
  rw [c.startWindows_eq]
  cases h1 : (c.ax.srcActive w).get (.comp 0 true)
  · rw [c.looks_inactive w cyc _ h1]
    cases h2 : (c.ax.srcActive w).get .link
    · rw [c.looks_inactive w cyc _ h2]
      refine c.looks_latch w cyc _ h ?_
      have hany : ((c.ax.srcActive w).get (.comp 0 true) || (c.ax.srcActive w).get .link || (c.ax.srcActive w).get .ext) = true := ha
      rwa [h1, h2] at hany
    · exact (Cell.looks_tripping _ w cyc _).latch (c.looks_latch w cyc _ h h2)
  · exact ((Cell.looks_tripping _ w cyc _).trans (Cell.looks_tripping _ w cyc _)).latch (c.looks_latch w cyc _ h h1)

/-- A cell whose filter has opened a window for a source that is active. -/
def Cell.watches (c : Cell) (w : Wide) (cyc : Nat) (src : TripSrc) : Cell :=
  if (c.ax.srcActive w).get src then (c.sees src cyc).trip fun t => t.opened src (cyc + c.ax.inForce AX.TRIP_CFG.TRIP_FLT) else c

/-- Windows leave everything that does not read them. -/
theorem Cell.watches_keeps (c : Cell) (w : Wide) (cyc : Nat) (src : TripSrc) {α : Type} (g : Cell → α)
    (h : ∀ x y, g (c.trip fun t => { t with seen := x, win := y }) = g c) : g (c.watches w cyc src) = g c := ite_keeps g (h _ _) rfl

/-- What opens windows and trips nothing: a filter, or no active source. -/
def Axis.filtered (a : Axis) (w : Wide) : Prop := a.inForce AX.TRIP_CFG.TRIP_FLT ≠ 0 ∨ (a.srcActive w).any = false

theorem Cell.looks_filtered (c : Cell) (w : Wide) (cyc : Nat) (src : TripSrc) (h : c.ax.filtered w) : c.looks w cyc src = c.watches w cyc src := by
  unfold Cell.looks Cell.watches
  split
  · next ha =>
    refine c.filterSees_filtered w src cyc (h.resolve_right fun hn => ?_)
    simp only [PerSrc.any, Bool.or_eq_false_iff] at hn
    cases src <;> simp_all [PerSrc.get]
  · rfl

theorem Cell.watches_filtered (c : Cell) (w : Wide) (cyc : Nat) (src : TripSrc) (h : c.ax.filtered w) : (c.watches w cyc src).ax.filtered w :=
  (c.watches_keeps w cyc src (fun d => d.ax.filtered w) fun _ _ => rfl).mpr h

theorem Cell.startWindows_filtered (c : Cell) (w : Wide) (cyc : Nat) (h : c.ax.filtered w) :
    c.startWindows w cyc = ((c.watches w cyc (.comp 0 true)).watches w cyc .link).watches w cyc .ext := by
  have h1 := c.watches_filtered w cyc (.comp 0 true) h
  rw [c.startWindows_eq, c.looks_filtered w cyc _ h, Cell.looks_filtered _ w cyc _ h1,
    Cell.looks_filtered _ w cyc _ (Cell.watches_filtered _ w cyc _ h1)]

theorem Cell.startWindows_keeps (c : Cell) (w : Wide) (cyc : Nat) (hf : c.ax.filtered w) {α : Type} (g : Cell → α)
    (h : ∀ (d : Cell) x y, g (d.trip fun t => { t with seen := x, win := y }) = g d) : g (c.startWindows w cyc) = g c := by
  rw [c.startWindows_filtered w cyc hf, Cell.watches_keeps _ w cyc _ g (h _), Cell.watches_keeps _ w cyc _ g (h _),
    Cell.watches_keeps _ w cyc _ g (h _)]

theorem Cell.watches_win (c : Cell) (w : Wide) (cyc : Nat) (src : TripSrc) : (c.watches w cyc src).ax.trip.win =
    if (c.ax.srcActive w).get src then (c.ax.trip.opened src (cyc + c.ax.inForce AX.TRIP_CFG.TRIP_FLT)).win else c.ax.trip.win := by
  unfold Cell.watches
  split <;> rfl

/-- A whole window for each active source (03 R90). -/
theorem Cell.startWindows_win (c : Cell) (w : Wide) (cyc : Nat) (hf : c.ax.filtered w) (hw : c.ax.trip.win = ⟨none, none, none⟩) (src : TripSrc) :
    (c.startWindows w cyc).ax.trip.win.get src =
      if (c.ax.srcActive w).get src then some (cyc + c.ax.inForce AX.TRIP_CFG.TRIP_FLT) else none := by
  have ha : ∀ (d : Cell) (s : TripSrc), (d.watches w cyc s).ax.srcActive w = d.ax.srcActive w := fun d s =>
    d.watches_keeps w cyc s (fun e => e.ax.srcActive w) fun _ _ => rfl
  have hi : ∀ (d : Cell) (s : TripSrc), (d.watches w cyc s).ax.inForce AX.TRIP_CFG.TRIP_FLT = d.ax.inForce AX.TRIP_CFG.TRIP_FLT := fun d s =>
    d.watches_keeps w cyc s (fun e => e.ax.inForce AX.TRIP_CFG.TRIP_FLT) fun _ _ => rfl
  rw [c.startWindows_filtered w cyc hf]
  simp only [Cell.watches_win, ha, hi, Trip.opened, hw]
  generalize c.ax.srcActive w = p
  obtain ⟨p1, p2, p3⟩ := p
  cases p1 <;> cases p2 <;> cases p3 <;> cases src <;> rfl

end Sys2Proof.Machine
end

section
/-!
Steps on cells that end with the check of a winding measurement (08 R280): of the module, they leave all but its measurements.
-/

namespace Sys2Proof.Machine

theorem Blk.rwCheck_keeps {α : Type} (g : Blk → α) (b : Blk) (h : g (b.rwEnd 5) = g b) : g b.rwCheck = g b := by
  unfold Blk.rwCheck
  split
  · rfl
  · exact ite_keeps g h rfl

theorem Blk.rwEnd_owning (b : Blk) (st : Nat) : (b.rwEnd st).owning = b.owning := by
  unfold Blk.rwEnd
  split
  · rfl
  · exact congrArg (·.2.1) (Blk.raise_frame ..)

theorem Blk.rwCheck_owning (b : Blk) : b.rwCheck.owning = b.owning := b.rwCheck_keeps Blk.owning (b.rwEnd_owning 5)

theorem Blk.rwEnd_planes (b : Blk) (st : Nat) : (b.rwEnd st).planes = b.planes := by
  unfold Blk.rwEnd
  split
  · rfl
  · exact Blk.raise_planes ..

theorem Blk.rwCheck_planes (b : Blk) : b.rwCheck.planes = b.planes := b.rwCheck_keeps Blk.planes (b.rwEnd_planes 5)

theorem Blk.rwCheck_axis (b : Blk) (n : Fin 48) : b.rwCheck.axis n = b.axis n := Blk.axis_of_ax b.rwCheck_ax n


theorem Blk.set_flagged (b : Blk) {f : Fld} (v : Nat) {g : Flag} (hf : f.reg ∉ modEvRegs) (hev : g.ev < 16) (h : b.flagged g) : (b.set f v).flagged g := by
  have hne : (modEvRegs[g.ev]?).getD 0 ≠ f.reg := fun e => hf (e ▸ modEvReg_mem hev)
  unfold Blk.flagged
  rw [show (b.set f v).regs[(modEvRegs[g.ev]?).getD 0]? = b.regs[(modEvRegs[g.ev]?).getD 0]? from f.getElem?_put_ne b.regs v hne]
  exact h

theorem Blk.rwEnd_flagged (b : Blk) (st : Nat) {f : Flag} (hev : f.ev < 16) (hf : f.bit < 24) (h : b.flagged f) : (b.rwEnd st).flagged f := by
  unfold Blk.rwEnd
  split
  · exact h
  · exact Blk.raise_flagged _ _ hf (Blk.set_flagged _ _ (by decide) hev h)

theorem Blk.rwCheck_flagged (b : Blk) {f : Flag} (hev : f.ev < 16) (hf : f.bit < 24) (h : b.flagged f) : b.rwCheck.flagged f := by
  unfold Blk.rwCheck
  split
  · exact h
  · split
    · exact b.rwEnd_flagged 5 hev hf h
    · exact h

theorem Blk.rwEnd_bit (b : Blk) (st : Nat) {f : Fld} (hf : f.apart MEAS.RW_RES.ST = true) (hev : f.reg ∉ modEvRegs) :
    (b.rwEnd st).bit f = b.bit f := by
  unfold Blk.rwEnd
  split
  · rfl
  · next w _ =>
    exact (Blk.bit_of_frame (Blk.raise_frame ..) hev).trans (congrArg (· != 0) (Fld.get_put_apart _ _ hf))

theorem Blk.rwCheck_bit (b : Blk) {f : Fld} (hf : f.apart MEAS.RW_RES.ST = true) (hev : f.reg ∉ modEvRegs) : b.rwCheck.bit f = b.bit f :=
  b.rwCheck_keeps (fun d => d.bit f) (b.rwEnd_bit 5 hf hev)

/-- After a step on a cell with the check, of the axes only its own has changed, and of the rest only the measurements. -/
theorem Blk.checked_apart (b : Blk) (n : Fin 48) (f : Cell → Cell) : b.only (b.cell n f).rwCheck n ∧
    (b.cell n f).rwCheck.rest = { b with meas := (b.cell n f).rwCheck.meas }.rest ∧ (b.cell n f).rwCheck.owning = b.owning := by
  obtain ⟨honly, hrest, howning⟩ := b.cell_apart n f
  refine ⟨fun m hm => ((b.cell n f).rwCheck_axis m).trans (honly m hm), ?_, (b.cell n f).rwCheck_owning.trans howning⟩
  rw [Blk.rwCheck_rest]
  exact congrArg (fun r : Blk => { r with meas := (b.cell n f).rwCheck.meas }) hrest

theorem Blk.cells_still (b : Blk) (l : List (Fin 48)) (f : Fin 48 → Cell → Cell) : b.still (b.cells l f) := Blk.still_of_frame (b.cells_frame l f)

/-- The same of a step on every cell. -/
theorem Blk.allChecked_apart (b : Blk) (f : Fin 48 → Cell → Cell) :
    (b.cells allAxes f).rwCheck.rest = { b with meas := (b.cells allAxes f).rwCheck.meas }.rest ∧ (b.cells allAxes f).rwCheck.owning = b.owning := by
  obtain ⟨hrest, howning, -⟩ := b.cells_still allAxes f
  refine ⟨?_, (Blk.rwCheck_owning _).trans howning⟩
  rw [Blk.rwCheck_rest]
  exact congrArg (fun r : Blk => { r with meas := (b.cells allAxes f).rwCheck.meas }) hrest

theorem Blk.pw_of_rest {b t : Blk} (h : t.rest = b.rest) : t.pw = b.pw := (congrArg Blk.pw h :)
theorem Blk.sm_of_rest {b t : Blk} (h : t.rest = b.rest) : t.sm = b.sm := (congrArg Blk.sm h :)
theorem Blk.plan_of_rest {b t : Blk} (h : t.rest = b.rest) : t.plan = b.plan := (congrArg Blk.plan h :)

theorem Blk.rest_of_pw {b t : Blk} {p : Power} {m : Meas} (h : t.rest = { b with pw := p, meas := m }.rest) :
    t.rest = { b with pw := t.pw, meas := m }.rest := by
  rw [Blk.pw_of_rest h]
  exact h

/-- After a step on every cell, an axis is as its own step on its own cell leaves it. -/
theorem Blk.cells_axis_all (b : Blk) (f : Fin 48 → Cell → Cell) (n : Fin 48) :
    ∃ c : Blk, c.cellOf n = b.cellOf n ∧ (b.cells allAxes f).axis n = (c.cell n (f n)).axis n :=
  b.cells_axis_mem f allAxes_nodup (mem_allAxes n)

/-- An axis as a step that ends in a cell leaves it: but for the event registers all of it, with the flags that were raised. -/
structure Cell.Leaves (c : Cell) (a : Axis) : Prop where
  legs : a.legs = c.ax.legs
  trip : a.trip = c.ax.trip
  pwm : a.pwm = c.ax.pwm
  reg : a.reg = c.ax.reg
  mot : a.mot = c.ax.mot
  plainRegs : a.plainRegs = c.ax.plainRegs
  flagged : ∀ {f : Flag}, f ∈ c.flags → f.ev < 6 → f.bit < 24 → a.flagged f

theorem Blk.cell_leaves (b : Blk) (n : Fin 48) (f : Cell → Cell) : (f (b.cellOf n)).Leaves ((b.cell n f).axis n) :=
  ⟨b.cell_axis_legs n f, b.cell_axis_trip n f, b.cell_axis_pwm n f, b.cell_axis_reg n f, b.cell_axis_mot n f, b.cell_axis_plainRegs n f,
    fun h => b.cell_axis_flagged n f h⟩

theorem Blk.cells_leave (b : Blk) (f : Fin 48 → Cell → Cell) (n : Fin 48) : (f n (b.cellOf n)).Leaves ((b.cells allAxes f).axis n) := by
  obtain ⟨c, hc, hax⟩ := b.cells_axis_all f n
  rw [← hc, hax]
  exact c.cell_leaves n (f n)

theorem Blk.cells_axis_of_flags (b : Blk) (f : Fin 48 → Cell → Cell) (n : Fin 48) (h : (f n (b.cellOf n)).flags = []) :
    (b.cells allAxes f).axis n = (f n (b.cellOf n)).ax := by
  obtain ⟨c, hc, hax⟩ := b.cells_axis_all f n
  rw [← hc] at h ⊢
  rw [hax, c.cell_axis_of_flags n h]

end Sys2Proof.Machine
end

section
/-!
Stopped clocks (03 R88 to R90): each clause of `Obligations.StoppedClocksFreezeCells` as a lemma of its own.
-/

namespace Sys2Proof.Machine

open Sys2Proof.Safety

/-! ### A counter that stops (03 R88, R89) -/

theorem Axis.counter_le (a : Axis) (free : Nat) (h : a.pwm.still = false) : (a.counter free).1 ≤ a.per := by
  rw [Axis.counter, if_neg (Bool.eq_false_iff.1 h)]
  exact Nat.lt_succ_iff.1 (Nat.mod_lt _ (Nat.succ_pos _))

/-- The step of a debug halt on a cell, at an instant in its period. -/
def Cell.halts (free : Nat) (c : Cell) : Cell :=
  let d := (c.stopCounter free).pwm fun p => { p with halted := true }
  if d.ax.inForce AX.PWM_CTRL.HALT_MODE = 1 then d.pwm Pwm.dark else d

theorem Cell.halts_dark (c : Cell) (free : Nat) (h : c.ax.inForce AX.PWM_CTRL.HALT_MODE = 1) :
    c.halts free = ((c.stopCounter free).pwm fun p => { p with halted := true }).pwm Pwm.dark := if_pos h

theorem Cell.halts_as_is (c : Cell) (free : Nat) (h : c.ax.inForce AX.PWM_CTRL.HALT_MODE ≠ 1) :
    c.halts free = (c.stopCounter free).pwm fun p => { p with halted := true } := if_neg h

/-- Whatever `HALT_MODE` says, a halt stops the counter and leaves motion, legs and flags. -/
theorem Cell.halts_stops (c : Cell) (free : Nat) : (c.halts free).flags = c.flags ∧ (c.halts free).ax.pwm.halted = true ∧
    (c.halts free).ax.pwm.cnt = (c.ax.counter free).1 ∧ (c.halts free).ax.mot = c.ax.mot ∧ (c.halts free).ax.legs = c.ax.legs := by
  by_cases h : c.ax.inForce AX.PWM_CTRL.HALT_MODE = 1
  · rw [c.halts_dark free h]
    exact ⟨rfl, rfl, rfl, rfl, rfl⟩
  · rw [c.halts_as_is free h]
    exact ⟨rfl, rfl, rfl, rfl, rfl⟩

theorem Blk.draw_frame (b : Blk) (k : Nat) : (b.draw k).frame = b.frame := rfl

theorem debugHalt_stops (s : State) : Does .debugHalt s fun t => s.blk.still t ∧
    (if s.blk.pw.straps.bench = true ∧ s.blk.bit MOD.CTRL.DBG_EN = true then
      ∀ n, (t.axis n).pwm.halted = true ∧ ((s.blk.axis n).pwm.still = false → (t.axis n).pwm.cnt ≤ (s.blk.axis n).per)
      ∧ (t.axis n).mot = (s.blk.axis n).mot ∧ (t.axis n).legs = (s.blk.axis n).legs
      ∧ ((s.blk.axis n).inForce AX.PWM_CTRL.HALT_MODE = 1 → (t.axis n).pwm.pulses = Vector.replicate 4 .off)
      ∧ ((s.blk.axis n).inForce AX.PWM_CTRL.HALT_MODE ≠ 1 → (t.axis n).pwm.pulses = (s.blk.axis n).pwm.pulses)
      else t = s.blk) := by
  refine does_of_onBlk (f := fun b => if !b.pw.straps.bench || !b.bit MOD.CTRL.DBG_EN then b
    else (b.cells allAxes fun n => Cell.halts (Config.freeNat (b.fresh + n.val))).draw 48) rfl ?_
  by_cases h : s.blk.pw.straps.bench = true ∧ s.blk.bit MOD.CTRL.DBG_EN = true
  · rw [if_neg (by simp [h]), if_pos h]
    refine ⟨Blk.still_of_frame ((Blk.draw_frame ..).trans (Blk.cells_frame ..)), fun n => ?_⟩
    obtain ⟨hflags, hhalted, hcnt, hmot, hlegs⟩ := (s.blk.cellOf n).halts_stops (Config.freeNat (s.blk.fresh + n.val))
    rw [Blk.draw_axis, s.blk.cells_axis_of_flags _ n hflags, hcnt]
    refine ⟨hhalted, (s.blk.cellOf n).ax.counter_le _, hmot, hlegs, fun hm => ?_, fun hm => ?_⟩
    · rw [(s.blk.cellOf n).halts_dark _ hm]
      rfl
    · rw [(s.blk.cellOf n).halts_as_is _ hm]
      rfl
  · rw [if_pos (by simpa [← Bool.not_and, Bool.and_eq_true] using h), if_neg h]
    exact ⟨⟨rfl, rfl, fun _ _ => rfl⟩, rfl⟩

theorem cellClockLoss_freezes (s : State) (n : Fin 48) : Does (.cellClockLoss n) s fun t => s.blk.only t n ∧ s.blk.still t ∧
    t.axis n = { s.blk.axis n with pwm := { (s.blk.axis n).pwm with
      clockLost := true, late := true, cnt := (t.axis n).pwm.cnt, down := (t.axis n).pwm.down } }
    ∧ ((s.blk.axis n).pwm.still = false → (t.axis n).pwm.cnt ≤ (s.blk.axis n).per) := by
  refine does_of_onBlk (f := fun b => (b.cell n fun c => (c.stopCounter (Config.freeNat b.fresh)).pwm fun p => { p with clockLost := true }).draw) rfl ?_
  refine ⟨fun m hm => (Blk.draw_axis ..).trans (s.blk.cell_only n _ m hm), Blk.still_of_frame ((Blk.draw_frame ..).trans (Blk.cell_frame ..)), ?_⟩
  rw [Blk.draw_axis, s.blk.cell_axis_of_flags n rfl]
  exact ⟨rfl, (s.blk.cellOf n).ax.counter_le _⟩

/-! ### A clock that runs again (03 R90) -/

theorem Cell.startWindows_tripping (c : Cell) (w : Wide) (cyc : Nat) : c.Tripping (c.startWindows w cyc) := by
  rw [c.startWindows_eq]
  exact ((Cell.looks_tripping ..).trans (Cell.looks_tripping ..)).trans (Cell.looks_tripping ..)

theorem Cell.restartWindows_tripping (c : Cell) (w : Wide) (cyc : Nat) : c.Tripping (c.restartWindows w cyc) :=
  .ite c.trip_tripping (c.trip_tripping.trans (Cell.startWindows_tripping ..))

theorem Cell.startWindows_resumed (c : Cell) (w : Wide) (cyc : Nat) (hw : c.ax.trip.win = ⟨none, none, none⟩) :
    c.ax.resumed (c.startWindows w cyc).ax w cyc :=
  ⟨c.startWindows_latch w cyc, fun hf => ⟨c.startWindows_keeps w cyc hf (fun d => d.ax.mot) fun _ _ _ => rfl,
    c.startWindows_keeps w cyc hf (fun d => d.ax.legs) fun _ _ _ => rfl, c.startWindows_keeps w cyc hf (fun d => d.ax.trip.latch) fun _ _ _ => rfl,
    c.startWindows_keeps w cyc hf (fun d => d.ax.trip.pre) fun _ _ _ => rfl, c.startWindows_win w cyc hf hw⟩⟩

/-- A cell whose filter has dropped its windows. -/
def Cell.windowless (c : Cell) : Cell := c.trip fun t => { t with win := ⟨none, none, none⟩ }

theorem Cell.restartWindows_of_running (c : Cell) (w : Wide) (cyc : Nat) (h : c.ax.pwm.stopped = false) :
    c.restartWindows w cyc = c.windowless.startWindows w cyc := if_neg (Bool.eq_false_iff.1 h)

/-- Where the cell's clock then runs, its filter starts from its beginning. -/
theorem Cell.restartWindows_resumed (c : Cell) (w : Wide) (cyc : Nat) (h : c.ax.pwm.stopped = false) :
    c.ax.resumed (c.restartWindows w cyc).ax w cyc := by
  rw [c.restartWindows_of_running w cyc h]
  exact c.windowless.startWindows_resumed w cyc rfl

/-- What is said of a cell that resumes speaks of its motion, its legs and its trip input alone. -/
theorem Axis.resumed_congr {a t u : Axis} {w : Wide} {cyc : Nat} (h : a.resumed t w cyc) (hm : u.mot = t.mot) (hl : u.legs = t.legs)
    (ht : u.trip = t.trip) : a.resumed u w cyc := by
  unfold Axis.resumed
  rw [hm, hl, ht]
  exact h

/-- The release of a debug halt on a cell. -/
def Cell.released (w : Wide) (c : Cell) : Cell :=
  if c.ax.pwm.halted then (c.pwm fun p => { p with halted := false }).restartWindows w 0 else c

theorem Cell.released_of_halted (c : Cell) (w : Wide) (h : c.ax.pwm.halted = true) : (c.released w).ax.pwm.halted = false ∧
    (c.ax.pwm.clockLost = false → c.ax.pwm.napped = false → c.ax.resumed (c.released w).ax w 0) := by
  rw [Cell.released, if_pos h]
  refine ⟨Axis.halted_of_pace (Cell.restartWindows_tripping (c.pwm fun p => { p with halted := false }) w 0).pace, fun hc hn => ?_⟩
  exact Cell.restartWindows_resumed (c.pwm fun p => { p with halted := false }) w 0 (by simp [Pwm.stopped, hc, hn])

/-- The return of a cell's clock. -/
def Cell.clockBack (w : Wide) (cyc : Nat) (c : Cell) : Cell :=
  if c.ax.pwm.clockLost then (c.pwm fun p => { p with clockLost := false }).restartWindows w cyc else c

theorem Cell.clockBack_of_lost (c : Cell) (w : Wide) (cyc : Nat) (h : c.ax.pwm.clockLost = true) : (c.clockBack w cyc).ax.pwm.clockLost = false ∧
    (c.ax.pwm.halted = false → c.ax.pwm.napped = false → c.ax.resumed (c.clockBack w cyc).ax w cyc) := by
  rw [Cell.clockBack, if_pos h]
  refine ⟨Axis.clockLost_of_pace (Cell.restartWindows_tripping (c.pwm fun p => { p with clockLost := false }) w cyc).pace, fun hc hn => ?_⟩
  exact Cell.restartWindows_resumed (c.pwm fun p => { p with clockLost := false }) w cyc (by simp [Pwm.stopped, hc, hn])

theorem debugRelease_resumes (s : State) : Does .debugRelease s fun t => t.rest = { s.blk with meas := t.meas }.rest ∧ t.owning = s.blk.owning ∧
    ∀ n, if (s.blk.axis n).pwm.halted = true then (t.axis n).pwm.halted = false
      ∧ ((s.blk.axis n).pwm.clockLost = false → (s.blk.axis n).pwm.napped = false → (s.blk.axis n).resumed (t.axis n) s.blk.wide 0)
      else t.axis n = s.blk.axis n := by
  refine does_of_onBlk (f := fun b => (b.cells allAxes fun _ => Cell.released b.wide).rwCheck) rfl ?_
  obtain ⟨hrest, howning⟩ := s.blk.allChecked_apart fun _ => Cell.released s.blk.wide
  refine ⟨hrest, howning, fun n => ?_⟩
  rw [Blk.rwCheck_axis]
  split
  · next h =>
    obtain ⟨hhalted, hres⟩ := (s.blk.cellOf n).released_of_halted s.blk.wide h
    have hl := s.blk.cells_leave (fun _ => Cell.released s.blk.wide) n
    exact ⟨(congrArg Pwm.halted hl.pwm).trans hhalted, fun h1 h2 => Axis.resumed_congr (hres h1 h2) hl.mot hl.legs hl.trip⟩
  · next h =>
    have hs : (s.blk.cellOf n).released s.blk.wide = s.blk.cellOf n := if_neg h
    rw [s.blk.cells_axis_of_flags _ n (congrArg Cell.flags hs)]
    exact congrArg Cell.ax hs

theorem cellClockReturn_resumes (s : State) (n : Fin 48) (cyc : Nat) : Does (.cellClockReturn ⟨n, cyc⟩) s fun t =>
    s.blk.only t n ∧ t.rest = { s.blk with meas := t.meas }.rest ∧ t.owning = s.blk.owning ∧
      if (s.blk.axis n).pwm.clockLost = true then (t.axis n).pwm.clockLost = false
      ∧ ((s.blk.axis n).pwm.halted = false → (s.blk.axis n).pwm.napped = false → (s.blk.axis n).resumed (t.axis n) s.blk.wide cyc)
      else t.axis n = s.blk.axis n := by
  refine does_of_onBlk (f := fun b => (b.cell n (Cell.clockBack b.wide cyc)).rwCheck) rfl ?_
  obtain ⟨honly, hrest, howning⟩ := s.blk.checked_apart n (Cell.clockBack s.blk.wide cyc)
  refine ⟨honly, hrest, howning, ?_⟩
  rw [Blk.rwCheck_axis]
  split
  · next h =>
    obtain ⟨hlost, hres⟩ := (s.blk.cellOf n).clockBack_of_lost s.blk.wide cyc h
    have hl := s.blk.cell_leaves n (Cell.clockBack s.blk.wide cyc)
    exact ⟨(congrArg Pwm.clockLost hl.pwm).trans hlost, fun h1 h2 => Axis.resumed_congr (hres h1 h2) hl.mot hl.legs hl.trip⟩
  · next h => exact s.blk.cell_axis_of_same n (if_neg h)

/-- Settles O44: a halt and a lost clock stop the counter alone, and a clock that runs again starts the filter anew. -/
theorem stoppedClocksFreezeCells : Obligations.StoppedClocksFreezeCells := by
  unfold Obligations.StoppedClocksFreezeCells
  exact ⟨debugHalt_stops, debugRelease_resumes, cellClockLoss_freezes, cellClockReturn_resumes⟩

end Sys2Proof.Machine
end

section
/-!
Trips of cells (03 R92 to R100, R114): each clause of `Obligations.TripsActOnCells` as a lemma of its own.
-/

namespace Sys2Proof.Machine

open Sys2Proof.Safety

/-! ### What a step of the trip input leaves of its axis -/

theorem Cell.Tripping.left_legs {c d : Cell} (h : c.Tripping d) {a : Axis} (ha : d.Leaves a) :
    a.legs = { c.ax.legs with forced := a.legs.forced } := by
  rw [ha.legs]
  exact Axis.legs_of_undriven h.undriven

/-- What an axis shows of a pre-trip: the mark, its switches off and the flag. -/
theorem Cell.preTrip_left (c : Cell) (w : Wide) (src : TripSrc) (cyc : Nat) (seen : Bool) (h : c.ax.srcEnabled src = true) {a : Axis}
    (ha : (c.preTrip w src cyc seen).Leaves a) :
    a.trip.pre = true ∧ a.pwm.pulses = Vector.replicate 4 .off ∧ a.flagged AX.TRIP_EVT.PRE := by
  obtain ⟨hpre, hoff, hflag⟩ := c.preTrip_marks w src cyc seen h
  exact ⟨(congrArg Trip.pre ha.trip).trans hpre, (congrArg Pwm.pulses ha.pwm).trans hoff.1, ha.flagged hflag (by decide) (by decide)⟩

theorem Axis.recent_length (a : Axis) (cyc : Nat) : (a.recent cyc).length = (a.trip.pres.filter fun u => cyc < u + 25000).length + 1 :=
  List.length_append

theorem preTrip_trips (s : State) (n : Fin 48) (src : TripSrc) (cyc : Nat) (seen : Bool) :
    Does (.preTrip n src cyc seen) s fun t => s.blk.only t n ∧ t.rest = { s.blk with meas := t.meas }.rest ∧ t.owning = s.blk.owning
      ∧ (t.axis n).legs = { (s.blk.axis n).legs with forced := (t.axis n).legs.forced }
      ∧ (if s.blk.wide.stands src = false then t.ax = s.blk.ax
      else if (s.blk.axis n).srcEnabled src = true then (t.axis n).trip.pre = true ∧ (t.axis n).pwm.pulses = Vector.replicate 4 .off
      ∧ (t.axis n).flagged AX.TRIP_EVT.PRE
      ∧ ((s.blk.axis n).inForce AX.TRIP_CFG.TRIP_CHAT < ((s.blk.axis n).trip.pres.filter fun u => cyc < u + 25000).length + 1
      ∨ (seen = true ∧ (s.blk.axis n).pwm.stopped = false ∧ (s.blk.axis n).inForce AX.TRIP_CFG.TRIP_FLT = 0) → (t.axis n).trip.latch = true)
      ∧ ((s.blk.axis n).trip.latch = false → (t.axis n).trip.latch = true → (t.axis n).mot.mode.enabled = false)
      else (t.axis n).mot = (s.blk.axis n).mot ∧ (t.axis n).trip.pre = (s.blk.axis n).trip.pre ∧ (t.axis n).trip.latch = (s.blk.axis n).trip.latch) := by
  refine does_of_onBlk (f := fun b => if b.wide.stands src then (b.cell n fun c => c.preTrip b.wide src cyc seen).rwCheck else b) rfl ?_
  cases hstands : s.blk.wide.stands src
  · exact ⟨fun _ _ => rfl, rfl, rfl, rfl, rfl⟩
  have hl := s.blk.cell_leaves n fun c => c.preTrip s.blk.wide src cyc seen
  obtain ⟨honly, hrest, howning⟩ := s.blk.checked_apart n fun c => c.preTrip s.blk.wide src cyc seen
  rw [if_pos rfl, if_neg Bool.true_eq_false_eq_False, Blk.rwCheck_axis]
  refine ⟨honly, hrest, howning, ((s.blk.cellOf n).preTrip_tripping ..).left_legs hl, ?_⟩
  rw [hl.mot, congrArg Trip.latch hl.trip]
  split
  · next he =>
    obtain ⟨hpre, hoff, hflag⟩ := (s.blk.cellOf n).preTrip_left s.blk.wide src cyc seen he hl
    refine ⟨hpre, hoff, hflag, fun hc => ?_, (s.blk.cellOf n).preTrip_fallow s.blk.wide src cyc seen he⟩
    refine (s.blk.cellOf n).preTrip_latch s.blk.wide src cyc seen he ?_
    rw [Axis.recent_length]
    exact hc
  · next he =>
    have hd := (s.blk.cellOf n).preTrip_of_disabled s.blk.wide src cyc seen (Bool.eq_false_iff.2 he)
    rw [congrArg Trip.pre hl.trip, hd]
    have hk := (s.blk.cellOf n).shows_gait src
    exact ⟨(s.blk.cellOf n).shows_keeps src (g := fun d => d.ax.mot) fun _ => rfl, Axis.pre_of_latches (Axis.latches_of_gait hk),
      Axis.latch_of_latches (Axis.latches_of_gait hk)⟩

theorem Cell.Confirmed.trip {c d : Cell} (h : c.Confirmed d) {f : Trip → Trip} (hf : d.Tripping (d.trip f)) : c.Confirmed (d.trip f) :=
  { toTripping := h.toTripping.trans hf, latched := hf.latch h.latched, off := hf.blank h.off, fallow := h.fallow, waiting := h.waiting
    conf := hf.flags h.conf }

/-- A window that is over confirms the trip, and is closed. -/
theorem Cell.windowEnds_closes (c : Cell) (w : Wide) (src : TripSrc) (cyc : Nat) (h : c.ax.windowOver w src cyc) :
    (c.windowEnds w src cyc).ax.trip.latch = true ∧ (c.windowEnds w src cyc).ax.trip.win.get src = none ∧
    (c.ax.trip.latch = false → c.Confirmed (c.windowEnds w src cyc)) := by
  rw [c.windowEnds_of_over w src cyc h]
  exact ⟨c.confirm_latch w false, PerSrc.get_put .., fun hn => (c.confirm_confirms w false hn).trip (Cell.trip_tripping _)⟩

theorem tripConfirm_confirms (s : State) (n : Fin 48) (src : TripSrc) (cyc : Nat) :
    Does (.tripConfirm n src cyc) s fun t => s.blk.only t n ∧ t.rest = { s.blk with meas := t.meas }.rest ∧ t.owning = s.blk.owning
      ∧ (t.axis n).legs = { (s.blk.axis n).legs with forced := (t.axis n).legs.forced }
      ∧ (if (∃ e ∈ (s.blk.axis n).trip.win.get src, e ≤ cyc) ∧ (s.blk.axis n).pwm.stopped = false
      ∧ ((s.blk.axis n).srcActive s.blk.wide).get src = true then
      (t.axis n).trip.latch = true ∧ (t.axis n).trip.win.get src = none
      ∧ ((s.blk.axis n).trip.latch = false → (t.axis n).mot.mode.enabled = false ∧ (t.axis n).mot.waiting = none
      ∧ (t.axis n).flagged AX.TRIP_EVT.CONF ∧ (t.axis n).pwm.pulses = Vector.replicate 4 .off)
      else t.axis n = s.blk.axis n) := by
  refine does_of_onBlk (f := fun b => (b.cell n fun c => c.windowEnds b.wide src cyc).rwCheck) rfl ?_
  have hl := s.blk.cell_leaves n fun c => c.windowEnds s.blk.wide src cyc
  obtain ⟨honly, hrest, howning⟩ := s.blk.checked_apart n fun c => c.windowEnds s.blk.wide src cyc
  rw [Blk.rwCheck_axis]
  refine ⟨honly, hrest, howning, ((s.blk.cellOf n).windowEnds_tripping ..).left_legs hl, ?_⟩
  split
  · next h =>
    obtain ⟨hlatch, hwin, hconf⟩ := (s.blk.cellOf n).windowEnds_closes s.blk.wide src cyc h
    rw [hl.mot, hl.pwm, hl.trip]
    refine ⟨hlatch, hwin, fun hn => ?_⟩
    have hc := hconf hn
    exact ⟨hc.fallow, hc.waiting, hl.flagged hc.conf (by decide) (by decide), hc.off.1⟩
  · next h => exact s.blk.cell_axis_of_same n ((s.blk.cellOf n).windowEnds_of_not s.blk.wide src cyc h)

/-- The module as the link has left its window; a comparator that is not yet armed stays so. -/
def Blk.linkLeaves (b : Blk) (high : Bool) : Blk :=
  { b with pw := { b.pw with link := if b.pw.link = .unarmed then .unarmed else if high then .high else .low } }

theorem linkWindowTrip_does {s : State} {high : Bool} {cyc : Nat} {seen : Bool} {P : Blk → Prop}
    (h : P ((s.blk.linkLeaves high).cells allAxes fun _ c => c.preTrip (s.blk.linkLeaves high).wide .link cyc seen).rwCheck) :
    Does (.linkWindowTrip high cyc seen) s P := by
  refine does_of_onBlk (f := fun b =>
    ((b.linkLeaves high).cells allAxes fun _ c => c.preTrip (b.linkLeaves high).wide .link cyc seen).rwCheck) ?_ h
  show execLinkWindowTrip high cyc seen s = _
  unfold execLinkWindowTrip Blk.linkLeaves
  simp only [beq_iff_eq]

theorem linkWindowTrip_trips (s : State) (high : Bool) (cyc : Nat) (seen : Bool) :
    Does (.linkWindowTrip high cyc seen) s fun t =>
      t.pw = { s.blk.pw with link := if s.blk.pw.link = .unarmed then .unarmed else if high then .high else .low }
      ∧ t.sm = s.blk.sm ∧ t.planes = s.blk.planes ∧ t.plan = s.blk.plan
      ∧ ∀ n, (t.axis n).trip.pre = true ∧ (t.axis n).flagged AX.TRIP_EVT.PRE
      ∧ (t.axis n).legs = { (s.blk.axis n).legs with forced := (t.axis n).legs.forced }
      ∧ (t.axis n).pwm.pulses = Vector.replicate 4 .off := by
  refine linkWindowTrip_does ?_
  obtain ⟨hrest, -⟩ := (s.blk.linkLeaves high).allChecked_apart fun _ c => c.preTrip (s.blk.linkLeaves high).wide .link cyc seen
  refine ⟨Blk.pw_of_rest hrest, (Blk.sm_of_rest hrest :), (Blk.rwCheck_planes _).trans (Blk.cells_planes ..), (Blk.plan_of_rest hrest :), fun n => ?_⟩
  have hl : ((s.blk.cellOf n).preTrip (s.blk.linkLeaves high).wide .link cyc seen).Leaves _ :=
    (s.blk.linkLeaves high).cells_leave (fun _ c => c.preTrip (s.blk.linkLeaves high).wide .link cyc seen) n
  rw [Blk.rwCheck_axis]
  obtain ⟨hpre, hoff, hflag⟩ := (s.blk.cellOf n).preTrip_left (s.blk.linkLeaves high).wide .link cyc seen rfl hl
  exact ⟨hpre, hflag, ((s.blk.cellOf n).preTrip_tripping ..).left_legs hl, hoff⟩

/-- A source that goes inside before its window ends leaves motion and latches, and the comparators (03 R97). -/
theorem Cell.srcInactive_early (c : Cell) (w : Wide) (src : TripSrc) (cyc : Nat) (h : ¬ c.ax.windowOver w src cyc) :
    (c.srcInactive w src cyc).ax.mot = c.ax.mot ∧ (c.srcInactive w src cyc).ax.trip.latch = c.ax.trip.latch ∧
    (c.srcInactive w src cyc).ax.trip.pre = c.ax.trip.pre ∧ (c.srcInactive w src cyc).ax.trip.live = c.ax.trip.live := by
  rw [c.srcInactive_of_not w src cyc h]
  exact ⟨rfl, rfl, rfl, rfl⟩

theorem Axis.windowOver_early {a : Axis} {w : Wide} {src : TripSrc} {cyc : Nat} (h : ∀ e ∈ a.trip.win.get src, cyc < e) :
    ¬ a.windowOver w src cyc := fun ⟨⟨e, he, hle⟩, _⟩ => Nat.not_lt.2 hle (h e he)

/-- A comparator that goes inside before its source's window ends shows it, and nothing else comes about (03 R97). -/
theorem Cell.compInside_early (c : Cell) (w : Wide) (r : Fin 4) (cyc : Nat) (h : ∀ e ∈ c.ax.trip.win.comp, cyc < e) :
    (c.compInside w r cyc).ax.mot = c.ax.mot ∧ (c.compInside w r cyc).ax.trip.latch = c.ax.trip.latch ∧
    (c.compInside w r cyc).ax.trip.pre = c.ax.trip.pre ∧ (c.ax.trip.live = true → (c.compInside w r cyc).ax.trip.cmp.get r = .inside) := by
  cases hlive : c.ax.trip.live
  · rw [c.compInside_asleep w r cyc hlive]
    exact ⟨rfl, rfl, rfl, fun hn => absurd hn Bool.false_ne_true⟩
  · rcases c.compInside_cases w r cyc hlive with ⟨hin, he⟩ | he | he
    · rw [he]
      exact ⟨rfl, rfl, rfl, fun _ => hin⟩
    · rw [he]
      exact ⟨rfl, rfl, rfl, fun _ => get_set_same ..⟩
    · obtain ⟨hmot, hlatch, hpre, hl⟩ := c.srcInactive_early w (.comp r true) cyc (Axis.windowOver_early h)
      have hk : ∀ d : Cell, d.ax.trip.live = true →
          (d.trip fun t => if t.live then { t with cmp := t.cmp.set r .inside } else t) = d.trip fun t => { t with cmp := t.cmp.set r .inside } :=
        fun d hd => congrArg (fun t : Trip => d.trip fun _ => t) (if_pos hd)
      rw [he, hk _ (hl.trans hlive)]
      exact ⟨hmot, hlatch, hpre, fun _ => get_set_same ..⟩

theorem comparatorInside_leg (s : State) (n : Fin 48) (r : Fin 4) (cyc : Nat) :
    Does (.comparatorInside (.leg n r) cyc) s fun t => s.blk.only t n ∧ t.rest = { s.blk with meas := t.meas }.rest ∧ t.owning = s.blk.owning
      ∧ ((s.blk.axis n).trip.live = false → t.axis n = s.blk.axis n)
      ∧ ((∀ e ∈ (s.blk.axis n).trip.win.comp, cyc < e) → (t.axis n).mot = (s.blk.axis n).mot ∧ (t.axis n).trip.latch = (s.blk.axis n).trip.latch
      ∧ (t.axis n).trip.pre = (s.blk.axis n).trip.pre ∧ ((s.blk.axis n).trip.live = true → (t.axis n).trip.cmp.get r = .inside)) := by
  refine does_of_onBlk (f := fun b => (b.cell n fun c => c.compInside b.wide r cyc).rwCheck) rfl ?_
  have hl := s.blk.cell_leaves n fun c => c.compInside s.blk.wide r cyc
  obtain ⟨honly, hrest, howning⟩ := s.blk.checked_apart n fun c => c.compInside s.blk.wide r cyc
  rw [Blk.rwCheck_axis]
  refine ⟨honly, hrest, howning, fun hn => ?_, fun hw => ?_⟩
  · exact s.blk.cell_axis_of_same n ((s.blk.cellOf n).compInside_asleep s.blk.wide r cyc hn)
  · rw [hl.mot, hl.trip]
    exact (s.blk.cellOf n).compInside_early s.blk.wide r cyc hw

/-- The link comparator is active unless it is inside (03 R93, R94). -/
theorem Blk.srcActive_link (b : Blk) (a : Axis) : (a.srcActive b.wide).get .link = true ↔ b.pw.link ≠ .inside := by
  have h : (a.srcActive b.wide).get .link = (b.pw.link != .inside) := rfl
  rw [h, bne_iff_ne]

theorem comparatorInside_link (s : State) (cyc : Nat) :
    Does (.comparatorInside .link cyc) s fun t => t.rest = { s.blk with pw := t.pw, meas := t.meas }.rest ∧ t.owning = s.blk.owning
      ∧ t.pw = { s.blk.pw with link := .inside }
      ∧ ∀ n, (t.axis n).trip.win.link = none
      ∧ (if (∃ e ∈ (s.blk.axis n).trip.win.link, e ≤ cyc) ∧ (s.blk.axis n).pwm.stopped = false ∧ s.blk.pw.link ≠ .inside then (t.axis n).trip.latch = true
      else (t.axis n).mot = (s.blk.axis n).mot ∧ (t.axis n).trip.latch = (s.blk.axis n).trip.latch ∧ (t.axis n).trip.pre = (s.blk.axis n).trip.pre) := by
  refine does_of_onBlk (f := fun b =>
    (({ b with pw := { b.pw with link := .inside } } : Blk).cells allAxes fun _ c => c.srcInactive b.wide .link cyc).rwCheck) rfl ?_
  obtain ⟨hrest, howning⟩ := ({ s.blk with pw := { s.blk.pw with link := .inside } } : Blk).allChecked_apart fun _ c => c.srcInactive s.blk.wide .link cyc
  have hpw := Blk.pw_of_rest hrest
  refine ⟨?_, howning, hpw, fun n => ?_⟩
  · exact Blk.rest_of_pw hrest
  have hl := ({ s.blk with pw := { s.blk.pw with link := .inside } } : Blk).cells_leave (fun _ c => c.srcInactive s.blk.wide .link cyc) n
  have hover : (s.blk.axis n).windowOver s.blk.wide .link cyc ↔
      (∃ e ∈ (s.blk.axis n).trip.win.link, e ≤ cyc) ∧ (s.blk.axis n).pwm.stopped = false ∧ s.blk.pw.link ≠ .inside :=
    and_congr_right fun _ => and_congr_right fun _ => s.blk.srcActive_link (s.blk.axis n)
  rw [Blk.rwCheck_axis, hl.mot, hl.trip]
  refine ⟨(s.blk.cellOf n).srcInactive_win s.blk.wide .link cyc, ?_⟩
  split
  · next h => exact (s.blk.cellOf n).srcInactive_latch s.blk.wide .link cyc (hover.2 h)
  · next h =>
    obtain ⟨hmot, hlatch, hpre, -⟩ := (s.blk.cellOf n).srcInactive_early s.blk.wide .link cyc fun ho => h (hover.1 ho)
    exact ⟨hmot, hlatch, hpre⟩

/-! ### The thermal clamp (04 R114, 05 R154) -/

/-- A cell whose current ceiling is clamped to 12 A. -/
def Cell.clamped (c : Cell) : Cell :=
  let d := c.reg fun r => { r with clamp := true, amp := min r.amp 12000 }
  if d.ax.brushless then (d.setB AX.BL_STAT.I2T_CLAMP true).raise AX.BL_EVT.I2T else (d.setB AX.ST_STAT.I2T_CLAMP true).raise AX.ST_EVT.I2T

theorem Cell.clamped_of_brushless (c : Cell) (h : c.ax.brushless = true) :
    c.clamped = ((c.reg fun r => { r with clamp := true, amp := min r.amp 12000 }).setB AX.BL_STAT.I2T_CLAMP true).raise AX.BL_EVT.I2T := if_pos h

theorem Cell.clamped_of_stepper (c : Cell) (h : ¬ c.ax.brushless = true) :
    c.clamped = ((c.reg fun r => { r with clamp := true, amp := min r.amp 12000 }).setB AX.ST_STAT.I2T_CLAMP true).raise AX.ST_EVT.I2T := if_neg h

theorem Cell.clamped_clamps (c : Cell) : c.clamped.ax.mot = c.ax.mot ∧ c.clamped.ax.legs = c.ax.legs ∧
    c.clamped.ax.reg.clamp = true ∧ c.clamped.ax.reg.amp ≤ 12000 ∧
    (if c.ax.brushless then AX.BL_EVT.I2T else AX.ST_EVT.I2T) ∈ c.clamped.flags := by
  by_cases h : c.ax.brushless = true
  · rw [c.clamped_of_brushless h, if_pos h]
    exact ⟨rfl, rfl, rfl, min_le_right c.ax.reg.amp 12000, List.mem_append_right _ (List.mem_singleton_self _)⟩
  · rw [c.clamped_of_stepper h, if_neg h]
    exact ⟨rfl, rfl, rfl, min_le_right c.ax.reg.amp 12000, List.mem_append_right _ (List.mem_singleton_self _)⟩

theorem Axis.ceiling_of_clamp {a : Axis} (h : a.reg.clamp = true) : a.ceiling ≤ 12000 := by
  unfold Axis.ceiling
  exact (if_pos h).trans_le (Nat.min_le_right _ _)

/-- A thermal accumulator at its limit clamps the cell once (04 R114, 05 R154). -/
def Cell.overheats (c : Cell) : Cell := if c.ax.reg.clamp || c.ax.motor == .none || c.ax.reg.acc.all (· < i2tLimit) then c else c.clamped

theorem Axis.cool_iff (a : Axis) : ((a.reg.clamp || a.motor == .none || a.reg.acc.all (· < i2tLimit)) = true) ↔
    (a.reg.clamp = true ∨ a.motor = Motor.none ∨ ∀ k, a.reg.acc.get k < i2tLimit) := by
  simp [or_assoc, Vector.get_eq_getElem, Fin.forall_iff]

theorem i2tClamp_clamps (s : State) (n : Fin 48) :
    Does (.i2tClamp n) s fun t => s.blk.only t n ∧ s.blk.still t ∧ (t.axis n).mot = (s.blk.axis n).mot ∧ (t.axis n).legs = (s.blk.axis n).legs ∧
      (if (s.blk.axis n).reg.clamp = true ∨ (s.blk.axis n).motor = Motor.none ∨ (∀ k, (s.blk.axis n).reg.acc.get k < i2tLimit) then t.axis n = s.blk.axis n
      else (t.axis n).reg.clamp = true ∧ (t.axis n).reg.amp ≤ 12000 ∧ (t.axis n).ceiling ≤ 12000
      ∧ (t.axis n).flagged (if (s.blk.axis n).brushless then AX.BL_EVT.I2T else AX.ST_EVT.I2T)) := by
  refine does_of_onBlk (f := fun b => b.cell n Cell.overheats) rfl ?_
  refine ⟨s.blk.cell_only n _, s.blk.cell_still n _, ?_⟩
  by_cases h : (s.blk.axis n).reg.clamp = true ∨ (s.blk.axis n).motor = Motor.none ∨ ∀ k, (s.blk.axis n).reg.acc.get k < i2tLimit
  · have hsame : (s.blk.cellOf n).overheats = s.blk.cellOf n := if_pos ((Axis.cool_iff _).2 h)
    rw [if_pos h, s.blk.cell_axis_of_same n hsame]
    exact ⟨rfl, rfl, rfl⟩
  · have he : (s.blk.cellOf n).overheats = (s.blk.cellOf n).clamped := if_neg fun hn => h ((Axis.cool_iff _).1 hn)
    have hl := s.blk.cell_leaves n Cell.overheats
    rw [he] at hl
    obtain ⟨hmot, hlegs, hclamp, hamp, hflag⟩ := (s.blk.cellOf n).clamped_clamps
    rw [← hl.reg] at hclamp hamp
    rw [if_neg h]
    refine ⟨hl.mot.trans hmot, hl.legs.trans hlegs, hclamp, hamp, Axis.ceiling_of_clamp hclamp, hl.flagged hflag ?_ ?_⟩
    · split <;> decide
    · split <;> decide

/-- Settles O43: the steps of the trip input, on one cell or on all, and the thermal clamp. -/
theorem tripsActOnCells : Obligations.TripsActOnCells := by
  unfold Obligations.TripsActOnCells
  exact ⟨preTrip_trips, tripConfirm_confirms, linkWindowTrip_trips, comparatorInside_leg, comparatorInside_link, i2tClamp_clamps⟩

end Sys2Proof.Machine
end

section
/-!
The lines of SAF (03 R95, R96, R103, R104): each clause of `Obligations.SafeTorqueOff` as a lemma of its own.
-/

namespace Sys2Proof.Machine

open Sys2Proof.Safety

/-! ### A change of the STO lines (14 R451) -/

/-- The levels are all that a change of the lines leaves, but for flags, log and events. -/
theorem Blk.stoChanged_frame (b : Blk) (x y : Bool) :
    (b.stoChanged x y).frame = ({ b with pw := { b.pw with stoA := x, stoB := y } } : Blk).frame := by
  unfold Blk.stoChanged
  split
  · next h =>
    obtain ⟨hx, hy⟩ : b.pw.stoA = x ∧ b.pw.stoB = y := by simpa using h
    subst hx hy
    rfl
  · rw [Blk.event_frame, Blk.raise_frame]

theorem Blk.stoChanged_ax (b : Blk) (x y : Bool) : (b.stoChanged x y).ax = b.ax :=
  ite_keeps Blk.ax rfl ((Blk.event_ax ..).trans (Blk.raise_ax ..))

theorem Blk.stoChanged_planes (b : Blk) (x y : Bool) : (b.stoChanged x y).planes = b.planes :=
  ite_keeps Blk.planes rfl ((Blk.event_planes ..).trans (Blk.raise_planes ..))

theorem Blk.stoChanged_pw (b : Blk) (x y : Bool) : (b.stoChanged x y).pw = { b.pw with stoA := x, stoB := y } :=
  Blk.pw_of_rest (congrArg Prod.fst (b.stoChanged_frame x y))

theorem Blk.stoChanged_sameRegs (b : Blk) (x y : Bool) : b.sameRegs (b.stoChanged x y) :=
  Blk.sameRegs_of_plainRegs (congrArg (·.2.2) (b.stoChanged_frame x y))

theorem stoRelease_powers (s : State) : Does .stoRelease s fun t =>
    t.pw = { s.blk.pw with stoA := true, stoB := true, gd := s.blk.pw.powered } ∧ t.ax = s.blk.ax ∧ t.planes = s.blk.planes ∧ s.blk.sameRegs t := by
  refine does_of_onBlk (f := fun b => { b.stoChanged true true with
    pw := { (b.stoChanged true true).pw with gd := (b.stoChanged true true).pw.powered } }) rfl ?_
  refine ⟨?_, s.blk.stoChanged_ax true true, s.blk.stoChanged_planes true true, s.blk.stoChanged_sameRegs true true⟩
  show ({ (s.blk.stoChanged true true).pw with gd := (s.blk.stoChanged true true).pw.powered } : Power) = _
  rw [Blk.stoChanged_pw]

theorem stoLineRise_rises (s : State) (a : Bool) : Does (.stoLineRise a) s fun t =>
    t.pw = { s.blk.pw with stoA := s.blk.pw.stoA || a, stoB := s.blk.pw.stoB || !a } ∧ t.ax = s.blk.ax ∧ t.planes = s.blk.planes ∧ s.blk.sameRegs t :=
  does_of_onBlk (f := fun b => b.stoChanged (b.pw.stoA || a) (b.pw.stoB || !a)) rfl
    ⟨Blk.stoChanged_pw .., Blk.stoChanged_ax .., Blk.stoChanged_planes .., s.blk.stoChanged_sameRegs _ _⟩

/-! ### Torque off (03 R103) -/

/-- A cell without gate-drive power: its legs are off, its profile is abandoned, and it is fallow; a stepper that was not loses its position. -/
theorem Cell.stoOff_stops (c : Cell) : c.Tripping c.stoOff ∧ c.stoOff.ax.mot.mode.enabled = false ∧ c.stoOff.ax.mot.waiting = none ∧
    (c.ax.stepper = true → c.ax.mot.mode.enabled = true → c.stoOff.ax.b AX.ST_STAT.POS_UNC = true) := by
  unfold Cell.stoOff
  extract_lets unc d
  have hd : c.Tripping d := (Cell.Tripping.of_gait (c := c) (d := c.reg Reg.endTest) rfl .of_eq).trans
    ((Cell.forceOff_tripping _ false).trans (.of_gait (Cell.abandon_gait _) (Cell.abandon_legsKept _)))
  have hmot : (if unc then d.setUnc else d).ax.mot = d.ax.mot := ite_keeps (fun c : Cell => c.ax.mot) d.setUnc_mot rfl
  have hmotor : d.ax.motor = c.ax.motor := Cell.motor_of_loaded (Cell.abandon_loaded ((c.reg Reg.endTest).forceOff))
  rw [hmot]
  refine ⟨hd.trans (.ite (.of_gait d.setUnc_gait d.setUnc_legsKept) (.refl d)), Cell.abandon_enabled _, Cell.abandon_waiting _, fun hs he => ?_⟩
  rw [if_pos (show unc = true by simp [unc, hs, he])]
  exact d.setUnc_stepper (by rw [Axis.stepper, hmotor]; exact hs)

/-- The module as gate-drive power goes: the chopper's leg is off. -/
def Blk.gateOff (b : Blk) : Blk := ({ b with pw := { b.pw with gd := false } } : Blk).setB LEDG.STAT.CHOP_ON false

/-- What a low line makes of the module. -/
def Blk.torqueOff (b : Blk) : Blk := (b.gateOff.cells allAxes fun _ c => c.stoOff).rwCheck

theorem Blk.torqueOff_rest (b : Blk) : b.torqueOff.rest = { b with pw := { b.pw with gd := false }, meas := b.torqueOff.meas }.rest :=
  (b.gateOff.allChecked_apart fun _ c => c.stoOff).1

theorem Blk.torqueOff_owning (b : Blk) : b.torqueOff.owning = b.owning := (b.gateOff.allChecked_apart fun _ c => c.stoOff).2

theorem Blk.torqueOff_planes (b : Blk) : b.torqueOff.planes = b.planes := (Blk.rwCheck_planes _).trans (Blk.cells_planes ..)

theorem Blk.torqueOff_chopper (b : Blk) : b.torqueOff.bit LEDG.STAT.CHOP_ON = false := by
  unfold Blk.torqueOff
  rw [Blk.rwCheck_bit _ (by decide) (by decide), Blk.bit_of_frame (Blk.cells_frame ..) (by decide)]
  exact Blk.bit_setB_same _ _ _ (by decide) (by decide) (by decide)

theorem Blk.torqueOff_axis (b : Blk) (n : Fin 48) : (b.torqueOff.axis n).mot.mode.enabled = false ∧ (b.torqueOff.axis n).mot.waiting = none
    ∧ ((b.axis n).stepper = true → (b.axis n).mot.mode.enabled = true → (b.torqueOff.axis n).b AX.ST_STAT.POS_UNC = true)
    ∧ (b.torqueOff.axis n).legs = { (b.axis n).legs with forced := (b.torqueOff.axis n).legs.forced } := by
  have hl : ((b.cellOf n).stoOff).Leaves _ := b.gateOff.cells_leave (fun _ c => c.stoOff) n
  obtain ⟨htrip, hen, hwait, hunc⟩ := (b.cellOf n).stoOff_stops
  have ha : b.torqueOff.axis n = (b.gateOff.cells allAxes fun _ c => c.stoOff).axis n := Blk.rwCheck_axis ..
  rw [ha, hl.mot, Axis.b_of_plainRegs hl.plainRegs (by decide)]
  exact ⟨hen, hwait, hunc, htrip.left_legs hl⟩

theorem stoAssert_stops (s : State) (a b : Bool) (h : a = true ∨ b = true) : Does (.stoAssert a b) s fun t =>
    t.pw = { s.blk.pw with stoA := s.blk.pw.stoA && !a, stoB := s.blk.pw.stoB && !b, gd := false }
      ∧ (∀ n, (t.axis n).mot.mode.enabled = false ∧ (t.axis n).mot.waiting = none
      ∧ ((s.blk.axis n).stepper = true → (s.blk.axis n).mot.mode.enabled = true → (t.axis n).b AX.ST_STAT.POS_UNC = true)
      ∧ (t.axis n).legs = { (s.blk.axis n).legs with forced := (t.axis n).legs.forced })
      ∧ t.bit LEDG.STAT.CHOP_ON = false ∧ t.sm = s.blk.sm ∧ t.plan = s.blk.plan ∧ t.planes = s.blk.planes ∧ t.owning = s.blk.owning := by
  refine does_of_onBlk (f := fun d => if !a && !b then d else (d.stoChanged (d.pw.stoA && !a) (d.pw.stoB && !b)).torqueOff) rfl ?_
  rw [if_neg (by cases h <;> simp_all)]
  have hframe := s.blk.stoChanged_frame (s.blk.pw.stoA && !a) (s.blk.pw.stoB && !b)
  have hax := s.blk.stoChanged_ax (s.blk.pw.stoA && !a) (s.blk.pw.stoB && !b)
  have hpw := s.blk.stoChanged_pw (s.blk.pw.stoA && !a) (s.blk.pw.stoB && !b)
  have hplanes := s.blk.stoChanged_planes (s.blk.pw.stoA && !a) (s.blk.pw.stoB && !b)
  generalize s.blk.stoChanged (s.blk.pw.stoA && !a) (s.blk.pw.stoB && !b) = d at hframe hax hpw hplanes ⊢
  have hrest : d.rest = _ := congrArg Prod.fst hframe
  have hsm : d.sm = s.blk.sm := (Blk.sm_of_rest hrest :)
  have hplan : d.plan = s.blk.plan := (Blk.plan_of_rest hrest :)
  refine ⟨?_, fun n => ?_, d.torqueOff_chopper, ?_, ?_, d.torqueOff_planes.trans hplanes, d.torqueOff_owning.trans (congrArg (·.2.1) hframe)⟩
  · rw [(Blk.pw_of_rest d.torqueOff_rest :)]
    show ({ d.pw with gd := false } : Power) = _
    rw [hpw]
  · rw [← Blk.axis_of_ax hax n]
    exact d.torqueOff_axis n
  · exact (Blk.sm_of_rest d.torqueOff_rest :).trans hsm
  · exact (Blk.plan_of_rest d.torqueOff_rest :).trans hplan

/-! ### Lines that disagree (03 R104, 13 R440) -/

/-- The module's own control event register, and its stamps. -/
def Blk.ctrlEvents (b : Blk) : Word × Vector Nat 24 := ((b.regs[6]?).getD 0, b.stamps.get 0)

theorem Blk.rawRaise_ctrl (b : Blk) (m : Nat) : (b.rawRaise 0 m).ctrlEvents =
    (raiseWord ((b.regs[6]?).getD 0) m, raiseStamps ((b.regs[6]?).getD 0) m (b.stamps.get 0)) := by
  simp [Blk.ctrlEvents, Blk.rawRaise, modEvRegs, Vector.get_eq_getElem]

/-- A raise of another register leaves them. -/
theorem Blk.rawRaise_ctrlEvents (b : Blk) {e : Nat} (m : Nat) (h : (modEvRegs[e]?).getD 0 ≠ 6 ∧ e ≠ 0) : (b.rawRaise e m).ctrlEvents = b.ctrlEvents := by
  obtain ⟨hreg, he⟩ := h
  simp [Blk.ctrlEvents, Blk.rawRaise, Vector.get_eq_getElem, hreg, he]

theorem Blk.logEntry_ctrlEvents (b : Blk) (c k a p : Nat) (d : List Byte) : (b.logEntry c k a p d).ctrlEvents = b.ctrlEvents := by
  unfold Blk.logEntry
  split
  · rfl
  · refine ite_keeps Blk.ctrlEvents rfl ?_
    generalize (if c = 7 then 960 else 1024) = lim
    exact ite_keeps Blk.ctrlEvents rfl (b.rawRaise_ctrlEvents _ (by decide))

/-- A raise of one flag of the control register is one raise of its word, and an entry in the log (13 R440, 16 R497). -/
theorem Blk.raise_stoDisc (b : Blk) : (b.raise [ MOD.EVT.STO_DISC]).ctrlEvents = (b.rawRaise 0 (2 ^ MOD.EVT.STO_DISC.bit)).ctrlEvents := by
  have hmask : ∀ ev ∈ List.range' 1 15, flagMask [ MOD.EVT.STO_DISC] ev = 0 := by decide
  have hrange : List.range 16 = 0 :: List.range' 1 15 := by decide
  unfold Blk.raise
  rw [hrange, List.foldl_cons]
  refine (foldl_keeps_mem Blk.ctrlEvents _ _ (fun d ev hev => ?_) _).trans (Blk.logEntry_ctrlEvents ..)
  exact congrArg Blk.ctrlEvents (if_pos (hmask ev hev))

theorem evSeqOf_raiseWord (w : Word) (m : Nat) : evSeqOf (raiseWord w m) = (evSeqOf w + 1) % 256 := by
  have hlt : (w.toNat % 2 ^ 24 ||| m % 2 ^ 24) < 2 ^ 24 := Nat.or_lt_two_pow (Nat.mod_lt _ (by decide)) (Nat.mod_lt _ (by decide))
  have hs : (w.toNat / 2 ^ 24 + 1) % 256 < 256 := Nat.mod_lt _ (by decide)
  unfold evSeqOf raiseWord
  rw [BitVec.toNat_ofNat]
  omega

theorem stoDiscordance_raises (s : State) (h : s.blk.pw.stoA ≠ s.blk.pw.stoB) : Does .stoDiscordance s fun t => t.ax = s.blk.ax ∧ s.blk.still t
      ∧ evSeqOf ((t.regs[6]?).getD 0) = (evSeqOf ((s.blk.regs[6]?).getD 0) + 1) % 256
      ∧ (∀ i : Fin 24, ((t.regs[6]?).getD 0).getLsbD i.val = (((s.blk.regs[6]?).getD 0).getLsbD i.val || decide (i.val = MOD.EVT.STO_DISC.bit)))
      ∧ (∀ i : Fin 24, (t.stamps.get 0).get i = if i.val = MOD.EVT.STO_DISC.bit then (evSeqOf ((s.blk.regs[6]?).getD 0) + 1) % 256
      else (s.blk.stamps.get 0).get i) := by
  refine does_of_onBlk (f := fun b => b.raiseIf (b.pw.stoA != b.pw.stoB) MOD.EVT.STO_DISC) rfl ?_
  have hif : s.blk.raiseIf (s.blk.pw.stoA != s.blk.pw.stoB) MOD.EVT.STO_DISC = s.blk.raise [ MOD.EVT.STO_DISC] := if_pos (bne_iff_ne.2 h)
  have hce := s.blk.raise_stoDisc.trans (s.blk.rawRaise_ctrl _)
  have hword : (((s.blk.raise [ MOD.EVT.STO_DISC]).regs[6]?).getD 0) = _ := congrArg Prod.fst hce
  have hstamps : (s.blk.raise [ MOD.EVT.STO_DISC]).stamps.get 0 = _ := congrArg Prod.snd hce
  rw [hif, hword, hstamps]
  refine ⟨Blk.raise_ax .., Blk.still_of_frame (Blk.raise_frame ..), evSeqOf_raiseWord .., fun i => ?_, fun i => ?_⟩
  · rw [getLsbD_raiseWord _ _ i.isLt, Nat.testBit_two_pow]
    simp only [eq_comm]
  · rw [raiseStamps, Vector.get_ofFn, Nat.testBit_two_pow]
    refine if_congr ?_ rfl rfl
    rw [decide_eq_true_eq]
    exact eq_comm

/-! ### The trip input of the module (03 R95, R96, 09 R321) -/

/-- The step of a change of `TRIP_EXT` on a cell: between what the module's sources were and are. -/
def Cell.extChanges (was w : Wide) (awake high : Bool) (cyc : Nat) (seen : Bool) (c : Cell) : Cell :=
  if high then c.srcInactive was .ext cyc else if !awake then c else c.preTrip w .ext cyc seen

theorem Cell.extChanges_tripping (was w : Wide) (awake high : Bool) (cyc : Nat) (seen : Bool) (c : Cell) :
    c.Tripping (c.extChanges was w awake high cyc seen) :=
  .ite (c.srcInactive_tripping was .ext cyc) (.ite (.refl c) (c.preTrip_tripping w .ext cyc seen))

/-- In nap, and on a cell that it is not enabled for, a low `TRIP_EXT` is not seen (03 R95, 09 R321). -/
theorem Cell.extChanges_unseen (was w : Wide) (cyc : Nat) (seen : Bool) (nap : NapSt) (c : Cell)
    (h : nap ≠ .awake ∨ c.ax.inForce AX.TRIP_CFG.EXT_EN = 0) : c.extChanges was w (nap == .awake) false cyc seen = c := by
  have hlow : c.extChanges was w (nap == .awake) false cyc seen = if !(nap == .awake) then c else c.preTrip w .ext cyc seen := rfl
  rw [hlow]
  split
  · rfl
  · next hn =>
    exact c.preTrip_of_disabled w .ext cyc seen (bne_eq_false_iff_eq.2 (h.resolve_left (by simpa using hn)))

/-- The module as `TRIP_EXT` has changed. -/
def Blk.extChanged (b : Blk) (high : Bool) : Blk := ({ b with pw := { b.pw with ext := high } } : Blk).raise [ MOD.EVT.EXT_CHG]

theorem tripExtChange_does {s : State} {high : Bool} {cyc : Nat} {seen : Bool} (hne : s.blk.pw.ext ≠ high) {P : Blk → Prop}
    (h : P ((s.blk.extChanged high).cells allAxes fun _ => Cell.extChanges s.blk.wide (s.blk.extChanged high).wide (s.blk.nap == .awake) high cyc seen).rwCheck) :
    Does (.tripExtChange high cyc seen) s P := by
  refine does_of_onBlk (f := fun b => if b.pw.ext = high then b else
    ((b.extChanged high).cells allAxes fun _ => Cell.extChanges b.wide (b.extChanged high).wide ((b.extChanged high).nap == .awake) high cyc seen).rwCheck) rfl ?_
  rw [if_neg hne]
  have hn : (s.blk.extChanged high).nap = s.blk.nap := Blk.raise_nap ..
  rw [hn]
  exact h

theorem tripExtChange_trips (s : State) (high : Bool) (cyc : Nat) (seen : Bool) (hne : s.blk.pw.ext ≠ high) :
    Does (.tripExtChange high cyc seen) s fun t => t.pw = { s.blk.pw with ext := high } ∧ t.flagged MOD.EVT.EXT_CHG
      ∧ (∀ n, (t.axis n).legs = { (s.blk.axis n).legs with forced := (t.axis n).legs.forced }
      ∧ (high = false → s.blk.nap = .awake → (s.blk.axis n).inForce AX.TRIP_CFG.EXT_EN ≠ 0 → (t.axis n).trip.pre = true)
      ∧ (high = false → s.blk.nap ≠ .awake ∨ (s.blk.axis n).inForce AX.TRIP_CFG.EXT_EN = 0 → (t.axis n).trip = (s.blk.axis n).trip ∧ (t.axis n).mot = (s.blk.axis n).mot)
      ∧ (high = true → (t.axis n).trip.win.ext = none ∧ ((∀ e ∈ (s.blk.axis n).trip.win.ext, cyc < e) →
      (t.axis n).mot = (s.blk.axis n).mot ∧ (t.axis n).trip.pre = (s.blk.axis n).trip.pre ∧ (t.axis n).trip.latch = (s.blk.axis n).trip.latch))) := by
  refine tripExtChange_does hne ?_
  have hpw : (s.blk.extChanged high).pw = { s.blk.pw with ext := high } := Blk.raise_pw ..
  have hax : (s.blk.extChanged high).ax = s.blk.ax := Blk.raise_ax ..
  have hflag : (s.blk.extChanged high).flagged MOD.EVT.EXT_CHG :=
    Blk.flagged_raise _ (List.mem_singleton_self _) (by decide) (by decide)
  generalize s.blk.extChanged high = d at hpw hax hflag ⊢
  obtain ⟨hrest, -⟩ := d.allChecked_apart fun _ => Cell.extChanges s.blk.wide d.wide (s.blk.nap == .awake) high cyc seen
  refine ⟨(Blk.pw_of_rest hrest).trans hpw, Blk.rwCheck_flagged _ (by decide) (by decide) (Blk.cells_flagged _ _ _ (by decide) hflag), fun n => ?_⟩
  have hl := d.cells_leave (fun _ => Cell.extChanges s.blk.wide d.wide (s.blk.nap == .awake) high cyc seen) n
  have ha : s.blk.axis n = (d.cellOf n).ax := (Blk.axis_of_ax hax n).symm
  have htrip := (d.cellOf n).extChanges_tripping s.blk.wide d.wide (s.blk.nap == .awake) high cyc seen
  rw [Blk.rwCheck_axis, ha]
  refine ⟨htrip.left_legs hl, fun hh hn he => ?_, fun hh hn => ?_, fun hh => ?_⟩
  · rw [hl.trip, hh, hn]
    exact ((d.cellOf n).preTrip_marks d.wide .ext cyc seen (bne_iff_ne.2 he)).1
  · subst hh
    rw [hl.trip, hl.mot, (d.cellOf n).extChanges_unseen s.blk.wide d.wide cyc seen s.blk.nap hn]
    exact ⟨rfl, rfl⟩
  · subst hh
    rw [hl.trip, hl.mot]
    refine ⟨(d.cellOf n).srcInactive_win s.blk.wide .ext cyc, fun hw => ?_⟩
    obtain ⟨hmot, hlatch, hpre, -⟩ := (d.cellOf n).srcInactive_early s.blk.wide .ext cyc (Axis.windowOver_early hw)
    exact ⟨hmot, hpre, hlatch⟩

/-- Settles O38: the STO lines take the gate-drive power and with it every move, and `TRIP_EXT` acts as the source that it is. -/
theorem safeTorqueOff : Obligations.SafeTorqueOff := by
  unfold Obligations.SafeTorqueOff
  exact ⟨stoAssert_stops, stoRelease_powers, stoLineRise_rises, stoDiscordance_raises, tripExtChange_trips⟩

end Sys2Proof.Machine
end

section
/-!
A row that writes or reads one register (11 R384): what the packet's bytes say, what the write stores in an axis page, and the answer.
-/

namespace Sys2Proof.Machine

/-! ### Bytes -/

theorem leBytes_length (n v : Nat) : (leBytes n v).length = n := by simp [leBytes]

theorem leBytes_succ (n v : Nat) : leBytes (n + 1) v = BitVec.ofNat 8 v :: leBytes n (v / 256) := by
  simp only [leBytes, List.range_succ_eq_map, List.map_cons, List.map_map]
  refine congrArg₂ _ rfl (List.map_congr_left fun i _ => ?_)
  simp only [Function.comp, Nat.shiftRight_eq_div_pow, Nat.div_div_eq_div_mul]
  rw [show 8 * (i + 1) = 8 + 8 * i by omega, Nat.pow_add]

theorem leNat_leBytes (n v : Nat) : leNat (leBytes n v) = v % 2 ^ (8 * n) := by
  induction n generalizing v with
  | zero => simp [leBytes, leNat, Nat.mod_one]
  | succ n ih =>
    have hc : leNat (leBytes (n + 1) v) = v % 256 + 256 * leNat (leBytes n (v / 256)) := by
      rw [leBytes_succ]
      simp [leNat]
    rw [hc, ih, Nat.mul_add, Nat.pow_add, Nat.mul_comm (2 ^ (8 * n)), Nat.mod_mul]

/-! ### The row's packet -/

theorem Hdr.regReq_addr (h : Hdr) (opc : Nat) {addr : Nat} (v : Option Word) (ha : addr < 2 ^ 24) : u (Hdr.regReq h opc addr v).body 0 3 = addr := by
  have ht : ((Hdr.regReq h opc addr v).body.drop 0).take 3 = leBytes 3 addr := by
    simp only [Hdr.regReq, List.drop_zero, List.append_assoc]
    exact List.take_left' (leBytes_length ..)
  rw [u, ht, leNat_leBytes]
  exact Nat.mod_eq_of_lt ha

theorem Hdr.regReq_word (h : Hdr) (opc addr : Nat) (v : Word) : u (Hdr.regReq h opc addr (some v)).body 4 4 = v.toNat := by
  have ht : ((Hdr.regReq h opc addr (some v)).body.drop 4).take 4 = leBytes 4 v.toNat := by
    have hd : (leBytes 3 addr ++ [0]).length = 4 := by simp [leBytes_length]
    simp only [Hdr.regReq, Option.elim]
    rw [List.drop_left' hd]
    exact List.take_of_length_le (leBytes_length ..).le
  rw [u, ht, leNat_leBytes]
  exact Nat.mod_eq_of_lt v.isLt

theorem Hdr.regReq_length (h : Hdr) (opc addr : Nat) (v : Option Word) : (Hdr.regReq h opc addr v).body.length = 4 + v.elim 0 fun _ => 4 := by
  cases v <;> simp [Hdr.regReq, leBytes_length]

theorem Hdr.regReq_exempt (h : Hdr) {opc : Nat} (addr : Nat) (v : Option Word) (ho : opc = 0x10 ∨ opc = 0x11) : (Hdr.regReq h opc addr v).exempt = false := by
  rcases ho with rfl | rfl <;> simp [Hdr.regReq, Req.exempt, Req.claim]

/-- A write row of an owner's next command is the write of its register, answered. -/
theorem Blk.regRow_of_fits {b : Blk} {h : Hdr} {addr : Nat} (v : Word) (hf : b.fits h 0x11 = true) (ht : h.tgt = 0xFE) (ha : addr < 2 ^ 24)
    (h4 : addr % 4 = 0) : b.regRow h addr v =
      ((b.begun (Hdr.regReq h 0x11 addr (some v))).writeReg (portPlane h.port) addr v (some (h.port, h.seq))).ok (Hdr.regReq h 0x11 addr (some v)) := by
  have hlen := Hdr.regReq_length h 0x11 addr (some v)
  have hbody : b.regRow h addr v = runRegWr (b.begun (Hdr.regReq h 0x11 addr (some v))) (Hdr.regReq h 0x11 addr (some v)) :=
    Blk.serve_of_fits runRegWr hf (hlen.le.trans (show 8 ≤ 1016 by decide)) (by decide) (Hdr.regReq_exempt h addr (some v) (.inr rfl))
  rw [hbody]
  have hm : ∀ k : Blk → Blk, (b.begun (Hdr.regReq h 0x11 addr (some v))).forModule (Hdr.regReq h 0x11 addr (some v)) 8 k =
      k (b.begun (Hdr.regReq h 0x11 addr (some v))) := fun k => if_neg (by rw [hlen]; simp [Hdr.regReq, ht])
  unfold runRegWr
  rw [hm]
  simp only [Hdr.regReq_addr h 0x11 (some v) ha, Hdr.regReq_word h, h4, BitVec.ofNat_toNat, BitVec.setWidth_eq]
  rfl

/-- A read row is the read of its register, answered with its word. -/
theorem Blk.readRow_of_fits {b : Blk} {h : Hdr} {addr : Nat} (hf : b.fits h 0x10 = true) (ht : h.tgt = 0xFE) (ha : addr < 2 ^ 24)
    (h4 : addr % 4 = 0) : b.readRow h addr = ((b.begun (Hdr.regReq h 0x10 addr none)).afterRead (locate addr)).ok (Hdr.regReq h 0x10 addr none)
      (leBytes 4 ((b.begun (Hdr.regReq h 0x10 addr none)).show (portPlane h.port) own1 (locate addr)).toNat) := by
  have hlen := Hdr.regReq_length h 0x10 addr none
  have hbody : b.readRow h addr = runRegRd (b.begun (Hdr.regReq h 0x10 addr none)) (Hdr.regReq h 0x10 addr none) :=
    Blk.serve_of_fits runRegRd hf (hlen.le.trans (show 4 ≤ 1016 by decide)) (by decide) (Hdr.regReq_exempt h addr none (.inl rfl))
  rw [hbody]
  have hm : ∀ k : Blk → Blk, (b.begun (Hdr.regReq h 0x10 addr none)).forModule (Hdr.regReq h 0x10 addr none) 4 k =
      k (b.begun (Hdr.regReq h 0x10 addr none)) := fun k => if_neg (by rw [hlen]; simp [Hdr.regReq, ht])
  unfold runRegRd
  rw [hm]
  simp only [Hdr.regReq_addr h 0x10 none ha, h4]
  rfl

/-! ### Taking and answering leave the module -/

theorem Blk.heard_owning (b : Blk) (src sid : Byte) (p : Fin 6) (t : Nat) : (b.heard src sid p t).owning = b.owning := by
  unfold Blk.heard
  split
  · rfl
  · next s hs =>
    refine ite_keeps Blk.owning rfl ?_
    simp [Blk.owning, hs]

theorem Blk.begun_frame (b : Blk) (q : Req) : (b.begun q).frame = b.frame := by
  have hh : ∀ d : Blk, (d.heard q.h.src q.h.sid q.h.port q.h.endUs).frame = d.frame := fun d => by
    have hrest : (d.heard q.h.src q.h.sid q.h.port q.h.endUs).rest = d.rest := by
      unfold Blk.heard
      split
      · rfl
      · exact ite_keeps Blk.rest rfl rfl
    have hregs : (d.heard q.h.src q.h.sid q.h.port q.h.endUs).plainRegs = d.plainRegs := by
      funext i
      simp [Blk.plainRegs]
    rw [Blk.frame, hrest, hregs, Blk.heard_owning]
    rfl
  exact (hh (b.served q.h)).trans rfl

theorem Blk.answer_frame (b : Blk) (q : Req) (st : Nat) (x : List Byte) : (b.answer q st x).frame = b.frame := by
  unfold Blk.answer
  extract_lets o p l
  have hl : l.frame = b.frame := ite_keeps Blk.frame rfl (Blk.logEntry_frame ..)
  have hp : ∀ pl : Vector PlaneSt 3, ({ l with planes := pl } : Blk).frame = b.frame := fun _ => hl
  clear_value l
  split
  · exact (foldl_keeps Blk.frame _ (fun b v => b.sendVia_frame v o) _ _).trans (hp _)
  · exact (Blk.sendVia_frame ..).trans (ite_keeps Blk.frame (hp _) hl)

/-- An answer that is no refusal leaves the registers. -/
theorem Blk.ok_regs (b : Blk) (q : Req) (x : List Byte) : (b.ok q x).regs = b.regs := by
  unfold Blk.ok Blk.answer
  extract_lets o p l
  have hl : l = b := if_pos (by decide)
  rw [hl]
  split
  · exact (foldl_keeps Blk.regs _ (fun b v => b.sendVia_regs v o) _ _).trans rfl
  · exact (Blk.sendVia_regs ..).trans (ite_keeps Blk.regs rfl rfl)

/-- A command that its plane has taken, and that has left the plane's commands alone, is answered. -/
theorem Blk.ok_answers {b d : Blk} {q : Req} (x : List Byte) (hv : q.via = .port q.h.port) (hx : q.exempt = false)
    (hacc : (d.planes.get q.plane.idx).acc = ((b.begun q).planes.get q.plane.idx).acc) : (d.ok q x).answers q.h q.opc 0 x := by
  obtain ⟨keep, hk⟩ := b.begun_plane q
  exact Blk.answers_of_front hv rfl hx (hacc.trans (congrArg PlaneSt.acc hk))

/-! ### A register of an axis page -/

theorem locate_axAddr (n : Fin 48) {off i : Nat} (ho : off < 65536) (hi : axDefs.findIdx? (·.addr = off) = some i) :
    locate (axAddr n off) = .axis n i := by
  have hpage : axAddr n off / 65536 = 0x10 + n.val := by unfold axAddr; omega
  have hoff : axAddr n off % 65536 = off := by unfold axAddr; omega
  have hge : 0x100000 ≤ axAddr n off := by unfold axAddr; omega
  unfold locate
  simp only [hpage, hoff]
  rw [if_neg (by omega), if_neg (by omega), if_neg (by omega), if_neg (by omega), if_neg (by omega), if_neg (by omega), if_neg (by omega),
    if_neg (by simp; omega), dif_pos ⟨by omega, by omega⟩, hi]
  simp

/-- The plane's lock after a write (13 R436). -/
def Blk.disarmed (b : Blk) (pl : Plane) : Blk := { b with planes := b.planes.set pl.idx { b.planes.get pl.idx with armed := false } }

theorem Blk.disarmed_acc (b : Blk) (pl : Plane) : ((b.disarmed pl).planes.get pl.idx).acc = (b.planes.get pl.idx).acc := by
  rw [Blk.disarmed, get_set_same]

/-- A register of an axis page that the control plane writes, without bits that a write must leave as they read. -/
structure Written (i : Nat) (d : RegDef) : Prop where
  defined : axDefs[i]? = some d
  found : axDefs.findIdx? (·.addr = d.addr) = some i
  inPage : d.addr < 65536
  aligned : d.addr % 4 = 0
  writer : d.writer = .ctrl
  plain : axEvRegs.findIdx? (· = i) = none
  bare : d.ro = 0 ∧ d.rk = 0
  gains : i ≠ AX.CUR_GAIN.KP.reg ∧ i ≠ AX.BL_GAIN.KP.reg
  drawn : i ≠ AX.PWM_STAT.CNT.reg
  shared : ∀ a : Axis, a.foreign i = false

/-- The axis with the word of a write stored. -/
def Axis.holding (a : Axis) (i : Nat) (d : RegDef) (v : Word) (bench : Bool) : Axis :=
  { a with regs := a.regs.setIfInBounds i (mergeWord d ((a.regs[i]?).getD 0) (clampWord axClamps i v) false bench).1 }

/-- The axis as a write has stored its word, and acted on it. -/
def Axis.stores (a : Axis) (i : Nat) (d : RegDef) (v : Word) (bench : Bool) : Axis := (a.holding i d v bench).wrote i v

theorem Blk.writeReg_axis (b : Blk) (n : Fin 48) {i : Nat} {d : RegDef} (hw : Written i d) (v : Word) (rep : Option (Fin 6 × BitVec 16)) :
    ∃ rsv, b.writeReg .ctrl (axAddr n d.addr) v rep =
      ((b.disarmed .ctrl).mapAx n fun a => a.stores i d v b.pw.straps.bench).raiseIf rsv MOD.EVT.RSV_WR := by
  obtain ⟨hd, hfound, hpage, -, hwriter, hev, ⟨hro, hrk⟩, ⟨hk1, hk2⟩, hdraw, hforeign⟩ := hw
  have hax : b.writeReg .ctrl (axAddr n d.addr) v rep = (b.disarmed .ctrl).writeAx .ctrl n i d v := by
    unfold Blk.writeReg
    rw [locate_axAddr n hpage hfound]
    simp only [hd, hwriter, hforeign]
    rfl
  have hlock : ∀ a : Axis, a.locked i = false := fun a => by simp [Axis.locked, hk1, hk2]
  have hign : ∀ cur : Word, (mergeWord d cur v false b.pw.straps.bench).2.1 = false := fun cur => by simp [mergeWord, hro, hrk]
  refine ⟨(mergeWord d ((((b.disarmed .ctrl).axis n).regs[i]?).getD 0) (clampWord axClamps i v) false b.pw.straps.bench).2.2, ?_⟩
  rw [hax]
  unfold Blk.writeAx
  have hb : (b.disarmed .ctrl).pw.straps.bench = b.pw.straps.bench := rfl
  simp only [hev, hlock, hb, hign, hdraw]
  rfl

end Sys2Proof.Machine
end

section
/-!
Requests to an axis through its registers (03 R98, R101, 08 R267 to R271, 13 R430): each clause of `Obligations.AxisRequestRows` as a lemma of its own.
-/

namespace Sys2Proof.Machine

open Sys2Proof.Safety

theorem Blk.mapAx_frame (b : Blk) (n : Fin 48) (f : Axis → Axis) : (b.mapAx n f).frame = b.frame := rfl

theorem Blk.disarmed_frame (b : Blk) (pl : Plane) : (b.disarmed pl).frame = b.frame := rfl

/-- A register outside the pages of the motor types is every axis's. -/
theorem Axis.foreign_eq_false (a : Axis) {i off : Nat} (h : (axDefs[i]?).elim 0 (·.addr) = off)
    (ho : ((0x400 ≤ off && off ≤ 0x44C) || (0x914 ≤ off && off ≤ 0x918)) = false ∧ ((0x500 ≤ off && off < 0x600) || (0x91C ≤ off && off ≤ 0x924)) = false) :
    a.foreign i = false := by
  simp only [Axis.foreign, h, ho.1, ho.2, Bool.and_false, Bool.or_false]

/-- Nothing is masked from a word without bits that are only written. -/
theorem and_not_zero (w : Word) : w &&& ~~~ (BitVec.ofNat 32 0) = w := by
  rw [BitVec.not_zero, BitVec.and_allOnes]

/-- A write row of an axis register stores its word, changes nothing else, and is answered. -/
theorem Blk.regRow_axis {b : Blk} {h : Hdr} (n : Fin 48) {i : Nat} {d : RegDef} (v : Word) (hw : Written i d) (hf : b.fits h 0x11 = true)
    (hp : portPlane h.port = .ctrl) (ht : h.tgt = 0xFE) :
    (b.regRow h (axAddr n d.addr) v).answers h 0x11 0 [] ∧
    (b.regRow h (axAddr n d.addr) v).axis n = (b.axis n).stores i d v b.pw.straps.bench ∧
    b.only (b.regRow h (axAddr n d.addr) v) n ∧ b.still (b.regRow h (axAddr n d.addr) v) := by
  have haddr : axAddr n d.addr < 2 ^ 24 := by
    have := hw.inPage
    unfold axAddr
    omega
  have h4 : axAddr n d.addr % 4 = 0 := by
    have := hw.aligned
    unfold axAddr
    omega
  obtain ⟨rsv, hr⟩ := (b.begun (Hdr.regReq h 0x11 (axAddr n d.addr) (some v))).writeReg_axis n hw v (some (h.port, h.seq))
  rw [Blk.regRow_of_fits v hf ht haddr h4, hp, hr]
  generalize hq : Hdr.regReq h 0x11 (axAddr n d.addr) (some v) = q
  have hplane : q.plane = .ctrl := hq ▸ hp
  refine ⟨?_, ?_, fun m hm => ?_, Blk.still_of_frame ?_⟩
  · subst hq
    refine Blk.ok_answers (b := b) [] rfl (Hdr.regReq_exempt h _ _ (.inr rfl)) ?_
    rw [Blk.raiseIf_planes, Blk.mapAx_planes, hplane, Blk.disarmed_acc]
  · rw [Blk.ok_axis, Blk.raiseIf_axis, Blk.axis_mapAx]
    rw [show ((b.begun q).disarmed .ctrl).axis n = b.axis n from b.begun_axis q n, Blk.begun_pw]
  · rw [Blk.ok_axis, Blk.raiseIf_axis, Blk.axis_mapAx_ne _ _ hm]
    exact b.begun_axis q m
  · exact (Blk.answer_frame ..).trans ((Blk.raiseIf_frame ..).trans ((Blk.mapAx_frame ..).trans ((Blk.disarmed_frame ..).trans (b.begun_frame q))))

/-! ### A trip clear (03 R98, R101) -/

theorem written_tripClr : Written AX.TRIP_CLR.CLR.reg { addr := 0x31C, reset := 0, wo := 1 } where
  defined := rfl
  found := rfl
  inPage := by decide
  aligned := by decide
  writer := rfl
  plain := by decide
  bare := ⟨rfl, rfl⟩
  gains := by decide
  drawn := by decide
  shared a := a.foreign_eq_false (off := 0x31C) rfl (by decide)

/-- A set `CLR` requests a clear where a trip is latched, and does no more. -/
theorem Axis.stores_tripClr (a : Axis) (d : RegDef) {v : Word} (bench : Bool) (hv : v.getLsbD 0 = true) :
    a.stores AX.TRIP_CLR.CLR.reg d v bench = { (a.holding AX.TRIP_CLR.CLR.reg d v bench).setB AX.AX_SUPV.HELD false with
      trip := { a.trip with clearReq := a.trip.clearReq || a.trip.latch } } := by
  have hif : a.stores AX.TRIP_CLR.CLR.reg d v bench = if v.getLsbD 0 && a.trip.latch then
      { (a.holding AX.TRIP_CLR.CLR.reg d v bench).setB AX.AX_SUPV.HELD false with trip := { a.trip with clearReq := true } }
      else (a.holding AX.TRIP_CLR.CLR.reg d v bench).setB AX.AX_SUPV.HELD false := rfl
  rw [hif, hv, Bool.true_and]
  split
  · next hl => rw [hl, Bool.or_true]
  · next hl =>
    rw [Bool.eq_false_iff.2 hl, Bool.or_false]
    rfl

theorem tripClr_requests (h : Hdr) (n : Fin 48) (s : State) (hf : s.blk.fits h 0x11 = true) (hp : portPlane h.port = .ctrl) (ht : h.tgt = 0xFE) :
    Does (.tripClr h n) s fun t => t.answers h 0x11 0 [] ∧ (t.axis n).trip =
      { (s.blk.axis n).trip with clearReq := (s.blk.axis n).trip.clearReq || (s.blk.axis n).trip.latch }
      ∧ (t.axis n).mot = (s.blk.axis n).mot ∧ (t.axis n).legs = (s.blk.axis n).legs ∧ s.blk.only t n ∧ s.blk.still t := by
  refine does_of_onBlk (f := fun b => b.regRow h (axAddr n 0x31C) (fields [(AX.TRIP_CLR.CLR, 1)])) rfl ?_
  obtain ⟨hans, hax, honly, hstill⟩ := Blk.regRow_axis n (fields [(AX.TRIP_CLR.CLR, 1)]) written_tripClr hf hp ht
  rw [Axis.stores_tripClr _ _ _ (by decide)] at hax
  exact ⟨hans, (congrArg Axis.trip hax :), (congrArg Axis.mot hax :), (congrArg Axis.legs hax :), honly, hstill⟩

/-! ### A single-sample request (08 R267, R268) -/

theorem written_slcCfg : Written AX.SLC_CFG.REQ.reg { addr := 0x48C, reset := 0, rw := 1, wo := 6 } where
  defined := rfl
  found := rfl
  inPage := by decide
  aligned := by decide
  writer := rfl
  plain := by decide
  bare := ⟨rfl, rfl⟩
  gains := by decide
  drawn := by decide
  shared a := a.foreign_eq_false (off := 0x48C) rfl (by decide)

/-- The written word of a request. -/
def singleWord (req : BitVec 2) (dsrc : Bool) : Word := fields [(AX.SLC_CFG.REQ, req.toNat), (AX.SLC_CFG.DSRC, Bool.bit dsrc)]

theorem singleWord_fields : ∀ (req : BitVec 2) (dsrc : Bool), ((singleWord req dsrc).toNat >>> 1) % 4 = req.toNat ∧
    (singleWord req dsrc).getLsbD 0 = dsrc := by decide

/-- The request of one slice. -/
def Axis.asks (a : Axis) (req : Nat) (s : Fin 2) : Axis :=
  if req.testBit s.val then { a with slc := a.slc.set s { a.slc.get s with single := some (a.pwm.start.getD 0) } } else a

theorem Axis.singleReq_eq (a : Axis) (req : Nat) : a.singleReq req = (a.asks req 0).asks req 1 := rfl

theorem Axis.asks_keeps (a : Axis) (req : Nat) (s : Fin 2) {α : Type} (g : Axis → α) (h : ∀ x, g { a with slc := x } = g a) :
    g (a.asks req s) = g a := ite_keeps g (h _) rfl

theorem Axis.asks_ne (a : Axis) (req : Nat) {s k : Fin 2} (h : k ≠ s) : (a.asks req s).slc.get k = a.slc.get k :=
  ite_keeps (fun a : Axis => a.slc.get k) (get_set_other _ _ h) rfl

theorem Axis.asks_single (a : Axis) (req : Nat) (s : Fin 2) :
    ((a.asks req s).slc.get s).single = if req.testBit s.val then some (a.pwm.start.getD 0) else (a.slc.get s).single := by
  unfold Axis.asks
  split
  · rw [get_set_same]
  · rfl

/-- A request waits at each slice that it names (08 R268). -/
theorem Axis.singleReq_single (a : Axis) (req : Nat) (k : Fin 2) :
    ((a.singleReq req).slc.get k).single = if req.testBit k.val then some (a.pwm.start.getD 0) else (a.slc.get k).single := by
  have hstart : (a.asks req 0).pwm = a.pwm := a.asks_keeps req 0 (fun a => a.pwm) fun _ => rfl
  rw [Axis.singleReq_eq]
  by_cases hk : k = 1
  · subst hk
    rw [Axis.asks_single, hstart, a.asks_ne req (by decide)]
  · obtain rfl : k = 0 := by omega
    rw [Axis.asks_ne _ req (by decide), Axis.asks_single]

theorem Axis.singleReq_keeps (a : Axis) (req : Nat) {α : Type} (g : Axis → α) (h : ∀ (a : Axis) x, g { a with slc := x } = g a) :
    g (a.singleReq req) = g a := by
  rw [Axis.singleReq_eq, Axis.asks_keeps _ req 1 g (h _), Axis.asks_keeps _ req 0 g (h _)]

/-- A slice with a request is awake (08 R263). -/
theorem Axis.awake_of_single (a : Axis) (k : Fin 2) (free : Nat) (h : (a.slc.get k).single.isSome = true) : a.awake k free = true := by
  unfold Axis.awake
  simp [h]

/-- The bit of `DSRC` is stored as written, on a bench or not. -/
theorem mergeWord_dsrc (cur v : Word) (bench : Bool) :
    (mergeWord { addr := 0x48C, reset := 0, rw := 1, wo := 6 } cur v false bench).1.getLsbD 0 = v.getLsbD 0 := by
  cases bench <;> simp [mergeWord, RegDef.rsv]

theorem Axis.stores_slcCfg (a : Axis) (d : RegDef) (v : Word) (bench : Bool) : a.stores AX.SLC_CFG.REQ.reg d v bench =
    ((a.holding AX.SLC_CFG.REQ.reg d v bench).setB AX.AX_SUPV.HELD false).singleReq ((v.toNat >>> 1) % 4) := rfl

/-- A stored word is read back field by field. -/
theorem Axis.holding_word (a : Axis) {i : Nat} (hi : i < 131) (d : RegDef) (v : Word) (bench : Bool) :
    ((a.holding i d v bench).regs[i]?).getD 0 = (mergeWord d ((a.regs[i]?).getD 0) (clampWord axClamps i v) false bench).1 := by
  simp [Axis.holding, hi]

theorem clampWord_slcCfg (v : Word) : clampWord axClamps AX.SLC_CFG.REQ.reg v = v := rfl

theorem Axis.stores_dsrc (a : Axis) (v : Word) (bench : Bool) :
    (a.stores AX.SLC_CFG.REQ.reg { addr := 0x48C, reset := 0, rw := 1, wo := 6 } v bench).r AX.SLC_CFG.DSRC = Bool.bit (v.getLsbD 0) := by
  rw [Axis.stores_slcCfg, Axis.singleReq_keeps _ _ (fun a => a.r AX.SLC_CFG.DSRC) fun _ _ => rfl, Axis.r_setB_apart _ _ (by decide)]
  refine Nat.eq_of_testBit_eq fun i => ?_
  rw [Axis.r, Fld.testBit_get]
  have hword := a.holding_word (i := AX.SLC_CFG.REQ.reg) (by decide) { addr := 0x48C, reset := 0, rw := 1, wo := 6 } v bench
  rw [clampWord_slcCfg] at hword
  rw [show AX.SLC_CFG.DSRC.reg = AX.SLC_CFG.REQ.reg from rfl, hword]
  by_cases hi : i = 0
  · subst hi
    rw [show AX.SLC_CFG.DSRC.lo + 0 = 0 from rfl, mergeWord_dsrc]
    cases v.getLsbD 0 <;> rfl
  · have hw : ¬ i < AX.SLC_CFG.DSRC.w := by
      show ¬ i < 1
      omega
    rw [decide_eq_false hw, Bool.false_and]
    cases v.getLsbD 0
    · exact (Nat.zero_testBit i).symm
    · exact (Nat.testBit_lt_two_pow (Nat.one_lt_two_pow hi)).symm

theorem slcSingleReq_waits (h : Hdr) (n : Fin 48) (req : BitVec 2) (dsrc : Bool) (s : State) (hf : s.blk.fits h 0x11 = true)
    (hp : portPlane h.port = .ctrl) (ht : h.tgt = 0xFE) :
    Does (.slcSingleReq h n req dsrc) s fun t => t.answers h 0x11 0 [] ∧ (t.axis n).r AX.SLC_CFG.DSRC = Bool.bit dsrc
      ∧ (∀ k : Fin 2, ((t.axis n).slc.get k).single = (if req.getLsbD k.val = true then some ((s.blk.axis n).pwm.start.getD 0) else ((s.blk.axis n).slc.get k).single))
      ∧ (∀ k : Fin 2, req.getLsbD k.val = true → ∀ free : Nat, (t.axis n).awake k free = true)
      ∧ (t.axis n).mot = (s.blk.axis n).mot ∧ (t.axis n).trip = (s.blk.axis n).trip ∧ s.blk.only t n ∧ s.blk.still t := by
  refine does_of_onBlk (f := fun b => b.regRow h (axAddr n 0x48C) (singleWord req dsrc)) rfl ?_
  obtain ⟨hans, hax, honly, hstill⟩ := Blk.regRow_axis n (singleWord req dsrc) written_slcCfg hf hp ht
  obtain ⟨hreq, hdsrc⟩ := singleWord_fields req dsrc
  have hcfg := (s.blk.axis n).stores_dsrc (singleWord req dsrc) s.blk.pw.straps.bench
  rw [hdsrc, ← hax] at hcfg
  rw [Axis.stores_slcCfg, hreq] at hax
  generalize s.blk.regRow h (axAddr n 0x48C) (singleWord req dsrc) = t at *
  have hsingle : ∀ k, ((t.axis n).slc.get k).single =
      if req.getLsbD k.val = true then some ((s.blk.axis n).pwm.start.getD 0) else ((s.blk.axis n).slc.get k).single := fun k => by
    rw [hax]
    exact Axis.singleReq_single _ req.toNat k
  refine ⟨hans, hcfg, hsingle, fun k hk free => ?_, ?_, ?_, honly, hstill⟩
  · refine Axis.awake_of_single _ k free ?_
    rw [hsingle k, if_pos hk]
    rfl
  · exact (congrArg Axis.mot hax).trans (Axis.singleReq_keeps _ _ Axis.mot fun _ _ => rfl)
  · exact (congrArg Axis.trip hax).trans (Axis.singleReq_keeps _ _ Axis.trip fun _ _ => rfl)

/-! ### A single sample (08 R268, R271, R283) -/

/-- The first instant lies 200 ns after the request at the earliest (08 R268). -/
theorem Axis.le_singleAt (a : Axis) (k : Fin 2) (req : Nat) : req + 640 ≤ a.singleAt k req := by
  have hfold : ∀ {β : Type} (f : Nat → β → Nat) (_ : ∀ t y, t ≤ f t y) (l : List β) (t : Nat), t ≤ l.foldl f t := fun f hf l t =>
    List.foldlRecOn l f (motive := fun u => t ≤ u) le_rfl fun u hu y _ => hu.trans (hf u y)
  unfold Axis.singleAt
  extract_lets x rs pass
  have hpass : ∀ t, t ≤ pass t := fun t => by
    refine hfold _ (fun t y => ?_) rs t
    split
    · next h =>
      simp only [Bool.and_eq_true, decide_eq_true_eq] at h
      omega
    · exact le_rfl
  exact (le_max_left _ _).trans (hfold _ (fun t _ => hpass t) _ _)

/-- A conversion compares where a spare stands in: at most it marks the slice, with a flag (08 R283). -/
theorem Cell.convert_cell (c : Cell) (cal : CellCal) (k : Fin 2) (x : Conv) : (c.convert cal k x).1 = c ∨
    ((c.ax.slc.get k).stand ≠ none ∧ (c.convert cal k x).1 =
      (c.raise AX.SLC_EVT.MISMATCH).map fun a => { a with slc := a.slc.set k { a.slc.get k with mismatch := true } }) := by
  unfold Cell.convert
  extract_lets a _ own d
  have hd : d = c ∨ ((c.ax.slc.get k).stand ≠ none ∧ d =
      (c.raise AX.SLC_EVT.MISMATCH).map fun a => { a with slc := a.slc.set k { a.slc.get k with mismatch := true } }) := by
    cases h : (a.slc.get k).stand with
    | none => exact .inl (by simp only [d, h])
    | some sp =>
      simp only [d, h]
      split
      · exact .inr ⟨Option.some_ne_none _, rfl⟩
      · exact .inl rfl
  clear_value d
  generalize a.server k = o
  cases o with
  | none => exact hd
  | some sp => exact hd

/-- The code is the one of the slice, or of the spare that serves it (08 R283). -/
theorem Cell.convert_code (c : Cell) (cal : CellCal) (k : Fin 2) (x : Conv) :
    (c.convert cal k x).2.2 = (if (c.ax.server k).isSome then x.spare else x.own).toNat := by
  unfold Cell.convert
  cases h : c.ax.server k with
  | none => simp only [h]; rfl
  | some sp => simp only [h]; rfl

/-- The end of a waiting request, and the start of its conversion. -/
def Axis.begunOne (a : Axis) (k : Fin 2) (at8 : Nat) : Axis := ({ a with slc := a.slc.set k { a.slc.get k with single := none } } : Axis).oneFrom k at8

/-- The cell as a single sample has been converted. -/
def Cell.converted (cal : CellCal) (k : Fin 2) (x : SingleIn) (c : Cell) : Cell × Int × Nat := (c.map fun a => a.begunOne k x.at8).convert cal k x.conv

/-- A single sample on its cell. -/
def Cell.takesOne (cal : CellCal) (k : Fin 2) (x : SingleIn) (c : Cell) : Cell :=
  if (c.converted cal k x).1.ax.r AX.SLC_CFG.DSRC = 1 then (c.converted cal k x).1.map fun a => a.putData k (c.converted cal k x).2.1 (c.converted cal k x).2.2
  else (c.converted cal k x).1

/-- A single sample on its module. -/
def Blk.takesOne (b : Blk) (n : Fin 48) (k : Fin 2) (x : SingleIn) : Blk :=
  if (b.axis n).legs.phase == .drain || !(b.axis n).mayTakeSingle k x then b else b.cell n (Cell.takesOne (b.cellCal n) k x)

theorem singleSampleTaken_does {s : State} {n : Fin 48} {k : Fin 2} {x : SingleIn} {P : Blk → Prop} (h : P (s.blk.takesOne n k x)) :
    Does (.singleSampleTaken n k x) s P := does_of_onBlk (f := fun b => b.takesOne n k x) rfl h

/-! ### The data register (08 R271) -/

/-- A result that arrives changes registers alone. -/
theorem Axis.putData_eq (a : Axis) (k : Fin 2) (i : Int) (code : Nat) : a.putData k i code = { a with regs := (a.putData k i code).regs } := by
  unfold Axis.putData
  extract_lets f new d
  cases new
  · rfl
  · rfl

theorem data_apart : ∀ k : Fin 2, (AX.SLC_DATA0.CODE.skip k.val).apart (AX.SLC_DATA0.NEW.skip k.val) = true ∧
    (AX.SLC_DATA0.CODE.skip k.val).apart (AX.SLC_DATA0.OVR.skip k.val) = true ∧ (AX.SLC_DATA0.CODE.skip k.val).reg < 131 ∧
    (AX.SLC_DATA0.I.skip k.val).apart (AX.SLC_DATA0.NEW.skip k.val) = true ∧ (AX.SLC_DATA0.I.skip k.val).apart (AX.SLC_DATA0.OVR.skip k.val) = true ∧
    (AX.SLC_DATA0.NEW.skip k.val).apart (AX.SLC_DATA0.OVR.skip k.val) = true ∧
    (AX.SLC_DATA0.CODE.skip k.val).reg ∉ axEvRegs := by decide

theorem Axis.putData_code (a : Axis) (k : Fin 2) (i : Int) {code : Nat} (hc : code < 2 ^ 12) :
    (a.putData k i code).r (AX.SLC_DATA0.CODE.skip k.val) = code ∧ (a.putData k i code).b (AX.SLC_DATA0.NEW.skip k.val) = true := by
  obtain ⟨hnew, hovr, hreg, -⟩ := data_apart k
  unfold Axis.putData
  extract_lets f new d
  refine ⟨?_, Axis.b_setB_same _ _ _ hreg (show 31 + 1 ≤ 32 by decide) (show 0 < 1 by decide)⟩
  have hd : d.r (AX.SLC_DATA0.CODE.skip k.val) = code := (Fld.get_put_same _ _ _ hreg (show 18 + 12 ≤ 32 by decide)).trans (Nat.mod_eq_of_lt hc)
  rw [Axis.r_setB_apart _ _ hnew]
  exact ite_keeps (fun a : Axis => a.r (AX.SLC_DATA0.CODE.skip k.val)) ((Axis.r_setB_apart _ _ hovr).trans hd) hd

/-! ### The sample on its cell -/

/-- A conversion leaves all but the slices of its axis. -/
theorem Cell.converted_keeps (c : Cell) (cal : CellCal) (k : Fin 2) (x : SingleIn) {α : Type} (g : Axis → α) (h : ∀ (a : Axis) y, g { a with slc := y } = g a) :
    g (c.converted cal k x).1.ax = g c.ax := by
  have hb : g (c.map fun a => a.begunOne k x.at8).ax = g c.ax := (h _ _).trans (h _ _)
  rcases Cell.convert_cell (c.map fun a => a.begunOne k x.at8) cal k x.conv with he | ⟨-, he⟩
  · exact (congrArg (fun d : Cell => g d.ax) he).trans hb
  · exact (congrArg (fun d : Cell => g d.ax) he).trans ((h _ _).trans hb)

theorem Axis.begunOne_slice (a : Axis) (k : Fin 2) (t : Nat) : (a.begunOne k t).slc.get k = { a.slc.get k with single := none, one := t + 320 } := by
  simp only [Axis.begunOne, Axis.oneFrom, get_set_same]

theorem Cell.converted_single (c : Cell) (cal : CellCal) (k : Fin 2) (x : SingleIn) : ((c.converted cal k x).1.ax.slc.get k).single = none := by
  have hb : (((c.map fun a => a.begunOne k x.at8).ax.slc.get k)).single = none := congrArg Slice.single (c.ax.begunOne_slice k x.at8)
  rcases Cell.convert_cell (c.map fun a => a.begunOne k x.at8) cal k x.conv with he | ⟨-, he⟩
  · exact (congrArg (fun d : Cell => (d.ax.slc.get k).single) he).trans hb
  · refine (congrArg (fun d : Cell => (d.ax.slc.get k).single) he).trans ?_
    show ((((c.map fun a => a.begunOne k x.at8).ax.slc.set k _).get k)).single = none
    rw [get_set_same]
    exact hb

theorem Cell.converted_code (c : Cell) (cal : CellCal) (k : Fin 2) (x : SingleIn) :
    (c.converted cal k x).2.2 = (if (c.ax.server k).isSome then x.conv.spare else x.conv.own).toNat := by
  have hs : (c.map fun a => a.begunOne k x.at8).ax.server k = c.ax.server k :=
    (congrArg (fun y : Slice => y.stand.bind fun x => if x.2 = 2 || x.2 = 3 then some x.1 else none) (c.ax.begunOne_slice k x.at8) :)
  exact (Cell.convert_code ..).trans (by rw [hs])

/-- Without a stand-in a conversion reports nothing. -/
theorem Cell.converted_quiet (c : Cell) (cal : CellCal) (k : Fin 2) (x : SingleIn) (h : (c.ax.slc.get k).stand = none) :
    (c.converted cal k x).1 = c.map fun a => a.begunOne k x.at8 := by
  have hs : ((c.map fun a => a.begunOne k x.at8).ax.slc.get k).stand = none := (congrArg Slice.stand (c.ax.begunOne_slice k x.at8)).trans h
  exact (Cell.convert_cell (c.map fun a => a.begunOne k x.at8) cal k x.conv).resolve_right fun hn => hn.1 hs

theorem Cell.takesOne_keeps (c : Cell) (cal : CellCal) (k : Fin 2) (x : SingleIn) {α : Type} (g : Axis → α)
    (h : ∀ (a : Axis) y, g { a with slc := y } = g a) (hr : ∀ (a : Axis) y, g { a with regs := y } = g a) : g (c.takesOne cal k x).ax = g c.ax := by
  have hput : ∀ (a : Axis) i code, g (a.putData k i code) = g a := fun a i code => (congrArg g (a.putData_eq k i code)).trans (hr a _)
  unfold Cell.takesOne
  exact ite_keeps (fun c : Cell => g c.ax) ((hput _ _ _).trans (c.converted_keeps cal k x g h)) (c.converted_keeps cal k x g h)

theorem Cell.takesOne_single (c : Cell) (cal : CellCal) (k : Fin 2) (x : SingleIn) : ((c.takesOne cal k x).ax.slc.get k).single = none := by
  have hput : ∀ (a : Axis) i code, (a.putData k i code).slc = a.slc := fun a i code => (congrArg Axis.slc (a.putData_eq k i code) :)
  unfold Cell.takesOne
  refine ite_keeps (fun c : Cell => (c.ax.slc.get k).single) ?_ (c.converted_single cal k x)
  show (((c.converted cal k x).1.ax.putData k _ _).slc.get k).single = none
  rw [hput]
  exact c.converted_single cal k x

/-- With `DSRC` 1 the sample arrives in the data register (08 R267, R271). -/
theorem Cell.takesOne_data (c : Cell) (cal : CellCal) (k : Fin 2) (x : SingleIn) (h : c.ax.r AX.SLC_CFG.DSRC = 1) :
    (c.takesOne cal k x).ax.r (AX.SLC_DATA0.CODE.skip k.val) = (if (c.ax.server k).isSome then x.conv.spare else x.conv.own).toNat ∧
    (c.takesOne cal k x).ax.b (AX.SLC_DATA0.NEW.skip k.val) = true := by
  have hd : (c.converted cal k x).1.ax.r AX.SLC_CFG.DSRC = 1 := (c.converted_keeps cal k x (fun a => a.r AX.SLC_CFG.DSRC) fun _ _ => rfl).trans h
  rw [Cell.takesOne, if_pos hd, ← c.converted_code cal k x]
  refine Axis.putData_code _ k _ ?_
  rw [c.converted_code cal k x]
  exact BitVec.isLt _

/-- A step that reports nothing leaves the module's registers. -/
theorem Blk.cell_regs_of_quiet (b : Blk) (n : Fin 48) {f : Cell → Cell} (h : (f (b.cellOf n)).flags = [] ∧ (f (b.cellOf n)).modFlags = [] ∧
    (f (b.cellOf n)).events = []) : (b.cell n f).regs = b.regs := by
  obtain ⟨hf, hm, he⟩ := h
  simp only [Blk.cell, Blk.commit, hf, hm, he, Blk.raiseAx_nil, Blk.raise_nil, List.foldl_nil]

theorem Cell.takesOne_quiet (c : Cell) (cal : CellCal) (k : Fin 2) (x : SingleIn) (h : (c.ax.slc.get k).stand = none) :
    (c.takesOne cal k x).flags = c.flags ∧ (c.takesOne cal k x).modFlags = c.modFlags ∧ (c.takesOne cal k x).events = c.events := by
  have hq := c.converted_quiet cal k x h
  have hk : ∀ {α : Type} (g : Cell → α), (∀ (d : Cell) f, g (d.map f) = g d) → g (c.takesOne cal k x) = g c := fun g hg =>
    (ite_keeps g (hg _ _) rfl).trans ((congrArg g hq).trans (hg _ _))
  exact ⟨hk Cell.flags fun _ _ => rfl, hk Cell.modFlags fun _ _ => rfl, hk Cell.events fun _ _ => rfl⟩

theorem singleSampleTaken_takes (n : Fin 48) (k : Fin 2) (x : SingleIn) (r : Nat) (s : State) (hr : ((s.blk.axis n).slc.get k).single = some r)
    (hle : r ≤ x.reqAt8) (hd : (s.blk.axis n).legs.phase ≠ .drain) (hat : x.at8 = (s.blk.axis n).singleAt k x.reqAt8) :
    Does (.singleSampleTaken n k x) s fun t => ((t.axis n).slc.get k).single = none
      ∧ ((s.blk.axis n).r AX.SLC_CFG.DSRC = 1 → (t.axis n).r (AX.SLC_DATA0.CODE.skip k.val) =
      (if ((s.blk.axis n).server k).isSome then x.conv.spare else x.conv.own).toNat ∧ (t.axis n).b (AX.SLC_DATA0.NEW.skip k.val) = true)
      ∧ (t.axis n).mot = (s.blk.axis n).mot ∧ s.blk.only t n ∧ t.rest = s.blk.rest
      ∧ (((s.blk.axis n).slc.get k).stand = none → t.regs = s.blk.regs) := by
  have hif : s.blk.takesOne n k x = s.blk.cell n (Cell.takesOne (s.blk.cellCal n) k x) :=
    if_neg (by simp [hd, Axis.mayTakeSingle, hr, hle, hat])
  refine singleSampleTaken_does ?_
  rw [hif]
  obtain ⟨honly, hrest, -⟩ := s.blk.cell_apart n (Cell.takesOne (s.blk.cellCal n) k x)
  obtain ⟨-, -, -, -, -, -, hev⟩ := data_apart k
  have hl := s.blk.cell_leaves n (Cell.takesOne (s.blk.cellCal n) k x)
  refine ⟨?_, fun h1 => ?_, ?_, honly, hrest, fun h0 => ?_⟩
  · rw [Blk.cell_axis_slc]
    exact Cell.takesOne_single ..
  · rw [Axis.r_of_plainRegs hl.plainRegs hev, Axis.b_of_plainRegs (f := AX.SLC_DATA0.NEW.skip k.val) hl.plainRegs hev]
    exact (s.blk.cellOf n).takesOne_data (s.blk.cellCal n) k x h1
  · rw [hl.mot]
    exact (s.blk.cellOf n).takesOne_keeps (s.blk.cellCal n) k x Axis.mot (fun _ _ => rfl) fun _ _ => rfl
  · exact s.blk.cell_regs_of_quiet n ((s.blk.cellOf n).takesOne_quiet (s.blk.cellCal n) k x h0)

theorem singleSampleTaken_not (s : State) (n : Fin 48) (k : Fin 2) (x : SingleIn)
    (h : ((s.blk.axis n).slc.get k).single = none ∨ (s.blk.axis n).legs.phase = .drain ∨ x.at8 < x.reqAt8 + 640) :
    Does (.singleSampleTaken n k x) s fun t => t = s.blk := by
  refine singleSampleTaken_does (if_pos ?_)
  rcases h with hn | hd | ht
  · simp [Axis.mayTakeSingle, hn]
  · simp [hd]
  · have hne : x.at8 ≠ (s.blk.axis n).singleAt k x.reqAt8 := by
      have := (s.blk.axis n).le_singleAt k x.reqAt8
      omega
    simp [Axis.mayTakeSingle, hne]

/-! ### Reads of data registers (13 R430) -/

theorem locate_slcData (n : Fin 48) (k : Fin 2) : locate (axRegAddr n (AX.SLC_DATA0.I.skip k.val)) = .axis n (AX.SLC_DATA0.I.reg + k.val) :=
  match k with
  | 0 => locate_axAddr n (off := 0x490) (by decide) rfl
  | 1 => locate_axAddr n (off := 0x494) (by decide) rfl

theorem slcData_addr (n : Fin 48) (k : Fin 2) : axRegAddr n (AX.SLC_DATA0.I.skip k.val) < 2 ^ 24 ∧ axRegAddr n (AX.SLC_DATA0.I.skip k.val) % 4 = 0 := by
  have ha : axRegAddr n (AX.SLC_DATA0.I.skip k.val) = axAddr n (0x490 + 4 * k.val) := match k with
    | 0 => rfl
    | 1 => rfl
  rw [ha]
  unfold axAddr
  omega

theorem Blk.show_axis (b : Blk) (pl : Plane) (own : Nat) (n : Fin 48) (i : Nat) : b.show pl own (.axis n i) = if (b.axis n).foreign i then 0
    else (b.axis n).word (Config.freeNat b.fresh) i &&& ~~~ (BitVec.ofNat 32 ((axDefs[i]?).elim 0 (·.wo))) := rfl

theorem Blk.show_mod (b : Blk) (pl : Plane) (own i : Nat) :
    b.show pl own (.mod i) = b.modWord own i &&& ~~~ (BitVec.ofNat 32 ((modDefs[i]?).elim 0 (·.wo))) := rfl

theorem Blk.show_slcData (b : Blk) (pl : Plane) (own : Nat) (n : Fin 48) (k : Fin 2) :
    b.show pl own (.axis n (AX.SLC_DATA0.I.reg + k.val)) = ((b.axis n).regs[AX.SLC_DATA0.I.reg + k.val]?).getD 0 := by
  have hforeign : (b.axis n).foreign (AX.SLC_DATA0.I.reg + k.val) = false := match k with
    | 0 => (b.axis n).foreign_eq_false (off := 0x490) rfl (by decide)
    | 1 => (b.axis n).foreign_eq_false (off := 0x494) rfl (by decide)
  have hword : ∀ free, (b.axis n).word free (AX.SLC_DATA0.I.reg + k.val) = ((b.axis n).regs[AX.SLC_DATA0.I.reg + k.val]?).getD 0 := fun _ =>
    match k with
    | 0 => rfl
    | 1 => rfl
  have hmask : ((axDefs[AX.SLC_DATA0.I.reg + k.val]?).elim 0 (·.wo)) = 0 := match k with
    | 0 => rfl
    | 1 => rfl
  rw [Blk.show_axis, if_neg (Bool.eq_false_iff.1 hforeign), hword, hmask, and_not_zero]

theorem Blk.afterRead_slcData (b : Blk) (n : Fin 48) (k : Fin 2) :
    b.afterRead (.axis n (AX.SLC_DATA0.I.reg + k.val)) = b.mapAx n fun a => a.readData k :=
  match k with
  | 0 => rfl
  | 1 => rfl

/-- A read clears `NEW` and `OVR`, and leaves what it shows. -/
theorem Axis.readData_clears (a : Axis) (k : Fin 2) : (a.readData k).b (AX.SLC_DATA0.NEW.skip k.val) = false ∧
    (a.readData k).b (AX.SLC_DATA0.OVR.skip k.val) = false ∧
    (a.readData k).r (AX.SLC_DATA0.I.skip k.val) = a.r (AX.SLC_DATA0.I.skip k.val) ∧
    (a.readData k).r (AX.SLC_DATA0.CODE.skip k.val) = a.r (AX.SLC_DATA0.CODE.skip k.val) := by
  obtain ⟨hcn, hco, hreg, hin, hio, hno, -⟩ := data_apart k
  refine ⟨?_, Axis.b_setB_same _ _ _ hreg (show 30 + 1 ≤ 32 by decide) (show 0 < 1 by decide), ?_, ?_⟩
  · refine (Axis.b_of_r (Axis.r_setB_apart _ _ hno)).trans ?_
    exact Axis.b_setB_same _ _ _ hreg (show 31 + 1 ≤ 32 by decide) (show 0 < 1 by decide)
  · exact (Axis.r_setB_apart _ _ hio).trans (Axis.r_setB_apart _ _ hin)
  · exact (Axis.r_setB_apart _ _ hco).trans (Axis.r_setB_apart _ _ hcn)

theorem slcDataRead_reads (h : Hdr) (n : Fin 48) (k : Fin 2) (s : State) (hf : s.blk.fits h 0x10 = true) (ht : h.tgt = 0xFE) :
    Does (.slcDataRead h n k) s fun t =>
      t.answers h 0x10 0 (leBytes 4 (((s.blk.axis n).regs[AX.SLC_DATA0.I.reg + k.val]?).getD 0).toNat)
      ∧ (t.axis n).b (AX.SLC_DATA0.NEW.skip k.val) = false ∧ (t.axis n).b (AX.SLC_DATA0.OVR.skip k.val) = false
      ∧ (t.axis n).r (AX.SLC_DATA0.I.skip k.val) = (s.blk.axis n).r (AX.SLC_DATA0.I.skip k.val)
      ∧ (t.axis n).r (AX.SLC_DATA0.CODE.skip k.val) = (s.blk.axis n).r (AX.SLC_DATA0.CODE.skip k.val) ∧ s.blk.only t n ∧ s.blk.still t := by
  refine does_of_onBlk (f := fun b => b.readRow h (axRegAddr n (AX.SLC_DATA0.I.skip k.val))) rfl ?_
  obtain ⟨haddr, h4⟩ := slcData_addr n k
  rw [Blk.readRow_of_fits hf ht haddr h4, locate_slcData, Blk.show_slcData, Blk.afterRead_slcData, Blk.begun_axis]
  generalize hq : Hdr.regReq h 0x10 (axRegAddr n (AX.SLC_DATA0.I.skip k.val)) none = q
  obtain ⟨hnew, hovr, hi, hcode⟩ := (s.blk.axis n).readData_clears k
  have hax : ∀ x, (((s.blk.begun q).mapAx n fun a => a.readData k).ok q x).axis n = (s.blk.axis n).readData k := fun x => by
    rw [Blk.ok_axis, Blk.axis_mapAx, Blk.begun_axis]
  rw [hax]
  refine ⟨?_, hnew, hovr, hi, hcode, fun m hm => ?_, Blk.still_of_frame ?_⟩
  · subst hq
    exact Blk.ok_answers (b := s.blk) _ rfl (Hdr.regReq_exempt h _ _ (.inl rfl)) (by rw [Blk.mapAx_planes])
  · rw [Blk.ok_axis, Blk.axis_mapAx_ne _ _ hm, Blk.begun_axis]
  · exact (Blk.answer_frame ..).trans ((Blk.mapAx_frame ..).trans (s.blk.begun_frame q))

theorem locate_icData : ∀ i : Fin 8, locate (modAddr (MEAS.IC_DATA0.RAW.skip i.val)) = .mod (MEAS.IC_DATA0.RAW.reg + i.val) ∧
    modAddr (MEAS.IC_DATA0.RAW.skip i.val) < 2 ^ 24 ∧ modAddr (MEAS.IC_DATA0.RAW.skip i.val) % 4 = 0 ∧
    ((modDefs[MEAS.IC_DATA0.RAW.reg + i.val]?).elim 0 (·.wo)) = 0 := by decide

theorem Blk.modWord_icData (b : Blk) (own : Nat) (i : Fin 8) :
    b.modWord own (MEAS.IC_DATA0.RAW.reg + i.val) = (b.regs[MEAS.IC_DATA0.RAW.reg + i.val]?).getD 0 := by
  fin_cases i <;> rfl

theorem icDataRead_reads (h : Hdr) (i : Fin 8) (s : State) (hf : s.blk.fits h 0x10 = true) (ht : h.tgt = 0xFE) :
    Does (.icDataRead h i) s fun t =>
      t.answers h 0x10 0 (leBytes 4 ((s.blk.regs[MEAS.IC_DATA0.RAW.reg + i.val]?).getD 0).toNat)
      ∧ t.regs = s.blk.regs.setIfInBounds (MEAS.IC_DATA0.RAW.reg + i.val) (((s.blk.regs[MEAS.IC_DATA0.RAW.reg + i.val]?).getD 0) &&& 0x3FFFFFFF)
      ∧ t.ax = s.blk.ax ∧ t.rest = s.blk.rest := by
  refine does_of_onBlk (f := fun b => b.readRow h (modAddr (MEAS.IC_DATA0.RAW.skip i.val))) rfl ?_
  obtain ⟨hloc, haddr, h4, hwo⟩ := locate_icData i
  rw [Blk.readRow_of_fits hf ht haddr h4, hloc]
  generalize hq : Hdr.regReq h 0x10 (modAddr (MEAS.IC_DATA0.RAW.skip i.val)) none = q
  have hshow : (s.blk.begun q).show (portPlane h.port) own1 (.mod (MEAS.IC_DATA0.RAW.reg + i.val)) =
      (s.blk.regs[MEAS.IC_DATA0.RAW.reg + i.val]?).getD 0 := by
    rw [Blk.show_mod, hwo, and_not_zero, Blk.modWord_icData, Blk.begun_regs]
  have hread : (s.blk.begun q).afterRead (.mod (MEAS.IC_DATA0.RAW.reg + i.val)) = { s.blk.begun q with
      regs := s.blk.regs.setIfInBounds (MEAS.IC_DATA0.RAW.reg + i.val) (((s.blk.regs[MEAS.IC_DATA0.RAW.reg + i.val]?).getD 0) &&& 0x3FFFFFFF) } := by
    rw [← s.blk.begun_regs q]
    exact if_pos (by simp)
  rw [hshow, hread]
  refine ⟨?_, Blk.ok_regs .., (Blk.ok_ax ..).trans (s.blk.begun_ax q), ?_⟩
  · subst hq
    exact Blk.ok_answers (b := s.blk) _ rfl (Hdr.regReq_exempt h _ _ (.inl rfl)) rfl
  · exact (congrArg Prod.fst (Blk.answer_frame ..)).trans (congrArg Prod.fst (s.blk.begun_frame q))

/-- Settles O20: the write and read rows of an axis by what their register does, and the waiting sample by its cell. -/
theorem axisRequestRows : Obligations.AxisRequestRows := by
  unfold Obligations.AxisRequestRows
  exact ⟨tripClr_requests, slcSingleReq_waits, singleSampleTaken_takes, singleSampleTaken_not, slcDataRead_reads, icDataRead_reads⟩

end Sys2Proof.Machine
end

section
/-!
The gait of a cell at its boundary (03 R73): what every step of the boundary but the taking of values, the requested clear and the start of the period
leaves of the values in force and captured and of the counter's state.
-/

namespace Sys2Proof.Machine

theorem Cell.pace_ite {c d e : Cell} {p : Prop} [Decidable p] (hd : d.ax.pace = c.ax.pace) (he : e.ax.pace = c.ax.pace) :
    (if p then d else e).ax.pace = c.ax.pace := ite_keeps (fun c : Cell => c.ax.pace) hd he

theorem Cell.pace_foldl {α : Type} (f : Cell → α → Cell) (h : ∀ c x, (f c x).ax.pace = c.ax.pace) (l : List α) (c : Cell) :
    (l.foldl f c).ax.pace = c.ax.pace := foldl_keeps (fun c : Cell => c.ax.pace) f h l c

theorem Axis.pace_foldl {α : Type} (f : Axis → α → Axis) (h : ∀ a x, (f a x).pace = a.pace) (l : List α) (a : Axis) :
    (l.foldl f a).pace = a.pace := foldl_keeps Axis.pace f h l a

/-! ### Energy, edges and samples (07 R216, 04 R120, 02 R45, 08 R262) -/

theorem Cell.linkEnergy_pace (c : Cell) (vLink : Nat) (i : Vector Int 4) : (c.linkEnergy vLink i).ax.pace = c.ax.pace := by
  unfold Cell.linkEnergy
  extract_lets
  exact ite_keeps Axis.pace rfl rfl

theorem Cell.tickSums_pace (c : Cell) (on : Bool) (volts : Vector Rat 3) : (c.tickSums on volts).ax.pace = c.ax.pace := by
  unfold Cell.tickSums
  extract_lets
  exact Cell.pace_ite rfl rfl

theorem Cell.adaptEdge_pace (c : Cell) (e : Edge) : (c.adaptEdge e).ax.pace = c.ax.pace := by
  unfold Cell.adaptEdge
  extract_lets
  refine Cell.pace_ite rfl ?_
  split
  · rfl
  · exact Cell.pace_ite rfl (Cell.pace_ite rfl rfl)

theorem Cell.convert_pace (c : Cell) (cal : CellCal) (k : Fin 2) (x : Conv) : (c.convert cal k x).1.ax.pace = c.ax.pace := by
  rcases c.convert_cell cal k x with he | ⟨-, he⟩
  · rw [he]
  · rw [he]
    rfl

theorem Axis.putData_pace (a : Axis) (k : Fin 2) (i : Int) (code : Nat) : (a.putData k i code).pace = a.pace := by
  rw [a.putData_eq k i code]
  rfl

/-- A slice that an urgent request takes: its converter is busy, and a regulator's request shows how late it is (08 R260, R263). -/
def Cell.takenBy (c : Cell) (r : SampleReq) (t late : Nat) : Cell :=
  let d := c.map fun a => a.busyFrom r.slice t
  if r.diag then d else
    let e := d.set AX.SLC_STAT.LATE late
    if 0 < late then (e.raise AX.SLC_EVT.LATE).count AX.SLC_CNT.LATE_CNT else e

/-- The conversion of an urgent request: held for the regulator, and in the data register that `DSRC` selects (08 R267, R270, R271). -/
def Cell.receives (c : Cell) (k : CellCal) (r : SampleReq) (x : Conv) : Cell :=
  let y := c.convert k r.slice x
  let d := if r.diag then y.1 else y.1.map fun a => { a with held := a.held.set (y.1.ax.sliceRole r.slice) y.2.1 }
  if d.ax.r AX.SLC_CFG.DSRC = Bool.bit r.diag then d.map fun a => a.putData r.slice y.2.1 y.2.2 else d

theorem Cell.sample_eq (c : Cell) (k : CellCal) (r : SampleReq) (t late : Nat) (x : Option Conv) : c.sample k r t late x =
    if (c.ax.slc.get r.slice).inside t then (c.raise AX.SLC_EVT.DROP).count AX.SLC_CNT.DROP_CNT
    else x.elim (c.takenBy r t late) ((c.takenBy r t late).receives k r) := by
  cases x with
  | none => rfl
  | some x => rfl

theorem Cell.takenBy_pace (c : Cell) (r : SampleReq) (t late : Nat) : (c.takenBy r t late).ax.pace = c.ax.pace := by
  unfold Cell.takenBy
  exact Cell.pace_ite rfl (Cell.pace_ite rfl rfl)

theorem Cell.receives_pace (c : Cell) (k : CellCal) (r : SampleReq) (x : Conv) : (c.receives k r x).ax.pace = c.ax.pace := by
  unfold Cell.receives
  extract_lets y d
  have hy : y.1.ax.pace = c.ax.pace := c.convert_pace k r.slice x
  have hd : d.ax.pace = c.ax.pace := Cell.pace_ite hy hy
  exact Cell.pace_ite ((Axis.putData_pace ..).trans hd) hd

theorem Cell.sample_pace (c : Cell) (k : CellCal) (r : SampleReq) (t late : Nat) (x : Option Conv) : (c.sample k r t late x).ax.pace = c.ax.pace := by
  rw [c.sample_eq]
  refine Cell.pace_ite rfl ?_
  cases x with
  | none => exact c.takenBy_pace r t late
  | some x => exact ((c.takenBy r t late).receives_pace k r x).trans (c.takenBy_pace r t late)

theorem Cell.takeReqs_pace (c : Cell) (k : CellCal) (now fuel : Nat) (rs : List SampleReq) (x : Convs) :
    (c.takeReqs k now fuel rs x).ax.pace = c.ax.pace := by
  induction fuel generalizing c rs x with
  | zero => rfl
  | succ fuel ih =>
    unfold Cell.takeReqs
    split
    · rfl
    · next r _ =>
      exact Cell.pace_ite rfl (Cell.pace_ite ((ih ..).trans (c.sample_pace ..)) ((ih ..).trans (c.sample_pace ..)))

theorem Cell.takeSamples_pace (c : Cell) (k : CellCal) (now : Nat) (x : Convs) : (c.takeSamples k now x).ax.pace = c.ax.pace :=
  (Cell.takeReqs_pace ..).trans rfl

/-! ### The trip input at a boundary (03 R93, R96, 06 R188) -/

theorem Cell.prepare_pace (c : Cell) : c.prepare.ax.pace = c.ax.pace := by
  unfold Cell.prepare
  exact Cell.pace_ite rfl (Cell.pace_ite (Cell.pace_ite rfl rfl) (Cell.pace_ite rfl rfl))

theorem Cell.arm_pace (c : Cell) (w : Wide) (i : Vector Int 4) (cyc : Nat) : (c.arm w i cyc).ax.pace = c.ax.pace := by
  unfold Cell.arm
  refine Cell.pace_foldl _ (fun d k => ?_) _ c
  split
  exact Cell.pace_ite (d.compInside_tripping w k cyc).pace rfl

theorem Cell.takeStanding_pace (c : Cell) (w : Wide) (cyc : Nat) : (c.takeStanding w cyc).ax.pace = c.ax.pace := by
  unfold Cell.takeStanding
  exact Cell.pace_foldl _ (fun d src => Cell.pace_ite (d.preTrip_tripping w src cyc true).pace rfl) _ c

theorem Cell.toDrain_pace (c : Cell) (didt : Bool) : (c.toDrain didt).ax.pace = c.ax.pace :=
  (Axis.pace_of_gait (Cell.abandon_gait _)).trans rfl

theorem Cell.substStart_pace (c : Cell) (k : Fin 4) : (c.substStart k).ax.pace = c.ax.pace :=
  Axis.pace_of_gait (Cell.gait_ite (c := c) (c.forceOff.interruptTest_gait.trans rfl) rfl)

theorem Cell.countFaults_pace (c : Cell) (retry : Nat) (spareEn release : Bool) : (c.countFaults retry spareEn release).ax.pace = c.ax.pace := by
  unfold Cell.countFaults
  split
  case h_3 => rfl
  all_goals
    extract_lets l cnt ok d exceeded
    have hd : d.ax.pace = c.ax.pace := Cell.pace_ite rfl rfl
    clear_value d exceeded
    split
    · exact Cell.pace_ite (Cell.pace_ite hd hd) hd
    · exact Cell.pace_ite ((d.substStart_pace _).trans hd) ((d.toDrain_pace _).trans hd)
    · exact (d.toDrain_pace _).trans hd

theorem Cell.dropMasked_pace (c : Cell) : c.dropMasked.ax.pace = c.ax.pace := by
  unfold Cell.dropMasked
  extract_lets drop
  have hd : ∀ f src t, (drop f src t).clearReq = t.clearReq := fun f src t => ite_keeps Trip.clearReq rfl rfl
  exact congrArg (fun r => { c.ax.pace with clearReq := r }) ((hd _ _ _).trans (hd _ _ _))

/-! ### Regulation and pulses (03 R74 to R84, 04 R108, 05 R152) -/

theorem Axis.deriveGains_pace (a : Axis) : a.deriveGains.pace = a.pace := by
  unfold Axis.deriveGains
  split
  · rfl
  · exact ite_keeps Axis.pace (ite_keeps Axis.pace rfl rfl) (ite_keeps Axis.pace rfl rfl)

theorem Cell.stepFollow_pace (c : Cell) : c.stepFollow.ax.pace = c.ax.pace := by
  unfold Cell.stepFollow
  exact Cell.pace_ite rfl rfl

theorem Cell.estimatePeriod_pace (c : Cell) (on : Bool) (volts old : Vector Rat 3) : (c.estimatePeriod on volts old).ax.pace = c.ax.pace := by
  unfold Cell.estimatePeriod
  split
  · rfl
  · exact Cell.pace_ite rfl rfl

theorem Cell.heat_pace (c : Cell) : c.heat.ax.pace = c.ax.pace := by
  unfold Cell.heat
  extract_lets
  exact Cell.pace_ite rfl rfl

theorem Axis.standStep_pace (a : Axis) (s : Fin 2) : (a.standStep s).pace = a.pace := by
  unfold Axis.standStep
  extract_lets sl
  split
  · rfl
  · refine ite_keeps Axis.pace rfl (ite_keeps Axis.pace rfl (ite_keeps Axis.pace ?_ rfl))
    split
    · rfl
    · rfl

theorem Axis.standSteps_pace (a : Axis) : a.standSteps.pace = a.pace := by
  unfold Axis.standSteps
  extract_lets x
  have hx : x.pace = a.pace := (Axis.standStep_pace ..).trans (Axis.standStep_pace ..)
  refine ite_keeps Axis.pace rfl ?_
  split
  · exact ite_keeps Axis.pace hx hx
  · exact hx

theorem Cell.boundaryHalls_pace (c : Cell) (cyc : Nat) : (c.boundaryHalls cyc).ax.pace = c.ax.pace := by
  unfold Cell.boundaryHalls
  exact Cell.pace_ite rfl rfl

theorem Cell.gate_pace (c : Cell) (on : Bool) : (c.gate on).ax.pace = c.ax.pace := rfl

theorem Cell.setPulses_pace (c : Cell) (run on : Bool) (cmp : Vector Nat 4) (fault : BitVec 4) : (c.setPulses run on cmp fault).ax.pace = c.ax.pace := by
  unfold Cell.setPulses
  extract_lets a per thr d
  refine (Cell.gate_pace _ _).trans ((Cell.pace_foldl _ (fun e k => ?_) _ d).trans rfl)
  refine Cell.pace_ite rfl ?_
  split
  exact Cell.pace_ite rfl rfl

theorem Cell.blRegulate_pace (c : Cell) (vLink : Nat) (hold : Bool) : (c.blRegulate vLink hold).ax.pace = c.ax.pace := by
  unfold Cell.blRegulate
  split
  · rfl
  · exact Cell.pace_ite rfl rfl

theorem Cell.stepperRegulate_pace (c : Cell) (vLink : Nat) (hold : Bool) : (c.stepperRegulate vLink hold).ax.pace = c.ax.pace := by
  unfold Cell.stepperRegulate
  split
  · rfl
  · exact Cell.pace_ite rfl rfl

theorem Cell.sampling_pace (c : Cell) (cmp : Vector Nat 4) : (c.sampling cmp).ax.pace = c.ax.pace := by
  unfold Cell.sampling
  exact Cell.pace_ite rfl rfl

theorem Cell.brakePulses_pace (c : Cell) (on : Bool) (i : Vector Int 4) : (c.brakePulses on i).ax.pace = c.ax.pace := rfl

theorem Cell.unregulated_pace (c : Cell) : c.noShift.unregulated.ax.pace = c.ax.pace := rfl

theorem Cell.boundaryDrive_pace (c : Cell) (gd : Bool) (x : BoundaryIn) : (c.boundaryDrive gd x).ax.pace = c.ax.pace := by
  unfold Cell.boundaryDrive
  extract_lets a on d run e
  have he : e.ax.pace = c.ax.pace := (d.setPulses_pace ..).trans rfl
  refine Cell.pace_ite ((Cell.brakePulses_pace ..).trans rfl) (Cell.pace_ite ((Cell.setPulses_pace ..).trans rfl) (Cell.pace_ite ?_ (Cell.pace_ite ?_ ?_)))
  · exact (Cell.unregulated_pace e).trans he
  · exact (Cell.sampling_pace ..).trans ((e.blRegulate_pace ..).trans he)
  · exact (e.stepperRegulate_pace ..).trans he

end Sys2Proof.Machine
end

section
/-!
A period boundary in its cell (03 R73, R79, R80, R86, R101): what it takes into force, and what a counter does that has no boundary.
-/

namespace Sys2Proof.Machine

/-! ### Values that take effect (03 R86, 13 R425) -/

/-- A new `PER` or `STAG_EN` begins a fill period (03 R80). -/
def refills (old new : AxRegs) : Bool :=
  AX.PWM_PER.PER.get new != AX.PWM_PER.PER.get old || AX.PWM_CTRL.STAG_EN.get new != AX.PWM_CTRL.STAG_EN.get old

/-- Two register files agree on the PWM registers. -/
def samePwm (v w : AxRegs) : Prop := ∀ i : Fin 131, isPwmReg i.val = true → v.get i = w.get i

theorem Fld.get_of_samePwm {v w : AxRegs} (h : samePwm v w) {f : Fld} (hf : isPwmReg f.reg = true) : f.get v = f.get w := by
  simp only [Fld.get, getElem?_of_get (r := v) (s := w) fun hi => h ⟨f.reg, hi⟩ hf]

theorem refills_congr {old old' new new' : AxRegs} (ho : samePwm old old') (hn : samePwm new new') : refills old new = refills old' new' := by
  have hper : isPwmReg AX.PWM_PER.PER.reg = true := by decide
  have hstag : isPwmReg AX.PWM_CTRL.STAG_EN.reg = true := by decide
  rw [refills, Fld.get_of_samePwm ho hper, Fld.get_of_samePwm hn hper, Fld.get_of_samePwm ho hstag, Fld.get_of_samePwm hn hstag, refills]

/-- What the captured values make of the pace of a cell: they are in force and no longer wait, and a new `PER` or `STAG_EN` begins a fill period. -/
structure Pace.Transfers (p q : Pace) : Prop where
  capt : q.capt = none
  start : q.start = p.start
  fillHold : q.fillHold = p.fillHold
  clearReq : q.clearReq = p.clearReq
  force : samePwm q.force (p.capt.getD p.force)
  fill : q.fill = p.capt.elim p.fill (refills p.force)

theorem Cell.applyCapture_none (c : Cell) (h : c.ax.pwm.capt = none) : c.applyCapture = c := by
  unfold Cell.applyCapture
  rw [h]

/-- The registers in force, with the captured ones among them. -/
def captured (old v : AxRegs) : AxRegs := Vector.ofFn fun i : Fin 131 => if isPwmReg i.val then v.get i else old.get i

theorem captured_samePwm (old v : AxRegs) : samePwm (captured old v) v := fun i hi => by
  rw [captured, Vector.get_ofFn, if_pos hi]

/-- The axis with captured values in force. -/
def Axis.takes (a : Axis) (v : AxRegs) : Axis := { a with
  force := captured a.force v
  pwm := { a.pwm with capt := none, fill := refills a.force (captured a.force v)
                      carry := if AX.PWM_PER.PER.get (captured a.force v) != AX.PWM_PER.PER.get a.force then Vector.replicate 4 0 else a.pwm.carry } }

theorem Axis.takes_pace (a : Axis) (v : AxRegs) :
    (a.takes v).pace = { a.pace with force := captured a.pace.force v, capt := none, fill := refills a.pace.force (captured a.pace.force v) } := by
  simp only [Axis.takes, Axis.pace]

theorem Pace.taken_transfers (p : Pace) {v : AxRegs} (h : p.capt = some v) :
    p.Transfers { p with force := captured p.force v, capt := none, fill := refills p.force (captured p.force v) } := by
  have hv := captured_samePwm p.force v
  refine ⟨rfl, rfl, rfl, rfl, ?_, ?_⟩
  · simp only [h, Option.getD_some, hv]
  · simp only [h, Option.elim_some, refills_congr (fun _ _ => rfl) hv]

theorem Pace.transfers_none (p : Pace) (h : p.capt = none) : p.Transfers p :=
  ⟨h, rfl, rfl, rfl, fun i _ => by rw [h]; rfl, by rw [h]; rfl⟩

/-- The transfer to direct operation or from it leaves the pace (03 R82). -/
theorem Cell.applyCapture_some (c : Cell) {v : AxRegs} (h : c.ax.pwm.capt = some v) : c.applyCapture.ax.pace = (c.ax.takes v).pace := by
  unfold Cell.applyCapture
  split
  · next hn => exact absurd (h.symm.trans hn) nofun
  · next u hu =>
    obtain rfl : v = u := Option.some.inj (h.symm.trans hu)
    extract_lets a force p a1 perCh fill p1 a2 d want
    have hd : d.ax.pace = (c.ax.takes v).pace := rfl
    clear_value d
    rw [← hd]
    exact Cell.pace_ite (Cell.pace_ite rfl rfl) (Cell.pace_ite ((Axis.pace_of_gait (Cell.goFallow_gait _)).trans rfl) rfl)

theorem Cell.applyCapture_transfers (c : Cell) : c.ax.pace.Transfers c.applyCapture.ax.pace := by
  cases h : c.ax.pwm.capt with
  | none =>
    rw [c.applyCapture_none h]
    exact Pace.transfers_none _ h
  | some v =>
    rw [c.applyCapture_some h, Axis.takes_pace]
    exact Pace.taken_transfers _ h

theorem Axis.cellValues_samePwm (a : Axis) : samePwm a.cellValues a.force := fun i hi => by
  rw [Axis.cellValues, Vector.get_ofFn, if_pos hi]

/-- The cell-level values in force leave the PWM values (13 R425), and so what captured values bring. -/
theorem Pace.Transfers.of_samePwm {p q : Pace} {v : AxRegs} (hv : samePwm v p.force) (h : { p with force := v }.Transfers q) : p.Transfers q := by
  obtain ⟨hcapt, hstart, hhold, hclear, hforce, hfill⟩ := h
  refine ⟨hcapt, hstart, hhold, hclear, ?_, ?_⟩
  · refine fun i hi => (hforce i hi).trans ?_
    cases p.capt with
    | none => exact hv i hi
    | some u => rfl
  · rw [hfill]
    cases p.capt with
    | none => rfl
    | some u => exact refills_congr hv fun _ _ => rfl

theorem Axis.set_pace (a : Axis) (f : Fld) (v : Nat) : (a.set f v).pace = a.pace := rfl

theorem Axis.slopeCodes_pace (a : Axis) : a.slopeCodes.pace = a.pace :=
  Axis.pace_foldl _ (fun x _ => (Axis.set_pace ..).trans (x.set_pace ..)) _ a

/-- The cell-level values, the codes of edges and a loaded correction table leave the pace (02 R47, 04 R117); the captured values follow. -/
theorem Cell.takeValues_transfers (c : Cell) : c.ax.pace.Transfers c.takeValues.ax.pace := by
  unfold Cell.takeValues
  extract_lets a a1 modeCh a2 a3 a4
  refine Pace.Transfers.of_samePwm a.cellValues_samePwm ?_
  have h1 : a1.pace = { c.ax.pace with force := a.cellValues } := rfl
  have h2 : a2.pace = a1.pace := ite_keeps Axis.pace a1.slopeCodes_pace rfl
  have h3 : a3.pace = a2.pace := ite_keeps Axis.pace (Axis.pace_foldl _ (fun x _ => (Axis.set_pace ..).trans (x.set_pace ..)) _ a2) rfl
  clear_value a3
  have h4 : a4.pace = a3.pace := by
    simp only [a4]
    split
    · rfl
    · rfl
  clear_value a4
  have h : a4.pace = { c.ax.pace with force := a.cellValues } := h4.trans (h3.trans (h2.trans h1))
  rw [← h]
  exact Cell.applyCapture_transfers { c with ax := a4 }

/-! ### The boundary of a cell (03 R73) -/

theorem Cell.clearTrip_pace (c : Cell) (w : Wide) (cyc : Nat) : (c.clearTrip w cyc).1.ax.pace = c.ax.pace := by
  unfold Cell.clearTrip
  split
  · rfl
  · split
    · rfl
    · rfl

theorem Cell.tripBoundary_pace (c : Cell) (w : Wide) (cyc : Nat) : (c.tripBoundary w cyc).ax.pace = { c.ax.pace with clearReq := false } := by
  unfold Cell.tripBoundary
  extract_lets req d e
  have hd : d.ax.pace = { c.ax.pace with clearReq := false } := rfl
  have he : e.ax.pace = d.ax.pace := Cell.pace_ite (d.clearTrip_pace w cyc) rfl
  rw [← hd, ← he]
  exact Cell.pace_ite rfl rfl

theorem Cell.gateDrive_pace (c : Cell) : c.gateDrive.ax.pace = c.ax.pace := rfl

theorem Cell.deriveGainsIf_pace (c : Cell) {p : Prop} [Decidable p] : (if p then c.map Axis.deriveGains else c).ax.pace = c.ax.pace :=
  Cell.pace_ite c.ax.deriveGains_pace rfl

/-- What a period begins with (03 R73, R80, R86, R101). -/
structure Pace.Begins (p q : Pace) (at8 : Nat) : Prop where
  start : q.start = some at8
  fillHold : q.fillHold = p.fillHold
  capt : q.capt = none
  clearReq : q.clearReq = false
  force : samePwm q.force (p.capt.getD p.force)
  fill : q.fill = p.capt.elim p.fill (refills p.force)

theorem Pace.Transfers.begins {p q : Pace} (h : { p with clearReq := false }.Transfers q) (at8 : Nat) : p.Begins { q with start := some at8 } at8 := by
  obtain ⟨hcapt, -, hhold, hclear, hforce, hfill⟩ := h
  exact ⟨rfl, hhold, hcapt, hclear, hforce, hfill⟩

theorem Cell.atBoundary_begins (c : Cell) (w : Wide) (k : CellCal) (gd : Bool) (x : BoundaryIn) :
    c.ax.pace.Begins (c.atBoundary w k gd x).ax.pace x.at8 := by
  unfold Cell.atBoundary
  extract_lets a on volts c1 c2 c3 c4 release c5 c6 c7 c8 c9 c10
  have h1 : c1.ax.pace = c.ax.pace := (Cell.tickSums_pace ..).trans (Cell.linkEnergy_pace ..)
  have h2 : c2.ax.pace = c1.ax.pace := Cell.pace_foldl _ Cell.adaptEdge_pace _ c1
  have h3 : c3.ax.pace = c2.ax.pace := c2.takeSamples_pace ..
  have h4 : c4.ax.pace = c3.ax.pace := (Cell.takeStanding_pace ..).trans ((Cell.arm_pace ..).trans c3.prepare_pace)
  have h5 : c5.ax.pace = c4.ax.pace := Cell.countFaults_pace ..
  clear_value c5
  have hrun : (c5.tripBoundary w x.cyc).runDeferred.ax.pace = { c.ax.pace with clearReq := false } := by
    rw [Axis.pace_of_gait (Cell.runDeferred_gait _), c5.tripBoundary_pace, h5, h4, h3, h2, h1]
  have h6 : { c.ax.pace with clearReq := false }.Transfers c6.ax.pace := by
    have ht := (c5.tripBoundary w x.cyc).runDeferred.takeValues_transfers
    rw [hrun, ← (Cell.takeValues _).dropMasked_pace] at ht
    exact ht
  clear_value c6
  have h7 : c7.ax.pace = { c6.ax.pace with start := some x.at8 } := (Cell.gateDrive_pace _).trans rfl
  clear_value c7
  have h8 : c8.ax.pace = c7.ax.pace := (Cell.stepFollow_pace _).trans c7.deriveGainsIf_pace
  clear_value c8
  have h9 : c9.ax.pace = c8.ax.pace := (Cell.heat_pace _).trans ((Cell.estimatePeriod_pace ..).trans rfl)
  clear_value c9
  have h10 : c10.ax.pace = c9.ax.pace := c9.ax.standSteps_pace
  clear_value c10
  rw [Cell.boundaryDrive_pace, Cell.boundaryHalls_pace, h10, h9, h8, h7]
  exact h6.begins x.at8

theorem Cell.oscStop_pace (c : Cell) : c.oscStop.ax.pace = c.ax.pace := by
  unfold Cell.oscStop
  exact Cell.pace_ite ((c.stoOff_stops).1.pace.trans rfl) rfl

/-- At an instant that is the boundary of a running counter, the period begins, out of a fill period. -/
theorem Cell.boundary_begins (c : Cell) {n : Fin 48} (w : Wide) (k : CellCal) (gd : Bool) {x : BoundaryIn} (hs : c.ax.pwm.stopped = false)
    (hb : c.ax.boundaryAt n x.at8 = true) : { c.ax.pace with fill := false, fillHold := false }.Begins (c.boundary n w k gd x).ax.pace x.at8 := by
  have hr : c.boundary n w k gd x = ((c.reachesZero n x.at8).1.atBoundary w k gd x).oscStop := by
    simp only [Cell.boundary, hs, Cell.reachesZero, hb, if_true, Bool.false_eq_true, if_false]
  have hz : (c.reachesZero n x.at8).1.ax.pace = { c.ax.pace with fill := false, fillHold := false } := by
    rw [Cell.reachesZero, if_pos hb]
    rfl
  rw [hr, Cell.oscStop_pace, ← hz]
  exact Cell.atBoundary_begins ..

theorem Cell.boundary_of_stopped (c : Cell) (n : Fin 48) (w : Wide) (k : CellCal) (gd : Bool) (x : BoundaryIn) (hs : c.ax.pwm.stopped = true) :
    c.boundary n w k gd x = c := if_pos hs

/-- Before its boundary, a down-count that ends in a fill period holds the counter at 0 (03 R80). -/
theorem Cell.boundary_before (c : Cell) {n : Fin 48} (w : Wide) (k : CellCal) (gd : Bool) {x : BoundaryIn} (hs : c.ax.pwm.stopped = false)
    (hb : c.ax.boundaryAt n x.at8 = false) : c.boundary n w k gd x =
      if c.ax.pwm.fill && c.ax.downEnds x.at8 then c.pwm fun p => { p with fillHold := true, cnt := 0, down := false } else c := by
  simp only [Cell.boundary, hs, Cell.reachesZero, hb, Bool.false_eq_true, if_false]
  split
  · rfl
  · rfl

end Sys2Proof.Machine
end

section
/-!
What the module sees of a period boundary (03 R73, 08 R276 to R292): spares change hands, and of the axes only slices, their status and flags with
them.
-/

namespace Sys2Proof.Machine

/-! ### The module and its axes but for spares -/

/-- An axis but for its slices, their status and its flags, which another lends. -/
def Axis.unlent (z a : Axis) : Axis × (Fin 131 → Word) :=
  ({ a with regs := z.regs, stamps := z.stamps, slc := z.slc }, fun i => if i.val = 53 then 0 else a.plainRegs i)

theorem Axis.spared_of_unlent {a t : Axis} (h : Axis.unlent a t = Axis.unlent a a) : a.spared t := by
  refine ⟨?_, fun i hev hi => ?_⟩
  · exact congrArg (fun y : Axis × (Fin 131 → Word) => { y.1 with regs := t.regs, stamps := t.stamps, slc := t.slc }) h
  · have hr := congrFun (congrArg Prod.snd h) i
    have h53 : i.val ≠ 53 := fun e => hi (by simp [e])
    simpa [Axis.unlent, Axis.plainRegs, h53, hev] using hr

theorem Axis.pace_of_unlent {z a t : Axis} (h : Axis.unlent z t = Axis.unlent z a) : t.pace = a.pace :=
  congrArg (fun y : Axis × (Fin 131 → Word) => y.1.pace) h

theorem Axis.set_unlent {z : Axis} (a : Axis) {f : Fld} (v : Nat) (hf : f.reg = 53) : Axis.unlent z (a.set f v) = Axis.unlent z a := by
  refine Prod.ext rfl (funext fun i => ?_)
  by_cases hi : i.val = 53
  · simp [Axis.unlent, hi]
  · have hne : f.reg ≠ i.val := fun e => hi (e.symm.trans hf)
    simp only [Axis.unlent, Axis.plainRegs, Axis.set, Fld.put, Vector.get_eq_getElem, Vector.getElem_setIfInBounds, hne, if_false]

/-- The module but for its measurements, its registers and flags, and what a spare changes of an axis. -/
def Blk.unlent (z : Axis) (b : Blk) : Blk × Option (Byte × Byte × Nat × Bool) × Vector PlaneSt 3 × (Fin 48 → Axis × (Fin 131 → Word)) :=
  ({ b with meas := Blk.reset.meas }.rest, b.owning, b.planes, fun m => Axis.unlent z (b.axis m))

theorem Blk.unlent_of_parts {z : Axis} {b t : Blk} (hr : t.rest = { b with meas := t.meas }.rest) (ho : t.owning = b.owning) (hp : t.planes = b.planes)
    (ha : ∀ m, Axis.unlent z (t.axis m) = Axis.unlent z (b.axis m)) : t.unlent z = b.unlent z :=
  Prod.ext (congrArg (fun r : Blk => { r with meas := Blk.reset.meas }) hr) (Prod.ext ho (Prod.ext hp (funext ha)))

theorem Blk.unlent_of_frame {z : Axis} {b t : Blk} (hf : t.frame = b.frame) (hm : t.planes = b.planes)
    (ha : ∀ m, Axis.unlent z (t.axis m) = Axis.unlent z (b.axis m)) : t.unlent z = b.unlent z :=
  Prod.ext (congrArg (fun y => { y.1 with meas := Blk.reset.meas }) hf) (Prod.ext (congrArg (·.2.1) hf) (Prod.ext hm (funext ha)))

theorem Blk.axis_unlent {z : Axis} {b t : Blk} (h : t.unlent z = b.unlent z) (m : Fin 48) : Axis.unlent z (t.axis m) = Axis.unlent z (b.axis m) :=
  congrFun (congrArg (·.2.2.2) h) m

theorem Blk.unlent_ite {z : Axis} {b c d : Blk} {p : Prop} [Decidable p] (hc : c.unlent z = b.unlent z) (hd : d.unlent z = b.unlent z) :
    (if p then c else d).unlent z = b.unlent z := ite_keeps (Blk.unlent z) hc hd

theorem Blk.unlent_foldl {z : Axis} {α : Type} (f : Blk → α → Blk) (h : ∀ b x, (f b x).unlent z = b.unlent z) (l : List α) (b : Blk) :
    (l.foldl f b).unlent z = b.unlent z := foldl_keeps (Blk.unlent z) f h l b

/-! ### Updates -/

variable {z : Axis}

theorem Blk.withRegs_unlent (b : Blk) (r : ModRegs) : { b with regs := r }.unlent z = b.unlent z := rfl
theorem Blk.withMeas_unlent (b : Blk) (m : Meas) : { b with meas := m }.unlent z = b.unlent z := rfl
theorem Blk.set_unlent (b : Blk) (f : Fld) (v : Nat) : (b.set f v).unlent z = b.unlent z := b.withRegs_unlent _
theorem Blk.setB_unlent (b : Blk) (f : Fld) (v : Bool) : (b.setB f v).unlent z = b.unlent z := b.withRegs_unlent _
theorem Blk.count_unlent (b : Blk) (f : Fld) (d : Nat) : (b.count f d).unlent z = b.unlent z := b.withRegs_unlent _
theorem Blk.mapSpare_unlent (b : Blk) (k : Fin 8) (f : Spare → Spare) : (b.mapSpare k f).unlent z = b.unlent z := b.withMeas_unlent _

theorem Blk.raise_unlent (b : Blk) (l : List Flag) : (b.raise l).unlent z = b.unlent z :=
  Blk.unlent_of_frame (b.raise_frame l) (b.raise_planes l) fun m => congrArg (Axis.unlent z) (b.raise_axis l m)

theorem Blk.raiseAx_unlent (b : Blk) (n : Fin 48) (l : List Flag) : (b.raiseAx n l).unlent z = b.unlent z := by
  refine Blk.unlent_of_frame (b.raiseAx_frame n l) (b.raiseAx_planes n l) fun m => Prod.ext ?_ ?_
  · exact congrArg (fun y : Axis => { y with slc := z.slc }) (b.raiseAx_axis (z := z) n m l)
  · exact congrArg (fun r : Fin 131 → Word => fun i => if i.val = 53 then 0 else r i) (b.raiseAx_axis_plainRegs n m l)

theorem Blk.mapAx_unlent (b : Blk) (n : Fin 48) {f : Axis → Axis} (hf : Axis.unlent z (f (b.axis n)) = Axis.unlent z (b.axis n)) :
    (b.mapAx n f).unlent z = b.unlent z := by
  refine Blk.unlent_of_frame (b.mapAx_frame n f) (b.mapAx_planes n f) fun m => ?_
  by_cases h : m = n
  · subst h
    rw [b.axis_mapAx]
    exact hf
  · rw [b.axis_mapAx_ne f h]

/-- A step on the slices of an axis. -/
theorem Blk.mapSlices_unlent (b : Blk) (n : Fin 48) (g : Axis → Vector Slice 2) : (b.mapAx n fun a => { a with slc := g a }).unlent z = b.unlent z :=
  b.mapAx_unlent n rfl

/-! ### Spares (08 R284, R285, R272) -/

theorem Blk.dropItem_unlent (b : Blk) (k : Fin 8) : (b.dropItem k).unlent z = b.unlent z := by
  unfold Blk.dropItem
  split
  · exact (Blk.mapSlices_unlent _ _ _).trans (b.mapSpare_unlent k _)
  · exact b.mapSpare_unlent k _

theorem Blk.assignSpare_unlent (b : Blk) (n : Fin 48) (s : Fin 2) (k : Fin 8) : (b.assignSpare n s k).unlent z = b.unlent z := by
  have hsp : (if s = 0 then AX.SLC_STAT.SP0 else AX.SLC_STAT.SP1).reg = 53 := by
    split
    · rfl
    · rfl
  unfold Blk.assignSpare
  refine (Blk.raiseAx_unlent _ _ _).trans ((Blk.mapAx_unlent _ _ ?_).trans ((Blk.mapSpare_unlent _ _ _).trans (b.dropItem_unlent k)))
  refine (Axis.set_unlent _ _ hsp).trans ((Axis.set_unlent _ _ rfl).trans ((Axis.set_unlent _ _ rfl).trans rfl))

theorem Blk.bgUpdate_unlent (b : Blk) : b.bgUpdate.unlent z = b.unlent z := by
  unfold Blk.bgUpdate
  extract_lets
  exact Blk.unlent_ite rfl ((Blk.raise_unlent _ _).trans ((Blk.set_unlent _ _ _).trans ((Blk.withMeas_unlent _ _).trans (b.setB_unlent _ _))))

theorem Blk.giveSpares_unlent (b : Blk) : b.giveSpares.unlent z = b.unlent z := by
  unfold Blk.giveSpares
  refine Blk.unlent_foldl _ (fun d n => Blk.unlent_foldl _ (fun e s => Blk.unlent_ite ?_ rfl) _ d) _ b
  split
  · exact e.assignSpare_unlent n s _
  · rfl

theorem Blk.returnSpare_unlent (b : Blk) (k : Fin 8) : (b.returnSpare k).unlent z = b.unlent z :=
  (Blk.bgUpdate_unlent _).trans ((Blk.giveSpares_unlent _).trans (b.mapSpare_unlent k _))

theorem Blk.lend_unlent (b : Blk) (n : Fin 48) : (b.lend n).unlent z = b.unlent z := by
  unfold Blk.lend
  split
  · next k _ _ => exact (Blk.bgUpdate_unlent _).trans ((Blk.mapSpare_unlent _ _ _).trans (b.dropItem_unlent k))
  · rfl

theorem Blk.sweepInterleaves_unlent (b : Blk) : b.sweepInterleaves.unlent z = b.unlent z := by
  unfold Blk.sweepInterleaves
  extract_lets lent d
  have hd : d.unlent z = b.unlent z := by
    refine Blk.unlent_foldl _ (fun e k => ?_) _ b
    dsimp only
    split
    · exact Blk.unlent_ite (e.returnSpare_unlent k) rfl
    · rfl
  exact (Blk.unlent_foldl _ (fun e n => Blk.unlent_ite rfl (e.lend_unlent n)) _ d).trans hd

/-! ### What follows a boundary (08 R276, R278, R280, R292) -/

theorem Blk.selfStart_unlent (b : Blk) : b.selfStart.unlent z = b.unlent z := by
  unfold Blk.selfStart
  split
  · rfl
  · exact Blk.unlent_ite rfl ((Blk.withMeas_unlent _ _).trans (b.setB_unlent _ _))

theorem Blk.ic7Event_unlent (b old : Blk) (n : Fin 48) : (b.ic7Event old n).unlent z = b.unlent z := by
  unfold Blk.ic7Event
  extract_lets a
  split
  · refine Blk.unlent_ite rfl (Blk.unlent_ite ?_ ((Blk.withMeas_unlent _ _).trans (b.withMeas_unlent _)))
    exact (Blk.raise_unlent _ _).trans ((Blk.count_unlent _ _ _).trans (b.withMeas_unlent _))
  · rfl

theorem Blk.rwSeen_unlent (b : Blk) (n : Fin 48) (at8 : Nat) : (b.rwSeen n at8).unlent z = b.unlent z := b.withMeas_unlent _

theorem Blk.afterBoundary_unlent (b old : Blk) (n : Fin 48) (at8 : Nat) : (b.afterBoundary old n at8).unlent z = b.unlent z := by
  unfold Blk.afterBoundary
  extract_lets d e
  have hd : d.unlent z = b.unlent z := Blk.unlent_ite (b.setB_unlent _ _) rfl
  have he : e.unlent z = d.unlent z := by
    refine Blk.unlent_foldl _ (fun y s => ?_) _ d
    dsimp only
    split
    · rfl
    · have hm : ∀ (j : Fin 8) (f : Spare → Spare) (g : Axis → Vector Slice 2) (p : Prop) [Decidable p],
          (if p then (y.mapSpare j f).mapAx n fun a => { a with slc := g a } else y).unlent z = y.unlent z := fun j f g p _ =>
        Blk.unlent_ite ((Blk.mapSlices_unlent _ _ _).trans (y.mapSpare_unlent j f)) rfl
      exact Blk.unlent_ite ((Blk.returnSpare_unlent _ _).trans (hm _ _ _ _)) (hm _ _ _ _)
  refine (Blk.rwSeen_unlent _ _ _).trans ((Blk.ic7Event_unlent _ _ _).trans ((Blk.sweepInterleaves_unlent _).trans (e.selfStart_unlent.trans (he.trans hd))))

theorem Blk.rwCheck_unlent (b : Blk) : b.rwCheck.unlent z = b.unlent z :=
  Blk.unlent_of_parts b.rwCheck_rest b.rwCheck_owning b.rwCheck_planes fun m => congrArg (Axis.unlent z) (b.rwCheck_axis m)

end Sys2Proof.Machine
end

section
/-!
`PERIOD_BOUNDARY` (03 R73): the cell's step in the module.
-/

namespace Sys2Proof.Machine

open Sys2Proof.Safety

/-! ### The link comparator arms (03 R93, R94) -/

theorem Blk.armLink_eq (b : Blk) (mV : Nat) : ∃ l, b.armLink mV = { b with pw := { b.pw with link := l } } := by
  unfold Blk.armLink
  extract_lets
  split
  · exact ⟨.inside, rfl⟩
  · exact ⟨b.pw.link, rfl⟩

theorem Blk.armLink_of_armed (b : Blk) (mV : Nat) (h : b.pw.link ≠ .unarmed) : b.armLink mV = b := by
  unfold Blk.armLink
  simp [h]

theorem Blk.armLink_axis (b : Blk) (mV : Nat) (n : Fin 48) : (b.armLink mV).axis n = b.axis n := by
  obtain ⟨l, hl⟩ := b.armLink_eq mV
  rw [hl]
  rfl

/-! ### The boundary in the module -/

/-- `PERIOD_BOUNDARY` in the module once the link comparator has had its turn. -/
def Blk.boundaryStep (b : Blk) (n : Fin 48) (x : BoundaryIn) : Blk :=
  let k := b.cellCal n
  let w := b.wide
  let b' := b.cell n fun c => c.boundary n w k b.pw.gd x
  if (b.axis n).pwm.stopped || !(b.axis n).boundaryAt n x.at8 then b' else (b'.afterBoundary b n x.at8).rwCheck

theorem Blk.boundaryStep_stopped (b : Blk) (n : Fin 48) (x : BoundaryIn) (h : (b.axis n).pwm.stopped = true) : b.boundaryStep n x = b := by
  simp only [Blk.boundaryStep, h, Bool.true_or, if_true]
  exact b.cell_of_same n ((b.cellOf n).boundary_of_stopped n b.wide (b.cellCal n) b.pw.gd x h)

/-- A down-count that ends in a fill period before the grid (03 R80); any other report off the boundary changes nothing in the cell. -/
theorem Blk.boundaryStep_before (b : Blk) (n : Fin 48) (x : BoundaryIn) (hs : (b.axis n).pwm.stopped = false)
    (hb : (b.axis n).boundaryAt n x.at8 = false) : (b.boundaryStep n x).axis n =
      if (b.axis n).pwm.fill = true ∧ (b.axis n).downEnds x.at8 = true then
        { b.axis n with pwm := { (b.axis n).pwm with fillHold := true, cnt := 0, down := false } } else b.axis n := by
  have hc := (b.cellOf n).boundary_before b.wide (b.cellCal n) b.pw.gd (x := x) hs hb
  have hflags : ((b.cellOf n).boundary n b.wide (b.cellCal n) b.pw.gd x).flags = [] := by
    rw [hc]
    exact ite_keeps Cell.flags rfl rfl
  simp only [Blk.boundaryStep, hs, hb, Bool.not_false, Bool.or_true, if_true]
  rw [b.cell_axis_of_flags n hflags, hc]
  simp only [← Bool.and_eq_true]
  exact apply_ite Cell.ax _ _ _

theorem Blk.boundaryStep_pace (b : Blk) (n : Fin 48) (x : BoundaryIn) (hs : (b.axis n).pwm.stopped = false)
    (hb : (b.axis n).boundaryAt n x.at8 = true) :
    ((b.boundaryStep n x).axis n).pace = ((b.cellOf n).boundary n b.wide (b.cellCal n) b.pw.gd x).ax.pace := by
  simp only [Blk.boundaryStep, hs, hb, Bool.not_true, Bool.or_false, Bool.false_eq_true, if_false]
  rw [Axis.pace_of_unlent (z := b.axis n) (Blk.axis_unlent ((Blk.rwCheck_unlent _).trans (Blk.afterBoundary_unlent _ b n x.at8)) n)]
  simp only [Axis.pace, Blk.cell_axis_force, Blk.cell_axis_pwm, Blk.cell_axis_trip]

/-- Outside the cell, only measurements, registers, flags and slices may change. -/
theorem Blk.boundaryStep_apart (b : Blk) (n : Fin 48) (x : BoundaryIn) : (∀ m, m ≠ n → (b.axis m).spared ((b.boundaryStep n x).axis m)) ∧
    (b.boundaryStep n x).rest = { b with meas := (b.boundaryStep n x).meas }.rest ∧ (b.boundaryStep n x).planes = b.planes ∧
    (b.boundaryStep n x).owning = b.owning := by
  obtain ⟨honly, hrest, howning⟩ := b.cell_apart n fun c => c.boundary n b.wide (b.cellCal n) b.pw.gd x
  have hstep : ∀ z, (b.boundaryStep n x).unlent z = (b.cell n fun c => c.boundary n b.wide (b.cellCal n) b.pw.gd x).unlent z := fun z =>
    Blk.unlent_ite rfl ((Blk.rwCheck_unlent _).trans (Blk.afterBoundary_unlent _ b n x.at8))
  refine ⟨fun m hm => Axis.spared_of_unlent ?_, ?_, ?_, ?_⟩
  · rw [Blk.axis_unlent (hstep (b.axis m)) m, honly m hm]
  · have hr := congrArg Prod.fst (hstep (b.axis n))
    have hc : { b.boundaryStep n x with meas := Blk.reset.meas }.rest = { b with meas := Blk.reset.meas }.rest :=
      hr.trans (congrArg (fun r : Blk => { r with meas := Blk.reset.meas }) hrest)
    exact congrArg (fun r : Blk => { r with meas := (b.boundaryStep n x).meas }) hc
  · exact (congrArg (·.2.2.1) (hstep (b.axis n))).trans (b.cell_planes n _)
  · exact (congrArg (·.2.1) (hstep (b.axis n))).trans howning

/-! ### The row -/

theorem execPeriodBoundary_step (s : State) (n : Fin 48) (x : BoundaryIn) (hp : s.blk.pw.powered = true) (hh : s.blk.pw.held = false)
    (hn : s.blk.nap ≠ .napping) {P : Blk → Prop} (h : P ((s.blk.armLink x.vLink).boundaryStep n x)) : Does (.periodBoundary n x) s P := by
  have he : exec (.periodBoundary n x) s = onBlk (fun b => if !b.pw.powered || b.pw.held || b.nap == .napping then b else
      (b.armLink x.vLink).boundaryStep n x) s := rfl
  refine does_of_onBlk he ?_
  simpa [hp, hh, hn] using h

/-- What a boundary leaves of the module, and of another axis. -/
theorem Blk.boundary_leaves (b : Blk) (n : Fin 48) (x : BoundaryIn) {t : Blk} (ht : t = (b.armLink x.vLink).boundaryStep n x) :
    (∀ m, m ≠ n → (b.axis m).spared (t.axis m)) ∧ t.sm = b.sm ∧ t.plan = b.plan ∧ t.ledg = b.ledg ∧ t.pw = { b.pw with link := t.pw.link } ∧
      (b.pw.link ≠ .unarmed → t.pw = b.pw) ∧ t.planes = b.planes ∧ t.owning = b.owning ∧ t.sides = b.sides ∧ t.streams = b.streams := by
  obtain ⟨hax, hrest, hplanes, howning⟩ := (b.armLink x.vLink).boundaryStep_apart n x
  rw [← ht] at hax hrest hplanes howning
  have harmed : b.pw.link ≠ .unarmed → t.pw = b.pw := fun h => by
    rw [b.armLink_of_armed _ h] at hrest
    exact (congrArg Blk.pw hrest :)
  obtain ⟨l, hl⟩ := b.armLink_eq x.vLink
  rw [hl] at hax hrest hplanes howning
  have hpw : t.pw = { b.pw with link := l } := (congrArg Blk.pw hrest :)
  exact ⟨hax, (congrArg Blk.sm hrest :), (congrArg Blk.plan hrest :), (congrArg Blk.ledg hrest :), by rw [hpw], harmed, hplanes, howning,
    (congrArg Blk.sides hrest :), (congrArg Blk.streams hrest :)⟩

theorem Blk.boundary_begins (b : Blk) (n : Fin 48) (x : BoundaryIn) {t : Blk} (ht : t = b.boundaryStep n x) (hs : (b.axis n).pwm.stopped = false)
    (hb : (b.axis n).boundaryAt n x.at8 = true) : { (b.axis n).pace with fill := false, fillHold := false }.Begins (t.axis n).pace x.at8 := by
  rw [ht, b.boundaryStep_pace n x hs hb]
  exact (b.cellOf n).boundary_begins b.wide (b.cellCal n) b.pw.gd hs hb

/-- Settles O40: each step of the cell at its boundary but the requested clear, the taking of values and the start of the period leaves its pace, and
what follows in the module lends and returns spares. -/
theorem periodBoundaryTakesValues : Obligations.PeriodBoundaryTakesValues := by
  unfold Obligations.PeriodBoundaryTakesValues
  intro s n x hp hh hn
  refine execPeriodBoundary_step s n x hp hh hn ?_
  generalize ht : (s.blk.armLink x.vLink).boundaryStep n x = t
  obtain ⟨hax, hsm, hplan, hledg, hpw, harmed, hplanes, howning, hsides, hstreams⟩ := s.blk.boundary_leaves n x ht.symm
  refine ⟨hax, hsm, hplan, hledg, hpw, harmed, hplanes, howning, hsides, hstreams, ?_⟩
  have han := s.blk.armLink_axis x.vLink n
  generalize s.blk.armLink x.vLink = b at ht han
  rw [← han]
  split
  · next hs => rw [← ht, b.boundaryStep_stopped n x hs]
  · next hs =>
    have hs' := Bool.eq_false_of_not_eq_true hs
    split
    · next hb => rw [← ht, b.boundaryStep_before n x hs' hb]
    · next hb =>
      obtain ⟨hstart, hhold, hcapt, hclear, hforce, hfill⟩ := b.boundary_begins n x ht.symm hs' (Bool.eq_true_of_not_eq_false hb)
      exact ⟨hstart, hhold, hcapt, hclear, hforce, hfill⟩

end Sys2Proof.Machine
end

section
/-!
Registers under the operations of a move: what ends, stops or brakes a profile writes a few fields of the axis, leaves every other field and the
motor type, and starts no homing run.
-/

namespace Sys2Proof.Machine

/-- The fields that the end of a move, a stop or a brake writes, `HOMING` apart. -/
def endFields : List Fld :=
  [AX.MOT_CNT.STOPS, AX.LEDG_LAST.E_LAST, AX.LEDG_LAST.E_PRED, AX.LEDG_AX.MODEL_DEV, AX.LEDG_LEARN.E_LEARN, AX.LIFE_CYC.CYC, AX.RST_STAT.ORPHAN,
    AX.ST_STAT.POS_UNC, AX.ST_STAT.HOMED, AX.ST_STAT.V_SAT, AX.ST_STAT.LA_VALID, AX.BL_STAT.POS_UNC, AX.BL_STAT.HOMED, AX.BL_STAT.V_SAT,
    AX.BL_STAT.BRAKE, AX.BL_STAT.PARK, AX.BL_STAT.SHIFT, AX.BL_STAT.CATCH, AX.BL_STAT.INIT]

/-- A field that the end of a move leaves. -/
def Fld.lasts (f : Fld) : Bool := f.apart AX.ST_STAT.HOMING && f.apart AX.BL_STAT.HOMING && endFields.all f.apart

theorem Fld.apart_of_lasts {f g : Fld} (h : f.lasts = true) (hg : g ∈ endFields) : f.apart g = true := by
  simp only [Fld.lasts, Bool.and_eq_true, List.all_eq_true] at h
  exact h.2 g hg

/-- From one axis to another no field that lasts changes, nor the motor type, and no homing run begins. -/
structure Axis.EndsAs (a t : Axis) : Prop where
  motor : t.motor = a.motor
  homing : a.homing = false → t.homing = false
  kept : ∀ f : Fld, f.lasts = true → t.r f = a.r f

theorem Axis.EndsAs.trans {a t u : Axis} (h : a.EndsAs t) (k : t.EndsAs u) : a.EndsAs u :=
  ⟨k.motor.trans h.motor, fun x => k.homing (h.homing x), fun f hf => (k.kept f hf).trans (h.kept f hf)⟩

theorem Axis.brushless_congr {a c : Axis} (h : a.motor = c.motor) : a.brushless = c.brushless := by rw [Axis.brushless, h]; rfl

theorem Axis.homing_congr {a c : Axis} (hm : a.motor = c.motor) (hs : a.r AX.ST_STAT.HOMING = c.r AX.ST_STAT.HOMING)
    (hb : a.r AX.BL_STAT.HOMING = c.r AX.BL_STAT.HOMING) : a.homing = c.homing := by
  rw [Axis.homing, Axis.homing, Axis.brushless_congr hm, Axis.b_of_r hs, Axis.b_of_r hb]

/-- A step that leaves registers and motor type. -/
theorem Axis.EndsAs.of_regs {a t : Axis} (hm : t.motor = a.motor := by rfl) (hr : t.regs = a.regs := by rfl) : a.EndsAs t := by
  have hk : ∀ f : Fld, t.r f = a.r f := fun f => congrArg f.get hr
  exact ⟨hm, fun h => (Axis.homing_congr hm (hk _) (hk _)).trans h, fun f _ => hk f⟩

theorem Axis.EndsAs.refl (a : Axis) : a.EndsAs a := .of_regs

theorem Axis.EndsAs.ite {a : Axis} {d e : Cell} {p : Prop} [Decidable p] (hd : a.EndsAs d.ax) (he : a.EndsAs e.ax) :
    a.EndsAs (if p then d else e).ax := by
  split
  · exact hd
  · exact he

theorem homing_apart : ∀ g ∈ endFields, AX.ST_STAT.HOMING.apart g = true ∧ AX.BL_STAT.HOMING.apart g = true := by decide

theorem Axis.set_endsAs (a : Axis) (f : Fld) (v : Nat) (h : f ∈ endFields := by decide) : a.EndsAs (a.set f v) := by
  have hs : a.r AX.ST_STAT.HOMING = (a.set f v).r AX.ST_STAT.HOMING := (a.r_set_apart v (homing_apart f h).1).symm
  have hb : a.r AX.BL_STAT.HOMING = (a.set f v).r AX.BL_STAT.HOMING := (a.r_set_apart v (homing_apart f h).2).symm
  have hm : a.motor = (a.set f v).motor := rfl
  exact ⟨hm.symm, fun k => (Axis.homing_congr hm hs hb).symm.trans k, fun g hg => a.r_set_apart v (Fld.apart_of_lasts hg h)⟩

theorem Axis.setB_endsAs (a : Axis) (f : Fld) (v : Bool) (h : f ∈ endFields := by decide) : a.EndsAs (a.setB f v) := a.set_endsAs f _ h
theorem Axis.count_endsAs (a : Axis) (f : Fld) (h : f ∈ endFields := by decide) : a.EndsAs (a.count f) := a.set_endsAs f _ h

/-! ### The ends of a move -/

theorem Cell.setUnc_endsAs (c : Cell) : c.ax.EndsAs c.setUnc.ax := by
  refine .ite ?_ ((Axis.setB_endsAs _ _ true).trans (Axis.setB_endsAs _ _ false))
  have hr : c.ax.EndsAs (c.raiseIf (!c.ax.b AX.BL_STAT.POS_UNC) AX.BL_EVT.POS_UNC).ax := .ite (.refl _) (.refl _)
  exact hr.trans ((Axis.setB_endsAs _ _ true).trans (Axis.setB_endsAs _ _ false))

/-- The `HOMING` of the axis's motor type. -/
def Axis.homingFld (a : Axis) : Fld := if a.brushless then AX.BL_STAT.HOMING else AX.ST_STAT.HOMING

theorem Axis.homing_eq (a : Axis) : a.homing = a.b a.homingFld := by
  unfold Axis.homing Axis.homingFld
  split <;> rfl

/-- The event that reports a failed homing run of the axis's motor type. -/
def Axis.homeFailFlag (a : Axis) : Flag := if a.brushless then AX.BL_EVT.HOME_FAIL else AX.ST_EVT.HOME_FAIL

/-- A homing run that ends without its home (04 R134, 05 R164). -/
theorem Cell.homeFail_of_homing (c : Cell) (h : c.ax.homing = true) :
    c.homeFail = ((c.setB c.ax.homingFld false).raise c.ax.homeFailFlag).event 0x08 := by
  unfold Axis.homing at h
  unfold Cell.homeFail Axis.homingFld Axis.homeFailFlag
  split
  · next hb => rw [if_pos hb] at h; rw [if_pos h]
  · next hb => rw [if_neg hb] at h; rw [if_pos h]

theorem Cell.homeFail_of_not_homing (c : Cell) (h : c.ax.homing = false) : c.homeFail = c := by
  unfold Axis.homing at h
  unfold Cell.homeFail
  split
  · next hb => rw [if_pos hb] at h; rw [h]; rfl
  · next hb => rw [if_neg hb] at h; rw [h]; rfl

theorem Axis.setB_homingFld_homing (a : Axis) (v : Bool) : (a.setB a.homingFld v).homing = v := by
  have hk : (a.setB a.homingFld v).homingFld = a.homingFld := rfl
  rw [Axis.homing_eq, hk]
  unfold Axis.homingFld
  split <;> exact Axis.b_setB_same _ _ _ (by decide) (by decide) (by decide)

/-- After a homing run has ended none runs. -/
theorem Cell.homeFail_homing (c : Cell) : c.homeFail.ax.homing = false := by
  cases h : c.ax.homing
  · rw [c.homeFail_of_not_homing h, h]
  · rw [c.homeFail_of_homing h]
    exact c.ax.setB_homingFld_homing false

theorem Cell.homeFail_endsAs (c : Cell) : c.ax.EndsAs c.homeFail.ax := by
  refine ⟨Cell.motor_of_loaded c.homeFail_loaded, fun _ => c.homeFail_homing, fun f hf => ?_⟩
  cases h : c.ax.homing
  · rw [c.homeFail_of_not_homing h]
  · rw [c.homeFail_of_homing h]
    refine Axis.r_setB_apart _ _ ?_
    simp only [Fld.lasts, Bool.and_eq_true] at hf
    unfold Axis.homingFld
    split
    · exact hf.1.2
    · exact hf.1.1

theorem Cell.endJob_endsAs (c : Cell) (done : Bool) : c.ax.EndsAs (c.endJob done).ax := by
  unfold Cell.endJob
  split
  · exact .refl _
  · extract_lets e dev d1 d2 l d3
    have h1 : c.ax.EndsAs d1.ax := ((Axis.set_endsAs _ AX.LEDG_LAST.E_LAST _).trans (Axis.set_endsAs _ AX.LEDG_LAST.E_PRED _)).trans
      (Axis.setB_endsAs _ AX.LEDG_AX.MODEL_DEV dev)
    have h2 : d1.ax.EndsAs d2.ax := .ite (.refl _) (.refl _)
    have h3 : d2.ax.EndsAs d3.ax := .ite
      (.trans (t := { d2.ax with learned := l }) .of_regs (Axis.set_endsAs _ AX.LEDG_LEARN.E_LEARN _)) (.refl _)
    exact ((h1.trans h2).trans h3).trans .of_regs

theorem Cell.discard_endsAs (c : Cell) : c.ax.EndsAs c.discard.ax := .of_regs

theorem Cell.goFallow_endsAs (c : Cell) : c.ax.EndsAs c.goFallow.ax := by
  unfold Cell.goFallow
  extract_lets lose d a _ _ _ _ a0 a1 a2 a3 a4 a5 _
  have hd : c.ax.EndsAs d.ax := .ite c.setUnc_endsAs (.refl _)
  have h1 : d.ax.EndsAs a1 := by
    simp only [a1, Axis.takeHall]
    exact .of_regs
  have h2 : a1.EndsAs a2 := (Axis.setB_endsAs _ AX.BL_STAT.BRAKE false).trans (Axis.setB_endsAs _ AX.BL_STAT.PARK false)
  have h3 : a2.EndsAs a3 := ((Axis.setB_endsAs _ AX.BL_STAT.V_SAT false).trans (Axis.setB_endsAs _ AX.ST_STAT.V_SAT false)).trans
    (Axis.setB_endsAs _ AX.BL_STAT.SHIFT false)
  have h4 : a3.EndsAs a4 := ((Axis.setB_endsAs _ AX.BL_STAT.CATCH false).trans (Axis.setB_endsAs _ AX.BL_STAT.INIT false)).trans
    (Axis.setB_endsAs _ AX.ST_STAT.LA_VALID false)
  have h5 : a4.EndsAs a5 := Axis.setB_endsAs _ AX.RST_STAT.ORPHAN false
  have h : c.ax.EndsAs a5 := ((((hd.trans h1).trans h2).trans h3).trans h4).trans h5
  clear_value a5
  exact h.trans .of_regs

theorem Cell.lifeCycle_endsAs (c : Cell) : c.ax.EndsAs c.lifeCycle.ax := by
  unfold Cell.lifeCycle
  split
  · exact .ite (Axis.count_endsAs _ AX.LIFE_CYC.CYC) (.refl _)
  · exact .refl _

theorem Cell.endGrip_endsAs (c : Cell) : c.ax.EndsAs c.endGrip.ax := .ite .of_regs (.refl _)

theorem Cell.toHold_endsAs (c : Cell) : c.ax.EndsAs c.toHold.ax := by
  unfold Cell.toHold
  extract_lets a d e
  have he : c.ax.EndsAs e.ax := .trans (t := (d.reg _).ax) .of_regs (Cell.endGrip_endsAs _)
  exact .ite he (.ite (he.trans e.goFallow_endsAs) (he.trans ((Axis.setB_endsAs _ AX.RST_STAT.ORPHAN true).trans .of_regs)))

theorem Cell.stopDone_endsAs (c : Cell) : c.ax.EndsAs c.stopDone.ax := by
  unfold Cell.stopDone
  extract_lets seq fallow d e
  have he : c.ax.EndsAs e.ax := (d.lifeCycle_endsAs.trans (Cell.endJob_endsAs _ _)).trans (Cell.toHold_endsAs _)
  exact .ite (he.trans e.goFallow_endsAs) he

theorem Cell.startBrake_endsAs (c : Cell) (w : Brake) : c.ax.EndsAs (c.startBrake w).ax := by
  unfold Cell.startBrake
  extract_lets d e
  have he : c.ax.EndsAs e.ax := .of_regs
  exact .ite (he.trans ((Axis.setB_endsAs _ AX.BL_STAT.BRAKE true).trans (Axis.setB_endsAs _ AX.BL_STAT.PARK false))) he

/-! ### Stops -/

theorem Cell.stopAlong_endsAs (c : Cell) (k : StopKind) (p : Prof) : c.ax.EndsAs (c.stopAlong k p).ax := by
  unfold Cell.stopAlong
  extract_lets d
  exact .ite (.trans (t := d.ax) .of_regs d.stopDone_endsAs) .of_regs

theorem Cell.stopAgain_endsAs (c : Cell) (k : StopKind) : c.ax.EndsAs (c.stopAgain k).ax := by
  unfold Cell.stopAgain
  extract_lets m
  split
  · refine .ite (.ite (c.stopAlong_endsAs _ _) (.refl _)) (.ite ?_ (.refl _))
    exact .trans (t := (c.mot _).ax) .of_regs (Cell.stopAlong_endsAs _ _ _)
  · exact .refl _

theorem Cell.stop_endsAs (c : Cell) (k : StopKind) : c.ax.EndsAs (c.stop k).ax := by
  -- what every stop that ends a profile does first
  have hend : ∀ d : Cell, d.ax.EndsAs ((d.homeFail.count AX.MOT_CNT.STOPS).mot fun x => { x with left := true }).ax := fun d =>
    (d.homeFail_endsAs.trans (Axis.count_endsAs _ AX.MOT_CNT.STOPS)).trans .of_regs
  unfold Cell.stop
  extract_lets a m d1 d e f g from_
  refine .ite c.discard_endsAs (.ite ?_ (c.discard_endsAs.trans (.ite ?_ (.ite (d.stopAgain_endsAs k) (.ite .of_regs (.ite (.refl _) ?_))))))
  · have hd1 : c.ax.EndsAs d1.ax := (c.discard_endsAs.trans (Cell.homeFail_endsAs _)).trans .of_regs
    split
    · exact hd1.trans .of_regs
    · exact hd1.trans .of_regs
  · have he : d.ax.EndsAs e.ax := .ite (.refl _) (hend d)
    have hf : d.ax.EndsAs f.ax := he.trans (e.endJob_endsAs _)
    exact .ite (hf.trans (f.startBrake_endsAs _)) ((hf.trans f.setUnc_endsAs).trans (Cell.startBrake_endsAs _ _))
  · exact (hend d).trans (.trans (t := (g.mot _).ax) .of_regs (Cell.stopAlong_endsAs _ _ _))

end Sys2Proof.Machine
end

section
/-!
A stall, and the time at the ceiling after it (04 R123 to R125): what holding at the estimate leaves of a cell, and each of these clauses of
`Obligations.RunsEndByEvents` as a lemma of its own.
-/

namespace Sys2Proof.Machine

open Sys2Proof.Safety

/-! ### What a step leaves of its axis -/

theorem Cell.Leaves.r {c : Cell} {a : Axis} (h : c.Leaves a) (f : Fld) (hf : f.reg ∉ axEvRegs := by decide) : a.r f = c.ax.r f :=
  Axis.r_of_plainRegs h.plainRegs hf

theorem Cell.Leaves.b {c : Cell} {a : Axis} (h : c.Leaves a) (f : Fld) (hf : f.reg ∉ axEvRegs := by decide) : a.b f = c.ax.b f :=
  Axis.b_of_plainRegs h.plainRegs hf

theorem Cell.Leaves.homing {c : Cell} {a : Axis} (h : c.Leaves a) (hm : a.motor = c.ax.motor) : a.homing = c.ax.homing :=
  Axis.homing_congr hm (h.r AX.ST_STAT.HOMING) (h.r AX.BL_STAT.HOMING)

theorem Axis.EndsAs.b {a t : Axis} (h : a.EndsAs t) (f : Fld) (hf : f.lasts = true := by decide) : t.b f = a.b f := Axis.b_of_r (h.kept f hf)

theorem Axis.b_setB_apart {g f : Fld} (a : Axis) (v : Bool) (h : g.apart f = true := by decide) : (a.setB f v).b g = a.b g :=
  Axis.b_of_r (a.r_setB_apart v h)

theorem Axis.b_count_apart {g f : Fld} (a : Axis) (h : g.apart f = true := by decide) : (a.count f).b g = a.b g :=
  Axis.b_of_r (a.r_count_apart h)

theorem Cell.homeFail_reg (c : Cell) : c.homeFail.ax.reg = c.ax.reg :=
  ite_keeps (fun c : Cell => c.ax.reg) (ite_keeps (fun c : Cell => c.ax.reg) rfl rfl) (ite_keeps (fun c : Cell => c.ax.reg) rfl rfl)

theorem Cell.endJob_reg (c : Cell) (done : Bool) : (c.endJob done).ax.reg = c.ax.reg := by
  unfold Cell.endJob
  split
  · rfl
  · extract_lets e dev d1 d2 l d3
    have h2 : d2.ax.reg = d1.ax.reg := ite_keeps (fun c : Cell => c.ax.reg) rfl rfl
    have h3 : d3.ax.reg = d2.ax.reg := ite_keeps (fun c : Cell => c.ax.reg) rfl rfl
    exact h3.trans h2

theorem Cell.endGrip_mot (c : Cell) : c.endGrip.ax.mot = c.ax.mot := ite_keeps (fun c : Cell => c.ax.mot) rfl rfl
theorem Cell.endGrip_clamp (c : Cell) : c.endGrip.ax.reg.clamp = c.ax.reg.clamp := ite_keeps (fun c : Cell => c.ax.reg.clamp) rfl rfl

/-! ### Holding at the estimate (04 R125, R132) -/

theorem Axis.ceiling_congr {a t : Axis} (hm : t.motor = a.motor) (hb : t.r AX.BL_ILIM.I_MAX = a.r AX.BL_ILIM.I_MAX)
    (hs : t.r AX.I_LIM0.I_MAX = a.r AX.I_LIM0.I_MAX) (hc : t.reg.clamp = a.reg.clamp) : t.ceiling = a.ceiling := by
  rw [Axis.ceiling, Axis.ceiling, Axis.brushless_congr hm, hb, hs, hc]

/-- From one axis to another the move ends in a hold at the estimate, at the ceiling for 200 ms. -/
structure Axis.HeldAtEstimate (a t : Axis) : Prop where
  mode : t.mot.mode = .hold
  job : t.mot.job = none
  waiting : t.mot.waiting = none
  queued : t.mot.queued = none
  pos : t.mot.pCmd = a.estimate
  amp : t.reg.amp = a.ceiling
  rest : t.reg.rest = .ceiling 4999

theorem Cell.redefine_endsAs (c : Cell) (p : Int) : c.ax.EndsAs (c.redefine p).ax := .of_regs
theorem Cell.redefine_legsKept (c : Cell) (p : Int) : c.LegsKept (c.redefine p) := .of_eq

theorem Cell.holdAtEstimate_endsAs (c : Cell) : c.ax.EndsAs c.holdAtEstimate.ax := by
  unfold Cell.holdAtEstimate
  extract_lets p d e g
  have hd : c.ax.EndsAs d.ax := ((c.discard_endsAs.trans (Cell.homeFail_endsAs _)).trans (Cell.endJob_endsAs _ _)).trans
    (Axis.count_endsAs _ AX.MOT_CNT.STOPS)
  have he : c.ax.EndsAs e.ax := (hd.trans d.endGrip_endsAs).trans (Cell.redefine_endsAs _ p)
  clear_value e
  exact he.trans .of_regs

theorem Cell.holdAtEstimate_legsKept (c : Cell) : c.LegsKept c.holdAtEstimate := by
  unfold Cell.holdAtEstimate
  extract_lets p d e g
  have hd : c.LegsKept d := (((c.dropWaiting_legsKept false).trans (Cell.homeFail_legsKept _)).trans (Cell.endJob_legsKept _ _)).trans .of_eq
  have he : c.LegsKept e := (hd.trans d.endGrip_legsKept).trans (Cell.redefine_legsKept _ p)
  clear_value e
  exact he.trans .of_eq

theorem Cell.holdAtEstimate_holds (c : Cell) : c.ax.HeldAtEstimate c.holdAtEstimate.ax := by
  unfold Cell.holdAtEstimate
  extract_lets p d e g
  have hends : c.ax.EndsAs g.ax := c.holdAtEstimate_endsAs.trans .of_regs
  have hdrained : d.ax.mot.drained := (Cell.endJob_calm _ false).drained ((Cell.homeFail_calm _).drained c.discard_drained)
  have hmot : d.endGrip.ax.mot = d.ax.mot := d.endGrip_mot
  have hclamp : g.ax.reg.clamp = c.ax.reg.clamp :=
    d.endGrip_clamp.trans (congrArg Reg.clamp ((Cell.endJob_reg _ false).trans (Cell.homeFail_reg _)))
  exact {
    mode := rfl
    job := (congrArg Motion.job hmot).trans (Cell.endJob_job _ false)
    waiting := (congrArg Motion.waiting hmot).trans hdrained.1
    queued := (congrArg Motion.queued hmot).trans hdrained.2
    pos := rfl
    amp := congrArg Nat.cast (Axis.ceiling_congr hends.motor (hends.kept _ (by decide)) (hends.kept _ (by decide)) hclamp)
    rest := rfl }

/-! ### A stall (04 R125) -/

/-- A stall as it is reported: the mark, the flag, the counter and the event. -/
def Cell.reportStall (c : Cell) : Cell := (((c.setB AX.ST_STAT.STALLED true).raise AX.ST_EVT.STALL).count AX.ST_CNT.STALL_CNT).event 0x04 []

theorem Cell.stalled_of_due (c : Cell) (h : c.ax.stallDue = true) : c.stalled = c.reportStall.holdAtEstimate := by
  unfold Cell.stalled
  rw [h]
  rfl

theorem Cell.stalled_of_not_due (c : Cell) (h : c.ax.stallDue = false) : c.stalled = c := by
  unfold Cell.stalled
  rw [h]
  rfl

theorem Axis.stallDue_iff (a : Axis) : a.stallDue = true ↔ a.stepper = true ∧ a.mot.mode.running = true ∧ a.b AX.ST_STAT.HOMING = false ∧
    a.b AX.ST_STAT.LA_VALID = true ∧ max 1 (a.r AX.LA_CFG.STALL_N) ≤ a.reg.stallN ∧ a.b AX.ST_STAT.STALLED = false := by
  simp only [Axis.stallDue, Axis.stallCounted, Bool.and_eq_true, Bool.not_eq_true', decide_eq_true_eq, and_assoc]

/-- What a stall shows of its axis: the mark, the counter, and the hold. -/
structure Axis.Stalls (a t : Axis) : Prop extends a.HeldAtEstimate t where
  stalled : t.b AX.ST_STAT.STALLED = true
  counted : t.r AX.ST_CNT.STALL_CNT = AX.ST_CNT.STALL_CNT.get (AX.ST_CNT.STALL_CNT.count a.regs)

theorem Cell.reportStall_ceiling (c : Cell) : c.reportStall.ax.ceiling = c.ax.ceiling := by
  have h : ∀ f : Fld, f.apart AX.ST_CNT.STALL_CNT = true → f.apart AX.ST_STAT.STALLED = true → c.reportStall.ax.r f = c.ax.r f :=
    fun f hc hs => (Axis.r_count_apart _ hc).trans (c.ax.r_setB_apart true hs)
  exact Axis.ceiling_congr rfl (h _ (by decide) (by decide)) (h _ (by decide) (by decide)) rfl

theorem Cell.stalled_stalls (c : Cell) (h : c.ax.stallDue = true) : c.ax.Stalls c.stalled.ax := by
  rw [c.stalled_of_due h]
  have hends := c.reportStall.holdAtEstimate_endsAs
  have hheld := c.reportStall.holdAtEstimate_holds
  refine { hheld with pos := hheld.pos, amp := hheld.amp.trans (congrArg Nat.cast c.reportStall_ceiling), stalled := ?_, counted := ?_ }
  · rw [hends.b AX.ST_STAT.STALLED]
    exact ((c.ax.setB AX.ST_STAT.STALLED true).b_count_apart).trans (c.ax.b_setB_same _ true (by decide) (by decide) (by decide))
  · refine (hends.kept AX.ST_CNT.STALL_CNT (by decide)).trans ?_
    show AX.ST_CNT.STALL_CNT.get (AX.ST_CNT.STALL_CNT.count (c.ax.setB AX.ST_STAT.STALLED true).regs) = _
    rw [Fld.get_count_same _ _ _ (by decide) (by decide), Fld.get_count_same _ _ _ (by decide) (by decide)]
    exact congrArg (fun x => min (x + 1) _) (c.ax.r_setB_apart (g := AX.ST_CNT.STALL_CNT) true (by decide))

theorem Cell.stalled_leaves (c : Cell) (h : c.ax.stallDue = true) :
    c.stalled.ax.legs = c.ax.legs ∧ AX.ST_EVT.STALL ∈ c.stalled.flags ∧ c.stalled.ax.motor = c.ax.motor := by
  rw [c.stalled_of_due h]
  have hk := c.reportStall.holdAtEstimate_legsKept
  exact ⟨hk.legs, hk.flags (List.mem_append_right _ (List.mem_singleton_self _)), c.reportStall.holdAtEstimate_endsAs.motor⟩

theorem stall_holds (s : State) (n : Fin 48) :
    Does (.stall n) s fun t => s.blk.only t n ∧ s.blk.still t ∧
      (if (s.blk.axis n).stepper = true ∧ (s.blk.axis n).mot.mode.running = true ∧ (s.blk.axis n).b AX.ST_STAT.HOMING = false
      ∧ (s.blk.axis n).b AX.ST_STAT.LA_VALID = true ∧ max 1 ((s.blk.axis n).r AX.LA_CFG.STALL_N) ≤ (s.blk.axis n).reg.stallN
      ∧ (s.blk.axis n).b AX.ST_STAT.STALLED = false then
      (t.axis n).b AX.ST_STAT.STALLED = true ∧ (t.axis n).flagged AX.ST_EVT.STALL
      ∧ (t.axis n).r AX.ST_CNT.STALL_CNT = AX.ST_CNT.STALL_CNT.get (AX.ST_CNT.STALL_CNT.count (s.blk.axis n).regs)
      ∧ (t.axis n).mot.mode = .hold ∧ (t.axis n).mot.job = none ∧ (t.axis n).mot.waiting = none ∧ (t.axis n).mot.queued = none
      ∧ (t.axis n).mot.pCmd = (s.blk.axis n).estimate ∧ (t.axis n).reg.amp = (s.blk.axis n).ceiling ∧ (t.axis n).reg.rest = .ceiling 4999
      ∧ (t.axis n).legs = (s.blk.axis n).legs
      else t.axis n = s.blk.axis n) := by
  refine does_of_onBlk (f := fun b => b.cell n Cell.stalled) rfl ⟨s.blk.cell_only n _, s.blk.cell_still n _, ?_⟩
  split
  · next h =>
    have hdue : (s.blk.cellOf n).ax.stallDue = true := (Axis.stallDue_iff _).2 h
    have hl := s.blk.cell_leaves n Cell.stalled
    obtain ⟨hlegs, hflag, -⟩ := (s.blk.cellOf n).stalled_leaves hdue
    obtain ⟨⟨hmode, hjob, hwait, hqueued, hpos, hamp, hrest⟩, hstalled, hcount⟩ := (s.blk.cellOf n).stalled_stalls hdue
    rw [hl.mot, hl.reg, hl.legs, hl.b AX.ST_STAT.STALLED, hl.r AX.ST_CNT.STALL_CNT]
    exact ⟨hstalled, hl.flagged hflag (by decide) (by decide), hcount, hmode, hjob, hwait, hqueued, hpos, hamp, hrest, hlegs⟩
  · next h =>
    have hdue : (s.blk.axis n).stallDue = false := Bool.eq_false_iff.2 (mt (Axis.stallDue_iff _).1 h)
    exact s.blk.cell_axis_of_same n ((s.blk.cellOf n).stalled_of_not_due hdue)

/-! ### The end of the time at the ceiling (04 R123) -/

theorem Cell.ceilingEnds_of_over (c : Cell) (hs : c.ax.stepper = true) (hm : c.ax.mot.mode = .hold) (hr : c.ax.reg.rest = .ceiling 0) :
    c.ceilingEnds = c.reg fun r => { r with rest := .slew } := by
  unfold Cell.ceilingEnds
  simp [hs, hm, hr]

theorem Cell.ceilingEnds_of_not (c : Cell) (h : c.ax.stepper = false ∨ c.ax.mot.mode ≠ .hold ∨ c.ax.reg.rest ≠ .ceiling 0) : c.ceilingEnds = c := by
  unfold Cell.ceilingEnds
  split
  · next hr =>
    refine if_neg ?_
    rcases h with h | h | h
    · simp [h]
    · simp [h]
    · exact absurd hr h
  · rfl

/-- The two events that end a time at the ceiling do the same. -/
theorem ceilingEnds_does {s : State} {n : Fin 48} (late : Bool) {P : Blk → Prop} (h : P (s.blk.cell n Cell.ceilingEnds)) :
    Does (if late then .restCeilingExpiry n else .stallHoldExpiry n) s P := by
  cases late
  · exact does_of_onBlk (f := fun b => b.cell n Cell.ceilingEnds) rfl h
  · exact does_of_onBlk (f := fun b => b.cell n Cell.ceilingEnds) rfl h

theorem ceilingExpiry_slews (s : State) (n : Fin 48) (late : Bool) (hs : (s.blk.axis n).stepper = true) (hm : (s.blk.axis n).mot.mode = .hold)
    (hr : (s.blk.axis n).reg.rest = .ceiling 0) :
    Does (if late then .restCeilingExpiry n else .stallHoldExpiry n) s fun t => s.blk.only t n ∧ s.blk.still t
      ∧ t.axis n = { s.blk.axis n with reg := { (s.blk.axis n).reg with rest := .slew } } := by
  refine ceilingEnds_does late ⟨s.blk.cell_only n _, s.blk.cell_still n _, ?_⟩
  have he := (s.blk.cellOf n).ceilingEnds_of_over hs hm hr
  rw [s.blk.cell_axis_of_flags n (congrArg Cell.flags he), he]
  rfl

theorem ceilingExpiry_not (s : State) (n : Fin 48) (late : Bool)
    (h : (s.blk.axis n).stepper = false ∨ (s.blk.axis n).mot.mode ≠ .hold ∨ (s.blk.axis n).reg.rest ≠ .ceiling 0) :
    Does (if late then .restCeilingExpiry n else .stallHoldExpiry n) s fun t => t.ax = s.blk.ax ∧ s.blk.still t := by
  refine ceilingEnds_does late ⟨?_, s.blk.cell_still n _⟩
  rw [s.blk.cell_of_same n ((s.blk.cellOf n).ceilingEnds_of_not h)]

end Sys2Proof.Machine
end

section
/-!
Obstacles (04 R132, R140, 05 R171, R177): what the report of one leaves of its cell and what the reaction to it does, and each of these clauses of
`Obligations.RunsEndByEvents` as a lemma of its own.
-/

namespace Sys2Proof.Machine

open Sys2Proof.Safety

/-! ### The report and the reaction -/

/-- The event, the mark, the counter and the reaction of an obstacle of the axis's motor type. -/
def Axis.obstFlag (a : Axis) : Flag := if a.brushless then AX.BL_EVT.OBST else AX.ST_EVT.OBST
def Axis.obstFld (a : Axis) : Fld := if a.brushless then AX.BL_STAT.OBST else AX.ST_STAT.OBST
def Axis.obstCnt (a : Axis) : Fld := if a.brushless then AX.BL_CNT1.OBST_CNT else AX.ST_CNT.OBST_CNT
def Axis.obstAct (a : Axis) : Fld := if a.brushless then AX.BL_OBST.OBST_ACT else AX.OBST_CFG.OBST_ACT

theorem Axis.obstFlag_place (a : Axis) : a.obstFlag.ev < 6 ∧ a.obstFlag.bit < 24 := by
  unfold Axis.obstFlag
  split <;> decide

theorem Axis.obstFld_place (a : Axis) : a.obstFld.reg ∉ axEvRegs ∧ a.obstFld.lasts = true := by
  unfold Axis.obstFld
  split <;> decide

/-- An obstacle as it is reported leaves all of its axis but that it is declared, the mark and the counter. -/
theorem Cell.reportObstacle_ax (c : Cell) : c.reportObstacle.ax =
    (({ c.ax with reg := { c.ax.reg with obstHit := true } } : Axis).setB c.ax.obstFld true).count c.ax.obstCnt := by
  unfold Cell.reportObstacle Axis.obstFld Axis.obstCnt
  extract_lets f d e
  have hd : d.ax.brushless = c.ax.brushless := rfl
  show e.ax = _
  unfold e
  rw [hd]
  split <;> rfl

theorem Cell.reportObstacle_flags (c : Cell) : c.reportObstacle.flags = c.flags ++ [c.ax.obstFlag] := by
  unfold Cell.reportObstacle Axis.obstFlag
  extract_lets f d e
  have hd : d.ax.brushless = c.ax.brushless := rfl
  show e.flags = _
  unfold e
  rw [hd]
  split <;> rfl

theorem Cell.reportObstacle_flag (c : Cell) : c.ax.obstFlag ∈ c.reportObstacle.flags := by
  rw [c.reportObstacle_flags]
  exact List.mem_append_right _ (List.mem_singleton_self _)

theorem Cell.reportObstacle_mark (c : Cell) : c.reportObstacle.ax.b c.ax.obstFld = true := by
  rw [c.reportObstacle_ax]
  unfold Axis.obstFld Axis.obstCnt
  split
  · exact (Axis.b_count_apart _).trans (Axis.b_setB_same _ _ true (by decide) (by decide) (by decide))
  · exact (Axis.b_count_apart _).trans (Axis.b_setB_same _ _ true (by decide) (by decide) (by decide))

theorem Cell.reportObstacle_motor (c : Cell) : c.reportObstacle.ax.motor = c.ax.motor := by rw [c.reportObstacle_ax]; rfl
theorem Cell.reportObstacle_mot (c : Cell) : c.reportObstacle.ax.mot = c.ax.mot := by rw [c.reportObstacle_ax]; rfl
theorem Cell.reportObstacle_bl (c : Cell) : c.reportObstacle.ax.bl = c.ax.bl := by rw [c.reportObstacle_ax]; rfl
theorem Cell.reportObstacle_legs (c : Cell) : c.reportObstacle.ax.legs = c.ax.legs := by rw [c.reportObstacle_ax]; rfl
theorem Cell.reportObstacle_estimate (c : Cell) : c.reportObstacle.ax.estimate = c.ax.estimate := by rw [c.reportObstacle_ax]; rfl

theorem Cell.obstReact_endsAs (c : Cell) (act : Nat) : c.ax.EndsAs (c.obstReact act).ax := by
  unfold Cell.obstReact
  split
  · exact .refl _
  · exact c.stop_endsAs .stop
  · exact c.stop_endsAs .qstop
  · exact c.holdAtEstimate_endsAs

theorem Cell.obstReact_legsKept (c : Cell) (act : Nat) : c.LegsKept (c.obstReact act) := by
  unfold Cell.obstReact
  split
  · exact .refl _
  · exact c.stop_legsKept .stop
  · exact c.stop_legsKept .qstop
  · exact c.holdAtEstimate_legsKept

/-- Every reaction but that of 0 lets no move wait. -/
theorem Cell.obstReact_drained (c : Cell) (act : Nat) (h : act ≠ 0) : (c.obstReact act).ax.mot.drained := by
  unfold Cell.obstReact
  split
  · exact absurd rfl h
  · exact c.stop_drained .stop
  · exact c.stop_drained .qstop
  · exact ⟨c.holdAtEstimate_holds.waiting, c.holdAtEstimate_holds.queued⟩

/-- What an obstacle leaves once it is reported and reacted to. -/
theorem Cell.obstReact_reported (c : Cell) (act : Nat) :
    (c.reportObstacle.obstReact act).ax.legs = c.ax.legs ∧ c.ax.obstFlag ∈ (c.reportObstacle.obstReact act).flags ∧
    (c.reportObstacle.obstReact act).ax.b c.ax.obstFld = true ∧
    (if act = 0 then (c.reportObstacle.obstReact act).ax.mot = c.ax.mot
      else (c.reportObstacle.obstReact act).ax.mot.waiting = none ∧ (c.reportObstacle.obstReact act).ax.mot.queued = none) ∧
    (act = 3 → (c.reportObstacle.obstReact act).ax.mot.mode = .hold ∧ (c.reportObstacle.obstReact act).ax.mot.pCmd = c.ax.estimate ∧
      (c.reportObstacle.obstReact act).ax.mot.job = none) := by
  have hk := c.reportObstacle.obstReact_legsKept act
  refine ⟨hk.legs.trans c.reportObstacle_legs, hk.flags c.reportObstacle_flag, ?_, ?_, fun h3 => ?_⟩
  · exact ((c.reportObstacle.obstReact_endsAs act).b _ c.ax.obstFld_place.2).trans c.reportObstacle_mark
  · split
    · next h0 =>
      rw [h0]
      exact c.reportObstacle_mot
    · next h0 => exact c.reportObstacle.obstReact_drained act h0
  · have hheld := c.reportObstacle.holdAtEstimate_holds
    rw [h3]
    exact ⟨hheld.mode, hheld.pos.trans c.reportObstacle_estimate, hheld.job⟩

/-! ### An obstacle alone, with a stall, and on a locked rotor -/

theorem Cell.obstacle_of_not_due (c : Cell) (h : c.ax.obstacleDue = false) : c.obstacle = c := by
  unfold Cell.obstacle
  rw [h]
  rfl

/-- An obstacle that is due on an axis that does not home: a stall or a locked rotor of the same tick comes first, and then it is only reported. -/
theorem Cell.obstacle_of_due (c : Cell) (h : c.ax.obstacleDue = true) (hh : c.ax.homing = false) (hm : c.ax.motor ≠ .none) :
    c.obstacle =
      let d := c.stalled.lockedRotor
      if (d.ax.stepper && d.ax.b AX.ST_STAT.STALLED && d.ax.mot.mode == .hold) || (d.ax.brushless && d.ax.bl.brake == .locked) then d.reportObstacle
      else if d.ax.mot.mode.running then d.reportObstacle.obstReact (d.ax.r d.ax.obstAct) else d := by
  have hact : ∀ a : Axis, (if a.brushless then a.r AX.BL_OBST.OBST_ACT else a.r AX.OBST_CFG.OBST_ACT) = a.r a.obstAct := fun a =>
    (apply_ite a.r _ _ _).symm
  unfold Cell.obstacle
  rw [if_neg (by simp [h, hh, hm])]
  simp only [hact]

theorem Cell.lockedRotor_of_not_due (c : Cell) (h : c.ax.lockDue = false) : c.lockedRotor = c := by
  unfold Cell.lockedRotor
  rw [h]
  rfl

theorem Cell.obstacle_reacts (c : Cell) (hm : c.ax.motor ≠ .none) (hr : c.ax.mot.mode.running = true) (hh : c.ax.homing = false)
    (hb : c.ax.bl.brake ≠ .locked) (hd : c.ax.obstacleDue = true) (hs : c.ax.stallDue = false) (hl : c.ax.lockDue = false) :
    c.obstacle = c.reportObstacle.obstReact (c.ax.r c.ax.obstAct) := by
  have hhold : c.ax.mot.mode ≠ .hold := fun h => by simp [h, Mode.running, Mode.num] at hr
  rw [c.obstacle_of_due hd hh hm, c.stalled_of_not_due hs, c.lockedRotor_of_not_due hl]
  simp only [beq_eq_false_iff_ne.2 hhold, beq_eq_false_iff_ne.2 hb, Bool.and_false, Bool.or_false, Bool.false_eq_true, if_false, hr, if_true]

/-- A stepper has no rotor that locks (05 R168). -/
theorem Axis.lockDue_of_stepper (a : Axis) (h : a.motor = .stepper) : a.lockDue = false := by
  simp [Axis.lockDue, Axis.brushless, h]

theorem Axis.motor_of_stallDue {a : Axis} (h : a.stallDue = true) : a.motor = .stepper := by
  simpa [Axis.stepper] using ((Axis.stallDue_iff a).1 h).1

theorem Cell.obstacle_of_stall (c : Cell) (hd : c.ax.obstacleDue = true) (hh : c.ax.homing = false) (hs : c.ax.stallDue = true) :
    c.obstacle = c.stalled.reportObstacle := by
  have hm := Axis.motor_of_stallDue hs
  have hk := c.stalled_stalls hs
  have hm' : c.stalled.ax.motor = .stepper := (c.stalled_leaves hs).2.2.trans hm
  rw [c.obstacle_of_due hd hh (by simp [hm]), c.stalled.lockedRotor_of_not_due (Axis.lockDue_of_stepper _ hm')]
  exact if_pos (by simp [Axis.stepper, hm', hk.stalled, hk.mode])

theorem Cell.obstacle_of_locked (c : Cell) (hb : c.ax.brushless = true) (hl : c.ax.bl.brake = .locked) (hh : c.ax.homing = false)
    (hd : c.ax.obstacleDue = true) : c.obstacle = c.reportObstacle := by
  have hm : c.ax.motor ≠ .none := fun h => by simp [Axis.brushless, h] at hb
  have hst : c.ax.stepper = false := by
    simp only [Axis.brushless, Bool.or_eq_true, beq_iff_eq] at hb
    rcases hb with h | h <;> simp [Axis.stepper, h]
  have hs : c.ax.stallDue = false := by simp [Axis.stallDue, hst]
  have hlk : c.ax.lockDue = false := by simp [Axis.lockDue, hl]
  rw [c.obstacle_of_due hd hh hm, c.stalled_of_not_due hs, c.lockedRotor_of_not_due hlk]
  exact if_pos (by simp [hb, hl])

/-! ### The clauses -/

theorem obstacle_reacts (s : State) (n : Fin 48) (hm : (s.blk.axis n).motor ≠ Motor.none) (hr : (s.blk.axis n).mot.mode.running = true)
    (hh : (s.blk.axis n).homing = false) (hb : (s.blk.axis n).bl.brake ≠ .locked) (hd : (s.blk.axis n).obstacleDue = true)
    (hs : (s.blk.axis n).stallDue = false) (hlk : (s.blk.axis n).lockDue = false) :
    Does (.obstacle n) s fun t => s.blk.only t n ∧ s.blk.still t ∧ (t.axis n).legs = (s.blk.axis n).legs
      ∧ (t.axis n).flagged (if (s.blk.axis n).brushless then AX.BL_EVT.OBST else AX.ST_EVT.OBST)
      ∧ (t.axis n).b (if (s.blk.axis n).brushless then AX.BL_STAT.OBST else AX.ST_STAT.OBST) = true
      ∧ (if (s.blk.axis n).r (if (s.blk.axis n).brushless then AX.BL_OBST.OBST_ACT else AX.OBST_CFG.OBST_ACT) = 0 then
      (t.axis n).mot = (s.blk.axis n).mot
      else (t.axis n).mot.waiting = none ∧ (t.axis n).mot.queued = none)
      ∧ ((s.blk.axis n).r (if (s.blk.axis n).brushless then AX.BL_OBST.OBST_ACT else AX.OBST_CFG.OBST_ACT) = 3 →
      (t.axis n).mot.mode = .hold ∧ (t.axis n).mot.pCmd = (s.blk.axis n).estimate ∧ (t.axis n).mot.job = none) := by
  refine does_of_onBlk (f := fun b => b.cell n Cell.obstacle) rfl ⟨s.blk.cell_only n _, s.blk.cell_still n _, ?_⟩
  have hl := s.blk.cell_leaves n Cell.obstacle
  rw [(s.blk.cellOf n).obstacle_reacts hm hr hh hb hd hs hlk] at hl
  obtain ⟨hev, hbit⟩ := (s.blk.axis n).obstFlag_place
  have hfld := hl.b (s.blk.axis n).obstFld (s.blk.axis n).obstFld_place.1
  obtain ⟨hlegs, hflag, hmark, hdrained, hhold⟩ := (s.blk.cellOf n).obstReact_reported ((s.blk.axis n).r (s.blk.axis n).obstAct)
  rw [hl.legs, hl.mot]
  exact ⟨hlegs, hl.flagged hflag hev hbit, hfld.trans hmark, hdrained, hhold⟩

theorem obstacle_not (s : State) (n : Fin 48) (h : (s.blk.axis n).obstacleDue = false) :
    Does (.obstacle n) s fun t => t.ax = s.blk.ax ∧ s.blk.still t := by
  refine does_of_onBlk (f := fun b => b.cell n Cell.obstacle) rfl ⟨?_, s.blk.cell_still n _⟩
  rw [s.blk.cell_of_same n ((s.blk.cellOf n).obstacle_of_not_due h)]

theorem obstacle_stall (s : State) (n : Fin 48) (hd : (s.blk.axis n).obstacleDue = true) (hh : (s.blk.axis n).homing = false)
    (hs : (s.blk.axis n).stallDue = true) :
    Does (.obstacle n) s fun t => s.blk.only t n ∧ s.blk.still t ∧ (t.axis n).flagged AX.ST_EVT.STALL ∧ (t.axis n).flagged AX.ST_EVT.OBST
      ∧ (t.axis n).b AX.ST_STAT.STALLED = true ∧ (t.axis n).b AX.ST_STAT.OBST = true ∧ (t.axis n).mot.mode = .hold ∧ (t.axis n).mot.job = none
      ∧ (t.axis n).mot.pCmd = (s.blk.axis n).estimate := by
  refine does_of_onBlk (f := fun b => b.cell n Cell.obstacle) rfl ⟨s.blk.cell_only n _, s.blk.cell_still n _, ?_⟩
  have hl := s.blk.cell_leaves n Cell.obstacle
  rw [(s.blk.cellOf n).obstacle_of_stall hd hh hs] at hl
  obtain ⟨-, hflag, hmotor⟩ := (s.blk.cellOf n).stalled_leaves hs
  have hk := (s.blk.cellOf n).stalled_stalls hs
  generalize (s.blk.cellOf n).stalled = c at hl hflag hmotor hk
  have hb : c.ax.brushless = false := by simp [Axis.brushless, hmotor.trans (Axis.motor_of_stallDue hs)]
  have hobst : c.ax.obstFlag = AX.ST_EVT.OBST := if_neg (by simp [hb])
  have hfld : c.ax.obstFld = AX.ST_STAT.OBST := if_neg (by simp [hb])
  have hcnt : c.ax.obstCnt = AX.ST_CNT.OBST_CNT := if_neg (by simp [hb])
  refine ⟨hl.flagged ?_ (by decide) (by decide), hl.flagged ?_ (by decide) (by decide), ?_, ?_, ?_⟩
  · rw [c.reportObstacle_flags]
    exact List.mem_append_left _ hflag
  · rw [← hobst]
    exact c.reportObstacle_flag
  · rw [hl.b AX.ST_STAT.STALLED, c.reportObstacle_ax, hfld, hcnt, Axis.b_count_apart _, Axis.b_setB_apart _ true]
    exact hk.stalled
  · rw [hl.b AX.ST_STAT.OBST, ← hfld]
    exact c.reportObstacle_mark
  · rw [hl.mot, c.reportObstacle_mot]
    exact ⟨hk.mode, hk.job, hk.pos⟩

theorem obstacle_locked (s : State) (n : Fin 48) (hb : (s.blk.axis n).brushless = true) (hlk : (s.blk.axis n).bl.brake = .locked)
    (hh : (s.blk.axis n).homing = false) (hd : (s.blk.axis n).obstacleDue = true) :
    Does (.obstacle n) s fun t => s.blk.only t n ∧ s.blk.still t ∧ (t.axis n).mot = (s.blk.axis n).mot ∧ (t.axis n).bl = (s.blk.axis n).bl
      ∧ (t.axis n).flagged AX.BL_EVT.OBST ∧ (t.axis n).b AX.BL_STAT.OBST = true := by
  refine does_of_onBlk (f := fun b => b.cell n Cell.obstacle) rfl ⟨s.blk.cell_only n _, s.blk.cell_still n _, ?_⟩
  have he := (s.blk.cellOf n).obstacle_of_locked hb hlk hh hd
  have hl := s.blk.cell_leaves n Cell.obstacle
  rw [he] at hl
  have hflag : (s.blk.axis n).obstFlag = AX.BL_EVT.OBST := if_pos hb
  have hfld : (s.blk.axis n).obstFld = AX.BL_STAT.OBST := if_pos hb
  refine ⟨hl.mot.trans (Cell.reportObstacle_mot _), ?_, hl.flagged ?_ (by decide) (by decide), ?_⟩
  · rw [Blk.cell_axis_bl, he]
    exact Cell.reportObstacle_bl _
  · rw [← hflag]
    exact Cell.reportObstacle_flag (s.blk.cellOf n)
  · rw [hl.b AX.BL_STAT.OBST, ← hfld]
    exact Cell.reportObstacle_mark (s.blk.cellOf n)

end Sys2Proof.Machine
end

section
/-!
Homing runs and locked rotors (04 R133, R134, 05 R164, R168, 10 R345): a home found, the end of the run's time, the short-brake of a locked rotor and its
end, each as a lemma of its own, and with them `Obligations.RunsEndByEvents`.
-/

namespace Sys2Proof.Machine

open Sys2Proof.Safety

/-! ### A home found (04 R133, 05 R164, 10 R345) -/

/-- The marks and the offset of a homing run of the axis's motor type. -/
def Axis.homedFld (a : Axis) : Fld := if a.brushless then AX.BL_STAT.HOMED else AX.ST_STAT.HOMED
def Axis.homeDoneFlag (a : Axis) : Flag := if a.brushless then AX.BL_EVT.HOME_DONE else AX.ST_EVT.HOME_DONE
def Axis.homeOfs (a : Axis) : Fld := if a.brushless then AX.BL_HOME_OFS.HOME_OFS else AX.HOME_OFS.HOME_OFS

/-- What a home found leaves: a known position at rest, and no move. -/
structure Axis.FindsHome (a t : Axis) : Prop where
  motor : t.motor = a.motor
  homing : t.homing = false
  posUnc : t.posUnc = false
  homed : t.b a.homedFld = true
  carried : t.b AX.RST_STAT.CARRIED = false
  mode : t.mot.mode = .hold
  job : t.mot.job = none
  waiting : t.mot.waiting = none
  pos : t.mot.pCmd = a.rS a.homeOfs
  meas : t.mot.pMeas = t.mot.pCmd

/-- What a home found makes of the run, before its marks. -/
def Cell.endsHome (c : Cell) : Cell := ((c.discard.endJob true).endGrip.redefine (c.ax.rS c.ax.homeOfs)).setB AX.RST_STAT.CARRIED false

theorem Cell.endsHome_ends (c : Cell) : c.endsHome.ax.motor = c.ax.motor ∧ c.endsHome.ax.b AX.RST_STAT.CARRIED = false ∧
    c.endsHome.ax.mot.job = none ∧ c.endsHome.ax.mot.waiting = none ∧ c.endsHome.ax.mot.pCmd = c.ax.rS c.ax.homeOfs ∧
    (c.ax.brushless = false → c.endsHome.ax.mot.pMeas = c.endsHome.ax.mot.pCmd) := by
  have hd : c.ax.EndsAs (c.discard.endJob true).endGrip.ax := (c.discard_endsAs.trans (Cell.endJob_endsAs _ true)).trans (Cell.endGrip_endsAs _)
  have hmot := (c.discard.endJob true).endGrip_mot
  have hjob := (congrArg Motion.job hmot).trans (Cell.endJob_job _ true)
  have hwait := (congrArg Motion.waiting hmot).trans ((Cell.endJob_calm _ true).drained c.discard_drained).1
  unfold Cell.endsHome
  generalize (c.discard.endJob true).endGrip = d at hd hmot hjob hwait
  refine ⟨hd.motor, Axis.b_setB_same _ _ false (by decide) (by decide) (by decide), hjob, hwait, rfl, fun hb => ?_⟩
  have hdb : d.ax.brushless = false := (Axis.brushless_congr hd.motor).trans hb
  show (if d.ax.brushless = true then d.ax.mot.pMeas else _) = _
  rw [hdb]
  rfl

/-- The marks of a home found, for a motor type, and the position that a brushless axis measures from there. -/
def Cell.marksHome (c : Cell) (bl : Bool) (ofs : Int) : Cell :=
  if bl then ((((c.setB AX.BL_STAT.HOMING false).setB AX.BL_STAT.POS_UNC false).setB AX.BL_STAT.HOMED true).raise AX.BL_EVT.HOME_DONE).setMeas ofs
  else (((c.setB AX.ST_STAT.HOMING false).setB AX.ST_STAT.POS_UNC false).setB AX.ST_STAT.HOMED true).raise AX.ST_EVT.HOME_DONE

/-- The axis rests at its home, which is reported. -/
def Cell.restsHome (c : Cell) (seq : List Byte) : Cell :=
  let d := c.mot fun m => { m with mode := .hold, stop := .none, rest := some ⟨0, c.now + 1⟩ }
  (d.reg fun r => { r with rest := if d.ax.bl.gripEnd then r.rest else .slew, homeN := 0 }).event 0x07 seq

theorem Cell.homeFound_eq (c : Cell) :
    c.homeFound = (c.endsHome.marksHome c.ax.brushless (c.ax.rS c.ax.homeOfs)).restsHome c.ax.jobSeq := by
  have ho : (if c.ax.brushless then c.ax.rS AX.BL_HOME_OFS.HOME_OFS else c.ax.rS AX.HOME_OFS.HOME_OFS) = c.ax.rS c.ax.homeOfs :=
    (apply_ite c.ax.rS _ _ _).symm
  unfold Cell.homeFound
  simp only [ho]
  rfl

/-- Three marks put one after another, of which no two share a bit: the first two cleared, the third set. -/
theorem Axis.marks_put (a : Axis) {homing unc homed : Fld} (hh : homing.apart unc = true ∧ homing.apart homed = true) (hu : unc.apart homed = true)
    (hr : ∀ f ∈ [homing, unc, homed], f.reg < 131 ∧ f.lo + f.w ≤ 32 ∧ 0 < f.w) :
    (((a.setB homing false).setB unc false).setB homed true).b homing = false ∧ (((a.setB homing false).setB unc false).setB homed true).b unc = false ∧
      (((a.setB homing false).setB unc false).setB homed true).b homed = true := by
  have hput : ∀ (a : Axis) (v : Bool), ∀ f ∈ [homing, unc, homed], (a.setB f v).b f = v := fun a v f hf =>
    a.b_setB_same f v (hr f hf).1 (hr f hf).2.1 (hr f hf).2.2
  refine ⟨?_, ?_, hput _ true homed (by simp)⟩
  · exact ((Axis.b_setB_apart _ true hh.2).trans (Axis.b_setB_apart _ false hh.1)).trans (hput a false homing (by simp))
  · exact (Axis.b_setB_apart _ true hu).trans (hput _ false unc (by simp))

theorem Cell.marksHome_marks (c : Cell) {bl : Bool} (ofs : Int) (hb : c.ax.brushless = bl) :
    (c.marksHome bl ofs).ax.motor = c.ax.motor ∧ (c.marksHome bl ofs).ax.homing = false ∧ (c.marksHome bl ofs).ax.posUnc = false ∧
    (c.marksHome bl ofs).ax.b c.ax.homedFld = true ∧ (c.marksHome bl ofs).ax.b AX.RST_STAT.CARRIED = c.ax.b AX.RST_STAT.CARRIED ∧
    c.ax.homeDoneFlag ∈ (c.marksHome bl ofs).flags ∧ (c.marksHome bl ofs).ax.mot = { c.ax.mot with pMeas := if bl then ofs else c.ax.mot.pMeas } := by
  have hflag : ∀ (d : Cell) (f : Flag), f ∈ (d.raise f).flags := fun d f => List.mem_append_right _ (List.mem_singleton_self _)
  cases bl with
  | true =>
    obtain ⟨hhoming, hunc, hhomed⟩ := c.ax.marks_put (homing := AX.BL_STAT.HOMING) (unc := AX.BL_STAT.POS_UNC) (homed := AX.BL_STAT.HOMED)
      (by decide) (by decide) (by decide)
    have hfld : c.ax.homedFld = AX.BL_STAT.HOMED := if_pos hb
    have hdone : c.ax.homeDoneFlag = AX.BL_EVT.HOME_DONE := if_pos hb
    rw [hfld, hdone]
    refine ⟨rfl, (if_pos hb).trans hhoming, (if_pos hb).trans hunc, hhomed, ?_, hflag _ _, rfl⟩
    exact ((Axis.b_setB_apart _ true).trans (Axis.b_setB_apart _ false)).trans (Axis.b_setB_apart _ false)
  | false =>
    have hb' : ¬ c.ax.brushless = true := by simp [hb]
    obtain ⟨hhoming, hunc, hhomed⟩ := c.ax.marks_put (homing := AX.ST_STAT.HOMING) (unc := AX.ST_STAT.POS_UNC) (homed := AX.ST_STAT.HOMED)
      (by decide) (by decide) (by decide)
    have hfld : c.ax.homedFld = AX.ST_STAT.HOMED := if_neg hb'
    have hdone : c.ax.homeDoneFlag = AX.ST_EVT.HOME_DONE := if_neg hb'
    rw [hfld, hdone]
    refine ⟨rfl, (if_neg hb').trans hhoming, (if_neg hb').trans hunc, hhomed, ?_, hflag _ _, rfl⟩
    exact ((Axis.b_setB_apart _ true).trans (Axis.b_setB_apart _ false)).trans (Axis.b_setB_apart _ false)

theorem Cell.homeFound_finds (c : Cell) : c.ax.FindsHome c.homeFound.ax ∧ c.ax.homeDoneFlag ∈ c.homeFound.flags := by
  obtain ⟨hmotor, hcarried, hjob, hwait, hpos, hmeas⟩ := c.endsHome_ends
  rw [c.homeFound_eq]
  have hb := Axis.brushless_congr hmotor
  obtain ⟨hm, hhoming, hunc, hhomed, hc, hflag, hmot⟩ := c.endsHome.marksHome_marks (c.ax.rS c.ax.homeOfs) hb
  have hfld : c.endsHome.ax.homedFld = c.ax.homedFld := by rw [Axis.homedFld, hb]; rfl
  have hdone : c.endsHome.ax.homeDoneFlag = c.ax.homeDoneFlag := by rw [Axis.homeDoneFlag, hb]; rfl
  rw [hfld] at hhomed
  rw [hdone] at hflag
  generalize c.endsHome.marksHome c.ax.brushless (c.ax.rS c.ax.homeOfs) = d at hm hhoming hunc hhomed hc hflag hmot
  have hpos' : d.ax.mot.pCmd = c.ax.rS c.ax.homeOfs := (congrArg Motion.pCmd hmot).trans hpos
  refine ⟨⟨hm.trans hmotor, hhoming, hunc, hhomed, hc.trans hcarried, rfl, (congrArg Motion.job hmot).trans hjob,
    (congrArg Motion.waiting hmot).trans hwait, hpos', ?_⟩, hflag⟩
  show d.ax.mot.pMeas = d.ax.mot.pCmd
  rw [hpos', hmot]
  split
  · rfl
  · next h => exact (hmeas (Bool.eq_false_iff.2 h)).trans hpos

/-- A home found on a running axis, before its time is over. -/
def Cell.meetsHome (c : Cell) : Cell := if c.ax.homeReached && c.ax.mot.mode.running && !c.ax.homeExpired then c.homeFound else c

theorem homeFound_finds (s : State) (n : Fin 48) :
    Does (.homeFound n) s fun t => s.blk.only t n ∧ s.blk.still t ∧
      (if (s.blk.axis n).homeReached = true ∧ (s.blk.axis n).mot.mode.running = true ∧ (s.blk.axis n).homeExpired = false then
      (t.axis n).homing = false ∧ (t.axis n).posUnc = false ∧ (t.axis n).mot.mode = .hold ∧ (t.axis n).mot.job = none
      ∧ (t.axis n).mot.waiting = none
      ∧ (t.axis n).b (if (s.blk.axis n).brushless then AX.BL_STAT.HOMED else AX.ST_STAT.HOMED) = true
      ∧ (t.axis n).flagged (if (s.blk.axis n).brushless then AX.BL_EVT.HOME_DONE else AX.ST_EVT.HOME_DONE)
      ∧ (t.axis n).mot.pCmd = (s.blk.axis n).rS (if (s.blk.axis n).brushless then AX.BL_HOME_OFS.HOME_OFS else AX.HOME_OFS.HOME_OFS)
      ∧ (t.axis n).mot.pMeas = (t.axis n).mot.pCmd ∧ (t.axis n).b AX.RST_STAT.CARRIED = false
      else t.axis n = s.blk.axis n) := by
  refine does_of_onBlk (f := fun b => b.cell n Cell.meetsHome) rfl ⟨s.blk.cell_only n _, s.blk.cell_still n _, ?_⟩
  have hiff : ((s.blk.axis n).homeReached && (s.blk.axis n).mot.mode.running && !(s.blk.axis n).homeExpired) = true ↔
      (s.blk.axis n).homeReached = true ∧ (s.blk.axis n).mot.mode.running = true ∧ (s.blk.axis n).homeExpired = false := by
    simp only [Bool.and_eq_true, Bool.not_eq_true', and_assoc]
  by_cases h : (s.blk.axis n).homeReached = true ∧ (s.blk.axis n).mot.mode.running = true ∧ (s.blk.axis n).homeExpired = false
  · have he : (s.blk.cellOf n).meetsHome = (s.blk.cellOf n).homeFound := if_pos (hiff.2 h)
    have hl := s.blk.cell_leaves n Cell.meetsHome
    have hmotor := s.blk.cell_axis_motor n Cell.meetsHome
    rw [he] at hl hmotor
    obtain ⟨hf, hflag⟩ := (s.blk.cellOf n).homeFound_finds
    have hreg : (s.blk.axis n).homedFld.reg ∉ axEvRegs := by unfold Axis.homedFld; split <;> decide
    have hplace : (s.blk.axis n).homeDoneFlag.ev < 6 ∧ (s.blk.axis n).homeDoneFlag.bit < 24 := by unfold Axis.homeDoneFlag; split <;> decide
    rw [if_pos h, hl.homing hmotor, Axis.posUnc_congr hmotor hl.plainRegs, hl.mot, hl.b AX.RST_STAT.CARRIED]
    exact ⟨hf.homing, hf.posUnc, hf.mode, hf.job, hf.waiting, (hl.b (s.blk.axis n).homedFld hreg).trans hf.homed,
      hl.flagged hflag hplace.1 hplace.2, hf.pos, hf.meas, hf.carried⟩
  · rw [if_neg h]
    exact s.blk.cell_axis_of_same n (if_neg (mt hiff.1 h))

/-! ### The time of a homing run is over (04 R134) -/

theorem Axis.ramps_congr {a t : Axis} {q : Bool} (hm : t.motor = a.motor) (hmot : t.mot = a.mot) (hb : t.b AX.LEDG_AX.SB_STOP = a.b AX.LEDG_AX.SB_STOP) :
    t.ramps q = a.ramps q := by
  have hseg : t.seg = a.seg := by
    unfold Axis.seg
    rw [hmot]
  simp only [Axis.ramps, Axis.stepper, hm, hmot, hb, hseg]

/-- A homing run that its time ends. -/
def Cell.homeLate (c : Cell) : Cell := if c.ax.homing && c.ax.homeExpired then c.homeFail.stop .stop else c

theorem Cell.homeLate_fails (c : Cell) (h : c.ax.homing = true) :
    (c.homeFail.stop .stop).ax.homing = false ∧ (c.homeFail.stop .stop).ax.mot.drained ∧ c.ax.homeFailFlag ∈ (c.homeFail.stop .stop).flags ∧
    (c.ax.ramps false = true → (c.homeFail.stop .stop).ax.mot.mode ∈ [Mode.stopping, .hold, .fallow]) := by
  refine ⟨(c.homeFail.stop_endsAs .stop).homing c.homeFail_homing, c.homeFail.stop_drained .stop, (c.homeFail.stop_legsKept .stop).flags ?_, fun hr => ?_⟩
  · rw [c.homeFail_of_homing h]
    exact List.mem_append_right _ (List.mem_singleton_self _)
  · refine Cell.stop_mode_of_ramps _ ?_
    rw [Axis.ramps_congr c.homeFail_endsAs.motor c.homeFail_mot (c.homeFail_endsAs.b AX.LEDG_AX.SB_STOP (by decide)), hr]

/-- The field that holds the time of a homing run. -/
def Axis.homeTmo (a : Axis) : Fld := if a.brushless then AX.BL_HOME.HOME_TMO else AX.HOME_CFG.HOME_TMO

theorem Axis.homeExpired_iff (a : Axis) : a.homeExpired = true ↔ a.r a.homeTmo ≠ 0 ∧ 2500 * a.r a.homeTmo ≤ a.mot.homeTicks := by
  have ht : (if a.brushless then a.r AX.BL_HOME.HOME_TMO else a.r AX.HOME_CFG.HOME_TMO) = a.r a.homeTmo := (apply_ite a.r _ _ _).symm
  unfold Axis.homeExpired
  simp only [ht, Bool.and_eq_true, bne_iff_ne, decide_eq_true_eq]

theorem homeTimeout_stops (s : State) (n : Fin 48) :
    Does (.homeTimeout n) s fun t => s.blk.only t n ∧ s.blk.still t ∧
      (if (s.blk.axis n).homing = true ∧ (s.blk.axis n).r (if (s.blk.axis n).brushless then AX.BL_HOME.HOME_TMO else AX.HOME_CFG.HOME_TMO) ≠ 0
      ∧ 2500 * (s.blk.axis n).r (if (s.blk.axis n).brushless then AX.BL_HOME.HOME_TMO else AX.HOME_CFG.HOME_TMO) ≤ (s.blk.axis n).mot.homeTicks then
      (t.axis n).homing = false ∧ (t.axis n).mot.waiting = none ∧ (t.axis n).mot.queued = none
      ∧ (t.axis n).flagged (if (s.blk.axis n).brushless then AX.BL_EVT.HOME_FAIL else AX.ST_EVT.HOME_FAIL)
      ∧ ((s.blk.axis n).ramps false = true → (t.axis n).mot.mode ∈ [.stopping, .hold, .fallow])
      else t.axis n = s.blk.axis n) := by
  refine does_of_onBlk (f := fun b => b.cell n Cell.homeLate) rfl ⟨s.blk.cell_only n _, s.blk.cell_still n _, ?_⟩
  have hiff : ((s.blk.axis n).homing && (s.blk.axis n).homeExpired) = true ↔ (s.blk.axis n).homing = true ∧
      (s.blk.axis n).r (s.blk.axis n).homeTmo ≠ 0 ∧ 2500 * (s.blk.axis n).r (s.blk.axis n).homeTmo ≤ (s.blk.axis n).mot.homeTicks := by
    rw [Bool.and_eq_true, Axis.homeExpired_iff]
  by_cases h : (s.blk.axis n).homing = true ∧ (s.blk.axis n).r (s.blk.axis n).homeTmo ≠ 0 ∧
      2500 * (s.blk.axis n).r (s.blk.axis n).homeTmo ≤ (s.blk.axis n).mot.homeTicks
  · have he : (s.blk.cellOf n).homeLate = (s.blk.cellOf n).homeFail.stop .stop := if_pos (hiff.2 h)
    have hl := s.blk.cell_leaves n Cell.homeLate
    have hmotor := s.blk.cell_axis_motor n Cell.homeLate
    rw [he] at hl hmotor
    obtain ⟨hhoming, hdrained, hflag, hramps⟩ := (s.blk.cellOf n).homeLate_fails h.1
    have hplace : (s.blk.axis n).homeFailFlag.ev < 6 ∧ (s.blk.axis n).homeFailFlag.bit < 24 := by unfold Axis.homeFailFlag; split <;> decide
    refine (if_pos h).symm ▸ ?_
    rw [hl.homing hmotor, hl.mot]
    exact ⟨hhoming, hdrained.1, hdrained.2, hl.flagged hflag hplace.1 hplace.2, hramps⟩
  · refine (if_neg h).symm ▸ ?_
    exact s.blk.cell_axis_of_same n (if_neg (mt hiff.1 h))

/-! ### A locked rotor (05 R168) -/

theorem Axis.lockDue_iff (a : Axis) : a.lockDue = true ↔ a.brushless = true ∧ a.mot.mode.running = true ∧ a.homing = false ∧ a.bl.brake = .none ∧
    a.starting = false ∧ 250 * max 1 (a.r AX.BL_LOCK.T_LOCK) ≤ a.bl.lockTicks := by
  simp only [Axis.lockDue, Axis.lockCounted, Bool.and_eq_true, Bool.not_eq_true', beq_iff_eq, decide_eq_true_eq, and_assoc]

/-- A locked rotor as it is reported, its move given up. -/
def Cell.givesUp (c : Cell) : Cell :=
  (((((((c.setB AX.BL_STAT.LOCKED true).raise AX.BL_EVT.LOCKED).count AX.BL_CNT1.LOCK_CNT).event 0x06 []).discard.endJob false).count
    AX.MOT_CNT.STOPS).mot fun m => { m with left := true })

theorem Cell.lockedRotor_of_due (c : Cell) (h : c.ax.lockDue = true) : c.lockedRotor = c.givesUp.startBrake .locked := by
  unfold Cell.lockedRotor
  rw [h]
  rfl

theorem Cell.givesUp_ends (c : Cell) : c.givesUp.ax.motor = c.ax.motor ∧ c.givesUp.ax.b AX.BL_STAT.LOCKED = true ∧ AX.BL_EVT.LOCKED ∈ c.givesUp.flags ∧
    c.givesUp.ax.mot.job = none ∧ c.givesUp.ax.mot.waiting = none ∧ c.givesUp.ax.mot.pCmd = c.ax.mot.pCmd := by
  unfold Cell.givesUp
  generalize hd : ((((c.setB AX.BL_STAT.LOCKED true).raise AX.BL_EVT.LOCKED).count AX.BL_CNT1.LOCK_CNT).event 0x06 []) = d
  have hmot : d.ax.mot = c.ax.mot ∧ d.ax.motor = c.ax.motor := by rw [← hd]; exact ⟨rfl, rfl⟩
  have hlocked : d.ax.b AX.BL_STAT.LOCKED = true := by
    rw [← hd]
    exact (Axis.b_count_apart _).trans (c.ax.b_setB_same _ true (by decide) (by decide) (by decide))
  have hflag : AX.BL_EVT.LOCKED ∈ d.flags := by rw [← hd]; exact List.mem_append_right _ (List.mem_singleton_self _)
  have hends : d.ax.EndsAs ((d.discard.endJob false).count AX.MOT_CNT.STOPS).ax :=
    (d.discard_endsAs.trans (Cell.endJob_endsAs _ false)).trans (Axis.count_endsAs _ AX.MOT_CNT.STOPS)
  have hcalm := d.discard.endJob_calm false
  refine ⟨hends.motor.trans hmot.2, (hends.b AX.BL_STAT.LOCKED).trans hlocked, ?_, Cell.endJob_job _ false, (hcalm.drained d.discard_drained).1, ?_⟩
  · exact (d.discard.endJob_legsKept false).flags hflag
  · exact (d.discard_calm.trans hcalm).pos.trans (congrArg Motion.pCmd hmot.1)

/-- Short-braking marks a brushless axis, and leaves it locked if it is. -/
theorem Cell.startBrake_marks (c : Cell) (w : Brake) (h : c.ax.brushless = true) : (c.startBrake w).ax.b AX.BL_STAT.BRAKE = true ∧
    (c.startBrake w).ax.b AX.BL_STAT.LOCKED = c.ax.b AX.BL_STAT.LOCKED := by
  refine ⟨?_, (c.startBrake_endsAs w).b AX.BL_STAT.LOCKED⟩
  unfold Cell.startBrake
  extract_lets d e
  have he : e.ax.brushless = true := h
  rw [if_pos he]
  exact (Axis.b_setB_apart _ false).trans (Axis.b_setB_same _ _ true (by decide) (by decide) (by decide))

theorem lockedRotor_brakes (s : State) (n : Fin 48) :
    Does (.lockedRotor n) s fun t => s.blk.only t n ∧ s.blk.still t ∧
      (if (s.blk.axis n).brushless = true ∧ (s.blk.axis n).mot.mode.running = true ∧ (s.blk.axis n).homing = false
      ∧ (s.blk.axis n).bl.brake = .none ∧ (s.blk.axis n).starting = false
      ∧ 250 * max 1 ((s.blk.axis n).r AX.BL_LOCK.T_LOCK) ≤ (s.blk.axis n).bl.lockTicks then
      (t.axis n).mot.mode = .park ∧ (t.axis n).bl.brake = .locked ∧ (t.axis n).b AX.BL_STAT.LOCKED = true ∧ (t.axis n).b AX.BL_STAT.BRAKE = true
      ∧ (t.axis n).flagged AX.BL_EVT.LOCKED ∧ (t.axis n).mot.job = none ∧ (t.axis n).mot.waiting = none
      ∧ (t.axis n).mot.pCmd = (s.blk.axis n).mot.pCmd
      else t.axis n = s.blk.axis n) := by
  refine does_of_onBlk (f := fun b => b.cell n Cell.lockedRotor) rfl ⟨s.blk.cell_only n _, s.blk.cell_still n _, ?_⟩
  split
  · next h =>
    have he := (s.blk.cellOf n).lockedRotor_of_due ((Axis.lockDue_iff _).2 h)
    have hl := s.blk.cell_leaves n Cell.lockedRotor
    obtain ⟨hmotor, hlocked, hflag, hjob, hwait, hpos⟩ := (s.blk.cellOf n).givesUp_ends
    rw [Blk.cell_axis_bl, he]
    rw [he] at hl
    generalize (s.blk.cellOf n).givesUp = c at hl hmotor hlocked hflag hjob hwait hpos
    obtain ⟨hbrake, hkept⟩ := c.startBrake_marks .locked ((Axis.brushless_congr hmotor).trans h.1)
    have hfl : AX.BL_EVT.LOCKED ∈ (c.startBrake .locked).flags := by rw [c.startBrake_flags]; exact hflag
    rw [hl.mot, c.startBrake_mot, hl.b AX.BL_STAT.LOCKED, hl.b AX.BL_STAT.BRAKE]
    exact ⟨rfl, c.startBrake_brake .locked, hkept.trans hlocked, hbrake, hl.flagged hfl (by decide) (by decide), hjob, hwait, hpos⟩
  · next h => exact s.blk.cell_axis_of_same n ((s.blk.cellOf n).lockedRotor_of_not_due (Bool.eq_false_iff.2 (mt (Axis.lockDue_iff _).1 h)))

/-- A fallow axis neither brakes nor watches its comparators (03 R93, 05 R166). -/
theorem Cell.goFallow_brake (c : Cell) : c.goFallow.ax.bl.brake = .none ∧ c.goFallow.ax.trip.live = false := by
  have ht : ∀ b : Bl, ∀ (m : Nat) (d : Bool), (b.takeHall m d).brake = b.brake := fun b m d => ite_keeps Bl.brake rfl rfl
  unfold Cell.goFallow
  extract_lets lose d a _ _ _ _ a0 a1 a2 a3 a4 a5 _
  have h1 : a1.bl.brake = .none ∧ a1.trip.live = false := ⟨ht _ _ _, rfl⟩
  have h5 : a5.bl = a1.bl ∧ a5.trip = a1.trip := ⟨rfl, rfl⟩
  exact ⟨(congrArg Bl.brake h5.1).trans h1.1, (congrArg Trip.live h5.2).trans h1.2⟩

/-- The short-brake of a locked rotor ends after its 200 ms. -/
def Cell.lockedEnds (c : Cell) : Cell := if c.ax.bl.brake == .locked && decide (5000 ≤ c.ax.bl.brakeN) then c.goFallow else c

theorem lockedBrakeEnd_falls (s : State) (n : Fin 48) :
    Does (.lockedBrakeEnd n) s fun t => s.blk.only t n ∧ s.blk.still t ∧
      (if (s.blk.axis n).bl.brake = .locked ∧ 5000 ≤ (s.blk.axis n).bl.brakeN then
      (t.axis n).mot.mode.enabled = false ∧ (t.axis n).bl.brake = .none ∧ (t.axis n).trip.live = false
      ∧ (t.axis n).mot.pCmd = (s.blk.axis n).mot.pCmd
      else t.axis n = s.blk.axis n) := by
  refine does_of_onBlk (f := fun b => b.cell n Cell.lockedEnds) rfl ⟨s.blk.cell_only n _, s.blk.cell_still n _, ?_⟩
  have hiff : ((s.blk.axis n).bl.brake == .locked && decide (5000 ≤ (s.blk.axis n).bl.brakeN)) = true ↔
      (s.blk.axis n).bl.brake = .locked ∧ 5000 ≤ (s.blk.axis n).bl.brakeN := by
    simp only [Bool.and_eq_true, beq_iff_eq, decide_eq_true_eq]
  split
  · next h =>
    have he : (s.blk.cellOf n).lockedEnds = (s.blk.cellOf n).goFallow := if_pos (hiff.2 h)
    rw [Blk.cell_axis_mot, Blk.cell_axis_bl, Blk.cell_axis_trip, he]
    obtain ⟨hbrake, hlive⟩ := (s.blk.cellOf n).goFallow_brake
    exact ⟨Cell.goFallow_enabled _, hbrake, hlive, (Cell.goFallow_calm _).pos⟩
  · next h => exact s.blk.cell_axis_of_same n (if_neg (mt hiff.1 h))

/-- Settles O47: a stall, an obstacle, a home, the end of its time and a locked rotor by what each makes of its cell. -/
theorem runsEndByEvents : Obligations.RunsEndByEvents := by
  unfold Obligations.RunsEndByEvents
  exact ⟨stall_holds, ceilingExpiry_slews, ceilingExpiry_not, obstacle_reacts, obstacle_not, obstacle_stall, obstacle_locked, homeFound_finds,
    homeTimeout_stops, lockedRotor_brakes, lockedBrakeEnd_falls⟩

end Sys2Proof.Machine
end

section
/-!
The step input (04 R136, R137, 05 R176): each clause of `Obligations.StepEdgeWindow` as a lemma of its own.
-/

namespace Sys2Proof.Machine

open Sys2Proof.Safety

/-! ### Flags that are not raised -/

theorem foldl_or_testBit (l : List Flag) (m k : Nat) (h : ∀ g ∈ l, g.bit ≠ k) :
    (l.foldl (fun m g => m ||| 2 ^ g.bit) m).testBit k = m.testBit k := by
  refine foldl_keeps_mem (fun m : Nat => m.testBit k) _ l (fun m g hg => ?_) m
  simp [Nat.testBit_or, h g hg]

/-- The mask of a raise holds no other flag. -/
theorem flagMask_testBit_of_notMem {l : List Flag} {f : Flag} (h : f ∉ l) : (flagMask l f.ev).testBit f.bit = false := by
  refine (foldl_or_testBit _ 0 f.bit fun g hg hb => ?_).trans (Nat.zero_testBit _)
  obtain ⟨hmem, hev⟩ := List.mem_filter.1 hg
  have hgf : g = f := by
    obtain ⟨ev, bit⟩ := g
    obtain ⟨ev', bit'⟩ := f
    simp only [beq_iff_eq] at hev hb
    rw [hev, hb]
  exact h (hgf ▸ hmem)

theorem axEvReg_ne : ∀ e < 6, ∀ f < 6, e ≠ f → (axEvRegs[e]?).getD 0 ≠ (axEvRegs[f]?).getD 0 := by decide

/-- Raising other flags leaves a flag of an axis as it is (13 R440). -/
theorem Blk.raiseAx_flagged_iff (b : Blk) (n : Fin 48) {l : List Flag} {f : Flag} (h : f ∉ l) (hev : f.ev < 6) (hf : f.bit < 24) :
    ((b.raiseAx n l).axis n).flagged f ↔ (b.axis n).flagged f := by
  refine iff_of_eq (foldl_keeps_mem (fun b : Blk => (b.axis n).flagged f) _ _ (fun b ev hmem => ?_) b)
  refine ite_keeps (fun b : Blk => (b.axis n).flagged f) rfl ?_
  rw [Blk.axis_of_ax (Blk.logRaise_ax ..), Blk.axis_mapAx]
  simp only [Axis.flagged, Vector.getElem?_setIfInBounds]
  by_cases he : ev = f.ev
  · subst he
    rw [if_pos rfl]
    split
    · rw [Option.getD_some, getLsbD_raiseWord _ _ hf, flagMask_testBit_of_notMem h, Bool.or_false]
    · next hk => rw [Vector.getElem?_eq_none (Nat.le_of_not_lt hk)]
  · rw [if_neg (axEvReg_ne ev (List.mem_range.1 hmem) f.ev hev he)]

theorem Blk.cell_axis_flagged_iff (b : Blk) (n : Fin 48) (g : Cell → Cell) {f : Flag} (h : f ∉ (g (b.cellOf n)).flags) (hev : f.ev < 6)
    (hf : f.bit < 24) : ((b.cell n g).axis n).flagged f ↔ (g (b.cellOf n)).ax.flagged f := by
  rw [Blk.cell_axis_eq, Blk.raiseAx_flagged_iff _ n h hev hf]
  exact iff_of_eq (congrArg (fun a : Axis => a.flagged f) (get_set_same ..))

/-- A counter is no flag. -/
theorem Axis.count_flagged (a : Axis) {c : Fld} {f : Flag} (hc : c.reg ∉ axEvRegs) (hev : f.ev < 6) : (a.count c).flagged f ↔ a.flagged f := by
  have hne : (axEvRegs[f.ev]?).getD 0 ≠ c.reg := fun e => hc (e ▸ axEvReg_mem hev)
  unfold Axis.flagged
  rw [show (a.count c).regs[(axEvRegs[f.ev]?).getD 0]? = a.regs[(axEvRegs[f.ev]?).getD 0]? from c.getElem?_put_ne a.regs _ hne]

/-! ### A step edge -/

theorem stepEdge_does {s : State} {n : Fin 48} {x : StepIn} (ha : (s.blk.axis n).activeEdge x.rising = true) {P : Blk → Prop}
    (h : P ((s.blk.cell n fun c => c.stepEdge x.at200 (x.dir.getD (Config.freeBool s.blk.fresh))).draw (if x.dir = none then 1 else 0))) :
    Does (.stepEdge n x) s P := by
  refine does_of_onBlk (c := .stepEdge n x) (f := fun b => if !(b.axis n).activeEdge x.rising then b else
    match x.dir with
    | some d => b.cell n fun c => c.stepEdge x.at200 d
    | none => (b.cell n fun c => c.stepEdge x.at200 (Config.freeBool b.fresh)).draw) rfl ?_
  rw [ha]
  cases hd : x.dir with
  | none => rw [hd] at h; exact h
  | some d => rw [hd] at h; exact h

/-- An axis that loses an edge within 250 ns of the last accepted one (04 R137). -/
theorem Cell.stepEdge_lost (c : Cell) {at200 u : Nat} (dir : Bool) (hm : c.ax.mot.mode = .followStep) (hl : c.ax.mot.lastStep = some u)
    (hu : at200 < u + 50) : c.stepEdge at200 dir =
      if c.ax.brushless then (c.count AX.BL_CNT2.STEP_LOST).raise AX.BL_EVT.STEP_LOST
      else (c.count AX.STEP_CNT.STEP_LOST).raise AX.ST_EVT.STEP_LOST := by
  unfold Cell.stepEdge
  simp [hm, hl, hu]

/-- The step of an edge in the direction that AUXB selects: 2^(22 − `STEP_RES`) ac (04 R136, 05 R176). -/
def Axis.stepOf (a : Axis) (dir : Bool) : Int :=
  let res := if a.brushless then a.r AX.BL_STEP.STEP_RES else a.r AX.STEP_CFG.STEP_RES
  let inv := if a.brushless then a.b AX.BL_STEP.DIR_INV else a.b AX.STEP_CFG.DIR_INV
  if dir != inv then 2 ^ (22 - res) else -(2 ^ (22 - res))

/-- The lag after an edge would pass one electrical revolution (04 R138). -/
def Axis.stepOver (a : Axis) (dir : Bool) : Prop := 2 ^ 24 < (a.mot.stepTgt + a.stepOf dir - a.mot.pCmd).natAbs

theorem Cell.stepEdge_accepted (c : Cell) {at200 : Nat} (dir : Bool) (hm : c.ax.mot.mode = .followStep)
    (hl : ∀ u ∈ c.ax.mot.lastStep, u + 50 ≤ at200) :
    (c.ax.stepOver dir ∧ ∃ cnt flag, c.stepEdge at200 dir = ((c.mot fun m => { m with lastStep := some at200 }).count cnt).raise flag ∧
      ((cnt = AX.BL_CNT2.STEP_OVR ∧ flag = AX.BL_EVT.STEP_OVR) ∨ (cnt = AX.STEP_CNT.STEP_OVR ∧ flag = AX.ST_EVT.STEP_OVR))) ∨
    (¬ c.ax.stepOver dir ∧
      c.stepEdge at200 dir = c.mot fun m => { m with lastStep := some at200, stepTgt := c.ax.mot.stepTgt + c.ax.stepOf dir }) := by
  have hlost : (c.ax.mot.lastStep.elim false fun t => decide (at200 < t + 50)) = false := by
    cases hu : c.ax.mot.lastStep with
    | none => rfl
    | some u => exact decide_eq_false (Nat.not_lt.2 (hl u hu))
  unfold Cell.stepEdge
  extract_lets a bl lost res inv d t e
  have hl' : lost = false := hlost
  have hm' : (a.mot.mode != Mode.followStep) = false := bne_eq_false_iff_eq.2 hm
  rw [if_neg (by simp [hm']), if_neg (by simp [hl'])]
  by_cases ho : 2 ^ 24 < (t - a.mot.pCmd).natAbs
  · refine .inl ⟨ho, ?_⟩
    rw [if_pos ho]
    split
    · exact ⟨_, _, rfl, .inl ⟨rfl, rfl⟩⟩
    · exact ⟨_, _, rfl, .inr ⟨rfl, rfl⟩⟩
  · refine .inr ⟨ho, ?_⟩
    rw [if_neg ho]
    rfl

theorem stepEdge_loses (s : State) (n : Fin 48) (x : StepIn) (u : Nat) (hm : (s.blk.axis n).mot.mode = .followStep)
    (ha : (s.blk.axis n).activeEdge x.rising = true) (hl : (s.blk.axis n).mot.lastStep = some u) (_hu : u ≤ x.at200) (hw : x.at200 < u + 50) :
    Does (.stepEdge n x) s fun t => (t.axis n).mot = (s.blk.axis n).mot ∧ s.blk.only t n
      ∧ (if (s.blk.axis n).brushless then
      (t.axis n).r AX.BL_CNT2.STEP_LOST = min ((s.blk.axis n).r AX.BL_CNT2.STEP_LOST + 1) (2 ^ AX.BL_CNT2.STEP_LOST.w - 1)
      ∧ (t.axis n).flagged AX.BL_EVT.STEP_LOST
      else (t.axis n).r AX.STEP_CNT.STEP_LOST = min ((s.blk.axis n).r AX.STEP_CNT.STEP_LOST + 1) (2 ^ AX.STEP_CNT.STEP_LOST.w - 1)
      ∧ (t.axis n).flagged AX.ST_EVT.STEP_LOST) := by
  refine stepEdge_does ha ?_
  generalize x.dir.getD (Config.freeBool s.blk.fresh) = dir
  have he := (s.blk.cellOf n).stepEdge_lost dir hm hl hw
  have hk := s.blk.cell_leaves n fun c => c.stepEdge x.at200 dir
  have honly := s.blk.cell_only n fun c => c.stepEdge x.at200 dir
  have hflag : ∀ (d : Cell) (f : Flag), f ∈ (d.raise f).flags := fun d f => List.mem_append_right _ (List.mem_singleton_self _)
  rw [he] at hk
  by_cases hb : (s.blk.axis n).brushless = true
  · rw [if_pos (show (s.blk.cellOf n).ax.brushless = true from hb)] at hk
    rw [if_pos hb]
    exact ⟨hk.mot, honly, (hk.r AX.BL_CNT2.STEP_LOST).trans (Fld.get_count_same _ _ _ (by decide) (by decide)),
      hk.flagged (hflag _ _) (by decide) (by decide)⟩
  · rw [if_neg (show ¬ (s.blk.cellOf n).ax.brushless = true from hb)] at hk
    rw [if_neg hb]
    exact ⟨hk.mot, honly, (hk.r AX.STEP_CNT.STEP_LOST).trans (Fld.get_count_same _ _ _ (by decide) (by decide)),
      hk.flagged (hflag _ _) (by decide) (by decide)⟩

/-- What an accepted edge leaves of its cell: it is the last edge, and neither count nor flag says that it was lost. -/
theorem Cell.stepEdge_accepts (c : Cell) {at200 : Nat} (dir : Bool) (hm : c.ax.mot.mode = .followStep)
    (hl : ∀ u ∈ c.ax.mot.lastStep, u + 50 ≤ at200) (hc : c.flags = []) :
    (c.stepEdge at200 dir).ax.mot.lastStep = some at200 ∧
    (∀ f ∈ [AX.BL_CNT2.STEP_LOST, AX.STEP_CNT.STEP_LOST], (c.stepEdge at200 dir).ax.r f = c.ax.r f) ∧
    ∀ f ∈ [AX.ST_EVT.STEP_LOST, AX.BL_EVT.STEP_LOST], f ∉ (c.stepEdge at200 dir).flags ∧ ((c.stepEdge at200 dir).ax.flagged f ↔ c.ax.flagged f) := by
  obtain ⟨-, cnt, flag, he, hof⟩ | ⟨-, he⟩ := c.stepEdge_accepted dir hm hl
  · have hcnt : cnt.reg ∉ axEvRegs ∧ ∀ f ∈ [AX.BL_CNT2.STEP_LOST, AX.STEP_CNT.STEP_LOST], f.apart cnt = true := by
      obtain ⟨rfl, -⟩ | ⟨rfl, -⟩ := hof <;> decide
    have hflag : ∀ f ∈ [AX.ST_EVT.STEP_LOST, AX.BL_EVT.STEP_LOST], f ∉ [flag] ∧ f.ev < 6 := by
      obtain ⟨-, rfl⟩ | ⟨-, rfl⟩ := hof <;> decide
    rw [he]
    refine ⟨rfl, fun f hf => Axis.r_count_apart _ (hcnt.2 f hf), fun f hf => ⟨?_, Axis.count_flagged _ hcnt.1 (hflag f hf).2⟩⟩
    show f ∉ c.flags ++ [flag]
    rw [hc, List.nil_append]
    exact (hflag f hf).1
  · rw [he]
    refine ⟨rfl, fun _ _ => rfl, fun f _ => ⟨?_, Iff.rfl⟩⟩
    show f ∉ c.flags
    rw [hc]
    exact List.not_mem_nil

theorem stepEdge_accepts (s : State) (n : Fin 48) (x : StepIn) (hm : (s.blk.axis n).mot.mode = .followStep)
    (ha : (s.blk.axis n).activeEdge x.rising = true) (hl : ∀ u ∈ (s.blk.axis n).mot.lastStep, u + 50 ≤ x.at200) :
    Does (.stepEdge n x) s fun t => (t.axis n).mot.lastStep = some x.at200 ∧ s.blk.only t n
      ∧ (t.axis n).r AX.BL_CNT2.STEP_LOST = (s.blk.axis n).r AX.BL_CNT2.STEP_LOST
      ∧ (t.axis n).r AX.STEP_CNT.STEP_LOST = (s.blk.axis n).r AX.STEP_CNT.STEP_LOST
      ∧ ((t.axis n).flagged AX.ST_EVT.STEP_LOST ↔ (s.blk.axis n).flagged AX.ST_EVT.STEP_LOST)
      ∧ ((t.axis n).flagged AX.BL_EVT.STEP_LOST ↔ (s.blk.axis n).flagged AX.BL_EVT.STEP_LOST) := by
  refine stepEdge_does ha ?_
  generalize x.dir.getD (Config.freeBool s.blk.fresh) = dir
  obtain ⟨hlast, hcnt, hflag⟩ := (s.blk.cellOf n).stepEdge_accepts dir hm hl rfl
  have hk := s.blk.cell_leaves n fun c => c.stepEdge x.at200 dir
  have hf : ∀ f ∈ [AX.ST_EVT.STEP_LOST, AX.BL_EVT.STEP_LOST],
      ((s.blk.cell n fun c => c.stepEdge x.at200 dir).axis n).flagged f ↔ (s.blk.axis n).flagged f := fun f hf => by
    have hplace : ∀ f ∈ [AX.ST_EVT.STEP_LOST, AX.BL_EVT.STEP_LOST], f.ev < 6 ∧ f.bit < 24 := by decide
    exact (s.blk.cell_axis_flagged_iff n _ (hflag f hf).1 (hplace f hf).1 (hplace f hf).2).trans (hflag f hf).2
  have honly := s.blk.cell_only n fun c => c.stepEdge x.at200 dir
  exact ⟨(congrArg Motion.lastStep hk.mot).trans hlast, honly, (hk.r AX.BL_CNT2.STEP_LOST).trans (hcnt AX.BL_CNT2.STEP_LOST (by simp)),
    (hk.r AX.STEP_CNT.STEP_LOST).trans (hcnt AX.STEP_CNT.STEP_LOST (by simp)), hf AX.ST_EVT.STEP_LOST (by simp), hf AX.BL_EVT.STEP_LOST (by simp)⟩

/-- Settles O48: an edge within the window counts as lost, and one at or past its end is the new last edge. -/
theorem stepEdgeWindow : Obligations.StepEdgeWindow := by
  unfold Obligations.StepEdgeWindow
  exact ⟨stepEdge_loses, stepEdge_accepts⟩

end Sys2Proof.Machine
end

section
/-!
Inputs of a drive: a Hall code whose failure ends a homing run at rest leaves the axis fallow, where the `HALL_DIR` that was written comes into force and
mirrors the sector (05 R145, R147, R164, 06 R200).  `Obligations.InputsAct` has the sector stay that of the sense in force before.
-/

namespace Sys2Proof.Machine

open Sys2Proof.Safety

theorem blk_of_does {c : Instr} {s : State} {f : Blk → Blk} {P : Blk → Prop} (h : exec c s = onBlk f s) (hd : Does c s P) : P (f s.blk) := by
  obtain ⟨t, ht, -, hp⟩ := hd
  rw [h] at ht
  injection ht with ht
  rw [← ht] at hp
  exact hp

/-- A brushless axis in a homing run that stands still and goes fallow at rest: its Halls are in sector 0, two skips lie in the last 100 ms, and the other
`HALL_DIR` is written but not yet in force. -/
def skippedAxis : Axis :=
  let a := (({ Axis.reset 5 with motor := .brushless } : Axis).setB AX.BL_STAT.HOMING true).setB AX.BL_CFG.HALL_DIR true
  { a with mot := { a.mot with mode := .velocity, fallowAfter := true }, bl := { a.bl with sector := some 0, posSrc := .halls, skips := [0, 0] } }

/-- A module after reset but for that axis. -/
def skippedState : State := ⟨[], Blk.reset.mapAx 5 fun _ => skippedAxis⟩

/-- The code of sector 3, which stands: a third skip. -/
def skipCode : HallIn := ⟨false, true, true, 25⟩

/-- What an accepted Hall code makes of its cell. -/
def Cell.takesHall (x : HallIn) (cyc : Nat) (nap : NapSt) (c : Cell) : Cell :=
  if !c.ax.hallStood x then c else
  let d := c.hallCode (HallIn.lines x) cyc
  if nap == .napping && d.ax.bl.skips != c.ax.bl.skips then d.setUnc else d

theorem hallEdge_of_does {s : State} {n : Fin 48} {x : HallIn} {cyc : Nat} {P : Blk → Prop} (h : Does (.hallEdge n x cyc) s P) :
    P (s.blk.cell n (Cell.takesHall x cyc s.blk.nap)) :=
  blk_of_does (f := fun b => b.cell n (Cell.takesHall x cyc b.nap)) rfl h

/-- The third skip fails the Halls, which ends the homing run; fallow, the axis takes the other sense, and sector 3 reads 2. -/
theorem skipCode_mirrors : (((skippedState.blk.cellOf 5).takesHall skipCode 1000 skippedState.blk.nap).ax.bl.sector) = some 2 := by
  decide +kernel

theorem skipCode_counts : ¬ ((skippedState.blk.axis 5).brushless = false ∨ (skippedState.blk.axis 5).bl.sensorSupply = false ∨
    skipCode.stood < (skippedState.blk.axis 5).r AX.BL_HALL.HALL_FLT) := by
  decide +kernel

theorem skipCode_sector : hallSector (HallIn.lines skipCode) (skippedState.blk.axis 5).bl.hallDir = some 3 := by
  decide +kernel

/-- What the statement says of the sector that an accepted code leaves. -/
theorem sector_of_inputsAct (h : Obligations.InputsAct) (s : State) (n : Fin 48) (x : HallIn) (cyc : Nat)
    (hx : ¬ ((s.blk.axis n).brushless = false ∨ (s.blk.axis n).bl.sensorSupply = false ∨ x.stood < (s.blk.axis n).r AX.BL_HALL.HALL_FLT)) :
    ((s.blk.cellOf n).takesHall x cyc s.blk.nap).ax.bl.sector = hallSector (HallIn.lines x) (s.blk.axis n).bl.hallDir := by
  unfold Obligations.InputsAct at h
  obtain ⟨-, -, hhall, -, -⟩ := h
  obtain ⟨-, -, -, hif⟩ := hallEdge_of_does (hhall s n x cyc (HallIn.lines x) rfl)
  rw [if_neg hx] at hif
  obtain ⟨hsector, -⟩ := hif
  rwa [Blk.cell_axis_bl] at hsector

/-- Refutes O49: the statement has an accepted code leave its sector in the sense that was in force, in every state.  Where the code is the third skip on an
axis that homes at rest with a `FALLOW` due, the axis goes fallow, the pending `HALL_DIR` comes into force, and the sector is the mirrored one. -/
theorem not_inputsAct : ¬ Obligations.InputsAct := by
  intro h
  have hsector := sector_of_inputsAct h skippedState 5 skipCode 1000 skipCode_counts
  rw [skipCode_mirrors, skipCode_sector] at hsector
  exact absurd hsector (by decide)

end Sys2Proof.Machine
end

section
/-!
The ends of a sensorless start: what FALLOW, parking and a move that begins leave of the start sequence, of the flags and of a rotor that is caught
(05 R157 to R170).
-/

namespace Sys2Proof.Machine

/-- From one cell to another every raised flag stays, no start sequence begins, and no rotor begins to be caught. -/
structure Cell.Settles (c d : Cell) : Prop where
  flags : c.flags ⊆ d.flags
  start : c.ax.bl.start = .none → d.ax.bl.start = .none
  caught : c.ax.b AX.BL_STAT.CATCH = false → d.ax.b AX.BL_STAT.CATCH = false

theorem Cell.Settles.trans {c d e : Cell} (h : c.Settles d) (k : d.Settles e) : c.Settles e :=
  ⟨fun _ m => k.flags (h.flags m), fun s => k.start (h.start s), fun s => k.caught (h.caught s)⟩

/-- A step that leaves registers and start sequence, and at most raises flags. -/
theorem Cell.Settles.of_eq {c d : Cell} (hs : d.ax.bl.start = c.ax.bl.start := by rfl) (hr : d.ax.regs = c.ax.regs := by rfl)
    (hf : c.flags ⊆ d.flags := by exact fun _ h => h) : c.Settles d :=
  ⟨hf, fun h => hs.trans h, fun h => (Axis.b_of_r (congrArg AX.BL_STAT.CATCH.get hr)).trans h⟩

theorem Cell.Settles.refl (c : Cell) : c.Settles c := .of_eq

theorem Cell.Settles.ite {c d e : Cell} {p : Prop} [Decidable p] (hd : c.Settles d) (he : c.Settles e) : c.Settles (if p then d else e) := by
  split
  · exact hd
  · exact he

/-! ### Plain updates -/

theorem Cell.set_settles (c : Cell) (f : Fld) (v : Nat) (h : AX.BL_STAT.CATCH.apart f = true := by decide) : c.Settles (c.set f v) :=
  ⟨fun _ m => m, id, fun s => (Axis.b_of_r (c.ax.r_set_apart v h)).trans s⟩

theorem Cell.setB_settles (c : Cell) (f : Fld) (v : Bool) (h : AX.BL_STAT.CATCH.apart f = true := by decide) : c.Settles (c.setB f v) :=
  c.set_settles f _ h

theorem Cell.count_settles (c : Cell) (f : Fld) (h : AX.BL_STAT.CATCH.apart f = true := by decide) : c.Settles (c.count f) :=
  ⟨fun _ m => m, id, fun s => (Axis.b_of_r (c.ax.r_count_apart h)).trans s⟩

theorem Cell.raise_settles (c : Cell) (f : Flag) : c.Settles (c.raise f) := .of_eq rfl rfl (List.subset_append_left ..)

/-! ### The ends of a move -/

theorem Cell.setUnc_settles (c : Cell) : c.Settles c.setUnc := by
  refine .ite ?_ ((Cell.setB_settles _ _ true).trans (Cell.setB_settles _ _ false))
  have hr : c.Settles (c.raiseIf (!c.ax.b AX.BL_STAT.POS_UNC) AX.BL_EVT.POS_UNC) := .ite (c.raise_settles _) (.refl c)
  exact hr.trans ((Cell.setB_settles _ _ true).trans (Cell.setB_settles _ _ false))

theorem Cell.endJob_settles (c : Cell) (done : Bool) : c.Settles (c.endJob done) := by
  unfold Cell.endJob
  split
  · exact .refl c
  · extract_lets e dev d1 d2 l d3
    have h1 : c.Settles d1 := ((c.set_settles AX.LEDG_LAST.E_LAST _).trans (Cell.set_settles _ AX.LEDG_LAST.E_PRED _)).trans
      (Cell.setB_settles _ AX.LEDG_AX.MODEL_DEV dev)
    have h2 : d1.Settles d2 := .ite .of_eq (.refl d1)
    have h3 : d2.Settles d3 := .ite (.trans (d := d2.map fun a => { a with learned := l }) .of_eq (Cell.set_settles _ AX.LEDG_LEARN.E_LEARN _)) (.refl d2)
    exact ((h1.trans h2).trans h3).trans .of_eq

/-- A fallow axis starts nothing and catches nothing (05 R177). -/
theorem Cell.goFallow_start (c : Cell) : c.goFallow.ax.bl.start = .none ∧ c.goFallow.ax.b AX.BL_STAT.CATCH = false := by
  have ht : ∀ b : Bl, ∀ (m : Nat) (d : Bool), (b.takeHall m d).start = b.start := fun b m d => ite_keeps Bl.start rfl rfl
  unfold Cell.goFallow
  extract_lets lose d a _ _ _ _ a0 a1 a2 a3 a4 a5 _
  have h1 : a1.bl.start = .none := ht _ _ _
  have h4 : a4.b AX.BL_STAT.CATCH = false :=
    ((Axis.b_setB_apart _ false).trans (Axis.b_setB_apart _ false)).trans (Axis.b_setB_same a3 _ false (by decide) (by decide) (by decide))
  have h5 : a5.bl = a1.bl ∧ a5.b AX.BL_STAT.CATCH = a4.b AX.BL_STAT.CATCH := ⟨rfl, a4.b_setB_apart (f := AX.RST_STAT.ORPHAN) false⟩
  clear_value a5 a4 a1
  exact ⟨(congrArg Bl.start h5.1).trans h1, h5.2.trans h4⟩

theorem Cell.goFallow_job (c : Cell) : c.goFallow.ax.mot.job = c.ax.mot.job := by
  have hm : ∀ x : Bool, (if x = true then c.setUnc else c).ax.mot = c.ax.mot := fun x => ite_keeps (fun c : Cell => c.ax.mot) c.setUnc_mot rfl
  unfold Cell.goFallow
  extract_lets lose d a _ _ _ _ a0 a1 a2 a3 a4 a5 _
  have hd : d.ax.mot = c.ax.mot := hm lose
  have h5 : a5.mot.job = d.ax.mot.job := rfl
  clear_value a5
  exact h5.trans (congrArg Motion.job hd)

theorem Cell.goFallow_settles (c : Cell) : c.Settles c.goFallow :=
  ⟨c.goFallow_legsKept.flags, fun _ => c.goFallow_start.1, fun _ => c.goFallow_start.2⟩

/-- What a start that fails leaves (05 R159, R170). -/
theorem Cell.startFails_ends (c : Cell) (f : Flag) : (c.startFails f).ax.mot.mode.enabled = false ∧ (c.startFails f).ax.mot.job = none ∧
    (c.startFails f).ax.mot.waiting = none ∧ f ∈ (c.startFails f).flags ∧ (c.startFails f).ax.bl.brake = .none := by
  have hjob : (((c.raise f).homeFail.endJob false).dropWaiting false).ax.mot.job = none :=
    ite_keeps (fun j : Option Job => j) rfl (Cell.endJob_job _ false)
  have hflag : f ∈ (((c.raise f).homeFail.endJob false).dropWaiting false).flags := by
    refine (((c.raise f).homeFail_legsKept.trans (Cell.endJob_legsKept _ false)).trans (Cell.dropWaiting_legsKept _ false)).flags ?_
    exact List.mem_append_right _ (List.mem_singleton_self _)
  have hdrained := ((c.raise f).homeFail.endJob false).dropWaiting_drained false
  exact ⟨Cell.goFallow_enabled _, (Cell.goFallow_job _).trans hjob, ((Cell.goFallow_calm _).drained hdrained).1,
    (Cell.goFallow_legsKept _).flags hflag, (Cell.goFallow_brake _).1⟩

/-! ### Coming to rest -/

theorem Cell.lifeCycle_settles (c : Cell) : c.Settles c.lifeCycle := by
  unfold Cell.lifeCycle
  split
  · exact .ite (c.count_settles AX.LIFE_CYC.CYC) (.refl c)
  · exact .refl c

theorem Cell.endGrip_settles (c : Cell) : c.Settles c.endGrip := .ite .of_eq (.refl c)

theorem Cell.toHold_settles (c : Cell) : c.Settles c.toHold := by
  unfold Cell.toHold
  extract_lets a d e
  have he : c.Settles e := .trans (d := d.reg _) .of_eq (Cell.endGrip_settles _)
  exact .ite he (.ite (he.trans e.goFallow_settles) (he.trans ((e.setB_settles AX.RST_STAT.ORPHAN true).trans .of_eq)))

theorem Cell.toHold_job (c : Cell) : c.toHold.ax.mot.job = c.ax.mot.job := by
  unfold Cell.toHold
  extract_lets a d e
  have he : e.ax.mot.job = c.ax.mot.job := (congrArg Motion.job (d.reg _).endGrip_mot :)
  exact ite_keeps (fun c : Cell => c.ax.mot.job) he (ite_keeps (fun c : Cell => c.ax.mot.job) (e.goFallow_job.trans he) he)

theorem Cell.stopDone_settles (c : Cell) : c.Settles c.stopDone := by
  unfold Cell.stopDone
  extract_lets seq fallow d e
  have hd : c.Settles d := (c.raise_settles _).trans .of_eq
  have he : c.Settles e := ((hd.trans d.lifeCycle_settles).trans (Cell.endJob_settles _ _)).trans (Cell.toHold_settles _)
  exact .ite (he.trans e.goFallow_settles) he

/-- A stop that has come to rest ends the move. -/
theorem Cell.stopDone_job (c : Cell) : c.stopDone.ax.mot.job = none := by
  unfold Cell.stopDone
  extract_lets seq fallow d e
  have he : e.ax.mot.job = none := (Cell.toHold_job _).trans (Cell.endJob_job _ false)
  exact ite_keeps (fun c : Cell => c.ax.mot.job) (e.goFallow_job.trans he) he

theorem Cell.moveDone_settles (c : Cell) : c.Settles c.moveDone := by
  -- the report of a move that is done
  have hr : ∀ (d : Cell) (l : List Byte), d.Settles (((d.raise AX.MOT_EVT.MOVE_DONE).count AX.MOT_CNT.MOVES).event 0x01 l) := fun d l =>
    ((d.raise_settles _).trans (Cell.count_settles _ AX.MOT_CNT.MOVES)).trans .of_eq
  unfold Cell.moveDone
  extract_lets seq q fallow d e
  clear_value q
  split
  · have he : c.Settles e := (((hr c seq).trans d.lifeCycle_settles).trans (Cell.endJob_settles _ _)).trans (Cell.toHold_settles _)
    exact .ite (he.trans e.goFallow_settles) he
  · extract_lets direct d e g t
    have hd : c.Settles d := .ite (.refl c) (hr c seq)
    have he : d.Settles e := .trans (.ite (.refl d) d.lifeCycle_settles) (Cell.endJob_settles _ _)
    have hg : e.Settles g := .ite .of_eq e.toHold_settles
    exact ((hd.trans he).trans hg).trans .of_eq

/-! ### Parking (05 R162, R167) -/

theorem Cell.setUnc_r_apart (c : Cell) {f : Fld}
    (h : ∀ g ∈ [AX.BL_STAT.POS_UNC, AX.BL_STAT.HOMED, AX.ST_STAT.POS_UNC, AX.ST_STAT.HOMED], f.apart g = true) : c.setUnc.ax.r f = c.ax.r f := by
  have hg : ∀ (d : Cell) (g k : Fld), f.apart g = true → f.apart k = true → ((d.setB g true).setB k false).ax.r f = d.ax.r f := fun d g k hg hk =>
    (Axis.r_setB_apart _ _ hk).trans (d.ax.r_setB_apart true hg)
  unfold Cell.setUnc
  split
  · exact (hg _ _ _ (h _ (by simp)) (h _ (by simp))).trans (by rw [Cell.raiseIf_ax])
  · exact hg _ _ _ (h _ (by simp)) (h _ (by simp))

/-- A parked axis before its position is judged: short-braked at rest. -/
def Cell.parks (c : Cell) : Cell :=
  (((c.mot fun m => { m with mode := .park, prof := { p := m.pCmd }, stop := .none }).setB AX.BL_STAT.BRAKE false).setB AX.BL_STAT.PARK true).bl fun b =>
    { b with brake := .park, gripEnd := false, posSrc := if c.ax.bl.posSrc != .halls then .none else b.posSrc }

theorem Cell.park_eq (c : Cell) : c.park = if c.ax.bl.posSrc != .halls then c.parks.setUnc else c.parks := rfl

theorem Cell.park_ax (c : Cell) : c.park.ax = { c.parks.ax with regs := c.park.ax.regs } := by
  rw [c.park_eq]
  split
  · exact c.parks.setUnc_ax
  · rfl

theorem Cell.park_mot (c : Cell) : c.park.ax.mot = { c.ax.mot with mode := .park, prof := { p := c.ax.mot.pCmd }, stop := .none } := by
  rw [c.park_ax]
  rfl

theorem Cell.park_bl (c : Cell) : c.park.ax.bl.brake = .park ∧ c.park.ax.bl.gripEnd = false := by
  rw [c.park_ax]
  exact ⟨rfl, rfl⟩

theorem Cell.park_marks (c : Cell) : c.park.ax.b AX.BL_STAT.PARK = true ∧ c.park.ax.b AX.BL_STAT.BRAKE = false := by
  have hr : ∀ f ∈ [AX.BL_STAT.PARK, AX.BL_STAT.BRAKE], c.park.ax.b f = c.parks.ax.b f := fun f hf => by
    have hap : ∀ f ∈ [AX.BL_STAT.PARK, AX.BL_STAT.BRAKE],
        ∀ g ∈ [AX.BL_STAT.POS_UNC, AX.BL_STAT.HOMED, AX.ST_STAT.POS_UNC, AX.ST_STAT.HOMED], f.apart g = true := by decide
    rw [c.park_eq]
    exact ite_keeps (fun d : Cell => d.ax.b f) (Axis.b_of_r (c.parks.setUnc_r_apart (hap f hf))) rfl
  refine ⟨(hr _ (by simp)).trans ?_, (hr _ (by simp)).trans ?_⟩
  · exact Axis.b_setB_same _ _ true (by decide) (by decide) (by decide)
  · exact (Axis.b_setB_apart _ true).trans (Axis.b_setB_same _ _ false (by decide) (by decide) (by decide))

theorem Cell.park_settles (c : Cell) : c.Settles c.park := by
  have hp : c.Settles c.parks := .trans (d := c.mot _) .of_eq
    (((Cell.setB_settles _ AX.BL_STAT.BRAKE false).trans (Cell.setB_settles _ AX.BL_STAT.PARK true)).trans .of_eq)
  rw [c.park_eq]
  exact .ite (hp.trans c.parks.setUnc_settles) hp

theorem Cell.restAfterStop_settles (c : Cell) : c.Settles c.restAfterStop := .ite c.goFallow_settles c.park_settles

theorem Cell.restAfterStop_job (c : Cell) : c.restAfterStop.ax.mot.job = c.ax.mot.job :=
  ite_keeps (fun c : Cell => c.ax.mot.job) c.goFallow_job (congrArg Motion.job c.park_mot :)

/-! ### A move begins (06 R186 to R190, R201, R210) -/

theorem Cell.engageFails_settles (c : Cell) : c.Settles c.engageFails := by
  -- the report to the owner
  have hr : ∀ (f : Flag) (k : Nat) (l : List Byte), c.Settles ((c.raise f).event k l) := fun f k l => (c.raise_settles f).trans .of_eq
  unfold Cell.engageFails
  extract_lets told
  have ht : c.Settles told := by
    unfold told
    split
    · exact hr _ _ _
    · exact hr _ _ _
    · exact hr _ _ _
  exact ht.trans .of_eq

theorem Cell.engageCam_settles (c : Cell) (t : CamTable) (cp : CamP) (m : Int) (seq depth : Nat) : c.Settles (c.engageCam t cp m seq depth) := by
  unfold Cell.engageCam
  extract_lets f p d s
  have hd : c.Settles d := .of_eq
  exact .ite ((hd.trans (d.raise_settles _)).trans .of_eq) ((hd.trans (d.raise_settles _)).trans .of_eq)

theorem Cell.planRamp_settles (c : Cell) (l : Limits) : c.Settles (c.planRamp l) := .of_eq

theorem Cell.begin_settles (c : Cell) (j : Job) (v : Rat) (mp : MasterPos) (tab : Fin 64 → CamTable) (depth : Nat) :
    c.Settles (c.begin j v mp tab depth) := by
  unfold Cell.begin
  extract_lets a m d e lim go pr velo
  have he : c.Settles e := .of_eq
  have hgo : ∀ t, c.Settles (go t) := fun t => .ite (he.trans (.trans .of_eq (Cell.moveDone_settles _))) (he.trans .of_eq)
  have hvelo : ∀ mode t home, c.Settles (velo mode t home) := fun mode t home => by
    unfold velo
    extract_lets d1 d2
    have h2 : e.Settles d2 := .trans (d := d1) .of_eq (.ite (d1.planRamp_settles _) (.refl d1))
    refine he.trans (h2.trans (.ite (.ite (d2.setB_settles _ true) (d2.setB_settles _ true)) (.refl d2)))
  clear_value e go velo
  split
  · exact hgo _
  · exact hgo _
  · exact hvelo _ _ _
  · exact he.trans .of_eq
  · exact he.trans .of_eq
  · split
    · exact he.trans e.engageFails_settles
    · exact (he.trans (e.raise_settles _)).trans .of_eq
  · split
    · exact he.trans e.engageFails_settles
    · exact .ite (he.trans .of_eq) (he.trans (e.engageCam_settles _ _ _ _ _))
  · exact he.trans .of_eq

/-- With its move the catch is over, and no start sequence is left. -/
theorem Cell.startJob_start (c : Cell) (e : StartEnv) (v : Rat) : (c.startJob e v).ax.bl.start = .none ∧ c.flags ⊆ (c.startJob e v).flags := by
  unfold Cell.startJob
  extract_lets d f
  have hf : f.ax.bl.start = .none ∧ c.flags ⊆ f.flags := ⟨rfl, fun _ h => h⟩
  clear_value f
  split
  · exact hf
  · next j _ =>
    have hb := f.begin_settles j v e.mp e.tab e.depth
    exact ⟨hb.start hf.1, fun _ h => hb.flags (hf.2 h)⟩

end Sys2Proof.Machine
end

section
/-!
Test pulses and the spares they interleave with (08 R272): spares that change hands leave every raised flag of an axis, and of the axis that tests all but
its slices.
-/

namespace Sys2Proof.Machine

/-! ### Flags of the axes -/

/-- From one module to another every flag that an axis holds stays. -/
def Blk.FlagsStay (b t : Blk) : Prop := ∀ (n : Fin 48) (f : Flag), f.ev < 6 → f.bit < 24 → (b.axis n).flagged f → (t.axis n).flagged f

theorem Blk.FlagsStay.trans {b c d : Blk} (h : b.FlagsStay c) (k : c.FlagsStay d) : b.FlagsStay d :=
  fun n f hev hf m => k n f hev hf (h n f hev hf m)

theorem Blk.FlagsStay.of_ax {b c : Blk} (h : c.ax = b.ax := by rfl) : b.FlagsStay c := fun n _ _ _ m => by rwa [Blk.axis_of_ax h n]

theorem Blk.FlagsStay.refl (b : Blk) : b.FlagsStay b := .of_ax

theorem Blk.FlagsStay.ite {b c d : Blk} {p : Prop} [Decidable p] (hc : b.FlagsStay c) (hd : b.FlagsStay d) : b.FlagsStay (if p then c else d) := by
  split
  · exact hc
  · exact hd

theorem Blk.FlagsStay.foldl {α : Type} {op : Blk → α → Blk} (h : ∀ (b : Blk) (x : α), b.FlagsStay (op b x)) (l : List α) (b : Blk) : b.FlagsStay (l.foldl op b) :=
  List.foldlRecOn l op (motive := fun c => b.FlagsStay c) (.refl b) fun c hc x _ => hc.trans (h c x)

theorem Blk.mapAx_flagsStay (b : Blk) (n : Fin 48) {g : Axis → Axis}
    (h : ∀ f : Flag, f.ev < 6 → (b.axis n).flagged f → (g (b.axis n)).flagged f) : b.FlagsStay (b.mapAx n g) := fun m f hev _ hm => by
  by_cases hn : m = n
  · subst hn
    rw [b.axis_mapAx]
    exact h f hev hm
  · rwa [b.axis_mapAx_ne g hn]

theorem Axis.set_flagged (a : Axis) {c : Fld} {f : Flag} (v : Nat) (hc : c.reg ∉ axEvRegs) (hev : f.ev < 6) (h : a.flagged f) : (a.set c v).flagged f := by
  have hne : (axEvRegs[f.ev]?).getD 0 ≠ c.reg := fun e => hc (e ▸ axEvReg_mem hev)
  unfold Axis.flagged
  rwa [show (a.set c v).regs[(axEvRegs[f.ev]?).getD 0]? = a.regs[(axEvRegs[f.ev]?).getD 0]? from c.getElem?_put_ne a.regs _ hne]

theorem Blk.raiseAx_flagsStay (b : Blk) (n : Fin 48) (l : List Flag) : b.FlagsStay (b.raiseAx n l) := fun m f _ hf hm => by
  by_cases hn : m = n
  · subst hn
    unfold Blk.raiseAx
    refine List.foldlRecOn (motive := fun b : Blk => (b.axis m).flagged f) _ _ hm fun b h ev _ => ?_
    dsimp only
    split
    · exact h
    · rw [Blk.axis_of_ax (Blk.logRaise_ax ..)]
      exact b.raiseAx_keeps_flagged m ev _ hf h
  · rwa [b.raiseAx_axis_ne l hn]

/-! ### Spares (08 R272, R284, R285) -/

theorem Blk.dropItem_flagsStay (b : Blk) (k : Fin 8) : b.FlagsStay (b.dropItem k) := by
  unfold Blk.dropItem
  split
  · exact .trans .of_ax (Blk.mapAx_flagsStay _ _ fun _ _ h => h)
  · exact .of_ax

theorem Blk.assignSpare_flagsStay (b : Blk) (n : Fin 48) (s : Fin 2) (k : Fin 8) : b.FlagsStay (b.assignSpare n s k) := by
  have hsp : (if s = 0 then AX.SLC_STAT.SP0 else AX.SLC_STAT.SP1).reg ∉ axEvRegs := by
    split <;> decide
  unfold Blk.assignSpare
  refine ((b.dropItem_flagsStay k).trans .of_ax).trans (.trans (Blk.mapAx_flagsStay _ _ fun f hev h => ?_) (Blk.raiseAx_flagsStay _ _ _))
  exact Axis.set_flagged _ _ hsp hev (Axis.set_flagged _ _ (by decide) hev (Axis.set_flagged _ _ (by decide) hev h))

theorem Blk.bgUpdate_flagsStay (b : Blk) : b.FlagsStay b.bgUpdate := by
  unfold Blk.bgUpdate
  extract_lets
  exact .ite (.refl b) (.of_ax (Blk.raise_ax ..))

theorem Blk.giveSpares_flagsStay (b : Blk) : b.FlagsStay b.giveSpares := by
  unfold Blk.giveSpares
  refine .foldl (fun d n => .foldl (fun e s => .ite ?_ (.refl e)) _ d) _ b
  split
  · exact e.assignSpare_flagsStay n s _
  · exact .refl e

theorem Blk.returnSpare_flagsStay (b : Blk) (k : Fin 8) : b.FlagsStay (b.returnSpare k) :=
  .trans (.trans .of_ax (Blk.giveSpares_flagsStay _)) (Blk.bgUpdate_flagsStay _)

theorem Blk.lend_flagsStay (b : Blk) (n : Fin 48) : b.FlagsStay (b.lend n) := by
  unfold Blk.lend
  split
  · exact .trans ((b.dropItem_flagsStay _).trans .of_ax) (Blk.bgUpdate_flagsStay _)
  · exact .refl b

theorem Blk.sweepInterleaves_flagsStay (b : Blk) : b.FlagsStay b.sweepInterleaves := by
  unfold Blk.sweepInterleaves
  extract_lets lent d
  have hd : b.FlagsStay d := .foldl (fun e k => by
    dsimp only
    split
    · exact .ite (e.returnSpare_flagsStay k) (.refl e)
    · exact .refl e) _ b
  exact hd.trans (.foldl (fun e n => .ite (.refl e) (e.lend_flagsStay n)) _ d)

/-! ### The sweep of interleaves after a step on one axis -/

theorem Axis.bl_of_unlent {z a t : Axis} (h : Axis.unlent z t = Axis.unlent z a) : t.bl = a.bl :=
  congrArg (fun y : Axis × (Fin 131 → Word) => y.1.bl) h

theorem Axis.mot_of_unlent {z a t : Axis} (h : Axis.unlent z t = Axis.unlent z a) : t.mot = a.mot :=
  congrArg (fun y : Axis × (Fin 131 → Word) => y.1.mot) h

theorem Blk.sweepInterleaves_bl (b : Blk) (n : Fin 48) : (b.sweepInterleaves.axis n).bl = (b.axis n).bl :=
  Axis.bl_of_unlent (Blk.axis_unlent (b.sweepInterleaves_unlent (z := b.axis n)) n)

theorem Blk.sweepInterleaves_mot (b : Blk) (n : Fin 48) : (b.sweepInterleaves.axis n).mot = (b.axis n).mot :=
  Axis.mot_of_unlent (Blk.axis_unlent (b.sweepInterleaves_unlent (z := b.axis n)) n)

/-- After a step on one axis the sweep leaves the memories, the sequence and the session, and of other axes all but their slices. -/
theorem Blk.sweepInterleaves_apart {b c : Blk} {n : Fin 48} (ho : b.only c n) (hf : c.frame = b.frame) (hp : c.planes = b.planes) :
    c.sweepInterleaves.sm = b.sm ∧ c.sweepInterleaves.planes = b.planes ∧ c.sweepInterleaves.owning = b.owning ∧
      ∀ m, m ≠ n → (b.axis m).spared (c.sweepInterleaves.axis m) := by
  have hu : ∀ z, c.sweepInterleaves.unlent z = c.unlent z := fun z => c.sweepInterleaves_unlent
  generalize c.sweepInterleaves = t at hu
  have hsm : c.sm = b.sm := congrArg (fun y : Blk × Option (Byte × Byte × Nat × Bool) × (Fin 356 → Word) => y.1.sm) hf
  have howning : c.owning = b.owning := congrArg (·.2.1) hf
  refine ⟨(congrArg (·.1.sm) (hu (b.axis n)) : t.sm = c.sm).trans hsm, (congrArg (·.2.2.1) (hu (b.axis n)) : t.planes = c.planes).trans hp,
    (congrArg (·.2.1) (hu (b.axis n)) : t.owning = c.owning).trans howning, fun m hm => Axis.spared_of_unlent ?_⟩
  rw [Blk.axis_unlent (hu (b.axis m)) m, ho m hm]

end Sys2Proof.Machine
end

section
/-!
Sensorless starts (05 R157 to R170, R177, 08 R272): what the observation of a rotor, its catch, the test pulses, the estimator and a rotor at rest make of
a cell, each clause of `Obligations.SensorlessStartRuns` as a lemma of its own.
-/

namespace Sys2Proof.Machine

open Sys2Proof.Safety

/-! ### The observation (05 R157, R169, R170, 08 R292) -/

theorem Axis.testFrom_ne_none (a : Axis) (attempt len : Nat) : a.testFrom attempt len ≠ .none := by
  unfold Axis.testFrom Axis.test
  split <;> simp

/-- Without Halls a start from rest is a test sequence; the move waits. -/
theorem Cell.restStart_sensorless (c : Cell) (e : StartEnv) (h : c.ax.restSrc ≠ .halls) :
    c.restStart e = ((c.bl fun b => { b with
      posSrc := .none, start := c.ax.testFrom 1 (c.ax.r AX.BL_START.TP_LEN), catchWait := false, brake := .none }).setB AX.BL_STAT.INIT true).setB
        AX.BL_STAT.BRAKE false := by
  have hs : c.startFromRest = (c.bl fun b => { b with
      posSrc := .none, start := c.ax.testFrom 1 (c.ax.r AX.BL_START.TP_LEN), catchWait := false, brake := .none }).setB AX.BL_STAT.INIT true := by
    unfold Cell.startFromRest
    exact if_neg (by simpa using h)
  unfold Cell.restStart
  rw [hs]
  exact if_neg (by simpa using c.ax.testFrom_ne_none 1 (c.ax.r AX.BL_START.TP_LEN))

theorem Cell.restStart_tests (c : Cell) (e : StartEnv) (h : c.ax.restSrc ≠ .halls) :
    (c.restStart e).ax.bl.start = c.ax.testFrom 1 (c.ax.r AX.BL_START.TP_LEN) ∧ (c.restStart e).ax.bl.catchWait = false ∧
      (c.restStart e).ax.bl.brake = .none ∧ (c.restStart e).ax.mot = c.ax.mot ∧ (c.restStart e).ax.b AX.BL_STAT.INIT = true := by
  rw [c.restStart_sensorless e h]
  exact ⟨rfl, rfl, rfl, rfl, (Axis.b_setB_apart _ false).trans (Axis.b_setB_same _ _ true (by decide) (by decide) (by decide))⟩

/-- What short-braking a rotor that moves too slowly leaves (05 R170). -/
theorem Cell.catchBrake_catches (c : Cell) : c.catchBrake.ax.bl.start = .none ∧ c.catchBrake.ax.bl.brake = .catching false false ∧
    c.catchBrake.ax.bl.catchWait = true ∧ c.catchBrake.ax.mot = c.ax.mot ∧ c.catchBrake.ax.b AX.BL_STAT.BRAKE = true ∧ c.catchBrake.flags = c.flags :=
  ⟨rfl, rfl, rfl, rfl, (Axis.b_setB_apart _ true).trans (Axis.b_setB_same _ _ true (by decide) (by decide) (by decide)), rfl⟩

theorem Cell.caught_at_rest (c : Cell) (e : StartEnv) {x : CatchIn} (halls : Bool) (h : x.rest = true) : c.caught e x halls = c.restStart e := by
  unfold Cell.caught
  exact if_pos h

theorem Rat.abs'_intCast (i : Int) : Rat.abs' (i : Rat) = (i.natAbs : Rat) := by
  unfold Rat.abs'
  split
  · next h =>
    have hi : i < 0 := by exact_mod_cast h
    rw [← Rat.intCast_natCast, Int.ofNat_natAbs_of_nonpos (le_of_lt hi), Int.cast_neg]
  · next h =>
    have hi : 0 ≤ i := by exact_mod_cast not_lt.1 h
    rw [← Rat.intCast_natCast, Int.natAbs_of_nonneg hi]

/-- Below the estimator's speed a rotor without Halls is braked. -/
theorem Cell.caught_slow (c : Cell) (e : StartEnv) {x : CatchIn} (hr : x.rest = false) (hv : x.speed.natAbs < c.ax.r AX.BL_SPEED.V_BEMF * 16) :
    c.caught e x false = (c.raise AX.BL_EVT.CATCH).catchBrake := by
  have hlt : Rat.abs' (x.speed : Rat) < (c.ax.r AX.BL_SPEED.V_BEMF : Rat) * 16 := by
    rw [Rat.abs'_intCast]
    exact_mod_cast hv
  unfold Cell.caught
  extract_lets a sp dir lim
  rw [if_neg (by simp [hr])]
  exact if_pos (by simpa using hlt)

theorem Cell.observed_observing (c : Cell) (e : StartEnv) (x : CatchIn) (hs : c.ax.bl.start = .observe) (hm : c.ax.mot.mode ≠ .stopping)
    (hh : c.ax.restSrc ≠ .halls) : c.observed e x = c.caught e x false := by
  have hf : (c.ax.restSrc == .halls) = false := by simpa using hh
  unfold Cell.observed
  extract_lets halls
  rw [show halls = false from hf]
  split
  · exact if_neg (by simpa using hm)
  · next h => exact absurd hs h
  · next h _ => exact absurd hs h

/-- No observation ends, and braking that goes to rest has not come to rest. -/
theorem Cell.observed_not (c : Cell) (e : StartEnv) (x : CatchIn) (hs : c.ax.bl.start ≠ .observe)
    (hb : ∀ stopped toRest : Bool, c.ax.bl.brake = .catching stopped toRest → toRest = true ∧ x.rest = false) : c.observed e x = c := by
  unfold Cell.observed
  extract_lets halls
  split
  · next h => exact absurd h hs
  · next hc _ =>
    obtain ⟨ht, hr⟩ := hb _ _ hc
    exact if_pos (by simp [ht, hr])
  · rfl

theorem catchObserve_finds (s : State) (n : Fin 48) (x : CatchIn) (hs : (s.blk.axis n).bl.start = .observe)
    (hm : (s.blk.axis n).mot.mode ≠ .stopping) (hh : (s.blk.axis n).restSrc ≠ .halls)
    (hx : x.rest = true ∨ x.speed.natAbs < (s.blk.axis n).r AX.BL_SPEED.V_BEMF * 16) :
    Does (.catchObserveDone n x) s fun t => s.blk.only t n ∧ s.blk.still t ∧ (t.axis n).mot = (s.blk.axis n).mot ∧
      (if x.rest then (t.axis n).bl.start = (s.blk.axis n).testFrom 1 ((s.blk.axis n).r AX.BL_START.TP_LEN) ∧ (t.axis n).bl.catchWait = false ∧ (t.axis n).b AX.BL_STAT.INIT = true
      else (t.axis n).bl.start = .none ∧ (t.axis n).bl.brake = .catching false false ∧ (t.axis n).bl.catchWait = true ∧ (t.axis n).b AX.BL_STAT.BRAKE = true
      ∧ (t.axis n).flagged AX.BL_EVT.CATCH) := by
  refine does_of_onBlk (f := fun b => b.cell n fun c => c.observed (b.startEnv n) x) rfl ⟨s.blk.cell_only n _, s.blk.cell_still n _, ?_⟩
  have hl := s.blk.cell_leaves n fun c => c.observed (s.blk.startEnv n) x
  have he := (s.blk.cellOf n).observed_observing (s.blk.startEnv n) x hs hm hh
  rw [hl.mot, hl.b AX.BL_STAT.INIT, hl.b AX.BL_STAT.BRAKE, Blk.cell_axis_bl]
  rw [he] at hl ⊢
  by_cases hr : x.rest = true
  · obtain ⟨hstart, hwait, -, hmot, hinit⟩ := (s.blk.cellOf n).restStart_tests (s.blk.startEnv n) hh
    rw [if_pos hr, Cell.caught_at_rest _ _ _ hr]
    exact ⟨hmot, hstart, hwait, hinit⟩
  · have hc := (s.blk.cellOf n).caught_slow (s.blk.startEnv n) (eq_false_of_ne_true hr) (hx.resolve_left hr)
    obtain ⟨hstart, hbrake, hwait, hmot, hmark, hflags⟩ := ((s.blk.cellOf n).raise AX.BL_EVT.CATCH).catchBrake_catches
    rw [hc] at hl
    rw [if_neg hr, hc]
    refine ⟨hmot, hstart, hbrake, hwait, hmark, hl.flagged ?_ (by decide) (by decide)⟩
    rw [hflags]
    exact List.mem_append_right _ (List.mem_singleton_self _)

theorem catchObserve_not (s : State) (n : Fin 48) (x : CatchIn) (hs : (s.blk.axis n).bl.start ≠ .observe)
    (hb : ∀ stopped toRest : Bool, (s.blk.axis n).bl.brake = .catching stopped toRest → toRest = true ∧ x.rest = false) :
    Does (.catchObserveDone n x) s fun t => t.ax = s.blk.ax ∧ s.blk.still t := by
  refine does_of_onBlk (f := fun b => b.cell n fun c => c.observed (b.startEnv n) x) rfl ⟨?_, s.blk.cell_still n _⟩
  rw [s.blk.cell_of_same n ((s.blk.cellOf n).observed_not _ x hs hb)]

/-! ### A catch that fails (05 R170) -/

/-- Short-braking that has not caught its rotor in time. -/
def Cell.catchLate (c : Cell) : Cell :=
  match c.ax.bl.brake with
  | .catching .. => if c.ax.bl.brakeN < 50000 then c else c.startFails AX.BL_EVT.CATCH_FAIL
  | _ => c

theorem Cell.catchLate_of_over (c : Cell) {stopped toRest : Bool} (hb : c.ax.bl.brake = .catching stopped toRest) (hn : 50000 ≤ c.ax.bl.brakeN) :
    c.catchLate = c.startFails AX.BL_EVT.CATCH_FAIL := by
  unfold Cell.catchLate
  rw [hb]
  exact if_neg (Nat.not_lt.2 hn)

theorem Cell.catchLate_of_not (c : Cell)
    (h : ¬ ((∃ stopped toRest : Bool, c.ax.bl.brake = .catching stopped toRest) ∧ 50000 ≤ c.ax.bl.brakeN)) : c.catchLate = c := by
  unfold Cell.catchLate
  split
  · next hb => exact if_pos (Nat.not_le.1 fun hn => h ⟨⟨_, _, hb⟩, hn⟩)
  · rfl

theorem catchFail_ends (s : State) (n : Fin 48) :
    Does (.catchFail n) s fun t => s.blk.only t n ∧ s.blk.still t ∧
      (if (∃ stopped toRest : Bool, (s.blk.axis n).bl.brake = .catching stopped toRest) ∧ 50000 ≤ (s.blk.axis n).bl.brakeN then
      (t.axis n).mot.mode.enabled = false ∧ (t.axis n).mot.job = none ∧ (t.axis n).mot.waiting = none ∧ (t.axis n).flagged AX.BL_EVT.CATCH_FAIL
      ∧ (t.axis n).bl.brake = .none
      else t.axis n = s.blk.axis n) := by
  refine does_of_onBlk (f := fun b => b.cell n Cell.catchLate) rfl ⟨s.blk.cell_only n _, s.blk.cell_still n _, ?_⟩
  split
  · next h =>
    obtain ⟨⟨_, _, hb⟩, hn⟩ := h
    have hl := s.blk.cell_leaves n Cell.catchLate
    have he := (s.blk.cellOf n).catchLate_of_over hb hn
    obtain ⟨henabled, hjob, hwait, hflag, hbrake⟩ := (s.blk.cellOf n).startFails_ends AX.BL_EVT.CATCH_FAIL
    rw [Blk.cell_axis_bl, he]
    rw [he] at hl
    rw [hl.mot]
    exact ⟨henabled, hjob, hwait, hl.flagged hflag (by decide) (by decide), hbrake⟩
  · next h => exact s.blk.cell_axis_of_same n ((s.blk.cellOf n).catchLate_of_not h)

/-! ### Test pulses (05 R158, R177, 08 R272) -/

/-- The peaks of the test pulses are taken, and their interleave ends. -/
def Blk.takesPeaks (b : Blk) (n : Fin 48) (peaks : Vector Int 12) : Blk :=
  match (b.axis n).bl.start with
  | .testPulses k len _ =>
    if (b.axis n).legsFree && b.pw.gd then
      (b.mapAx n fun a => { a with bl := { a.bl with start := .initAngle k len peaks } }).sweepInterleaves
    else b
  | _ => b

theorem Blk.takesPeaks_of (b : Blk) (n : Fin 48) (peaks : Vector Int 12) {k len : Nat} {seq : List TestPulse}
    (h : (b.axis n).bl.start = .testPulses k len seq) : b.takesPeaks n peaks =
      if (b.axis n).legsFree = true ∧ b.pw.gd = true then
        (b.mapAx n fun a => { a with bl := { a.bl with start := .initAngle k len peaks } }).sweepInterleaves
      else b := by
  unfold Blk.takesPeaks
  rw [h]
  simp only [Bool.and_eq_true]

theorem testPulses_end (s : State) (n : Fin 48) (peaks : Vector Int 12) (k : Nat) (len : Nat) (seq : List TestPulse)
    (hs : (s.blk.axis n).bl.start = .testPulses k len seq) :
    Does (.testPulses n peaks) s fun t => t.sm = s.blk.sm ∧ t.planes = s.blk.planes ∧ t.owning = s.blk.owning
      ∧ (∀ m, m ≠ n → (s.blk.axis m).spared (t.axis m)) ∧
      (if (s.blk.axis n).legsFree = true ∧ s.blk.pw.gd = true then
      (t.axis n).bl.start = .initAngle k len peaks ∧ (s.blk.axis n).ilv = true ∧ (t.axis n).ilv = false ∧ (t.axis n).mot = (s.blk.axis n).mot
      else t = s.blk) := by
  refine does_of_onBlk (f := fun b => b.takesPeaks n peaks) rfl ?_
  rw [s.blk.takesPeaks_of n peaks hs]
  by_cases h : (s.blk.axis n).legsFree = true ∧ s.blk.pw.gd = true
  · rw [if_pos h, if_pos h]
    generalize hc : (s.blk.mapAx n fun a => { a with bl := { a.bl with start := .initAngle k len peaks } }) = c
    have hax : c.axis n = { s.blk.axis n with bl := { (s.blk.axis n).bl with start := .initAngle k len peaks } } := by rw [← hc, Blk.axis_mapAx]
    obtain ⟨hsm, hplanes, howning, hspared⟩ := Blk.sweepInterleaves_apart (b := s.blk) (c := c) (n := n)
      (fun m hm => by rw [← hc]; exact s.blk.axis_mapAx_ne _ hm) (by rw [← hc]; rfl) (by rw [← hc]; rfl)
    have hstart : (c.sweepInterleaves.axis n).bl.start = .initAngle k len peaks := by rw [c.sweepInterleaves_bl, hax]
    refine ⟨hsm, hplanes, howning, hspared, hstart, ?_, ?_, ?_⟩
    · rw [Axis.ilv, hs]
    · rw [Axis.ilv, hstart]
    · rw [c.sweepInterleaves_mot, hax]
  · rw [if_neg h, if_neg h]
    exact ⟨rfl, rfl, rfl, fun _ _ => ⟨rfl, fun _ _ _ => rfl⟩, rfl⟩

/-! ### The initial angle (05 R159, R160) -/

/-- The asymmetry of twelve peaks reaches `TP_ASYM`. -/
def Axis.asymFound (a : Axis) (p : Vector Int 12) : Prop :=
  (a.r AX.BL_START.TP_ASYM : Rat) / 1000 ≤ sqrtOf ((asymSums p).1 * (asymSums p).1 + (asymSums p).2 * (asymSums p).2) / 3

/-- An initial angle that is accepted is reported, and the move starts from it. -/
theorem Cell.initAngle_accepts (c : Cell) (e : StartEnv) (k len : Nat) (p : Vector Int 12) (h : c.ax.asymFound p) :
    AX.BL_EVT.INIT_DONE ∈ (c.initAngle e k len p).flags ∧ (c.initAngle e k len p).ax.bl.start = .none := by
  obtain ⟨d, ang, hd, he⟩ : ∃ (d : Cell) (ang : Rat), AX.BL_EVT.INIT_DONE ∈ d.flags ∧ c.initAngle e k len p = (d.grip ang).startJob e 0 := by
    unfold Cell.initAngle
    refine ⟨_, _, ?_, if_pos h⟩
    exact List.mem_append_right _ (List.mem_singleton_self _)
  obtain ⟨hstart, hflags⟩ := (d.grip ang).startJob_start e 0
  rw [he]
  exact ⟨hflags hd, hstart⟩

theorem Cell.initAngle_repeats (c : Cell) (e : StartEnv) {k : Nat} (len : Nat) (p : Vector Int 12) (h : ¬ c.ax.asymFound p) (hk : k < 2) :
    c.initAngle e k len p = c.bl fun b => { b with start := c.ax.testAgain len } := by
  unfold Cell.initAngle
  exact (if_neg h).trans (if_pos hk)

theorem Cell.initAngle_fails (c : Cell) (e : StartEnv) {k : Nat} (len : Nat) (p : Vector Int 12) (h : ¬ c.ax.asymFound p) (hk : ¬ k < 2) :
    c.initAngle e k len p = c.startFails AX.BL_EVT.INIT_FAIL := by
  unfold Cell.initAngle
  exact (if_neg h).trans (if_neg hk)

/-- The initial angle is judged, and an interleave begins or ends with what comes of it. -/
def Blk.judgesAngle (b : Blk) (n : Fin 48) : Blk :=
  match (b.axis n).bl.start with
  | .initAngle k len p => let e := b.startEnv n; (b.cell n fun c => c.initAngle e k len p).sweepInterleaves
  | _ => b

theorem Blk.judgesAngle_of (b : Blk) (n : Fin 48) {k len : Nat} {p : Vector Int 12} (h : (b.axis n).bl.start = .initAngle k len p) :
    b.judgesAngle n = (b.cell n fun c => c.initAngle (b.startEnv n) k len p).sweepInterleaves := by
  unfold Blk.judgesAngle
  rw [h]

theorem initAngle_found (s : State) (n : Fin 48) (k : Nat) (len : Nat) (p : Vector Int 12) (hs : (s.blk.axis n).bl.start = .initAngle k len p) :
    Does (.initAngleDone n) s fun t => t.sm = s.blk.sm ∧ t.planes = s.blk.planes ∧ t.owning = s.blk.owning
      ∧ (∀ m, m ≠ n → (s.blk.axis m).spared (t.axis m)) ∧
      (if ((s.blk.axis n).r AX.BL_START.TP_ASYM : Rat) / 1000 ≤ sqrtOf ((asymSums p).1 * (asymSums p).1 + (asymSums p).2 * (asymSums p).2) / 3 then
      (t.axis n).flagged AX.BL_EVT.INIT_DONE ∧ (t.axis n).bl.start = .none
      else if k < 2 then (t.axis n).bl.start = (s.blk.axis n).testAgain len ∧ (t.axis n).mot = (s.blk.axis n).mot
      else (t.axis n).mot.mode.enabled = false ∧ (t.axis n).mot.job = none ∧ (t.axis n).flagged AX.BL_EVT.INIT_FAIL) := by
  refine does_of_onBlk (f := fun b => b.judgesAngle n) rfl ?_
  rw [s.blk.judgesAngle_of n hs]
  have hl := s.blk.cell_leaves n fun c => c.initAngle (s.blk.startEnv n) k len p
  have hbl := s.blk.cell_axis_bl n fun c => c.initAngle (s.blk.startEnv n) k len p
  obtain ⟨hsm, hplanes, howning, hspared⟩ := Blk.sweepInterleaves_apart (s.blk.cell_only n fun c => c.initAngle (s.blk.startEnv n) k len p)
    (s.blk.cell_frame n _) (s.blk.cell_planes n _)
  generalize (s.blk.cell n fun c => c.initAngle (s.blk.startEnv n) k len p) = t at hl hbl hsm hplanes howning hspared
  -- what the sweep of interleaves leaves of the axis
  have hflagged : ∀ f ∈ ((s.blk.cellOf n).initAngle (s.blk.startEnv n) k len p).flags, f.ev < 6 → f.bit < 24 →
      (t.sweepInterleaves.axis n).flagged f := fun f hf hev hbit => t.sweepInterleaves_flagsStay n f hev hbit (hl.flagged hf hev hbit)
  refine ⟨hsm, hplanes, howning, hspared, ?_⟩
  rw [t.sweepInterleaves_bl, t.sweepInterleaves_mot, hbl, hl.mot]
  split
  · next h =>
    obtain ⟨hflag, hstart⟩ := (s.blk.cellOf n).initAngle_accepts (s.blk.startEnv n) k len p h
    exact ⟨hflagged _ hflag (by decide) (by decide), hstart⟩
  · next h =>
    split
    · next hk =>
      rw [(s.blk.cellOf n).initAngle_repeats _ len p h hk]
      exact ⟨rfl, rfl⟩
    · next hk =>
      have he := (s.blk.cellOf n).initAngle_fails (s.blk.startEnv n) len p h hk
      obtain ⟨henabled, hjob, -, hflag, -⟩ := (s.blk.cellOf n).startFails_ends AX.BL_EVT.INIT_FAIL
      rw [he] at hflagged ⊢
      exact ⟨henabled, hjob, hflagged _ hflag (by decide) (by decide)⟩

/-! ### Grip (05 R161, R162) -/

/-- The estimator may take over from grip. -/
def Axis.handsOver (a : Axis) : Prop :=
  a.bl.posSrc = .grip ∧ a.bl.gripEnd = false ∧ a.mot.mode.running = true ∧ a.starting = false ∧ a.bl.estValid = true ∧
    max 1 (a.r AX.BL_START.BEMF_N) ≤ a.bl.bemfN

theorem Cell.handover_of_not (c : Cell) (h : ¬ c.ax.handsOver) : c.handover = c := by
  unfold Cell.handover
  refine if_pos ?_
  by_contra hc
  refine h ?_
  simpa [Axis.handsOver, and_assoc, Nat.one_le_iff_ne_zero] using hc

/-- What the estimator takes over: angle, speed and the measured position; the commanded position and the registers stay. -/
theorem Cell.handover_takes (c : Cell) (h : c.ax.handsOver) : c.handover.ax.bl.posSrc = .estimator ∧ c.handover.ax.bl.theta = c.ax.bl.estTheta ∧
    c.handover.ax.bl.omega = c.ax.bl.estOmega ∧ c.handover.ax.bl.vInt = 0 ∧ c.handover.ax.mot.pCmd = c.ax.mot.pCmd ∧
    c.handover.ax.mot.mode = c.ax.mot.mode ∧ c.handover.ax.regs = c.ax.regs ∧ c.handover.flags = c.flags := by
  obtain ⟨hsrc, hend, hrun, hstart, hvalid, hn⟩ := h
  unfold Cell.handover
  extract_lets a d
  rw [if_neg (by simpa [a, hsrc, hend, hrun, hstart, hvalid, Nat.one_le_iff_ne_zero] using hn)]
  exact ⟨rfl, rfl, rfl, rfl, rfl, rfl, rfl, rfl⟩

theorem bemfHandover_takes (s : State) (n : Fin 48) :
    Does (.bemfHandover n) s fun t => s.blk.only t n ∧ s.blk.still t ∧
      (if (s.blk.axis n).bl.posSrc = .grip ∧ (s.blk.axis n).bl.gripEnd = false ∧ (s.blk.axis n).mot.mode.running = true ∧ (s.blk.axis n).starting = false
      ∧ (s.blk.axis n).bl.estValid = true ∧ max 1 ((s.blk.axis n).r AX.BL_START.BEMF_N) ≤ (s.blk.axis n).bl.bemfN then
      (t.axis n).bl.posSrc = .estimator ∧ (t.axis n).bl.theta = (s.blk.axis n).bl.estTheta ∧ (t.axis n).bl.omega = (s.blk.axis n).bl.estOmega
      ∧ (t.axis n).bl.vInt = 0 ∧ (t.axis n).mot.pCmd = (s.blk.axis n).mot.pCmd ∧ (t.axis n).mot.mode = (s.blk.axis n).mot.mode
      ∧ (t.axis n).regs = (s.blk.axis n).regs
      else t.axis n = s.blk.axis n) := by
  refine does_of_onBlk (f := fun b => b.cell n Cell.handover) rfl ⟨s.blk.cell_only n _, s.blk.cell_still n _, ?_⟩
  split
  · next h =>
    obtain ⟨hsrc, htheta, homega, hint, hpos, hmode, hregs, hflags⟩ := (s.blk.cellOf n).handover_takes h
    rw [s.blk.cell_axis_of_flags n hflags]
    exact ⟨hsrc, htheta, homega, hint, hpos, hmode, hregs⟩
  · next h => exact s.blk.cell_axis_of_same n ((s.blk.cellOf n).handover_of_not h)

/-- The grip at the end of a sensorless move is over. -/
def Cell.gripEnds (c : Cell) : Cell := if c.ax.bl.gripEnd && c.ax.mot.mode == .hold && c.ax.reg.rest == .ceiling 0 then c.park else c

theorem sensorlessGripEnd_parks (s : State) (n : Fin 48) :
    Does (.sensorlessGripEnd n) s fun t => s.blk.only t n ∧ s.blk.still t ∧
      (if (s.blk.axis n).bl.gripEnd = true ∧ (s.blk.axis n).mot.mode = .hold ∧ (s.blk.axis n).reg.rest = .ceiling 0 then
      (t.axis n).mot.mode = .park ∧ (t.axis n).b AX.BL_STAT.PARK = true ∧ (t.axis n).bl.brake = .park ∧ (t.axis n).bl.gripEnd = false
      ∧ (t.axis n).mot.pCmd = (s.blk.axis n).mot.pCmd
      else t.axis n = s.blk.axis n) := by
  refine does_of_onBlk (f := fun b => b.cell n Cell.gripEnds) rfl ⟨s.blk.cell_only n _, s.blk.cell_still n _, ?_⟩
  have hiff : ((s.blk.axis n).bl.gripEnd && (s.blk.axis n).mot.mode == .hold && (s.blk.axis n).reg.rest == .ceiling 0) = true ↔
      (s.blk.axis n).bl.gripEnd = true ∧ (s.blk.axis n).mot.mode = .hold ∧ (s.blk.axis n).reg.rest = .ceiling 0 := by
    simp only [Bool.and_eq_true, beq_iff_eq, and_assoc]
  split
  · next h =>
    have hl := s.blk.cell_leaves n Cell.gripEnds
    have he : (s.blk.cellOf n).gripEnds = (s.blk.cellOf n).park := if_pos (hiff.2 h)
    rw [hl.mot, hl.b AX.BL_STAT.PARK, Blk.cell_axis_bl, he, Cell.park_mot]
    exact ⟨rfl, (Cell.park_marks _).1, (Cell.park_bl _).1, (Cell.park_bl _).2, rfl⟩
  · next h => exact s.blk.cell_axis_of_same n (if_neg (mt hiff.1 h))

/-! ### A rotor at rest (05 R166, R167, R177) -/

/-- A stop that met a catch ends it: in place with Halls, else parked or fallow. -/
theorem Cell.catchStopped_ends (c : Cell) : c.catchStopped.ax.b AX.BL_STAT.CATCH = false ∧ c.catchStopped.ax.mot.job = none := by
  unfold Cell.catchStopped
  extract_lets halls d e
  have he : e.ax.b AX.BL_STAT.CATCH = false :=
    (Axis.b_setB_apart (f := AX.BL_STAT.BRAKE) _ false).trans (Axis.b_setB_same _ _ false (by decide) (by decide) (by decide))
  clear_value e
  split
  · exact ⟨(Cell.stopDone_settles _).caught he, Cell.stopDone_job _⟩
  · exact ⟨((e.endJob_settles false).trans (Cell.restAfterStop_settles _)).caught he, (Cell.restAfterStop_job _).trans (e.endJob_job false)⟩

/-- A rotor that has come to rest. -/
def Cell.comesToRest (e : StartEnv) (c : Cell) : Cell := if c.ax.stillTurns then c else c.rotorAtRest e

theorem rotorAtRest_does {s : State} {n : Fin 48} {P : Blk → Prop} (h : P (s.blk.cell n (Cell.comesToRest (s.blk.startEnv n)))) :
    Does (.rotorAtRest n) s P := does_of_onBlk (f := fun b => b.cell n (Cell.comesToRest (b.startEnv n))) rfl h

theorem rotorAtRest_turning (s : State) (n : Fin 48) (h : (s.blk.axis n).stillTurns = true) :
    Does (.rotorAtRest n) s fun t => t.ax = s.blk.ax ∧ s.blk.still t := by
  refine rotorAtRest_does ⟨?_, s.blk.cell_still n _⟩
  rw [s.blk.cell_of_same n (f := Cell.comesToRest _) (if_pos h)]

/-- A rotor at rest whose axis was short-braked to park: it parks, or falls fallow. -/
theorem Cell.rotorAtRest_park (c : Cell) (e : StartEnv) (h : c.ax.bl.brake = .park) :
    c.rotorAtRest e = if c.ax.b AX.BL_STAT.PARK = true then c else if c.ax.mot.fallowAfter = true then c.goFallow else c.park := by
  unfold Cell.rotorAtRest
  rw [h]
  rfl

theorem Cell.rotorAtRest_same (c : Cell) (e : StartEnv) (h : c.ax.bl.brake = .locked ∨ c.ax.bl.brake = .none) : c.rotorAtRest e = c := by
  unfold Cell.rotorAtRest
  rcases h with h | h <;> rw [h]

theorem Cell.rotorAtRest_fallow (c : Cell) (e : StartEnv) (h : c.ax.bl.brake = .hallFail ∨ c.ax.bl.brake = .sb82) : c.rotorAtRest e = c.goFallow := by
  unfold Cell.rotorAtRest
  rcases h with h | h <;> rw [h]

theorem Cell.rotorAtRest_stopped (c : Cell) (e : StartEnv) {toRest : Bool} (h : c.ax.bl.brake = .catching true toRest) :
    c.rotorAtRest e = c.catchStopped := by
  unfold Cell.rotorAtRest
  rw [h]

theorem Cell.rotorAtRest_caught (c : Cell) (e : StartEnv) {toRest : Bool} (h : c.ax.bl.brake = .catching false toRest) :
    c.rotorAtRest e = c.restStart e := by
  unfold Cell.rotorAtRest
  rw [h]

theorem rotorAtRest_ends (s : State) (n : Fin 48) (h : (s.blk.axis n).stillTurns = false) :
    Does (.rotorAtRest n) s fun t => s.blk.only t n ∧ s.blk.still t
      ∧ ((s.blk.axis n).bl.brake = .locked ∨ (s.blk.axis n).bl.brake = .none → t.axis n = s.blk.axis n)
      ∧ ((s.blk.axis n).bl.brake = .park → if (s.blk.axis n).b AX.BL_STAT.PARK = true then t.axis n = s.blk.axis n
      else if (s.blk.axis n).mot.fallowAfter = true then (t.axis n).mot.mode.enabled = false ∧ (t.axis n).bl.brake = .none
      else (t.axis n).mot.mode = .park ∧ (t.axis n).b AX.BL_STAT.PARK = true ∧ (t.axis n).b AX.BL_STAT.BRAKE = false ∧ (t.axis n).bl.brake = .park)
      ∧ ((s.blk.axis n).bl.brake = .hallFail ∨ (s.blk.axis n).bl.brake = .sb82 → (t.axis n).mot.mode.enabled = false ∧ (t.axis n).bl.brake = .none)
      ∧ (∀ toRest : Bool, (s.blk.axis n).bl.brake = .catching true toRest → (t.axis n).b AX.BL_STAT.CATCH = false ∧ (t.axis n).mot.job = none)
      ∧ (∀ toRest : Bool, (s.blk.axis n).bl.brake = .catching false toRest → (s.blk.axis n).restSrc ≠ .halls →
      (t.axis n).bl.start = (s.blk.axis n).testFrom 1 ((s.blk.axis n).r AX.BL_START.TP_LEN) ∧ (t.axis n).bl.brake = .none ∧ (t.axis n).mot = (s.blk.axis n).mot) := by
  refine rotorAtRest_does ⟨s.blk.cell_only n _, s.blk.cell_still n _, ?_⟩
  have hr : (s.blk.cellOf n).comesToRest (s.blk.startEnv n) = (s.blk.cellOf n).rotorAtRest (s.blk.startEnv n) :=
    if_neg (show ¬ (s.blk.axis n).stillTurns = true by simp [h])
  have hl := s.blk.cell_leaves n (Cell.comesToRest (s.blk.startEnv n))
  have hsame : (s.blk.cellOf n).rotorAtRest (s.blk.startEnv n) = s.blk.cellOf n →
      (s.blk.cell n (Cell.comesToRest (s.blk.startEnv n))).axis n = s.blk.axis n := fun hs => s.blk.cell_axis_of_same n (hr.trans hs)
  rw [hl.mot, hl.b AX.BL_STAT.PARK, hl.b AX.BL_STAT.BRAKE, hl.b AX.BL_STAT.CATCH, Blk.cell_axis_bl, hr]
  clear hl
  refine ⟨fun hb => hsame (Cell.rotorAtRest_same _ _ hb), fun hb => ?_, fun hb => ?_, fun toRest hb => ?_, fun toRest hb hh => ?_⟩
  · have he := (s.blk.cellOf n).rotorAtRest_park (s.blk.startEnv n) hb
    split
    · next hp => exact hsame (he.trans (if_pos hp))
    · next hp =>
      rw [he, if_neg (show ¬ (s.blk.cellOf n).ax.b AX.BL_STAT.PARK = true from hp)]
      split
      · next hf =>
        rw [if_pos (show (s.blk.cellOf n).ax.mot.fallowAfter = true from hf)]
        exact ⟨Cell.goFallow_enabled _, (Cell.goFallow_brake _).1⟩
      · next hf =>
        rw [if_neg (show ¬ (s.blk.cellOf n).ax.mot.fallowAfter = true from hf), Cell.park_mot]
        exact ⟨rfl, (Cell.park_marks _).1, (Cell.park_marks _).2, (Cell.park_bl _).1⟩
  · rw [Cell.rotorAtRest_fallow _ _ hb]
    exact ⟨Cell.goFallow_enabled _, (Cell.goFallow_brake _).1⟩
  · rw [Cell.rotorAtRest_stopped _ _ hb]
    exact Cell.catchStopped_ends _
  · obtain ⟨hstart, -, hbrake, hmot, -⟩ := (s.blk.cellOf n).restStart_tests (s.blk.startEnv n) hh
    rw [Cell.rotorAtRest_caught _ _ hb]
    exact ⟨hstart, hbrake, hmot⟩

/-- Settles O50: each event of a sensorless start by what it makes of its cell, and those of the test pulses by what the sweep of interleaves leaves. -/
theorem sensorlessStartRuns : Obligations.SensorlessStartRuns := by
  unfold Obligations.SensorlessStartRuns
  exact ⟨catchObserve_finds, catchObserve_not, catchFail_ends, testPulses_end, initAngle_found, bemfHandover_takes, sensorlessGripEnd_parks,
    rotorAtRest_turning, rotorAtRest_ends⟩

end Sys2Proof.Machine
end

section
/-!
Packets to the axes that act at once (11 R365, R382, R398): a packet that its plane takes runs its command, and what the command leaves of the module is
answered.
-/

namespace Sys2Proof.Machine

open Sys2Proof.Safety

/-! ### A packet that is taken (11 R365, R366) -/

theorem Pkt.req_exempt (p : Pkt) {opc : Nat} (h : opc ∉ [0x01, 0x02, 0x04, 0x05, 0x06, 0x42]) : (Pkt.req p opc).exempt = false := by
  simp only [List.mem_cons, List.not_mem_nil, or_false, not_or] at h
  simp [Pkt.req, Req.exempt, Req.claim, h]

/-- A packet that is taken runs its command on the module that has taken it. -/
theorem does_of_takes {c : Instr} {s : State} {p : Pkt} {opc : Nat} {run : Blk → Req → Blk} {P : Blk → Prop}
    (he : exec c s = onBlk (fun b => b.packet p opc run) s) (ht : s.blk.takes p opc) (hx : opc ∉ [0x01, 0x02, 0x04, 0x05, 0x06, 0x42])
    (hp : P (run (s.blk.begun (Pkt.req p opc)) (Pkt.req p opc))) : Does c s P := by
  refine does_of_onBlk he ?_
  rwa [Blk.packet_of_fits run ht.2 ht.1 (fun h => hx (by simp [h])) (Pkt.req_exempt p hx)]

/-- A command that leaves the sequence alone is answered. -/
theorem Blk.answer_answers {b d : Blk} {p : Pkt} {opc : Nat} (st : Nat) (x : List Byte) (hx : opc ∉ [0x01, 0x02, 0x04, 0x05, 0x06, 0x42])
    (hd : d.planes = (b.begun (Pkt.req p opc)).planes) : (d.answer (Pkt.req p opc) st x).answers p.toHdr opc st x := by
  obtain ⟨keep, hk⟩ := b.begun_plane (Pkt.req p opc)
  exact Blk.answers_of_front (q := Pkt.req p opc) rfl rfl (Pkt.req_exempt p hx) ((congrArg (fun v => (v.get (Pkt.req p opc).plane.idx).acc) hd).trans
    (congrArg PlaneSt.acc hk))

@[simp] theorem Blk.begun_cellOf (b : Blk) (q : Req) (n : Fin 48) : (b.begun q).cellOf n = b.cellOf n := by simp [Blk.cellOf]

/-! ### Targets and replies (11 R381, R382) -/

theorem Blk.groupMembers_nodup (b : Blk) (g : Nat) : (b.groupMembers g).Nodup := allAxes_nodup.filter _

/-- The axes that `STOP`, `HOLD` and the like act on are different ones (11 R382). -/
theorem Blk.targets_nodup {b : Blk} {t : Byte} {ns : List (Fin 48)} (h : b.targets .many t = some ns) : ns.Nodup := by
  unfold Blk.targets at h
  extract_lets ax grp at h
  have hax : ∀ l, ax = some l → l.Nodup := fun l hl => by
    simp only [ax] at hl
    split at hl
    · cases hl; exact List.nodup_singleton _
    · cases hl
  have hgrp : ∀ l, grp = some l → l.Nodup := fun l hl => by
    simp only [grp] at hl
    split at hl
    · split at hl
      · cases hl
      · cases hl; exact b.groupMembers_nodup _
    · cases hl
  dsimp only at h
  split at h
  · cases h; exact allAxes_nodup
  · rcases Option.or_eq_some_iff.1 h with h | ⟨-, h⟩
    · exact hax ns h
    · exact hgrp ns h

theorem Blk.targets_begun (b : Blk) (q : Req) (k : TgtKind) (t : Byte) : (b.begun q).targets k t = b.targets k t := by
  simp [Blk.targets, Blk.groupMembers]

theorem Blk.targets_single {b : Blk} {t : Byte} {n : Fin 48} (h : t.toNat = n.val) : b.targets .many t = some [n] := by
  have hlt : t.toNat < 48 := h ▸ n.isLt
  have hne : t ≠ 0xFF := fun he => by rw [he] at hlt; exact absurd hlt (by decide)
  unfold Blk.targets
  dsimp only
  rw [if_neg hne, dif_pos hlt]
  exact congrArg (fun k => some [k]) (Fin.ext h)

theorem Blk.answerEach_frame (b : Blk) (q : Req) (ns : List (Fin 48)) (sts : List Nat) : (b.answerEach q ns sts).frame = b.frame :=
  ite_keeps Blk.frame (b.answer_frame ..) (b.answer_frame ..)

theorem Blk.answerEach_axis (b : Blk) (q : Req) (ns : List (Fin 48)) (sts : List Nat) (n : Fin 48) : (b.answerEach q ns sts).axis n = b.axis n :=
  ite_keeps (fun b : Blk => b.axis n) (Blk.axis_of_ax (b.answer_ax ..) n) (Blk.axis_of_ax (b.answer_ax ..) n)

/-- A command to several axes that leaves the sequence alone is answered, with the first of its statuses to a single axis. -/
theorem Blk.answerEach_answers {b d : Blk} {p : Pkt} {opc : Nat} (ns : List (Fin 48)) (sts : List Nat) (hx : opc ∉ [0x01, 0x02, 0x04, 0x05, 0x06, 0x42])
    (hd : d.planes = (b.begun (Pkt.req p opc)).planes) : (d.answerEach (Pkt.req p opc) ns sts).answers p.toHdr opc
      (if p.tgt.toNat < 48 then sts.headD 0 else (sts.find? (· != 0)).getD 0)
      (if p.tgt.toNat < 48 then [] else axisMask ns ++ sts.map (BitVec.ofNat 8 ·)) := by
  unfold Blk.answerEach
  by_cases h : p.tgt.toNat < 48
  · rw [if_pos (by exact h), if_pos h, if_pos h]
    exact Blk.answer_answers _ _ hx hd
  · rw [if_neg (by exact h), if_neg h, if_neg h]
    exact Blk.answer_answers _ _ hx hd

/-- A command that acts on one cell and is answered leaves the rest of the module and the other axes. -/
theorem Blk.cell_answer_apart (b : Blk) (q : Req) (n : Fin 48) (f : Cell → Cell) (st : Nat) (x : List Byte) :
    b.only (((b.begun q).cell n f).answer q st x) n ∧ (((b.begun q).cell n f).answer q st x).rest = b.rest ∧
      (((b.begun q).cell n f).answer q st x).owning = b.owning := by
  have hf : (((b.begun q).cell n f).answer q st x).frame = b.frame := (Blk.answer_frame ..).trans ((Blk.cell_frame ..).trans (b.begun_frame q))
  refine ⟨fun m hm => ?_, congrArg Prod.fst hf, congrArg (fun t => t.2.1) hf⟩
  rw [Blk.axis_of_ax (Blk.answer_ax ..), Blk.cell_axis_ne _ _ hm, Blk.begun_axis]

theorem Blk.cell_answer_answers (b : Blk) {p : Pkt} {opc : Nat} (n : Fin 48) (f : Cell → Cell) (st : Nat) (x : List Byte)
    (hx : opc ∉ [0x01, 0x02, 0x04, 0x05, 0x06, 0x42]) :
    (((b.begun (Pkt.req p opc)).cell n f).answer (Pkt.req p opc) st x).answers p.toHdr opc st x :=
  Blk.answer_answers st x hx (Blk.cell_planes ..)

/-- A command that acts on one cell without a flag, and is answered, makes the cell's axis of it. -/
theorem Blk.cell_answer_axis (b : Blk) (q : Req) {n : Fin 48} {f : Cell → Cell} (st : Nat) (x : List Byte) (h : (f (b.cellOf n)).flags = []) :
    (((b.begun q).cell n f).answer q st x).axis n = (f (b.cellOf n)).ax := by
  rw [Blk.axis_of_ax (Blk.answer_ax ..), Blk.cell_axis_of_flags _ _ (by rwa [Blk.begun_cellOf]), Blk.begun_cellOf]

/-- A command to one axis goes to it. -/
theorem Blk.forAxis_of_target {b : Blk} {q : Req} {len : Nat} {n : Fin 48} (k : Blk → Fin 48 → Blk) (h : q.h.tgt.toNat = n.val) (hl : len ≤ q.body.length) :
    b.forAxis q len k = k b n := by
  have hlt : q.h.tgt.toNat < 48 := h ▸ n.isLt
  unfold Blk.forAxis
  rw [dif_pos hlt, if_neg (Nat.not_lt.2 hl)]
  exact congrArg (k b) (Fin.ext h)

end Sys2Proof.Machine
end

section
/-!
Coming to rest (06 R180, R197 to R200): what FALLOW, the end of a move and the end of a stop leave of an axis's engagement, group and marks, and what a
stop leaves of a stepper that it ramps down.
-/

namespace Sys2Proof.Machine

/-- The motion of FALLOW (06 R180, 04 R139). -/
theorem Cell.goFallow_mot (c : Cell) : c.goFallow.ax.mot = { c.ax.mot with
    mode := if c.ax.motor = Motor.none then .unconfigured else .fallow, prof := { p := c.ax.mot.pCmd }, stop := .none, fallowAfter := false
    queued := none, engage := none, camWait := none, stepTgt := c.ax.mot.pCmd, depth := 0, rest := none, lastStep := none, fell := c.tickNo
    stopFrom := none, group := none, orphan := false } := by
  have hu : ∀ x : Bool, (if x = true then c.setUnc else c).ax.motor = c.ax.motor ∧ (if x = true then c.setUnc else c).ax.mot = c.ax.mot
      ∧ (if x = true then c.setUnc else c).tickNo = c.tickNo := fun x => by
    have ht : c.setUnc.tickNo = c.tickNo := by
      have h := c.setUnc_loaded
      simp only [Cell.loaded, Prod.mk.injEq] at h
      rw [Cell.tickNo, h.2.1, h.2.2]
      rfl
    cases x
    · exact ⟨rfl, rfl, rfl⟩
    · exact ⟨Cell.motor_of_loaded c.setUnc_loaded, c.setUnc_mot, ht⟩
  unfold Cell.goFallow
  extract_lets lose d a _ _ _ _ a0 a1 a2 a3 a4 a5 _
  obtain ⟨hm, hmot, ht⟩ := hu lose
  show { d.ax.mot with
    mode := if d.ax.motor = Motor.none then .unconfigured else .fallow, prof := { p := d.ax.mot.pCmd }, stop := .none, fallowAfter := false
    queued := none, engage := none, camWait := none, stepTgt := d.ax.mot.pCmd, depth := 0, rest := none, lastStep := none, fell := d.tickNo
    stopFrom := none, group := none, orphan := false } = _
  rw [show d.ax.motor = _ from hm, show d.ax.mot = _ from hmot, show d.tickNo = _ from ht]

/-- An axis that has come to rest, in HOLD or fallow: it follows nothing, and belongs to no group that it was not in. -/
structure Cell.Rests (c d : Cell) : Prop where
  left : d.ax.mot.left = c.ax.mot.left
  engage : d.ax.mot.engage = none
  camWait : d.ax.mot.camWait = none
  group : c.ax.mot.group = none → d.ax.mot.group = none
  running : d.ax.mot.mode.running = false

theorem Cell.goFallow_rests (c : Cell) : c.Rests c.goFallow := by
  have h := c.goFallow_mot
  refine ⟨by rw [h], by rw [h], by rw [h], fun _ => by rw [h], ?_⟩
  rw [h]
  dsimp only
  split <;> rfl

theorem Cell.Rests.after {c d e : Cell} (hl : d.ax.mot.left = c.ax.mot.left) (hg : c.ax.mot.group = none → d.ax.mot.group = none) (h : d.Rests e) : c.Rests e :=
  ⟨h.left.trans hl, h.engage, h.camWait, h.group ∘ hg, h.running⟩

theorem Cell.toHold_rests (c : Cell) : c.Rests c.toHold := by
  unfold Cell.toHold
  extract_lets a d e
  have hm : e.ax.mot = d.ax.mot := (d.reg _).endGrip_mot
  have hl : e.ax.mot.left = c.ax.mot.left := (congrArg Motion.left hm).trans rfl
  have hg : e.ax.mot.group = c.ax.mot.group := (congrArg Motion.group hm).trans rfl
  have he : c.Rests e := ⟨hl, congrArg Motion.engage hm, congrArg Motion.camWait hm, hg.trans, congrArg (fun m : Motion => m.mode.running) hm⟩
  split
  · exact he
  · split
    · exact .after hl hg.trans e.goFallow_rests
    · exact ⟨he.left, he.engage, he.camWait, he.group, he.running⟩

theorem Cell.lifeCycle_mot (c : Cell) : c.lifeCycle.ax.mot = c.ax.mot := by
  unfold Cell.lifeCycle
  repeat' split
  all_goals rfl

/-- The end of a job takes it and its group away (07 R255). -/
theorem Cell.endJob_mot (c : Cell) (done : Bool) : (c.endJob done).ax.mot =
    if c.ax.mot.job.isSome then { c.ax.mot with job := none, group := none } else c.ax.mot := by
  unfold Cell.endJob
  split
  next h => simp [h]
  next h =>
    extract_lets e dev d1 d2 l d3
    have h2 : d2.ax.mot = c.ax.mot := ite_keeps (fun c : Cell => c.ax.mot) rfl rfl
    have h3 : d3.ax.mot = c.ax.mot := ite_keeps (fun c : Cell => c.ax.mot) h2 h2
    rw [if_pos (by simp [h])]
    exact congrArg (fun m : Motion => { m with job := none, group := none }) h3

theorem Cell.endJob_left (c : Cell) (done : Bool) : (c.endJob done).ax.mot.left = c.ax.mot.left := by
  rw [c.endJob_mot]
  split <;> rfl

theorem Cell.endJob_group (c : Cell) (done : Bool) (h : c.ax.mot.group = none) : (c.endJob done).ax.mot.group = none := by
  rw [c.endJob_mot]
  split
  · rfl
  · exact h

theorem Cell.stopDone_rests (c : Cell) : c.Rests c.stopDone := by
  unfold Cell.stopDone
  extract_lets seq fallow d e
  have hl : (d.lifeCycle.endJob false).ax.mot.left = c.ax.mot.left := by rw [Cell.endJob_left, d.lifeCycle_mot]; rfl
  have hg : c.ax.mot.group = none → (d.lifeCycle.endJob false).ax.mot.group = none := fun h =>
    Cell.endJob_group _ _ (by rw [d.lifeCycle_mot]; exact h)
  have he : c.Rests e := .after hl hg (Cell.toHold_rests _)
  split
  · exact .after he.left he.group e.goFallow_rests
  · exact he

/-! ### A stop that ramps down (06 R197, R198) -/

/-- The stop that a command asks for. -/
def quick (q : Bool) : StopKind := if q then .qstop else .stop

/-- What a stop ramp leaves of a stepper: it stops or has come to rest, and no longer follows. -/
structure Motion.Ramped (m : Motion) : Prop where
  mode : m.mode ∈ [Mode.stopping, .hold, .fallow]
  left : m.left = true
  engage : m.engage = none
  camWait : m.camWait = none

theorem Cell.stopAlong_ramped (c : Cell) (k : StopKind) (p : Prof) (hm : c.ax.motor = .stepper) (hl : c.ax.mot.left = true) :
    (c.stopAlong k p).ax.mot.Ramped := by
  have hk : (c.stopAlong k p).ax.mot.left = true ∧ (c.stopAlong k p).ax.mot.engage = none ∧ (c.stopAlong k p).ax.mot.camWait = none := by
    unfold Cell.stopAlong
    extract_lets d
    split
    · have hr := d.stopDone_rests
      exact ⟨hr.left.trans hl, hr.engage, hr.camWait⟩
    · exact ⟨hl, rfl, rfl⟩
  exact ⟨c.stopAlong_mode k p hm, hk.1, hk.2.1, hk.2.2⟩

theorem Axis.ramps_iff (a : Axis) (q : Bool) : a.ramps q = true ↔ a.motor = .stepper ∧ a.mot.mode.running = true ∧ a.mot.mode ≠ .stopping ∧
    a.b AX.LEDG_AX.SB_STOP = false ∧ a.mot.stopFrom = none ∧ (q = true ∨ a.mot.mode ≠ .position ∨ a.seg < 5) := by
  simp only [Axis.ramps, Axis.stepper, Bool.and_eq_true, Bool.or_eq_true, bne_iff_ne, ne_eq, Bool.not_eq_true', decide_eq_true_eq,
    Option.isNone_iff_eq_none, beq_iff_eq]
  tauto

/-- A stop ramps down a stepper that runs (06 R197). -/
theorem Cell.stop_ramped (c : Cell) (q : Bool) (h : c.ax.ramps q = true) : (c.stop (quick q)).ax.mot.Ramped := by
  obtain ⟨hm, hrun, hmode, hsb, hfrom, hpos⟩ := (c.ax.ramps_iff q).1 h
  have hbl : c.ax.brushless = false := by simp [Axis.brushless, hm]
  have hseg : ¬ (c.ax.mot.mode = .position ∧ quick q = .stop ∧ 5 ≤ c.ax.seg) := by
    rintro ⟨hp, hq, hs⟩
    rcases hpos with rfl | hpos | hpos
    · cases hq
    · exact hpos hp
    · exact Nat.not_le.2 hpos hs
  have hend : ∀ d : Cell, d.ax.motor = .stepper → ((d.homeFail.count AX.MOT_CNT.STOPS).mot fun x => { x with left := true }).ax.motor = .stepper :=
    fun d hd => (Cell.motor_of_loaded d.homeFail_loaded).trans hd
  unfold Cell.stop
  extract_lets a m d1 d e f g from_
  simp only [a, m, hrun, hbl, hsb, hmode, hfrom, Bool.not_true, Bool.false_and, Bool.false_eq_true, if_false, Option.elim, Bool.and_false]
  rw [if_neg (by simpa [and_assoc] using hseg)]
  exact Cell.stopAlong_ramped _ _ _ (hend d hm) rfl

end Sys2Proof.Machine
end

section
/-!
`HOLD` and `BRAKE` (06 R180, R181, 05 R165): what each makes of an axis, and how a command judges its targets one after the other.
-/

namespace Sys2Proof.Machine

open Sys2Proof.Safety

/-! ### Steps on one axis after the other -/

/-- Of steps that each leave what another place sees, one place sees its own. -/
theorem foldl_at {α β γ δ : Type} {op : β → α → β} (g : β → γ) (r : β → δ) {l : List α} {x : α} (hl : l.Nodup) (hx : x ∈ l)
    (hg : ∀ b y, y ≠ x → g (op b y) = g b) (hr : ∀ b y, y ≠ x → r (op b y) = r b) (b : β) :
    ∃ c, g c = g b ∧ r (l.foldl op b) = r (op c x) := by
  obtain ⟨l1, l2, rfl⟩ := List.append_of_mem hx
  have h12 := List.nodup_append.1 hl
  have h1 : x ∉ l1 := fun hm => h12.2.2 _ hm _ (by simp) rfl
  have h2 : x ∉ l2 := (List.nodup_cons.1 h12.2.1).1
  refine ⟨l1.foldl op b, foldl_keeps_mem g op l1 (fun b y hy => hg b y fun e => h1 (e ▸ hy)) b, ?_⟩
  rw [List.foldl_append, List.foldl_cons]
  exact foldl_keeps_mem r op l2 (fun b y hy => hr b y fun e => h2 (e ▸ hy)) _

/-! ### A cell leaves fallow (06 R188) -/

theorem Cell.leaveFallow_keeps {α : Type} (g : Axis → α) (h : ∀ a x y, g { a with slc := x, trip := y } = g a) (c : Cell) :
    g c.leaveFallow.ax = g c.ax := by
  unfold Cell.leaveFallow
  split
  · rfl
  · exact h c.ax (c.ax.slc.map fun x : Slice => { x with direct := false }) { c.ax.trip with live := true, cmp := Vector.replicate 4 .unarmed }

theorem Cell.leaveFallow_mot (c : Cell) : c.leaveFallow.ax.mot = c.ax.mot := c.leaveFallow_keeps Axis.mot fun _ _ _ => rfl

theorem Cell.leaveFallow_live (c : Cell) : c.leaveFallow.ax.trip.live = true := by
  unfold Cell.leaveFallow
  split
  · assumption
  · rfl

/-! ### `HOLD` on one axis (06 R180, R188) -/

/-- What `HOLD` makes of an axis. -/
structure Axis.HoldsFrom (a t : Axis) : Prop where
  mode : t.mot.mode = .hold
  pos : t.mot.pCmd = a.mot.pCmd
  live : t.trip.live = true
  fallow : t.mot.fallowAfter = false

theorem Cell.accepted_fallow (c : Cell) : c.accepted.ax.mot.fallowAfter = false := by
  unfold Cell.accepted
  extract_lets d
  rfl

theorem Cell.holdCmd_holds (c : Cell) : c.ax.HoldsFrom c.holdCmd.ax := by
  have hp := c.written.leaveFallow.accepted_posture
  have hmot : c.written.leaveFallow.ax.mot = c.ax.mot := Cell.leaveFallow_mot _
  refine ⟨rfl, ?_, ?_, c.written.leaveFallow.accepted_fallow⟩
  · exact (Axis.pos_of_posture hp).trans (congrArg Motion.pCmd hmot)
  · exact (congrArg Trip.live (Axis.trip_of_posture hp)).trans c.written.leaveFallow_live

/-! ### The targets of `HOLD` (06 R181) -/

theorem Blk.stateFault_hold_congr {b c : Blk} {n : Fin 48} (ha : c.axis n = b.axis n) (hm : c.meas = b.meas) :
    c.stateFault n .hold false = b.stateFault n .hold false := by
  simp only [Blk.stateFault, Blk.calFailed, ha, hm]
  rfl

/-- `HOLD` on one of its targets, as step 8 judges it. -/
def Blk.holdAxis (b : Blk) (n : Fin 48) : Blk :=
  match b.stateFault n .hold false with
  | some _ => b.cell n Cell.unfallow
  | none => (b.cell n Cell.holdCmd).staleRise b

theorem Blk.staleRise_axis (b old : Blk) (n : Fin 48) : (b.staleRise old).axis n = b.axis n := b.raiseIf_axis ..
theorem Blk.staleRise_frame (b old : Blk) : (b.staleRise old).frame = b.frame := b.raiseIf_frame ..
theorem Blk.staleRise_planes (b old : Blk) : (b.staleRise old).planes = b.planes := b.raiseIf_planes ..
theorem Blk.staleRise_meas (b old : Blk) : (b.staleRise old).meas = b.meas := b.raiseIf_meas ..

theorem Blk.holdAxis_of_fault {b : Blk} {n : Fin 48} {st : Nat} (h : b.stateFault n .hold false = some st) : b.holdAxis n = b.cell n Cell.unfallow := by
  simp only [Blk.holdAxis, h]

theorem Blk.holdAxis_of_none {b : Blk} {n : Fin 48} (h : b.stateFault n .hold false = none) :
    b.holdAxis n = (b.cell n Cell.holdCmd).staleRise b := by
  simp only [Blk.holdAxis, h]

/-- What steps that end in a step on a cell keep, `HOLD` on an axis keeps. -/
theorem Blk.holdAxis_keeps {α : Type} (g : Blk → α) {b : Blk} {n : Fin 48} (hc : ∀ f, g (b.cell n f) = g b)
    (hs : ∀ c, g (c.staleRise b) = g c) : g (b.holdAxis n) = g b := by
  cases h : b.stateFault n .hold false with
  | some st => rw [Blk.holdAxis_of_fault h, hc]
  | none => rw [Blk.holdAxis_of_none h, hs, hc]

theorem Blk.holdAxis_frame (b : Blk) (n : Fin 48) : (b.holdAxis n).frame = b.frame :=
  Blk.holdAxis_keeps Blk.frame (b.cell_frame n) fun c => c.staleRise_frame b

theorem Blk.holdAxis_planes (b : Blk) (n : Fin 48) : (b.holdAxis n).planes = b.planes :=
  Blk.holdAxis_keeps Blk.planes (b.cell_planes n) fun c => c.staleRise_planes b

theorem Blk.holdAxis_axis_ne (b : Blk) {n m : Fin 48} (h : m ≠ n) : (b.holdAxis m).axis n = b.axis n :=
  Blk.holdAxis_keeps (fun b => b.axis n) (fun f => b.cell_axis_ne f h.symm) fun c => c.staleRise_axis b n

theorem Blk.holdAxis_meas (b : Blk) (n : Fin 48) : (b.holdAxis n).meas = b.meas :=
  Blk.holdAxis_keeps Blk.meas (b.cell_meas n) fun c => c.staleRise_meas b

theorem Blk.holdAll_axis (b : Blk) {ns : List (Fin 48)} {n : Fin 48} (hl : ns.Nodup) (hn : n ∈ ns) :
    if b.stateFault n .hold false = none then (b.axis n).HoldsFrom ((ns.foldl Blk.holdAxis b).axis n)
    else (ns.foldl Blk.holdAxis b).axis n = { b.axis n with mot := { (b.axis n).mot with fallowAfter := false } } := by
  obtain ⟨c, hc, hax⟩ := foldl_at (op := Blk.holdAxis) (fun b => (b.axis n, b.meas)) (fun b => b.axis n) hl hn
    (fun b m h => by rw [b.holdAxis_axis_ne h, b.holdAxis_meas]) (fun b m h => b.holdAxis_axis_ne h) b
  obtain ⟨ha, hm⟩ := Prod.mk.inj hc
  rw [hax, ← ha, ← Blk.stateFault_hold_congr ha hm]
  cases h : c.stateFault n .hold false with
  | none =>
    rw [if_pos rfl, Blk.holdAxis_of_none h, Blk.staleRise_axis]
    have hh := (c.cellOf n).holdCmd_holds
    have hl := c.cell_leaves n Cell.holdCmd
    exact ⟨by rw [hl.mot, hh.mode], by rw [hl.mot]; exact hh.pos, by rw [hl.trip, hh.live], by rw [hl.mot, hh.fallow]⟩
  | some st =>
    rw [if_neg (by simp), Blk.holdAxis_of_fault h, c.cell_axis_of_flags n rfl]
    rfl

/-- `HOLD` acts on each of its targets in turn, and answers a target alone with the status of its judgement. -/
theorem runHold_eq (b : Blk) (q : Req) {ns : List (Fin 48)} (h : b.targets .many q.h.tgt = some ns) :
    ∃ sts, runHold b q = (ns.foldl Blk.holdAxis b).answerEach q ns sts ∧ (∀ n, ns = [n] → sts = [(b.stateFault n .hold false).getD 0]) := by
  unfold runHold
  simp only [h]
  refine ⟨_, congrArg (Blk.answerEach · q ns _) ?_, ?_⟩
  · refine (List.foldl_hom Prod.fst ?_).symm
    rintro ⟨c, l⟩ n
    cases hf : c.stateFault n .hold false <;> simp only [Blk.holdAxis, hf]
  · rintro n rfl
    cases hf : b.stateFault n .hold false <;> simp [hf]

theorem hold_holds (s : State) (p : Pkt) (ns : List (Fin 48)) (ht : s.blk.takes p 0x34) (hns : s.blk.targets .many p.tgt = some ns) :
    Does (.hold p) s fun t => s.blk.still t ∧ (∀ n,
      if n ∈ ns ∧ s.blk.stateFault n .hold false = none then (t.axis n).mot.mode = .hold ∧ (t.axis n).mot.pCmd = (s.blk.axis n).mot.pCmd
      ∧ (t.axis n).trip.live = true ∧ (t.axis n).mot.fallowAfter = false
      else t.axis n = if n ∈ ns then { s.blk.axis n with mot := { (s.blk.axis n).mot with fallowAfter := false } } else s.blk.axis n)
      ∧ (∀ n : Fin 48, p.tgt.toNat = n.val → t.answers p.toHdr 0x34 ((s.blk.stateFault n .hold false).getD 0) []) := by
  refine does_of_takes (run := runHold) rfl ht (by decide) ?_
  generalize hb : s.blk.begun (Pkt.req p 0x34) = b
  have hax : ∀ n, b.axis n = s.blk.axis n := fun n => by rw [← hb]; exact Blk.begun_axis ..
  have hfault : ∀ n, b.stateFault n .hold false = s.blk.stateFault n .hold false := fun n =>
    Blk.stateFault_hold_congr (hax n) (by rw [← hb]; exact Blk.begun_meas ..)
  have hfr : ∀ l : List (Fin 48), (l.foldl Blk.holdAxis b).frame = b.frame := fun l => foldl_keeps Blk.frame _ Blk.holdAxis_frame _ _
  obtain ⟨sts, hrun, hone⟩ := runHold_eq b (Pkt.req p 0x34) (ns := ns) (by rw [← hb]; exact (Blk.targets_begun ..).trans hns)
  rw [hrun]
  refine ⟨Blk.still_of_frame ?_, fun n => ?_, fun n hn => ?_⟩
  · rw [Blk.answerEach_frame, hfr, ← hb, Blk.begun_frame]
  · have hall := fun hn : n ∈ ns => b.holdAll_axis (Blk.targets_nodup hns) hn
    rw [Blk.answerEach_axis]
    by_cases hn : n ∈ ns
    · have h := hall hn
      simp only [hn, true_and, if_true, ← hfault, ← hax]
      split at h
      next hf => rw [if_pos hf]; exact ⟨h.mode, h.pos, h.live, h.fallow⟩
      next hf => rw [if_neg hf]; exact h
    · simp only [hn, false_and, if_false, ← hax]
      exact foldl_keeps_mem (fun b : Blk => b.axis n) _ _ (fun c m hm => c.holdAxis_axis_ne fun e => hn (e ▸ hm)) _
  · have hns' : ns = [n] := Option.some.inj (hns.symm.trans (Blk.targets_single hn))
    subst hns'
    have hans := Blk.answerEach_answers (b := s.blk) [n] sts (show 0x34 ∉ [0x01, 0x02, 0x04, 0x05, 0x06, 0x42] by decide)
      (hb ▸ foldl_keeps Blk.planes _ Blk.holdAxis_planes [n] b)
    rw [if_pos (hn ▸ n.isLt), if_pos (hn ▸ n.isLt), hb] at hans
    have hst : sts.headD 0 = (s.blk.stateFault n .hold false).getD 0 := by rw [hone n rfl, List.headD_cons, hfault]
    rwa [hst] at hans

/-! ### `BRAKE` (05 R165, 06 R180) -/

/-- What `BRAKE` makes of an axis that it does not refuse. -/
def Cell.brakeCmd (c : Cell) : Cell := ((c.endJob false).unfallow.startBrake .park).written

theorem Cell.brakeCmd_park (c : Cell) (h : c.ax.brushless = true) : c.brakeCmd.ax.mot.mode = .park ∧ c.brakeCmd.ax.bl.brake = .park
    ∧ c.brakeCmd.ax.b AX.BL_STAT.BRAKE = true ∧ c.brakeCmd.ax.mot.job = none ∧ c.brakeCmd.ax.mot.pCmd = c.ax.mot.pCmd := by
  have hd : (c.endJob false).unfallow.ax.brushless = true := (Axis.brushless_congr (Cell.motor_of_loaded (c.endJob_loaded false))).trans h
  have hm := (c.endJob false).unfallow.startBrake_mot .park
  refine ⟨congrArg Motion.mode hm, Cell.startBrake_brake _ _, ?_, (congrArg Motion.job hm).trans ?_, (congrArg Motion.pCmd hm).trans ?_⟩
  · exact (Axis.b_setB_apart _ false (by decide)).trans (Cell.startBrake_marks _ _ hd).1
  · exact c.endJob_job false
  · exact (c.endJob_calm false).pos

theorem Cell.brakeCmd_flags (c : Cell) : c.brakeCmd.flags = c.flags := (Cell.startBrake_flags _ _).trans (c.endJob_flags false)

theorem brake_parks (s : State) (p : Pkt) (n : Fin 48) (ht : s.blk.takes p 0x36) (hn : p.tgt.toNat = n.val) :
    Does (.brake p) s fun t => s.blk.only t n ∧ t.rest = s.blk.rest ∧ t.owning = s.blk.owning ∧
      (if (s.blk.axis n).brushless = true ∧ ((s.blk.axis n).mot.judged = .hold ∨ (s.blk.axis n).mot.judged = .stopping) then
      t.answers p.toHdr 0x36 0 [] ∧ (t.axis n).mot.mode = .park ∧ (t.axis n).bl.brake = .park ∧ (t.axis n).b AX.BL_STAT.BRAKE = true
      ∧ (t.axis n).mot.job = none ∧ (t.axis n).mot.pCmd = (s.blk.axis n).mot.pCmd
      else t.answers p.toHdr 0x36 0x12 []
      ∧ t.axis n = { s.blk.axis n with mot := { (s.blk.axis n).mot with fallowAfter := false } }) := by
  refine does_of_takes (run := runBrake) rfl ht (by decide) ?_
  unfold runBrake
  rw [Blk.forAxis_of_target _ hn (Nat.zero_le _)]
  simp only [Blk.begun_axis]
  by_cases h : (s.blk.axis n).brushless = true ∧ ((s.blk.axis n).mot.judged = .hold ∨ (s.blk.axis n).mot.judged = .stopping)
  · rw [if_neg (by obtain ⟨h, h' | h'⟩ := h <;> simp [h, h']), if_pos h]
    have hp := (s.blk.cellOf n).brakeCmd_park h.1
    obtain ⟨honly, hrest, howning⟩ := s.blk.cell_answer_apart (Pkt.req p 0x36) n Cell.brakeCmd 0 []
    have hax := s.blk.cell_answer_axis (Pkt.req p 0x36) (n := n) (f := Cell.brakeCmd) 0 [] (Cell.brakeCmd_flags _)
    exact ⟨honly, hrest, howning, s.blk.cell_answer_answers n Cell.brakeCmd 0 [] (by decide), hax ▸ hp⟩
  · rw [if_pos (by simpa [imp_iff_not_or] using h), if_neg h]
    obtain ⟨honly, hrest, howning⟩ := s.blk.cell_answer_apart (Pkt.req p 0x36) n Cell.unfallow 0x12 []
    exact ⟨honly, hrest, howning, s.blk.cell_answer_answers n Cell.unfallow 0x12 [] (by decide), s.blk.cell_answer_axis _ 0x12 [] rfl⟩

/-- Settles O27: each target of `HOLD` sees only its own judgement and step, and `BRAKE` is a step on one cell. -/
theorem holdAndBrake : Obligations.HoldAndBrake := ⟨hold_holds, brake_parks⟩

end Sys2Proof.Machine
end

section
/-!
`STOP`, `QSTOP`, `FALLOW` and `STOP_ALL` (06 R197 to R200, 11 R402): what each makes of a cell, and what the axes of their targets show of it.
-/

namespace Sys2Proof.Machine

open Sys2Proof.Safety

/-! ### What a stop makes of a cell -/

/-- What a stop does to an axis that does not put it off. -/
def Deferred.act (d : Deferred) (c : Cell) : Cell :=
  match d with
  | .stop => c.stop .stop
  | .qstop => c.stop .qstop
  | .fallow => c.fallowCmd

/-- The command of a stop, on a cell: put off in short-circuit handling (02 R69). -/
def Cell.stopCmd (c : Cell) (d : Deferred) : Cell := c.written.orDefer d d.act

/-- `STOP` or `QSTOP`, as it is put off. -/
def defer (q : Bool) : Deferred := if q then .qstop else .stop

theorem defer_act (q : Bool) (c : Cell) : (defer q).act c = c.stop (quick q) := by cases q <;> rfl

theorem Cell.stopCmd_of_handling (c : Cell) (d : Deferred) (h : c.ax.handling = true) :
    (c.stopCmd d).ax.legs.deferred = c.ax.legs.deferred ++ [d] ∧ (c.stopCmd d).ax.mot = c.ax.mot := by
  rw [Cell.stopCmd, c.written.orDefer_of_handling d d.act h]
  exact ⟨rfl, rfl⟩

theorem Cell.stopCmd_of_not_handling (c : Cell) (d : Deferred) (h : ¬ c.ax.handling = true) : c.stopCmd d = d.act c.written :=
  c.written.orDefer_of_not_handling d d.act (Bool.eq_false_iff.2 h)

theorem Cell.stop_of_not_running (c : Cell) (k : StopKind) (h : c.ax.mot.mode.running = false) : c.stop k = c.discard := by
  unfold Cell.stop
  extract_lets
  rw [if_pos (by simpa using h)]

theorem Cell.written_ramps (c : Cell) (q : Bool) : c.written.ax.ramps q = c.ax.ramps q :=
  Axis.ramps_congr rfl rfl (Axis.b_setB_apart c.ax false (by decide))

/-- A stop on a cell that is not in short-circuit handling (06 R197, R198). -/
theorem Cell.stop_written (c : Cell) (q : Bool) :
    if c.ax.mot.mode.running = false then
      (c.written.stop (quick q)).ax.mot.mode = c.ax.mot.mode ∧ (c.written.stop (quick q)).ax.mot.waiting = none
        ∧ (c.written.stop (quick q)).ax.mot.queued = none ∧ (c.written.stop (quick q)).ax.mot.pCmd = c.ax.mot.pCmd
    else if c.ax.ramps q = true then
      (c.written.stop (quick q)).ax.mot.mode ∈ [Mode.stopping, .hold, .fallow] ∧ (c.written.stop (quick q)).ax.mot.waiting = none
        ∧ (c.written.stop (quick q)).ax.mot.left = true ∧ (c.written.stop (quick q)).ax.mot.pCmd = c.ax.mot.pCmd
    else True := by
  have hcalm := c.written.stop_calm (quick q)
  split
  next hrun =>
    rw [c.written.stop_of_not_running _ hrun]
    exact ⟨rfl, rfl, rfl, rfl⟩
  next =>
    split
    next hr =>
      have h := c.written.stop_ramped q (c.written_ramps q ▸ hr)
      exact ⟨h.mode, (c.written.stop_drained _).1, h.left, hcalm.pos⟩
    next => trivial

theorem Cell.goFallow_amp (c : Cell) : c.goFallow.ax.reg.amp = 0 := by
  unfold Cell.goFallow
  extract_lets
  rfl

theorem Cell.fallowCmd_of_fallow (c : Cell) (h : c.ax.mot.mode = .fallow ∨ c.ax.mot.mode = .unconfigured) : c.fallowCmd = c.discard := by
  unfold Cell.fallowCmd
  exact if_pos (by simpa using h)

theorem Cell.fallowCmd_of_rest (c : Cell) (h : c.ax.mot.mode = .hold ∨ c.ax.mot.mode = .park) :
    c.fallowCmd = (c.homeFail.discard.endJob false).goFallow := by
  obtain h | h := h <;> simp [Cell.fallowCmd, h]

theorem Cell.fallowCmd_of_stopping (c : Cell) (h : c.ax.mot.mode = .stopping) : c.fallowCmd = c.mot fun x => { x with fallowAfter := true } := by
  simp [Cell.fallowCmd, h]

/-- `FALLOW` on a cell that is not in short-circuit handling (06 R180, R200). -/
theorem Cell.fallowCmd_leaves (c : Cell) :
    if c.ax.mot.mode = .fallow ∨ c.ax.mot.mode = .unconfigured then c.fallowCmd.ax.mot.mode = c.ax.mot.mode ∧ c.fallowCmd.ax.mot.waiting = none
    else if c.ax.mot.mode = .hold ∨ c.ax.mot.mode = .park then c.fallowCmd.ax.mot.mode.enabled = false ∧ c.fallowCmd.ax.mot.waiting = none
      ∧ c.fallowCmd.ax.trip.live = false ∧ c.fallowCmd.ax.reg.amp = 0
    else if c.ax.mot.mode = .stopping then c.fallowCmd.ax.mot = { c.ax.mot with fallowAfter := true }
    else True := by
  split_ifs with hf hr hs
  · rw [c.fallowCmd_of_fallow hf]
    exact ⟨rfl, rfl⟩
  · rw [c.fallowCmd_of_rest hr]
    have hw : (c.homeFail.discard.endJob false).ax.mot.drained := (Cell.endJob_calm _ false).drained (Cell.discard_drained _)
    exact ⟨Cell.goFallow_enabled _, ((Cell.goFallow_calm _).drained hw).1, (Cell.goFallow_brake _).2, Cell.goFallow_amp _⟩
  · exact congrArg (fun d : Cell => d.ax.mot) (c.fallowCmd_of_stopping hs)

/-! ### The axes of a target (11 R382) -/

/-- After a step on cells that are each met once, an axis is as its own step on its own cell leaves it. -/
theorem Blk.cells_leave_mem (b : Blk) (f : Fin 48 → Cell → Cell) {l : List (Fin 48)} {n : Fin 48} (hl : l.Nodup) (hn : n ∈ l) :
    (f n (b.cellOf n)).Leaves ((b.cells l f).axis n) := by
  obtain ⟨c, hc, hax⟩ := b.cells_axis_mem f hl hn
  rw [← hc, hax]
  exact c.cell_leaves n (f n)

theorem does_imp {c : Instr} {s : State} {P Q : Blk → Prop} (h : Does c s P) (hi : ∀ t, P t → Q t) : Does c s Q := by
  obtain ⟨t, he, hpend, hp⟩ := h
  exact ⟨t, he, hpend, hi _ hp⟩

/-- `STOP`, `QSTOP` and `FALLOW` act on each of their targets. -/
theorem runStops_eq (d : Deferred) (b : Blk) (q : Req) {ns : List (Fin 48)} (h : b.targets .many q.h.tgt = some ns) :
    runStops d b q = ((b.markStopped ns).cells ns fun _ c => c.stopCmd d).answerEach q ns (ns.map fun _ => 0) := by
  unfold runStops
  simp only [h]
  rfl

theorem Blk.plan_of_frame {b t : Blk} (h : t.frame = b.frame) : t.plan = b.plan := congrArg (fun x => x.1.plan) h

/-- What `STOP`, `QSTOP` and `FALLOW` leave: the candidates of their targets marked, each target as its own stop leaves it, and an answer. -/
structure Blk.Stops (b t : Blk) (d : Deferred) (ns : List (Fin 48)) : Prop where
  rest : t.rest = { b with plan := t.plan }.rest
  cands : t.plan.cands = b.plan.cands.map fun c => if !c.query && c.members.any (fun m => ns.contains m.axis) then { c with stopped := true } else c
  others : ∀ n, n ∉ ns → t.axis n = b.axis n
  leaves : ∀ n ∈ ns, ((b.cellOf n).stopCmd d).Leaves (t.axis n)

theorem axisStops (d : Deferred) {c : Instr} {s : State} {p : Pkt} {opc : Nat} {ns : List (Fin 48)}
    (he : exec c s = onBlk (fun b => b.packet p opc (runStops d)) s) (ht : s.blk.takes p opc) (hx : opc ∉ [0x01, 0x02, 0x04, 0x05, 0x06, 0x42])
    (hns : s.blk.targets .many p.tgt = some ns) : Does c s fun t => s.blk.Stops t d ns
      ∧ t.answers p.toHdr opc 0 (if p.tgt.toNat < 48 then [] else axisMask ns ++ List.replicate ns.length 0) := by
  refine does_of_takes he ht hx ?_
  rw [runStops_eq d _ _ ((Blk.targets_begun ..).trans hns)]
  have hb := s.blk.begun_frame (Pkt.req p opc)
  have hcell := s.blk.begun_cellOf (Pkt.req p opc)
  have hans := Blk.answerEach_answers (b := s.blk) ns (ns.map fun _ => 0) hx
    (Blk.cells_planes ((s.blk.begun (Pkt.req p opc)).markStopped ns) ns fun _ c => c.stopCmd d)
  generalize s.blk.begun (Pkt.req p opc) = b at *
  have hf := (Blk.answerEach_frame ((b.markStopped ns).cells ns fun _ c => c.stopCmd d) (Pkt.req p opc) ns (ns.map fun _ => 0)).trans (Blk.cells_frame ..)
  have hplan : b.plan = s.blk.plan := Blk.plan_of_frame hb
  refine ⟨⟨?_, ?_, fun n hn => ?_, fun n hn => ?_⟩, ?_⟩
  · rw [Blk.plan_of_frame hf]
    exact (congrArg Prod.fst hf).trans (congrArg (fun r : Blk => { r with plan := (b.markStopped ns).plan }) (congrArg Prod.fst hb))
  · rw [Blk.plan_of_frame hf, ← hplan]
    rfl
  · rw [Blk.answerEach_axis, Blk.cells_axis_notMem _ _ hn]
    exact congrArg Cell.ax (hcell n)
  · rw [Blk.answerEach_axis, ← hcell n]
    exact (b.markStopped ns).cells_leave_mem (fun _ c => c.stopCmd d) (Blk.targets_nodup hns) hn
  · rw [show (ns.map fun _ => 0).headD 0 = 0 by cases ns <;> rfl] at hans
    simpa using hans

theorem stops_act (s : State) (p : Pkt) (ns : List (Fin 48)) (q : Bool) (ht : s.blk.takes p (if q then 0x41 else 0x40))
    (hns : s.blk.targets .many p.tgt = some ns) :
    Does (if q then .qstop p else .stop p) s fun t => t.rest = { s.blk with plan := t.plan }.rest
      ∧ t.plan.cands = s.blk.plan.cands.map (fun c =>
      if !c.query && c.members.any (fun m => ns.contains m.axis) then { c with stopped := true } else c)
      ∧ (∀ n, n ∉ ns → t.axis n = s.blk.axis n)
      ∧ (∀ n ∈ ns, if (s.blk.axis n).handling = true then
      (t.axis n).legs.deferred = (s.blk.axis n).legs.deferred ++ [if q then .qstop else .stop] ∧ (t.axis n).mot = (s.blk.axis n).mot
      else if (s.blk.axis n).mot.mode.running = false then
      (t.axis n).mot.mode = (s.blk.axis n).mot.mode ∧ (t.axis n).mot.waiting = none ∧ (t.axis n).mot.queued = none
      ∧ (t.axis n).mot.pCmd = (s.blk.axis n).mot.pCmd
      else if (s.blk.axis n).ramps q = true then (t.axis n).mot.mode ∈ [.stopping, .hold, .fallow] ∧ (t.axis n).mot.waiting = none
      ∧ (t.axis n).mot.left = true ∧ (t.axis n).mot.pCmd = (s.blk.axis n).mot.pCmd
      else True)
      ∧ t.answers p.toHdr (if q then 0x41 else 0x40) 0 (if p.tgt.toNat < 48 then [] else axisMask ns ++ List.replicate ns.length 0) := by
  refine does_imp (axisStops (defer q) (by cases q <;> rfl) ht (by cases q <;> decide) hns) fun t ⟨h, hans⟩ => ⟨h.rest, h.cands, h.others, fun n hn => ?_, hans⟩
  have hl := h.leaves n hn
  have hmot := hl.mot
  split
  next hh =>
    obtain ⟨hd, hm⟩ := (s.blk.cellOf n).stopCmd_of_handling (defer q) hh
    exact ⟨(congrArg Legs.deferred hl.legs).trans hd, hmot.trans hm⟩
  next hh =>
    rw [(s.blk.cellOf n).stopCmd_of_not_handling (defer q) hh, defer_act] at hmot
    rw [hmot]
    exact (s.blk.cellOf n).stop_written q

theorem fallow_acts (s : State) (p : Pkt) (ns : List (Fin 48)) (ht : s.blk.takes p 0x35) (hns : s.blk.targets .many p.tgt = some ns) :
    Does (.fallow p) s fun t => t.rest = { s.blk with plan := t.plan }.rest
      ∧ (∀ n, n ∉ ns → t.axis n = s.blk.axis n)
      ∧ (∀ n ∈ ns, if (s.blk.axis n).handling = true then
      (t.axis n).legs.deferred = (s.blk.axis n).legs.deferred ++ [.fallow] ∧ (t.axis n).mot = (s.blk.axis n).mot
      else if (s.blk.axis n).mot.mode = .fallow ∨ (s.blk.axis n).mot.mode = .unconfigured then
      (t.axis n).mot.mode = (s.blk.axis n).mot.mode ∧ (t.axis n).mot.waiting = none
      else if (s.blk.axis n).mot.mode = .hold ∨ (s.blk.axis n).mot.mode = .park then (t.axis n).mot.mode.enabled = false ∧ (t.axis n).mot.waiting = none
      ∧ (t.axis n).trip.live = false ∧ (t.axis n).reg.amp = 0
      else if (s.blk.axis n).mot.mode = .stopping then
      (t.axis n).mot = { (s.blk.axis n).mot with fallowAfter := true }
      else True)
      ∧ t.answers p.toHdr 0x35 0 (if p.tgt.toNat < 48 then [] else axisMask ns ++ List.replicate ns.length 0) := by
  refine does_imp (axisStops .fallow rfl ht (by decide) hns) fun t ⟨h, hans⟩ => ⟨h.rest, h.others, fun n hn => ?_, hans⟩
  have hl := h.leaves n hn
  split
  next hh =>
    obtain ⟨hd, hm⟩ := (s.blk.cellOf n).stopCmd_of_handling .fallow hh
    exact ⟨(congrArg Legs.deferred hl.legs).trans hd, hl.mot.trans hm⟩
  next hh =>
    rw [(s.blk.cellOf n).stopCmd_of_not_handling .fallow hh] at hl
    rw [hl.mot, hl.trip, hl.reg]
    exact (s.blk.cellOf n).written.fallowCmd_leaves

/-! ### `STOP_ALL` (11 R402) -/

/-- `STOP_ALL` on a cell: at once where it runs no profile. -/
def Cell.stopAllCmd (c : Cell) (d : Deferred) : Cell := if c.written.ax.mot.mode.running then c.stopCmd d else c.written.discard

theorem Blk.stopEvery_eq (b : Blk) (byte : Nat) :
    b.stopEvery byte = (b.markStopped allAxes).cells allAxes fun _ c => c.stopAllCmd (defer (byte ≠ 1)) := by
  by_cases h : byte = 1 <;> simp only [Blk.stopEvery, Cell.stopAllCmd, Cell.stopCmd, defer, h, if_true, if_false, ne_eq, not_true_eq_false, not_false_eq_true,
    decide_true, decide_false, Bool.false_eq_true] <;> rfl

/-- The last sequence number of a plane, and whether it is armed. -/
def Blk.lock (b : Blk) (i : Fin 3) : BitVec 16 × Bool := ((b.planes.get i).l, (b.planes.get i).armed)

theorem Blk.lock_of_planes {b t : Blk} (h : t.planes = b.planes) (i : Fin 3) : t.lock i = b.lock i := by rw [Blk.lock, h]; rfl

theorem Blk.acc_lock (b : Blk) {p : PlaneSt} (j i : Fin 3) (acc : List Acc) (h : b.planes.get j = p) :
    ({ b with planes := b.planes.set j { p with acc := acc } } : Blk).lock i = b.lock i := by
  subst h
  unfold Blk.lock
  by_cases hij : i = j
  · rw [hij, get_set_same]
  · rw [get_set_other _ _ hij]

/-- An answer leaves the sequence of every plane but for its commands. -/
theorem Blk.answer_lock (b : Blk) (q : Req) (st : Nat) (x : List Byte) (i : Fin 3) : (b.answer q st x).lock i = b.lock i := by
  unfold Blk.answer
  extract_lets o p c d
  have hc : c.planes = b.planes := ite_keeps Blk.planes rfl (Blk.logEntry_planes ..)
  have hp : c.planes.get q.plane.idx = p := congrArg (fun v => v.get q.plane.idx) hc
  split
  next y _ =>
    rw [Blk.lock_of_planes (foldl_keeps Blk.planes _ (fun b v => b.sendVia_planes v o) _ _), c.acc_lock _ _ _ hp, Blk.lock_of_planes hc]
  next =>
    rw [Blk.lock_of_planes (Blk.sendVia_planes ..), ← Blk.lock_of_planes hc]
    exact ite_keeps (Blk.lock · i) (c.acc_lock _ _ _ hp) rfl

/-- A packet outside the sequence that passes the judgement runs its command. -/
theorem Blk.packet_of_go {b : Blk} {p : Pkt} {opc : Nat} (run : Blk → Req → Blk) (hj : b.judged (Pkt.req p opc) = .go) (hx : (Pkt.req p opc).exempt = true) :
    b.packet p opc run = run ((b.served p.toHdr).heard p.src p.sid p.port p.endUs) (Pkt.req p opc) := by
  have hj' : (b.served p.toHdr).judged (Pkt.req p opc) = .go := hj
  have hvia : (Pkt.req p opc).via ≠ .ring := by simp [Pkt.req]
  simp only [Blk.packet, Blk.serve, hj', hx, hvia, Bool.true_or, if_true, reduceCtorEq, decide_false, Bool.or_false, Bool.false_eq_true, if_false]
  rfl

theorem Blk.stopEvery_cands (b : Blk) (byte : Nat) : (b.stopEvery byte).plan.cands =
    b.plan.cands.map fun c => if !c.query && !c.members.isEmpty then { c with stopped := true } else c := by
  have hany : ∀ ms : List Member, (ms.any fun m => allAxes.contains m.axis) = !ms.isEmpty := fun ms => by
    cases ms <;> simp [mem_allAxes]
  rw [Blk.stopEvery_eq, Blk.plan_of_frame (Blk.cells_frame ..)]
  simp only [Blk.markStopped, hany]

theorem Blk.stopEvery_leaves (b : Blk) (byte : Nat) (n : Fin 48) :
    ((b.cellOf n).stopAllCmd (defer (byte ≠ 1))).Leaves ((b.stopEvery byte).axis n) := by
  rw [Blk.stopEvery_eq]
  exact (b.markStopped allAxes).cells_leave (fun _ c => c.stopAllCmd (defer (byte ≠ 1))) n

/-- `STOP_ALL` on a cell (11 R402). -/
theorem Cell.stopAllCmd_leaves (c : Cell) (q : Bool) :
    if c.ax.mot.mode.running = false then (c.stopAllCmd (defer q)).ax.mot.mode = c.ax.mot.mode ∧ (c.stopAllCmd (defer q)).ax.mot.waiting = none
      ∧ (c.stopAllCmd (defer q)).ax.mot.queued = none
    else if c.ax.handling = true then (c.stopAllCmd (defer q)).ax.legs.deferred = c.ax.legs.deferred ++ [defer q]
      ∧ (c.stopAllCmd (defer q)).ax.mot = c.ax.mot
    else if c.ax.ramps q = true then (c.stopAllCmd (defer q)).ax.mot.mode ∈ [Mode.stopping, .hold, .fallow] else True := by
  have hcmd : c.stopAllCmd (defer q) = if c.ax.mot.mode.running then c.stopCmd (defer q) else c.written.discard := rfl
  rw [hcmd]
  cases hrun : c.ax.mot.mode.running with
  | false => exact ⟨rfl, rfl, rfl⟩
  | true =>
    simp only [if_true, Bool.true_eq_false, if_false]
    split_ifs with hh hr
    · exact c.stopCmd_of_handling (defer q) hh
    · rw [c.stopCmd_of_not_handling (defer q) hh, defer_act]
      exact (c.written.stop_ramped q (c.written_ramps q ▸ hr)).mode

/-- Whether the sender of a `STOP_ALL` is the owner, in its session. -/
def Blk.ownsAll (b : Blk) (q : Req) : Bool := b.isOwner q.h.src && b.sess.elim false fun s => s.sid = q.h.sid

theorem Blk.ownsAll_of_owning {b t : Blk} (h : t.owning = b.owning) (q : Req) : t.ownsAll q = b.ownsAll q := by
  have ho : ∀ c : Blk, c.ownsAll q = c.owning.elim false fun z => !z.2.2.2 && decide (z.1 = q.h.src) && decide (z.2.1 = q.h.sid) := fun c => by
    unfold Blk.ownsAll Blk.isOwner Blk.owning
    cases c.sess <;> rfl
  rw [ho, ho, h]

theorem Blk.ownsAll_of_owner (b : Blk) {q : Req} (ho : b.isOwner q.h.src = true) (hz : ∀ z ∈ b.sess, z.sid = q.h.sid) : b.ownsAll q = true := by
  unfold Blk.ownsAll
  cases hs : b.sess with
  | none => simp [Blk.isOwner, hs] at ho
  | some z => simp [ho, hz z hs]

/-- What `STOP_ALL` leaves before its answer: a stack's master relays it (15). -/
def Blk.stopRelayed (b : Blk) (byte : Nat) : Blk :=
  if (b.stopEvery byte).master then
    { b.stopEvery byte with casc := { (b.stopEvery byte).casc with stopMark := some (BitVec.ofNat 8 byte) } }
  else b.stopEvery byte

theorem runStopAll_eq (b : Blk) (q : Req) {byte : Nat} (h : q.h.tgt = 0xFE ∨ q.h.tgt = 0xFF) (hb : u q.body 0 1 = byte) :
    runStopAll b q = if b.ownsAll q then (b.stopRelayed byte).ok q else b.stopRelayed byte := by
  have ht : b.targets .stopAll q.h.tgt = some allAxes := if_pos (by simpa using h)
  subst hb
  unfold runStopAll
  simp only [ht]
  rfl

/-- What marks nothing but the cascade keeps of a module that `STOP_ALL` stops. -/
theorem Blk.stopRelayed_keeps {α : Type} (g : Blk → α) (b : Blk) (byte : Nat) (h : ∀ c x, g { c with casc := x } = g c) :
    g (b.stopRelayed byte) = g (b.stopEvery byte) := ite_keeps g (h _ _) rfl

theorem Blk.stopRelayed_rest (b : Blk) (byte : Nat) :
    (b.stopRelayed byte).sm = b.sm ∧ (b.stopRelayed byte).ledg = b.ledg ∧ (b.stopRelayed byte).pw = b.pw := by
  have hk : ∀ {α : Type} (g : Blk → α), (∀ c x, g { c with casc := x } = g c) → (∀ c l f, g (Blk.cells c l f) = g c) →
      (∀ l, g (b.markStopped l) = g b) → g (b.stopRelayed byte) = g b := fun g hcasc hcells hmark => by
    rw [b.stopRelayed_keeps g byte hcasc, b.stopEvery_eq, hcells, hmark]
  exact ⟨hk Blk.sm (fun _ _ => rfl) Blk.cells_sm fun _ => rfl, hk Blk.ledg (fun _ _ => rfl) Blk.cells_ledg fun _ => rfl,
    hk Blk.pw (fun _ _ => rfl) Blk.cells_pw fun _ => rfl⟩

theorem Blk.stopRelayed_leaves (b : Blk) (byte : Nat) (n : Fin 48) :
    ((b.cellOf n).stopAllCmd (defer (byte ≠ 1))).Leaves ((b.stopRelayed byte).axis n) := by
  rw [b.stopRelayed_keeps (fun c => c.axis n) byte fun _ _ => rfl]
  exact b.stopEvery_leaves byte n

theorem Blk.stopRelayed_lock (b : Blk) (byte : Nat) (i : Fin 3) : (b.stopRelayed byte).lock i = b.lock i := by
  rw [b.stopRelayed_keeps (Blk.lock · i) byte fun _ _ => rfl, b.stopEvery_eq]
  exact Blk.lock_of_planes (Blk.cells_planes ..) i

theorem defer_ne (byte : Nat) : defer (byte ≠ 1) = if byte = 1 then .stop else .qstop := by
  by_cases h : byte = 1 <;> simp [defer, h]

theorem stopAll_acts (s : State) (p : Pkt) (hj : s.blk.judged (Pkt.req p 0x42) = .go) (ht : p.tgt = 0xFE ∨ p.tgt = 0xFF) :
    Does (.stopAll p) s fun t =>
      t.plan.cands = s.blk.plan.cands.map (fun c => if !c.query && !c.members.isEmpty then { c with stopped := true } else c)
      ∧ (∀ n, if (s.blk.axis n).mot.mode.running = false then
      (t.axis n).mot.mode = (s.blk.axis n).mot.mode ∧ (t.axis n).mot.waiting = none ∧ (t.axis n).mot.queued = none
      else if (s.blk.axis n).handling = true then
      (t.axis n).legs.deferred = (s.blk.axis n).legs.deferred ++ [if u p.body 0 1 = 1 then .stop else .qstop] ∧ (t.axis n).mot = (s.blk.axis n).mot
      else if (s.blk.axis n).ramps (u p.body 0 1 ≠ 1) = true then (t.axis n).mot.mode ∈ [.stopping, .hold, .fallow] else True)
      ∧ (s.blk.isOwner p.src = true → (∀ z ∈ s.blk.sess, z.sid = p.sid) → t.answers p.toHdr 0x42 0 [])
      ∧ t.sm = s.blk.sm ∧ t.ledg = s.blk.ledg ∧ (∀ i, (t.planes.get i).l = (s.blk.planes.get i).l ∧ (t.planes.get i).armed = (s.blk.planes.get i).armed)
      ∧ t.pw = s.blk.pw := by
  refine does_of_onBlk (f := fun b => b.packet p 0x42 runStopAll) rfl ?_
  rw [Blk.packet_of_go runStopAll hj rfl, runStopAll_eq _ _ (byte := u p.body 0 1) ht rfl]
  have hown := Blk.ownsAll_of_owning ((s.blk.served p.toHdr).heard_owning p.src p.sid p.port p.endUs) (Pkt.req p 0x42)
  have hcell : ∀ n, ((s.blk.served p.toHdr).heard p.src p.sid p.port p.endUs).cellOf n = s.blk.cellOf n := fun n => by simp [Blk.cellOf]
  have hb : ((s.blk.served p.toHdr).heard p.src p.sid p.port p.endUs).plan = s.blk.plan ∧
      ((s.blk.served p.toHdr).heard p.src p.sid p.port p.endUs).sm = s.blk.sm ∧
      ((s.blk.served p.toHdr).heard p.src p.sid p.port p.endUs).ledg = s.blk.ledg ∧
      ((s.blk.served p.toHdr).heard p.src p.sid p.port p.endUs).pw = s.blk.pw := by simp
  have hlock : ∀ i, ((s.blk.served p.toHdr).heard p.src p.sid p.port p.endUs).lock i = s.blk.lock i := fun i => Blk.lock_of_planes (Blk.heard_planes ..) i
  generalize (s.blk.served p.toHdr).heard p.src p.sid p.port p.endUs = b at *
  obtain ⟨hplan, hsm, hledg, hpw⟩ := hb
  obtain ⟨hsm', hledg', hpw'⟩ := b.stopRelayed_rest (u p.body 0 1)
  have hkeep : ∀ {α : Type} (g : Blk → α), (∀ c, g (Blk.ok c (Pkt.req p 0x42)) = g c) →
      g (if b.ownsAll (Pkt.req p 0x42) then (b.stopRelayed (u p.body 0 1)).ok (Pkt.req p 0x42) else b.stopRelayed (u p.body 0 1))
        = g (b.stopRelayed (u p.body 0 1)) := fun g h => ite_keeps g (h _) rfl
  refine ⟨?_, fun n => ?_, fun ho hz => ?_, ?_, ?_, fun i => ?_, ?_⟩
  · rw [hkeep Blk.plan fun c => Blk.answer_plan .., b.stopRelayed_keeps Blk.plan _ fun _ _ => rfl, b.stopEvery_cands, hplan]
  · have hl := b.stopRelayed_leaves (u p.body 0 1) n
    have h := (s.blk.cellOf n).stopAllCmd_leaves (u p.body 0 1 ≠ 1)
    rw [hkeep (fun c => c.axis n) fun c => Blk.axis_of_ax (Blk.answer_ax ..) n, hl.mot, hl.legs, hcell n, ← defer_ne]
    exact h
  · rw [if_pos (hown.trans (s.blk.ownsAll_of_owner ho hz))]
    exact Blk.answers_of_exempt (q := Pkt.req p 0x42) rfl rfl rfl
  · rw [hkeep Blk.sm fun c => Blk.answer_sm .., hsm', hsm]
  · rw [hkeep Blk.ledg fun c => Blk.answer_ledg .., hledg', hledg]
  · have h := (hkeep (Blk.lock · i) fun c => c.answer_lock _ _ _ i).trans ((b.stopRelayed_lock _ i).trans (hlock i))
    exact Prod.mk.inj h
  · rw [hkeep Blk.pw fun c => Blk.answer_pw .., hpw', hpw]

/-- Settles O28: a stop is a step on the cell of each of its targets, and `STOP_ALL` one on every cell. -/
theorem stopsAct : Obligations.StopsAct := ⟨stops_act, fallow_acts, stopAll_acts⟩

end Sys2Proof.Machine
end

section
/-!
Masters and cams (06 R205, R210 to R213): a lost master, the tick of a cam's engage and of its disengage, and a table with an error.
-/

namespace Sys2Proof.Machine

open Sys2Proof.Safety

/-! ### A stop drops a cam that waits (06 R211) -/

theorem Cell.stopAlong_camWait (c : Cell) (k : StopKind) (p : Prof) : (c.stopAlong k p).ax.mot.camWait = none := by
  unfold Cell.stopAlong
  extract_lets d
  split
  · exact d.stopDone_rests.camWait
  · rfl

theorem Cell.stopAgain_camWait (c : Cell) (k : StopKind) (h : c.ax.mot.camWait = none) : (c.stopAgain k).ax.mot.camWait = none := by
  have hk : ∀ {p : Prop} [Decidable p] {x y : Cell}, x.ax.mot.camWait = none → y.ax.mot.camWait = none → (if p then x else y).ax.mot.camWait = none :=
    fun hx hy => ite_keeps (fun c : Cell => c.ax.mot.camWait) hx hy
  unfold Cell.stopAgain
  extract_lets m
  split
  · exact hk (hk (c.stopAlong_camWait _ _) h) (hk (Cell.stopAlong_camWait _ _ _) h)
  · exact h

theorem Cell.stop_camWait (c : Cell) (k : StopKind) : (c.stop k).ax.mot.camWait = none := by
  have hd : c.discard.ax.mot.camWait = none := rfl
  have hhome : ∀ x : Cell, x.ax.mot.camWait = none → x.homeFail.ax.mot.camWait = none := fun x hx => by rwa [x.homeFail_mot]
  have hk : ∀ {p : Prop} [Decidable p] {x y : Cell}, x.ax.mot.camWait = none → y.ax.mot.camWait = none → (if p then x else y).ax.mot.camWait = none :=
    fun hx hy => ite_keeps (fun c : Cell => c.ax.mot.camWait) hx hy
  have hbrake : ∀ (x : Cell) w, (x.startBrake w).ax.mot.camWait = none := fun x w => by rw [x.startBrake_mot]
  unfold Cell.stop
  extract_lets a m d1 d e f g from_
  refine hk hd (hk ?_ (hk (hk (hbrake ..) (hbrake ..)) (hk (d.stopAgain_camWait k hd) (hk hd (hk hd (Cell.stopAlong_camWait ..))))))
  have h1 : d1.ax.mot.camWait = none := hhome _ hd
  split <;> exact h1

/-! ### A lost master (06 R205) -/

/-- The mark and the event of a lost master. -/
def Cell.tellsLost (c : Cell) : Cell := (c.raise AX.MOT_EVT.MASTER_LOST).event 0x0D

theorem Cell.masterLost_eq (c : Cell) : c.masterLost = if c.ax.mot.camWait.isSome then c.tellsLost.mot fun m => { m with camWait := none, job := none }
    else c.tellsLost.stop (quick (c.ax.b AX.MOT_CFG.MLOSS_ACT)) := rfl

theorem Cell.masterLost_flags (c : Cell) : AX.MOT_EVT.MASTER_LOST ∈ c.masterLost.flags := by
  have h : AX.MOT_EVT.MASTER_LOST ∈ c.tellsLost.flags := List.mem_append_right _ (List.mem_singleton.2 rfl)
  rw [c.masterLost_eq]
  split
  · exact h
  · exact (c.tellsLost.stop_legsKept _).flags h

/-- What a lost master leaves of its follower. -/
theorem Cell.masterLost_leaves (c : Cell) : if c.ax.mot.camWait = none then c.masterLost.ax.mot.waiting = none
      ∧ (c.ax.ramps (c.ax.b AX.MOT_CFG.MLOSS_ACT) = true → c.masterLost.ax.mot.mode ∈ [Mode.stopping, .hold, .fallow] ∧ c.masterLost.ax.mot.left = true)
    else c.masterLost.ax.mot = { c.ax.mot with camWait := none, job := none } := by
  rw [c.masterLost_eq]
  split
  next h =>
    rw [if_neg (by simp [h])]
    exact ⟨(c.tellsLost.stop_drained _).1, fun hr => ⟨(c.tellsLost.stop_ramped _ hr).mode, (c.tellsLost.stop_ramped _ hr).left⟩⟩
  next h =>
    rw [if_pos (Option.isSome_iff_ne_none.2 h)]
    rfl

theorem masterLost_acts (s : State) (n : Fin 48) : Does (.masterLost n) s fun t => s.blk.only t n ∧ s.blk.still t ∧
      ((s.blk.axis n).master = none → t.axis n = s.blk.axis n) ∧
      ∀ r ∈ (s.blk.axis n).master, if s.blk.masterGone r = false then t.axis n = s.blk.axis n
      else (t.axis n).flagged AX.MOT_EVT.MASTER_LOST
      ∧ (if (s.blk.axis n).mot.camWait = none then (t.axis n).mot.waiting = none
      ∧ ((s.blk.axis n).ramps ((s.blk.axis n).b AX.MOT_CFG.MLOSS_ACT) = true → (t.axis n).mot.mode ∈ [.stopping, .hold, .fallow] ∧ (t.axis n).mot.left = true)
      else (t.axis n).mot = { (s.blk.axis n).mot with camWait := none, job := none }) := by
  have hstays : s.blk.only s.blk n ∧ s.blk.still s.blk := ⟨fun _ _ => rfl, Blk.still_of_frame rfl⟩
  refine does_of_onBlk (f := fun b => match (b.axis n).master with
    | some r => if b.masterGone r then b.cell n Cell.masterLost else b
    | none => b) rfl ?_
  dsimp only
  split
  next r hr =>
    split
    next hg =>
      have hl := s.blk.cell_leaves n Cell.masterLost
      refine ⟨s.blk.cell_only n _, s.blk.cell_still n _, fun h => absurd (h.symm.trans hr) (by simp), fun r' hr' => ?_⟩
      cases hr'.symm.trans hr
      rw [if_neg (by simp [hg]), hl.mot]
      exact ⟨hl.flagged (s.blk.cellOf n).masterLost_flags (by decide) (by decide), (s.blk.cellOf n).masterLost_leaves⟩
    next hg =>
      refine ⟨hstays.1, hstays.2, fun _ => rfl, fun r' hr' => ?_⟩
      cases hr'.symm.trans hr
      rw [if_pos (Bool.eq_false_iff.2 hg)]
  next hr => exact ⟨hstays.1, hstays.2, fun _ => rfl, fun r' hr' => absurd (hr'.symm.trans hr) (by simp)⟩

/-! ### The engage tick of a cam (06 R210, R211) -/

/-- A waiting cam that cannot engage is refused, and its axis holds (06 R211, R213). -/
theorem Cell.engageFails_of_wait (c : Cell) {w : CamP × Nat × Plane} (h : c.ax.mot.camWait = some w) :
    AX.MOT_EVT.CAM_REFUSED ∈ c.engageFails.flags ∧ c.engageFails.ax.mot = { c.ax.mot with
      mode := .hold, prof := { p := c.ax.mot.pCmd }, job := none, camWait := none, engage := none, depth := 0, rest := some ⟨0, c.now + 1⟩ } := by
  unfold Cell.engageFails
  simp only [h]
  exact ⟨List.mem_append_right _ (List.mem_singleton.2 rfl), rfl⟩

/-- What the engage tick leaves of an axis: it is refused beyond its tolerance, or follows its table. -/
theorem Cell.engageCam_leaves (c : Cell) (t : CamTable) (cp : CamP) (m : Int) (seq d : Nat) : (c.engageCam t cp m seq d).ax.mot.camWait = none ∧
    (c.engageCam t cp m seq d).ax.mot.pCmd = c.ax.mot.pCmd ∧
    if cp.abs = true ∧ (cp.tol : Rat) < Rat.abs' ((cp.sOrg : Rat) + camOut t cp m - c.ax.mot.pCmd) then
      (c.engageCam t cp m seq d).ax.mot.mode = .hold ∧ (c.engageCam t cp m seq d).ax.mot.job = none
        ∧ AX.MOT_EVT.CAM_REFUSED ∈ (c.engageCam t cp m seq d).flags
    else (c.engageCam t cp m seq d).ax.mot.mode = .cam ∧ AX.MOT_EVT.CAM_ENGAGED ∈ (c.engageCam t cp m seq d).flags
      ∧ (c.engageCam t cp m seq d).ax.mot.engage = some ⟨.cam cp, m, c.ax.mot.pCmd, if cp.abs then (cp.sOrg : Rat) else
        (c.ax.mot.pCmd : Rat) - camOut t cp m, false, false, none⟩ := by
  have hmem : ∀ f : Flag, f ∈ c.flags ++ [f] := fun f => List.mem_append_right _ (List.mem_singleton.2 rfl)
  unfold Cell.engageCam
  extract_lets f p e s
  by_cases h : cp.abs = true ∧ (cp.tol : Rat) < Rat.abs' ((cp.sOrg : Rat) + camOut t cp m - c.ax.mot.pCmd)
  · rw [if_pos h, if_pos (by simpa using h)]
    exact ⟨rfl, rfl, rfl, rfl, hmem _⟩
  · rw [if_neg h, if_neg (by simpa using h)]
    exact ⟨rfl, rfl, rfl, hmem _, rfl⟩

/-- The event of a cam that waits to engage. -/
def Blk.camEngages (b : Blk) (n : Fin 48) (cp : CamP) (seq : Nat) (m : Int) (x : Int × Bool) : Blk :=
  if passedAt m x && b.masterValid cp.master then
    b.cell n fun c => if b.fellNow cp.master then c.engageFails else c.engageCam (b.cams.get cp.table) cp m seq (b.depthOf 4 n)
  else b

theorem camAtEngage_idle (s : State) (n : Fin 48) (h : (s.blk.axis n).mot.camWait = none) : Does (.camAtEngage n) s fun t => t = s.blk := by
  have he : exec (.camAtEngage n) s = onBlk (fun b => b) s := by
    show execCamAtEngage n s = _
    simp only [execCamAtEngage, onBlk, h]
  exact does_of_onBlk he rfl

theorem camAtEngage_acts (s : State) (n : Fin 48) (cp : CamP) (seq : Nat) (pl : Plane) (m : Int) (x : Int × Bool)
    (hw : (s.blk.axis n).mot.camWait = some (cp, seq, pl)) (hm : s.blk.masters cp.master = some m) (hx : cp.startAt = some x) :
    Does (.camAtEngage n) s fun t => s.blk.only t n ∧ s.blk.still t ∧ (t.axis n).mot.pCmd = (s.blk.axis n).mot.pCmd ∧
      (if passedAt m x = false ∨ s.blk.masterValid cp.master = false then t.axis n = s.blk.axis n
      else if s.blk.fellNow cp.master = true then (t.axis n).mot.mode = .hold ∧ (t.axis n).mot.job = none ∧ (t.axis n).mot.camWait = none
      ∧ (t.axis n).flagged AX.MOT_EVT.CAM_REFUSED
      else (t.axis n).mot.camWait = none ∧
      (if cp.abs = true ∧ (cp.tol : Rat) < Rat.abs' ((cp.sOrg : Rat) + camOut (s.blk.cams.get cp.table) cp m - (s.blk.axis n).mot.pCmd) then
      (t.axis n).mot.mode = .hold ∧ (t.axis n).mot.job = none ∧ (t.axis n).flagged AX.MOT_EVT.CAM_REFUSED
      else (t.axis n).mot.mode = .cam ∧ (t.axis n).flagged AX.MOT_EVT.CAM_ENGAGED
      ∧ (t.axis n).mot.engage = some ⟨.cam cp, m, (s.blk.axis n).mot.pCmd, if cp.abs then (cp.sOrg : Rat) else
      ((s.blk.axis n).mot.pCmd : Rat) - camOut (s.blk.cams.get cp.table) cp m, false, false, none⟩)) := by
  have he : exec (.camAtEngage n) s = onBlk (fun b => b.camEngages n cp seq m x) s := by
    show execCamAtEngage n s = _
    simp only [execCamAtEngage, onBlk, hw, hm, hx]
    rfl
  refine does_of_onBlk he ?_
  unfold Blk.camEngages
  split
  next hp =>
    obtain ⟨hpass, hval⟩ := Bool.and_eq_true_iff.1 hp
    have hl := s.blk.cell_leaves n fun c => if s.blk.fellNow cp.master then c.engageFails else
      c.engageCam (s.blk.cams.get cp.table) cp m seq (s.blk.depthOf 4 n)
    rw [if_neg (by simp [hpass, hval])]
    refine ⟨s.blk.cell_only n _, s.blk.cell_still n _, ?_⟩
    cases hfell : s.blk.fellNow cp.master with
    | true =>
      simp only [hfell, if_true] at hl ⊢
      obtain ⟨hf, hmot⟩ := (s.blk.cellOf n).engageFails_of_wait hw
      have hmot := hl.mot.trans hmot
      exact ⟨(congrArg Motion.pCmd hmot).trans rfl, congrArg Motion.mode hmot, congrArg Motion.job hmot, congrArg Motion.camWait hmot,
        hl.flagged hf (by decide) (by decide)⟩
    | false =>
      simp only [hfell, Bool.false_eq_true, if_false] at hl ⊢
      obtain ⟨hwait, hpos, h⟩ := (s.blk.cellOf n).engageCam_leaves (s.blk.cams.get cp.table) cp m seq (s.blk.depthOf 4 n)
      refine ⟨(congrArg Motion.pCmd hl.mot).trans hpos, (congrArg Motion.camWait hl.mot).trans hwait, ?_⟩
      split
      next ha =>
        obtain ⟨hmode, hjob, hf⟩ := (if_pos ha).mp h
        exact ⟨(congrArg Motion.mode hl.mot).trans hmode, (congrArg Motion.job hl.mot).trans hjob, hl.flagged hf (by decide) (by decide)⟩
      next ha =>
        obtain ⟨hmode, hf, heng⟩ := (if_neg ha).mp h
        exact ⟨(congrArg Motion.mode hl.mot).trans hmode, hl.flagged hf (by decide) (by decide), (congrArg Motion.engage hl.mot).trans heng⟩
  next hp =>
    refine ⟨fun _ _ => rfl, Blk.still_of_frame rfl, rfl, ?_⟩
    rw [if_pos (by simpa [Bool.and_eq_true, imp_iff_not_or] using hp)]

/-! ### The tick of a disengage (06 R212) -/

theorem camAtDisengage_acts (s : State) (n : Fin 48) (e : Engage) (r : MasterRef) (m : Int) (x : Int × Bool)
    (he : (s.blk.axis n).mot.engage = some e) (hr : (s.blk.axis n).master = some r) (hm : s.blk.masters r = some m) (hx : e.offAt = some x) :
    Does (.camAtDisengage n) s fun t => s.blk.only t n ∧ s.blk.still t ∧
      (if passedAt m x = false then t = s.blk
      else if (s.blk.axis n).handling = true then
      (t.axis n).legs.deferred = (s.blk.axis n).legs.deferred ++ [.stop] ∧ (t.axis n).mot = (s.blk.axis n).mot
      else (t.axis n).mot.waiting = none
      ∧ ((s.blk.axis n).ramps false = true → (t.axis n).mot.mode ∈ [.stopping, .hold, .fallow] ∧ (t.axis n).mot.engage = none)) := by
  have hexec : exec (.camAtDisengage n) s =
      onBlk (fun b => if passedAt m x then b.cell n fun c => c.orDefer .stop (·.stop .stop) else b) s := by
    show execCamAtDisengage n s = _
    simp only [execCamAtDisengage, onBlk, he, hr, Option.bind_some, hm, hx]
  refine does_of_onBlk hexec ?_
  split
  next hp =>
    rw [if_neg (by simp [hp])]
    refine ⟨s.blk.cell_only n _, s.blk.cell_still n _, ?_⟩
    have hl := s.blk.cell_leaves n fun c => c.orDefer .stop (·.stop .stop)
    rw [hl.legs, hl.mot]
    split
    next hh =>
      rw [(s.blk.cellOf n).orDefer_of_handling _ _ hh]
      exact ⟨rfl, rfl⟩
    next hh =>
      rw [(s.blk.cellOf n).orDefer_of_not_handling _ _ (Bool.eq_false_iff.2 hh)]
      have hramp := (s.blk.cellOf n).stop_ramped false
      exact ⟨((s.blk.cellOf n).stop_drained .stop).1, fun h => ⟨(hramp h).mode, (hramp h).engage⟩⟩
  next hp =>
    rw [if_pos (Bool.eq_false_iff.2 hp)]
    exact ⟨fun _ _ => rfl, Blk.still_of_frame rfl, rfl⟩

/-! ### A table with an error (06 R212) -/

/-- An axis that uses a table with an error reports it and stops. -/
def Cell.camEcc (c : Cell) : Cell := (c.raise AX.MOT_EVT.CAM_ECC).stop .stop

/-- The axes that use a table, after its error. -/
def Blk.stopsUsers (b : Blk) (k : Fin 64) : Blk := b.cells (allAxes.filter fun n => (b.axis n).usesTable k) fun _ => Cell.camEcc

/-- A table after its error: none of its points is left. -/
def Blk.dropsTable (b : Blk) (k : Fin 64) : Blk :=
  { b with cams := b.cams.set k { b.cams.get k with valid := false, points := (b.cams.get k).points.map fun _ => none }
           camDirty := b.camDirty.map fun m => bitSet m k.val false }

theorem camEccError_acts (s : State) (k : Fin 64) : Does (.camEccError k) s fun t => t.sm = s.blk.sm ∧ t.planes = s.blk.planes ∧ t.owning = s.blk.owning
      ∧ t.plan.cands = s.blk.plan.cands
      ∧ (t.cams.get k).valid = false ∧ (∀ p ∈ (t.cams.get k).points, p = none) ∧ (∀ j : Fin 64, j ≠ k → t.cams.get j = s.blk.cams.get j)
      ∧ (∀ n, if (s.blk.axis n).usesTable k = true then (t.axis n).flagged AX.MOT_EVT.CAM_ECC ∧ (t.axis n).mot.waiting = none
      ∧ (t.axis n).mot.camWait = none
      ∧ ((s.blk.axis n).ramps false = true → (t.axis n).mot.mode ∈ [.stopping, .hold, .fallow])
      else t.axis n = s.blk.axis n) := by
  refine does_of_onBlk (f := fun b => (b.stopsUsers k).dropsTable k) rfl ?_
  have hcams : (s.blk.stopsUsers k).cams = s.blk.cams := Blk.cells_cams ..
  refine ⟨Blk.cells_sm .., Blk.cells_planes .., (s.blk.cells_still _ _).2.1, congrArg Planner.cands (Blk.cells_plan ..), ?_, ?_, fun j hj => ?_, fun n => ?_⟩
  · exact congrArg CamTable.valid (get_set_same ..)
  · intro p hp
    rw [show ((s.blk.stopsUsers k).dropsTable k).cams.get k = _ from get_set_same ..] at hp
    obtain ⟨_, -, rfl⟩ := List.mem_map.1 hp
    rfl
  · exact (get_set_other _ _ hj).trans (congrArg (fun v => v.get j) hcams)
  · show if _ then ((s.blk.stopsUsers k).axis n).flagged _ ∧ ((s.blk.stopsUsers k).axis n).mot.waiting = none
      ∧ ((s.blk.stopsUsers k).axis n).mot.camWait = none ∧ _ else (s.blk.stopsUsers k).axis n = _
    split
    next hu =>
      have hl := s.blk.cells_leave_mem (fun _ => Cell.camEcc) (allAxes_nodup.filter fun n => (s.blk.axis n).usesTable k) (n := n)
        (by simp [mem_allAxes, hu])
      have hf : AX.MOT_EVT.CAM_ECC ∈ (s.blk.cellOf n).camEcc.flags :=
        (Cell.stop_legsKept _ _).flags (List.mem_append_right _ (List.mem_singleton.2 rfl))
      have hr := ((s.blk.cellOf n).raise AX.MOT_EVT.CAM_ECC).stop_ramped false
      exact ⟨hl.flagged hf (by decide) (by decide), (congrArg Motion.waiting hl.mot).trans (Cell.stop_drained _ _).1,
        (congrArg Motion.camWait hl.mot).trans (Cell.stop_camWait _ _), fun h => hl.mot ▸ (hr h).mode⟩
    next hu => exact s.blk.cells_axis_notMem _ (by simp [hu])

/-- Settles O51: each event of a master or a cam by what it makes of its cell, and an error of a table as a stop of all that use it. -/
theorem mastersAndCamsAct : Obligations.MastersAndCamsAct :=
  ⟨masterLost_acts, camAtEngage_idle, camAtEngage_acts, camAtDisengage_acts, camEccError_acts⟩

end Sys2Proof.Machine
end

section
/-!
`CAM_LOAD` and `CAM_DISENGAGE` (06 R206, R207, R211, R212, 11 R391, 16 R496): the table that a load leaves, and what a disengage makes of a cell.
-/

namespace Sys2Proof.Machine

open Sys2Proof.Safety

/-! ### Slots of the libraries (16 R496) -/

/-- Erased bytes read 0xFF, and all others as before. -/
theorem memGet_memErase (m : List Host.Cell) (base a : Nat) :
    memGet (memErase m base) a = if base ≤ a ∧ a < base + 0x10000 then 0xFF else memGet m a := by
  induction m with
  | nil => simp [memErase, memGet]
  | cons x t ih =>
    have hcons : memErase (x :: t) base = if base ≤ x.1 ∧ x.1 < base + 0x10000 then memErase t base else x :: memErase t base := by
      by_cases h : base ≤ x.1 ∧ x.1 < base + 0x10000
      · rw [if_pos h]
        exact List.filter_cons_of_neg (by simpa using h)
      · rw [if_neg h]
        exact List.filter_cons_of_pos (by simpa [imp_iff_not_or] using h)
    rw [hcons]
    by_cases hx : base ≤ x.1 ∧ x.1 < base + 0x10000
    · rw [if_pos hx, ih]
      by_cases ha : x.1 = a
      · rw [if_pos (ha ▸ hx), if_pos (ha ▸ hx)]
      · rw [memGet, if_neg ha]
    · rw [if_neg hx, memGet, memGet, ih]
      by_cases ha : x.1 = a
      · rw [if_pos ha, if_pos ha, if_neg (ha ▸ hx)]
      · rw [if_neg ha, if_neg ha]

/-! ### `CAM_LOAD` (06 R206, R207) -/

/-- A port whose slot of a table is erased, if its device answers. -/
def SmPort.erased (p : SmPort) (k : Fin 64) : SmPort := if p.absent.getLsbD 0 then p else { p with mem := memErase p.mem (camSlot k) }

theorem SmPort.erased_outside (p : SmPort) {k : Fin 64} {a : Nat} (h : ¬ (camSlot k ≤ a ∧ a < camSlot k + 0x10000)) :
    memGet (p.erased k).mem a = memGet p.mem a := by
  unfold SmPort.erased
  split
  · rfl
  · exact (memGet_memErase ..).trans (if_neg h)

theorem SmPort.erased_inside (p : SmPort) {k : Fin 64} {a : Nat} (h : camSlot k ≤ a ∧ a < camSlot k + 0x10000) (hp : p.absent.getLsbD 0 = false) :
    memGet (p.erased k).mem a = 0xFF := by
  rw [SmPort.erased, if_neg (ne_true_of_eq_false hp)]
  exact (memGet_memErase ..).trans (if_pos h)

/-- The module with a table as a load leaves it; with a descriptor its slots are erased. -/
def Blk.withTable (b : Blk) (k : Fin 64) (desc : Bool) (tab : CamTable) : Blk :=
  { b with cams := b.cams.set k tab
           sm := if desc then b.sm.map fun p => p.erased k else b.sm
           camDirty := b.camDirty.map fun m => bitSet m k.val (tab.valid || (!desc && m.getLsbD k.val)) }

/-- A table is engaged, waited for, or asked for by a candidate (06 R207). -/
def Blk.usesCam (b : Blk) (k : Fin 64) : Bool :=
  b.ax.any (·.usesTable k) || b.plan.cands.any (fun c => c.members.any fun m => match m.kind with | .cam x => x.table == k | _ => false)

/-- Where the points of a load begin. -/
def camAt (bs : List Byte) : Nat := if (u bs 1 1).testBit 0 then 16 else 8

theorem runCamLoad_eq {b : Blk} {q : Req} {k : Fin 64} {tab : CamTable} (ht : q.h.tgt = 0xFE) (hl : 8 ≤ q.body.length) (hk : u q.body 0 1 = k.val)
    (hn : u q.body 4 2 ≤ 125) (hp : camAt q.body + 8 * u q.body 4 2 ≤ q.body.length)
    (htab : (if (u q.body 1 1).testBit 0 then camDesc q.body else .ok (b.cams.get k)) = .ok tab) (hi : u q.body 2 2 + u q.body 4 2 ≤ tab.count) :
    runCamLoad b q = if b.usesCam k then b.refusedState q else
      if (tab.write (u q.body 2 2) (camPoints (u q.body 4 2) (q.body.drop (camAt q.body)))).2 then
        (b.withTable k ((u q.body 1 1).testBit 0) (tab.write (u q.body 2 2) (camPoints (u q.body 4 2) (q.body.drop (camAt q.body)))).1).badParam q
      else (b.withTable k ((u q.body 1 1).testBit 0) (tab.write (u q.body 2 2) (camPoints (u q.body 4 2) (q.body.drop (camAt q.body)))).1).ok q := by
  have hlt : u q.body 0 1 < 64 := hk ▸ k.isLt
  obtain rfl : k = ⟨u q.body 0 1, hlt⟩ := Fin.ext hk.symm
  unfold camAt at hp
  unfold runCamLoad Blk.forModule
  rw [if_neg (by simp [ht, hl])]
  dsimp only
  rw [dif_pos hlt, if_neg (Nat.not_lt.2 hn), if_neg (Nat.not_lt.2 hp), htab]
  dsimp only
  rw [if_neg (Nat.not_lt.2 hi)]
  rfl

theorem Blk.usesCam_iff (b : Blk) (k : Fin 64) : b.usesCam k = true ↔ b.ax.any (·.usesTable k) = true ∨
    b.plan.cands.any (fun c => c.members.any fun m => match m.kind with | .cam x => x.table == k | _ => false) = true := Bool.or_eq_true_iff

/-- A load's answer leaves the axes, the candidates, the tables and the memories. -/
theorem Blk.begun_tables (b : Blk) (q : Req) : (b.begun q).ax = b.ax ∧ (b.begun q).plan = b.plan ∧ (b.begun q).cams = b.cams ∧ (b.begun q).sm = b.sm := by
  simp

theorem Blk.answer_tables (b : Blk) (q : Req) (st : Nat) (x : List Byte) :
    (b.answer q st x).ax = b.ax ∧ (b.answer q st x).plan = b.plan ∧ (b.answer q st x).cams = b.cams ∧ (b.answer q st x).sm = b.sm := by simp

/-- What a load with room for its run, of a table that nothing uses, leaves. -/
structure Blk.Loaded (b t : Blk) (k : Fin 64) (desc : Bool) (tab : CamTable) : Prop where
  ax : t.ax = b.ax
  plan : t.plan = b.plan
  table : t.cams.get k = tab
  others : ∀ j, j ≠ k → t.cams.get j = b.cams.get j
  keeps : desc = false → t.sm = b.sm
  outside : ∀ i a, ¬ (camSlot k ≤ a ∧ a < camSlot k + 0x10000) → memGet (t.sm.get i).mem a = memGet (b.sm.get i).mem a
  slot : desc = true → ∀ i a, camSlot k ≤ a → a < camSlot k + 0x10000 → (b.sm.get i).absent.getLsbD 0 = false → memGet (t.sm.get i).mem a = 0xFF

theorem Blk.withTable_loaded (b : Blk) (k : Fin 64) (desc : Bool) (tab : CamTable) : b.Loaded (b.withTable k desc tab) k desc tab := by
  have hget : ∀ i, (b.sm.map fun p => p.erased k).get i = (b.sm.get i).erased k := fun i => by simp [Vector.get_eq_getElem]
  refine ⟨rfl, rfl, get_set_same .., fun j hj => get_set_other _ _ hj, ?_, fun i a ha => ?_, ?_⟩
  · rintro rfl
    rfl
  · cases desc with
    | false => rfl
    | true => exact (congrArg (fun p : SmPort => memGet p.mem a) (hget i)).trans ((b.sm.get i).erased_outside ha)
  · rintro rfl i a h1 h2 hp
    exact (congrArg (fun p : SmPort => memGet p.mem a) (hget i)).trans ((b.sm.get i).erased_inside ⟨h1, h2⟩ hp)

/-- A packet that is taken, and the answer to it, leave what a load does. -/
theorem Blk.Loaded.of_tables {b b' t t' : Blk} {k : Fin 64} {desc : Bool} {tab : CamTable} (h : b.Loaded t k desc tab)
    (hb : b.ax = b'.ax ∧ b.plan = b'.plan ∧ b.cams = b'.cams ∧ b.sm = b'.sm) (ht : t'.ax = t.ax ∧ t'.plan = t.plan ∧ t'.cams = t.cams ∧ t'.sm = t.sm) :
    b'.Loaded t' k desc tab := by
  obtain ⟨hbax, hbplan, hbcams, hbsm⟩ := hb
  obtain ⟨htax, htplan, htcams, htsm⟩ := ht
  exact ⟨by rw [htax, ← hbax, h.ax], by rw [htplan, ← hbplan, h.plan], by rw [htcams, h.table], fun j hj => by rw [htcams, ← hbcams, h.others j hj],
    fun hd => by rw [htsm, ← hbsm, h.keeps hd], fun i a ha => by rw [htsm, ← hbsm, h.outside i a ha],
    fun hd i a h1 h2 hp => by rw [htsm, h.slot hd i a h1 h2 (hbsm ▸ hp)]⟩

theorem camLoad_writes (s : State) (p : Pkt) (k : Fin 64) (tab : CamTable) (htk : s.blk.takes p 0x3A) (ht : p.tgt = 0xFE) (hl : 8 ≤ p.body.length)
    (hk : u p.body 0 1 = k.val) (hn : u p.body 4 2 ≤ 125)
    (hp : (if (u p.body 1 1).testBit 0 then 16 else 8) + 8 * u p.body 4 2 ≤ p.body.length)
    (htab : (if (u p.body 1 1).testBit 0 then camDesc p.body else .ok (s.blk.cams.get k)) = .ok tab) (hi : u p.body 2 2 + u p.body 4 2 ≤ tab.count) :
    Does (.camLoad p) s fun t => t.ax = s.blk.ax ∧ t.plan = s.blk.plan ∧ (∀ j, j ≠ k → t.cams.get j = s.blk.cams.get j) ∧
      (if s.blk.ax.any (·.usesTable k) = true ∨ s.blk.plan.cands.any (fun c => c.members.any fun m =>
      match m.kind with | .cam x => x.table == k | _ => false) = true then
      t.answers p.toHdr 0x3A 0x12 [] ∧ t.cams = s.blk.cams ∧ t.sm = s.blk.sm
      else
      t.cams.get k = (tab.write (u p.body 2 2) (camPoints (u p.body 4 2) (p.body.drop (if (u p.body 1 1).testBit 0 then 16 else 8)))).1
      ∧ (if (tab.write (u p.body 2 2) (camPoints (u p.body 4 2) (p.body.drop (if (u p.body 1 1).testBit 0 then 16 else 8)))).2 = true
      then t.answers p.toHdr 0x3A 0x31 [0xFF] else t.answers p.toHdr 0x3A 0 [])
      ∧ ((u p.body 1 1).testBit 0 = false → t.sm = s.blk.sm)
      ∧ (∀ i a, ¬ (camSlot k ≤ a ∧ a < camSlot k + 0x10000) → memGet (t.sm.get i).mem a = memGet (s.blk.sm.get i).mem a)
      ∧ ((u p.body 1 1).testBit 0 = true → ∀ i a, camSlot k ≤ a → a < camSlot k + 0x10000 → (s.blk.sm.get i).absent.getLsbD 0 = false →
      memGet (t.sm.get i).mem a = 0xFF)) := by
  refine does_of_takes (run := runCamLoad) rfl htk (by decide) ?_
  have hans := fun (d : Blk) st x => Blk.answer_answers (b := s.blk) (d := d) (p := p) st x (show 0x3A ∉ [0x01, 0x02, 0x04, 0x05, 0x06, 0x42] by decide)
  have hb := s.blk.begun_tables (Pkt.req p 0x3A)
  generalize s.blk.begun (Pkt.req p 0x3A) = b at *
  obtain ⟨hbax, hbplan, hbcams, hbsm⟩ := hb
  have huse : b.usesCam k = s.blk.usesCam k := by rw [Blk.usesCam, hbax, hbplan]; rfl
  rw [runCamLoad_eq (q := Pkt.req p 0x3A) ht hl hk hn hp (hbcams ▸ htab) hi, huse]
  generalize hr : tab.write (u (Pkt.req p 0x3A).body 2 2) (camPoints (u (Pkt.req p 0x3A).body 4 2)
    ((Pkt.req p 0x3A).body.drop (camAt (Pkt.req p 0x3A).body))) = r
  have hr' : tab.write (u p.body 2 2) (camPoints (u p.body 4 2) (p.body.drop (if (u p.body 1 1).testBit 0 then 16 else 8))) = r := hr
  rw [hr']
  by_cases hu : s.blk.usesCam k = true
  · rw [if_pos hu, if_pos ((s.blk.usesCam_iff k).1 hu)]
    obtain ⟨hax, hplan, hcams, hsm⟩ := b.answer_tables (Pkt.req p 0x3A) 0x12 []
    exact ⟨hax.trans hbax, hplan.trans hbplan, fun j _ => congrArg (fun v => v.get j) (hcams.trans hbcams), hans b 0x12 [] rfl, hcams.trans hbcams,
      hsm.trans hbsm⟩
  · rw [if_neg hu, if_neg (mt (s.blk.usesCam_iff k).2 hu)]
    have hload : ∀ st x, s.blk.Loaded ((b.withTable k ((u p.body 1 1).testBit 0) r.1).answer (Pkt.req p 0x3A) st x) k ((u p.body 1 1).testBit 0) r.1 :=
      fun st x => (b.withTable_loaded k _ r.1).of_tables ⟨hbax, hbplan, hbcams, hbsm⟩ (Blk.answer_tables ..)
    split
    next hbad =>
      have h := hload 0x31 [BitVec.ofNat 8 noByte]
      exact ⟨h.ax, h.plan, h.others, h.table, hans _ _ _ rfl, h.keeps, h.outside, h.slot⟩
    next hbad =>
      have h := hload 0 []
      exact ⟨h.ax, h.plan, h.others, h.table, hans _ _ _ rfl, h.keeps, h.outside, h.slot⟩

/-! ### `CAM_DISENGAGE` (06 R211, R212) -/

/-- A step that raises and records nothing leaves the module but for the axis. -/
theorem Blk.cell_of_quiet (b : Blk) (n : Fin 48) {f : Cell → Cell} (hf : (f (b.cellOf n)).flags = []) (hm : (f (b.cellOf n)).modFlags = [])
    (he : (f (b.cellOf n)).events = []) : b.cell n f = { b with ax := b.ax.set n (f (b.cellOf n)).ax } := by
  simp only [Blk.cell, Blk.commit, hf, hm, he, Blk.raiseAx_nil, Blk.raise_nil, List.foldl_nil]

/-- Two steps on a cell, of which the first only cancels a pending fallow, are one. -/
theorem Blk.cell_unfallow_cell (b : Blk) (n : Fin 48) (f : Cell → Cell) : (b.cell n Cell.unfallow).cell n f = b.cell n fun c => f c.unfallow := by
  have hcell : ({ b with ax := b.ax.set n (b.cellOf n).unfallow.ax } : Blk).cellOf n = (b.cellOf n).unfallow := by
    simp only [Blk.cellOf, Blk.axis, get_set_same]
    rfl
  rw [b.cell_of_quiet n rfl rfl rfl, Blk.cell, hcell]
  simp only [Blk.cell, Blk.commit, Vector.set_set]

/-- `CAM_DISENGAGE` from the position at which it disengages. -/
def Cell.offAt (c : Cell) (e : Engage) (x : Int × Bool) : Cell := (c.unfallow.mot fun m => { m with engage := some { e with offAt := some x } }).written

/-- A cam that waits to engage is dropped. -/
def Cell.dropsCam (c : Cell) : Cell := (c.unfallow.mot fun m => { m with camWait := none, job := none }).written

/-- `CAM_DISENGAGE` at once. -/
def Cell.offNow (c : Cell) : Cell := c.unfallow.written.orDefer .stop (·.stop .stop)

theorem runCamDisengage_eq {b : Blk} {q : Req} {n : Fin 48} (ht : q.h.tgt.toNat = n.val) (hl : 16 ≤ q.body.length) (hu : u q.body 0 1 ≤ 1) :
    runCamDisengage b q =
      if (b.axis n).mot.camWait.isSome then (b.cell n Cell.dropsCam).ok q
      else if !(2 ≤ (b.axis n).mot.judged.num && (b.axis n).mot.judged.num ≤ 7) then (b.cell n Cell.unfallow).refusedState q
      else if u q.body 0 1 = 0 then (b.cell n Cell.offNow).ok q
      else match (b.axis n).mot.engage with
        | none => (b.cell n Cell.unfallow).refusedState q
        | some e => (b.cell n (·.offAt e (sI q.body 8 8, !(u q.body 1 1).testBit 1))).ok q := by
  unfold runCamDisengage
  rw [Blk.forAxis_of_target _ ht hl]
  dsimp only
  rw [if_neg (Nat.not_lt.2 hu)]
  simp only [Blk.cell_unfallow_cell]
  rfl

theorem camDisengage_acts (s : State) (p : Pkt) (n : Fin 48) (htk : s.blk.takes p 0x3C) (ht : p.tgt.toNat = n.val) (hl : 16 ≤ p.body.length)
    (hu : u p.body 0 1 ≤ 1) :
    Does (.camDisengage p) s fun t => s.blk.only t n ∧ t.rest = s.blk.rest ∧
      (if (s.blk.axis n).mot.camWait.isSome then t.answers p.toHdr 0x3C 0 []
      ∧ t.axis n = { s.blk.axis n with mot := { (s.blk.axis n).mot with camWait := none, job := none, fallowAfter := false } }.setB AX.AX_SUPV.HELD false
      else if ¬ (2 ≤ (s.blk.axis n).mot.judged.num ∧ (s.blk.axis n).mot.judged.num ≤ 7) ∨ (u p.body 0 1 = 1 ∧ (s.blk.axis n).mot.engage = none) then
      t.answers p.toHdr 0x3C 0x12 [] ∧ t.axis n = { s.blk.axis n with mot := { (s.blk.axis n).mot with fallowAfter := false } }
      else t.answers p.toHdr 0x3C 0 [] ∧ (∀ e ∈ (s.blk.axis n).mot.engage, u p.body 0 1 = 1 →
      t.axis n = { s.blk.axis n with mot := { (s.blk.axis n).mot with
      engage := some { e with offAt := some (sI p.body 8 8, !(u p.body 1 1).testBit 1) }, fallowAfter := false } }.setB AX.AX_SUPV.HELD false)
      ∧ (u p.body 0 1 = 0 → (s.blk.axis n).handling = false → (s.blk.axis n).ramps false = true → (t.axis n).mot.mode ∈ [.stopping, .hold, .fallow])) := by
  refine does_of_takes (run := runCamDisengage) rfl htk (by decide) ?_
  rw [runCamDisengage_eq (q := Pkt.req p 0x3C) ht hl hu]
  have hapart := fun f st => s.blk.cell_answer_apart (Pkt.req p 0x3C) n f st []
  have hans := fun f st => s.blk.cell_answer_answers (p := p) (opc := 0x3C) n f st [] (by decide)
  have hax := fun (f : Cell → Cell) st h => s.blk.cell_answer_axis (Pkt.req p 0x3C) (n := n) (f := f) st [] h
  simp only [Blk.begun_axis]
  by_cases hw : (s.blk.axis n).mot.camWait.isSome = true
  · rw [if_pos hw, if_pos hw]
    exact ⟨(hapart Cell.dropsCam 0).1, (hapart Cell.dropsCam 0).2.1, hans _ _, hax _ _ rfl⟩
  rw [if_neg hw, if_neg hw]
  by_cases hj : 2 ≤ (s.blk.axis n).mot.judged.num ∧ (s.blk.axis n).mot.judged.num ≤ 7
  swap
  · rw [if_pos (by simp; omega), if_pos (.inl hj)]
    exact ⟨(hapart Cell.unfallow 0x12).1, (hapart Cell.unfallow 0x12).2.1, hans _ _, hax _ _ rfl⟩
  rw [if_neg (by simp; omega)]
  by_cases h0 : u p.body 0 1 = 0
  · rw [if_pos (show u (Pkt.req p 0x3C).body 0 1 = 0 from h0), if_neg (by simp [hj, h0])]
    refine ⟨(hapart Cell.offNow 0).1, (hapart Cell.offNow 0).2.1, hans _ _, fun e _ h1 => absurd (h0.symm.trans h1) (by decide), fun _ hh hr => ?_⟩
    rw [Blk.ok, Blk.axis_of_ax (Blk.answer_ax ..), Blk.cell_axis_mot, Blk.begun_cellOf, Cell.offNow, Cell.orDefer_of_not_handling _ _ _ hh]
    exact (Cell.stop_ramped _ false (((s.blk.cellOf n).unfallow.written_ramps false).trans hr)).mode
  have h1 : u p.body 0 1 = 1 := by omega
  rw [if_neg (show ¬ u (Pkt.req p 0x3C).body 0 1 = 0 from h0)]
  cases he : (s.blk.axis n).mot.engage with
  | none =>
    rw [if_pos (.inr ⟨h1, rfl⟩)]
    dsimp only
    exact ⟨(hapart Cell.unfallow 0x12).1, (hapart Cell.unfallow 0x12).2.1, hans _ _, (hax Cell.unfallow 0x12 rfl).trans (by rw [← he]; rfl)⟩
  | some e =>
    rw [if_neg (by simp [hj])]
    dsimp only
    obtain ⟨honly, hrest, -⟩ := hapart (·.offAt e (sI p.body 8 8, !(u p.body 1 1).testBit 1)) 0
    refine ⟨honly, hrest, hans _ _, fun e' he' _ => ?_, fun h => absurd h h0⟩
    cases he'
    exact hax _ _ rfl

/-- Settles O29: a load writes its run into its table alone, and `CAM_DISENGAGE` is a step on one cell in each of its cases. -/
theorem camCommands : Obligations.CamCommands := ⟨camLoad_writes, camDisengage_acts⟩

end Sys2Proof.Machine
end

section
/-!
What the start of a move (06 R186 to R190) leaves of a cell: a move without a master that is not at its end at once takes its mode, and no flag that
stands goes.
-/

namespace Sys2Proof.Machine

open Sys2Proof.Safety

/-! ### Flags that stand -/

/-- Every flag that stands on an axis still stands. -/
structure Axis.FlagsStay (a t : Axis) : Prop where
  stays : ∀ f : Flag, f.ev < 6 → f.bit < 24 → a.flagged f → t.flagged f

theorem Axis.FlagsStay.trans {a t u : Axis} (h : a.FlagsStay t) (k : t.FlagsStay u) : a.FlagsStay u :=
  ⟨fun f hev hbit hf => k.stays f hev hbit (h.stays f hev hbit hf)⟩

theorem Axis.FlagsStay.of_regs {a t : Axis} (h : t.regs = a.regs := by rfl) : a.FlagsStay t :=
  ⟨fun f _ _ hf => by rwa [Axis.flagged, h]⟩

theorem Axis.FlagsStay.refl (a : Axis) : a.FlagsStay a := .of_regs

theorem Axis.FlagsStay.ite {a : Axis} {d e : Cell} {p : Prop} [Decidable p] (hd : a.FlagsStay d.ax) (he : a.FlagsStay e.ax) :
    a.FlagsStay (if p then d else e).ax := by
  split
  · exact hd
  · exact he

theorem Axis.set_flagsStay (a : Axis) (f : Fld) (v : Nat) (h : f.reg ∉ axEvRegs := by decide) : a.FlagsStay (a.set f v) :=
  ⟨fun _ hev _ hf => a.set_flagged v h hev hf⟩

theorem Axis.setB_flagsStay (a : Axis) (f : Fld) (v : Bool) (h : f.reg ∉ axEvRegs := by decide) : a.FlagsStay (a.setB f v) := a.set_flagsStay f _ h
theorem Axis.count_flagsStay (a : Axis) (f : Fld) (h : f.reg ∉ axEvRegs := by decide) : a.FlagsStay (a.count f) :=
  ⟨fun _ hev _ hf => (Axis.count_flagged a h hev).2 hf⟩

/-- The field of a flag. -/
def Flag.fld (f : Flag) : Fld := ⟨(axEvRegs[f.ev]?).getD 0, f.bit, 1⟩

theorem Axis.flagged_iff (a : Axis) (f : Flag) : a.flagged f ↔ a.b f.fld = true := by
  simp [Axis.flagged, Axis.b, Fld.get, Flag.fld, BitVec.getLsbD, Nat.testBit, Nat.one_and_eq_mod_two]

theorem Flag.fld_lasts {f : Flag} (h : f.ev < 6) : f.fld.lasts = true := by
  have hne : ∀ g : Fld, g.reg ∉ axEvRegs → f.fld.apart g = true := fun g hg => by
    have : f.fld.reg ≠ g.reg := fun e => hg (e ▸ axEvReg_mem h)
    simp [Fld.apart, this]
  have hall : ∀ g ∈ endFields, g.reg ∉ axEvRegs := by decide
  simp only [Fld.lasts, hne _ (show AX.ST_STAT.HOMING.reg ∉ axEvRegs by decide), hne _ (show AX.BL_STAT.HOMING.reg ∉ axEvRegs by decide), Bool.true_and,
    List.all_eq_true]
  exact fun g hg => hne g (hall g hg)

theorem Axis.EndsAs.flagsStay {a t : Axis} (h : a.EndsAs t) : a.FlagsStay t := ⟨fun f hev _ hf => by
  rw [Axis.flagged_iff] at hf ⊢
  rwa [Axis.b_of_r (h.kept f.fld (Flag.fld_lasts hev))]⟩

/-- A step on a cell that leaves its flags leaves every flag of every axis. -/
theorem Blk.cell_flagsStay (b : Blk) (n : Fin 48) {f : Cell → Cell} (h : (b.axis n).FlagsStay (f (b.cellOf n)).ax) : b.FlagsStay (b.cell n f) := by
  intro m g hev hbit hg
  by_cases hm : m = n
  · subst hm
    rw [Blk.cell_axis_eq]
    refine Blk.raiseAx_flagsStay _ m _ m g hev hbit ?_
    rw [show ({ b with ax := b.ax.set m (f (b.cellOf m)).ax } : Blk).axis m = _ from get_set_same ..]
    exact h.stays g hev hbit hg
  · rwa [b.cell_axis_ne f hm]

/-! ### The end of a move, and what a start does with its registers -/

/-- What a step of a profile leaves of an axis's motor, legs and flags. -/
structure Axis.Bears (a t : Axis) : Prop where
  motor : t.motor = a.motor
  phase : t.legs.phase = a.legs.phase
  flags : a.FlagsStay t

theorem Axis.Bears.trans {a t u : Axis} (h : a.Bears t) (k : t.Bears u) : a.Bears u :=
  ⟨k.motor.trans h.motor, k.phase.trans h.phase, h.flags.trans k.flags⟩

theorem Axis.Bears.of_eq {a t : Axis} (hm : t.motor = a.motor := by rfl) (hl : t.legs = a.legs := by rfl) (hr : t.regs = a.regs := by rfl) : a.Bears t :=
  ⟨hm, congrArg Legs.phase hl, .of_regs hr⟩

theorem Axis.Bears.refl (a : Axis) : a.Bears a := .of_eq

theorem Axis.Bears.ite {a : Axis} {d e : Cell} {p : Prop} [Decidable p] (hd : a.Bears d.ax) (he : a.Bears e.ax) : a.Bears (if p then d else e).ax := by
  split
  · exact hd
  · exact he

theorem Axis.EndsAs.bears {a t : Axis} (h : a.EndsAs t) (hl : t.legs = a.legs) : a.Bears t := ⟨h.motor, congrArg Legs.phase hl, h.flagsStay⟩

theorem Axis.set_bears (a : Axis) (f : Fld) (v : Nat) (h : f.reg ∉ axEvRegs := by decide) : a.Bears (a.set f v) := ⟨rfl, rfl, a.set_flagsStay f v h⟩
theorem Axis.setB_bears (a : Axis) (f : Fld) (v : Bool) (h : f.reg ∉ axEvRegs := by decide) : a.Bears (a.setB f v) := ⟨rfl, rfl, a.setB_flagsStay f v h⟩
theorem Axis.count_bears (a : Axis) (f : Fld) (h : f.reg ∉ axEvRegs := by decide) : a.Bears (a.count f) := ⟨rfl, rfl, a.count_flagsStay f h⟩

theorem Cell.stop_bears (c : Cell) (k : StopKind) : c.ax.Bears (c.stop k).ax := (c.stop_endsAs k).bears (c.stop_legsKept k).legs
theorem Cell.stopDone_bears (c : Cell) : c.ax.Bears c.stopDone.ax := c.stopDone_endsAs.bears c.stopDone_legsKept.legs

/-- The report of a move that is done. -/
def Cell.reportsDone (c : Cell) (seq : List Byte) : Cell := ((c.raise AX.MOT_EVT.MOVE_DONE).count AX.MOT_CNT.MOVES).event 0x01 seq

theorem Cell.moveDone_bears (c : Cell) : c.ax.Bears c.moveDone.ax := by
  have hcount : c.ax.Bears (c.reportsDone c.ax.jobSeq).ax := c.ax.count_bears _
  have hlife : ∀ d : Cell, d.ax.Bears d.lifeCycle.ax := fun d => d.lifeCycle_endsAs.bears d.lifeCycle_legsKept.legs
  have hjob : ∀ d : Cell, d.ax.Bears (d.endJob true).ax := fun d => (d.endJob_endsAs true).bears (d.endJob_legsKept true).legs
  have hhold : ∀ d : Cell, d.ax.Bears d.toHold.ax := fun d => d.toHold_endsAs.bears d.toHold_legsKept.legs
  unfold Cell.moveDone
  extract_lets seq q fallow d e
  clear_value q
  split
  · have he : c.ax.Bears e.ax := hcount.trans ((hlife _).trans ((hjob _).trans (hhold _)))
    exact .ite (he.trans (e.goFallow_endsAs.bears e.goFallow_legsKept.legs)) he
  · extract_lets direct d e g t
    have hd : c.ax.Bears d.ax := .ite (.refl _) hcount
    have he : c.ax.Bears e.ax := hd.trans (.trans (.ite (.refl _) (hlife _)) (hjob _))
    have hg : e.ax.Bears g.ax := .ite .of_eq (hhold _)
    exact (he.trans hg).trans .of_eq

theorem Cell.engageFails_regs (c : Cell) : c.engageFails.ax.regs = c.ax.regs := by
  unfold Cell.engageFails
  split <;> rfl

theorem Cell.engageCam_regs (c : Cell) (t : CamTable) (cp : CamP) (m : Int) (seq d : Nat) : (c.engageCam t cp m seq d).ax.regs = c.ax.regs := by
  unfold Cell.engageCam
  extract_lets
  exact ite_keeps (fun c : Cell => c.ax.regs) rfl rfl

theorem Cell.begin_flagsStay (c : Cell) (j : Job) (v : Rat) (mp : MasterPos) (tab : Fin 64 → CamTable) (depth : Nat) :
    c.ax.FlagsStay (c.begin j v mp tab depth).ax := by
  unfold Cell.begin
  extract_lets a m d e lim go pr velo
  have he : c.ax.FlagsStay e.ax := .of_regs
  have hgo : ∀ t, c.ax.FlagsStay (go t).ax := fun t => .ite (he.trans (.trans .of_regs (Cell.moveDone_bears _).flags)) (he.trans .of_regs)
  have hvelo : ∀ mode t home, c.ax.FlagsStay (velo mode t home).ax := fun mode t home => by
    unfold velo
    extract_lets d1 d2
    have h2 : e.ax.FlagsStay d2.ax := .ite .of_regs .of_regs
    exact he.trans (h2.trans (.ite (.ite (d2.ax.setB_flagsStay _ _) (d2.ax.setB_flagsStay _ _)) (.refl _)))
  clear_value e go velo
  split
  · exact hgo _
  · exact hgo _
  · exact hvelo _ _ _
  · exact he.trans .of_regs
  · exact he.trans .of_regs
  · split
    · exact he.trans (.of_regs e.engageFails_regs)
    · exact he.trans .of_regs
  · split
    · exact he.trans (.of_regs e.engageFails_regs)
    · exact .ite (he.trans .of_regs) (he.trans (.of_regs (e.engageCam_regs ..)))
  · exact he.trans .of_regs

/-! ### The start of a move -/

theorem Cell.startJob_flagsStay (c : Cell) (e : StartEnv) (v : Rat) : c.ax.FlagsStay (c.startJob e v).ax := by
  unfold Cell.startJob
  extract_lets d1 d2
  have h2 : c.ax.FlagsStay d2.ax := ((c.ax.setB_flagsStay AX.BL_STAT.CATCH false).trans (Axis.setB_flagsStay _ AX.BL_STAT.BRAKE false)).trans .of_regs
  split
  · exact h2
  · exact h2.trans (Cell.begin_flagsStay ..)

theorem Cell.startFromRest_flagsStay (c : Cell) : c.ax.FlagsStay c.startFromRest.ax := .ite .of_regs (.trans .of_regs (Axis.setB_flagsStay _ _ _))

theorem Cell.restStart_flagsStay (c : Cell) (e : StartEnv) : c.ax.FlagsStay (c.restStart e).ax := by
  unfold Cell.restStart
  extract_lets d1 d2
  have h2 : c.ax.FlagsStay d2.ax := c.startFromRest_flagsStay.trans (Axis.setB_flagsStay _ _ _)
  exact .ite (h2.trans (d2.startJob_flagsStay ..)) h2

theorem Cell.catchBrake_flagsStay (c : Cell) : c.ax.FlagsStay c.catchBrake.ax := .trans .of_regs (.trans (Axis.setB_flagsStay _ _ _) (Axis.setB_flagsStay _ _ _))

theorem Cell.caught_flagsStay (c : Cell) (e : StartEnv) (x : CatchIn) (halls : Bool) : c.ax.FlagsStay (c.caught e x halls).ax := by
  have hbrake : c.ax.FlagsStay (c.raise AX.BL_EVT.CATCH).catchBrake.ax := (c.raise AX.BL_EVT.CATCH).catchBrake_flagsStay
  have htake : c.ax.FlagsStay (c.takeRotor x halls).ax := .ite .of_regs .of_regs
  unfold Cell.caught
  extract_lets a sp dir lim d1 d2
  exact .ite (c.restStart_flagsStay e) (.ite hbrake (.ite (.ite (htake.trans (Cell.startJob_flagsStay ..)) hbrake)
    (.ite (htake.trans (.trans .of_regs (d2.startJob_flagsStay ..))) hbrake)))

theorem Cell.startMove_flagsStay (c : Cell) (e : StartEnv) (m : Move) : c.ax.FlagsStay (c.startMove e m).ax := by
  have hstart : c.ax.FlagsStay (c.leaveFallow.endJob false).ax :=
    .trans (.of_regs (c.leaveFallow_keeps Axis.regs fun _ _ _ => rfl)) (Cell.endJob_endsAs _ _).flagsStay
  have hmarks : ∀ d : Cell, d.ax.FlagsStay ((d.setB AX.BL_STAT.PARK false).setB AX.BL_STAT.BRAKE false).ax := fun d =>
    (d.ax.setB_flagsStay _ _).trans (Axis.setB_flagsStay _ _ _)
  unfold Cell.startMove
  extract_lets a idle d j halls d1 d2 d3 w rest v
  have h3 : c.ax.FlagsStay d3.ax := hstart.trans ((hmarks d).trans .of_regs)
  exact .ite (.ite (h3.trans (d3.caught_flagsStay ..)) (.trans (h3.trans .of_regs) (Axis.setB_flagsStay _ _ _)))
    ((hstart.trans (hmarks d)).trans (.trans .of_regs (Cell.begin_flagsStay ..)))

end Sys2Proof.Machine
end

section
/-!
Moves start at their tick (06 R188, R189, 05 R157, R169, R170).
-/

namespace Sys2Proof.Machine

open Sys2Proof.Safety

/-! ### The profile or the mode of a move that starts -/

/-- What the start of a move leaves that neither follows a master nor is at its end: the job, its mode, the position, and what the cell knew. -/
structure Cell.Begins (c d : Cell) (j : Job) : Prop where
  mode : d.ax.mot.mode = j.move.kind.mode
  pos : d.ax.mot.pCmd = c.ax.mot.pCmd
  waiting : d.ax.mot.waiting = none
  job : d.ax.mot.job = if j.move.kind = .hold then none else some j
  trip : d.ax.trip = c.ax.trip
  start : d.ax.bl.start = c.ax.bl.start
  brake : d.ax.bl.brake = c.ax.bl.brake
  source : d.ax.bl.posSrc = c.ax.bl.posSrc
  park : d.ax.b AX.BL_STAT.PARK = c.ax.b AX.BL_STAT.PARK

/-- A cell that has taken the job of a move, before its profile or mode. -/
structure Cell.TakesJob (c e : Cell) (j : Job) : Prop where
  pos : e.ax.mot.pCmd = c.ax.mot.pCmd
  waiting : e.ax.mot.waiting = none
  job : e.ax.mot.job = some j
  trip : e.ax.trip = c.ax.trip
  bl : (e.ax.bl.start, e.ax.bl.brake, e.ax.bl.posSrc) = (c.ax.bl.start, c.ax.bl.brake, c.ax.bl.posSrc)
  regs : e.ax.regs = c.ax.regs

theorem Cell.TakesJob.begins {c e d : Cell} {j : Job} (h : c.TakesJob e j) (hmode : d.ax.mot.mode = j.move.kind.mode)
    (hjob : d.ax.mot.job = if j.move.kind = .hold then none else e.ax.mot.job)
    (hmot : (d.ax.mot.pCmd, d.ax.mot.waiting) = (e.ax.mot.pCmd, e.ax.mot.waiting)) (htrip : d.ax.trip = e.ax.trip)
    (hbl : (d.ax.bl.start, d.ax.bl.brake, d.ax.bl.posSrc) = (e.ax.bl.start, e.ax.bl.brake, e.ax.bl.posSrc))
    (hpark : d.ax.b AX.BL_STAT.PARK = e.ax.b AX.BL_STAT.PARK) : c.Begins d j := by
  obtain ⟨hpos, hwait⟩ := Prod.mk.inj hmot
  obtain ⟨hs, hb⟩ := Prod.mk.inj (hbl.trans h.bl)
  obtain ⟨hb, hp⟩ := Prod.mk.inj hb
  exact ⟨hmode, hpos.trans h.pos, hwait.trans h.waiting, hjob.trans (by rw [h.job]), htrip.trans h.trip, hs, hb, hp,
    hpark.trans (congrArg (fun r => AX.BL_STAT.PARK.get r != 0) h.regs)⟩

theorem Cell.begin_begins (c : Cell) (j : Job) (v : Rat) (mp : MasterPos) (tab : Fin 64 → CamTable) (depth : Nat)
    (hf : j.move.kind.free c.ax.mot.pCmd = true) (hm : j.move.kind.mode = .velocity → c.ax.mot.mode ≠ .localSpeed) :
    c.Begins (c.begin j v mp tab depth) j := by
  unfold Cell.begin
  extract_lets a m d e lim go pr velo
  have he : c.TakesJob e j := ⟨rfl, rfl, rfl, rfl, rfl, rfl⟩
  clear_value e
  have hgo : ∀ t, t ≠ c.ax.mot.pCmd → j.move.kind ≠ .hold → j.move.kind.mode = .position → c.Begins (go t) j := fun t ht hk hmode => by
    unfold go
    extract_lets l p f
    rw [if_neg (by simp [a, ht])]
    exact he.begins hmode.symm (if_neg hk).symm rfl rfl rfl rfl
  have hvelo : ∀ mode t home, j.move.kind ≠ .hold → j.move.kind.mode = mode → c.Begins (velo mode t home) j := fun mode t home hk hmode => by
    unfold velo
    extract_lets d1 d2
    have h2 : d2.ax.mot.mode = mode ∧ c.TakesJob d2 j := by
      obtain ⟨hpos, hwait, hjob, htrip, hbl, hregs⟩ := he
      unfold d2
      split <;> exact ⟨rfl, hpos, hwait, hjob, htrip, hbl, hregs⟩
    clear_value d2
    have hb := fun f (h : AX.BL_STAT.PARK.apart f = true) =>
      h2.2.begins (d := d2.setB f true) (h2.1.trans hmode.symm) (if_neg hk).symm rfl rfl rfl (d2.ax.b_setB_apart _ h)
    split
    · split
      · exact hb _ (by decide)
      · exact hb _ (by decide)
    · exact h2.2.begins (h2.1.trans hmode.symm) (if_neg hk).symm rfl rfl rfl rfl
  clear_value go velo pr
  obtain ⟨⟨k, l, as, q, sq, pl, g, ep, tg⟩, es, tr⟩ := j
  simp only [m, a]
  cases k with
  | abs t => exact hgo t (by simpa [MoveK.free] using hf) (by simp) rfl
  | rel d => exact hgo _ (by simpa [MoveK.free] using hf) (by simp) rfl
  | vel w home =>
    rw [if_neg (hm rfl)]
    exact hvelo _ _ _ (by simp) rfl
  | localSpeed vmax => exact he.begins rfl rfl rfl rfl rfl rfl
  | followStep => exact he.begins rfl rfl rfl rfl rfl rfl
  | gear r num den e => cases hf
  | cam cp => cases hf
  | hold => exact he.begins rfl rfl rfl rfl rfl rfl

/-! ### The cell that starts a move (06 R188) -/

theorem Cell.endJob_trip (c : Cell) (done : Bool) : ((c.endJob done).ax.trip, (c.endJob done).ax.bl) = (c.ax.trip, c.ax.bl) := by
  unfold Cell.endJob
  split
  · rfl
  · extract_lets e dev d1 d2 l d3
    have h2 : (d2.ax.trip, d2.ax.bl) = (c.ax.trip, c.ax.bl) := ite_keeps (fun c : Cell => (c.ax.trip, c.ax.bl)) rfl rfl
    exact (ite_keeps (fun c : Cell => (c.ax.trip, c.ax.bl)) rfl rfl : (d3.ax.trip, d3.ax.bl) = (d2.ax.trip, d2.ax.bl)).trans h2

/-- The cell of an axis that leaves fallow for a move: the job before ends, and nothing brakes it. -/
def Cell.ready (c : Cell) : Cell := ((c.leaveFallow.endJob false).setB AX.BL_STAT.PARK false).setB AX.BL_STAT.BRAKE false

theorem Cell.ready_live (c : Cell) : c.ready.ax.trip.live = true :=
  (congrArg Trip.live (Prod.mk.inj (c.leaveFallow.endJob_trip false)).1).trans c.leaveFallow_live

theorem Cell.ready_bl (c : Cell) : c.ready.ax.bl = c.ax.bl :=
  (Prod.mk.inj (c.leaveFallow.endJob_trip false)).2.trans (c.leaveFallow_keeps Axis.bl fun _ _ _ => rfl)

theorem Cell.ready_mot (c : Cell) : c.ready.ax.mot.mode = c.ax.mot.mode ∧ c.ready.ax.mot.pCmd = c.ax.mot.pCmd := by
  have h : c.ready.ax.mot = _ := c.leaveFallow.endJob_mot false
  rw [h, c.leaveFallow_mot]
  split <;> exact ⟨rfl, rfl⟩

theorem Cell.ready_park (c : Cell) : c.ready.ax.b AX.BL_STAT.PARK = false :=
  (Axis.b_setB_apart _ false (by decide)).trans (Axis.b_setB_same _ _ false (by decide) (by decide) (by decide))

theorem Axis.newJob_move (a : Axis) (now : Nat) (m : Move) : (a.newJob now m).move.kind = m.kind ∧ (a.newJob now m).move.seq = m.seq := by
  unfold Axis.newJob
  split <;> exact ⟨rfl, rfl⟩

/-- An axis that is not short-braked or fallow under field-oriented control starts its move at once (06 R188). -/
theorem Cell.startMove_at_once (c : Cell) (e : StartEnv) (m : Move) (h : (c.ax.brushless && (c.ax.mot.mode = .fallow || c.ax.mot.mode = .park)) = false) :
    c.startMove e m = (c.ready.bl fun b => { b with brake := .none, gripEnd := false }).begin (c.ax.newJob c.ready.now m)
      (if c.ax.mot.mode.running then c.ax.mot.prof.v else 0) e.mp e.tab e.depth := by
  unfold Cell.startMove
  extract_lets a idle d j halls d1 d2 d3 w rest v
  rw [if_neg (show ¬ (a.brushless && idle) = true from ne_true_of_eq_false h)]
  rfl

/-- The cell of a brushless axis at rest that looks at its rotor before its move (05 R169). -/
def Cell.seeksRotor (c : Cell) (m : Move) (halls : Bool) : Cell :=
  (c.ready.mot fun x => { x with
      mode := m.kind.mode, job := some (c.ax.newJob c.ready.now m), group := m.group, waiting := none, rest := none, stop := .none, prof := { p := x.pCmd }, left := false
      stopFrom := none, homeTicks := 0 }).bl fun b => { b with brake := .none, posSrc := if halls then .halls else .none }

theorem Cell.startMove_seeks (c : Cell) (e : StartEnv) (m : Move) (h : c.ax.brushless = true) (hi : c.ax.mot.mode = .fallow ∨ c.ax.mot.mode = .park) :
    c.startMove e m = if c.ax.restSrc == .halls then
        (c.seeksRotor m true).caught e ⟨decide (Rat.abs' c.ax.bl.omega < (c.ax.r AX.BL_SPEED.V_STOP : Rat) * 16), roundAway c.ax.bl.omega, 0⟩ true
      else ((c.seeksRotor m false).bl fun b => { b with start := .observe, catchWait := true }).setB AX.BL_STAT.CATCH true := by
  unfold Cell.startMove
  extract_lets a idle d j halls d1 d2 d3 w rest v
  rw [if_pos (by simpa [a, idle, h] using hi)]
  simp only [d3, d2, halls, a]
  split
  · rfl
  · rfl

theorem Cell.seeksRotor_restSrc (c : Cell) (m : Move) (halls : Bool) : (c.seeksRotor m halls).ax.restSrc = c.ax.restSrc := by
  have hb : c.ready.ax.b AX.BL_STAT.HALL_FAIL = c.ax.b AX.BL_STAT.HALL_FAIL := by
    refine (Axis.b_setB_apart _ false (by decide)).trans ((Axis.b_setB_apart _ false (by decide)).trans ?_)
    exact (Cell.endJob_endsAs _ _).b AX.BL_STAT.HALL_FAIL |>.trans (c.leaveFallow_keeps (Axis.b · AX.BL_STAT.HALL_FAIL) fun _ _ _ => rfl)
  show (if c.ready.ax.bl.hallMode != 2 && !c.ready.ax.b AX.BL_STAT.HALL_FAIL && c.ready.ax.bl.sector.isSome then PosSrc.halls else .none) = _
  rw [hb, c.ready_bl]
  rfl

/-- With Halls a start from rest begins at once (05 R157). -/
theorem Cell.restStart_halls (c : Cell) (e : StartEnv) (h : c.ax.restSrc = .halls) : c.restStart e =
    ((c.bl fun b => { b with posSrc := .halls, start := .none, catchWait := false, brake := .none }).setB AX.BL_STAT.BRAKE false).startJob e 0 := by
  have hs : c.startFromRest = c.bl fun b => { b with posSrc := .halls, start := .none, catchWait := false, brake := .none } := by
    unfold Cell.startFromRest
    exact if_pos (by simpa using h)
  unfold Cell.restStart
  rw [hs]
  rfl

/-- A start whose Halls show the rotor at rest begins its move (05 R170). -/
theorem Cell.restStart_begins (c : Cell) (e : StartEnv) {j : Job} (h : c.ax.restSrc = .halls) (hj : c.ax.mot.job = some j)
    (hf : j.move.kind.free c.ax.mot.pCmd = true) (hm : c.ax.mot.mode = j.move.kind.mode) (hp : c.ax.b AX.BL_STAT.PARK = false) :
    (c.restStart e).ax.mot.mode = j.move.kind.mode ∧ (c.restStart e).ax.mot.pCmd = c.ax.mot.pCmd ∧ (c.restStart e).ax.mot.waiting = none
      ∧ (c.restStart e).ax.trip = c.ax.trip ∧ (c.restStart e).ax.bl.start = .none ∧ (c.restStart e).ax.bl.brake = .none
      ∧ (c.restStart e).ax.bl.posSrc = .halls ∧ (c.restStart e).ax.b AX.BL_STAT.PARK = false := by
  rw [c.restStart_halls e h]
  unfold Cell.startJob
  extract_lets d1 d2
  have hd : d2.ax.mot = c.ax.mot ∧ d2.ax.trip = c.ax.trip ∧ d2.ax.bl.start = .none ∧ d2.ax.bl.brake = .none ∧ d2.ax.bl.posSrc = .halls :=
    ⟨rfl, rfl, rfl, rfl, rfl⟩
  have hpark : d2.ax.b AX.BL_STAT.PARK = false :=
    (Axis.b_setB_apart _ false (by decide)).trans ((Axis.b_setB_apart _ false (by decide)).trans ((Axis.b_setB_apart _ false (by decide)).trans hp))
  clear_value d2
  obtain ⟨hmot, htrip, hstart, hbrake, hsrc⟩ := hd
  simp only [hmot, hj]
  have hb := d2.begin_begins j 0 e.mp e.tab e.depth (by rwa [hmot]) (fun hv => by rw [hmot, hm, hv]; decide)
  exact ⟨hb.mode, by rw [hb.pos, hmot], hb.waiting, by rw [hb.trip, htrip], by rw [hb.start, hstart], by rw [hb.brake, hbrake],
    by rw [hb.source, hsrc], by rw [hb.park, hpark]⟩

/-- An axis that a move starts on, as its cell leaves it. -/
theorem Cell.startMove_starts (c : Cell) (e : StartEnv) (w : Waiting) : c.ax.starts (c.startMove e w.move).ax w := by
  have hmot := c.ready_mot
  have hlive := c.ready_live
  have hjob := c.ax.newJob_move c.ready.now w.move
  refine ⟨fun hs hl hf => ?_, fun hb hi hh => ?_, fun hb hi hh hf hv => ?_⟩
  · have hbl : c.ax.brushless = false := by
      have hm : c.ax.motor = .stepper := by simpa [Axis.stepper] using hs
      simp [Axis.brushless, hm]
    rw [c.startMove_at_once e w.move (by rw [hbl, Bool.false_and])]
    have h := (c.ready.bl fun b => { b with brake := .none, gripEnd := false }).begin_begins (c.ax.newJob c.ready.now w.move)
      (if c.ax.mot.mode.running then c.ax.mot.prof.v else 0) e.mp e.tab e.depth
      (by rw [hjob.1]; exact hmot.2 ▸ hf) (fun _ => by rw [show (c.ready.bl _).ax.mot.mode = _ from hmot.1]; exact hl)
    refine ⟨h.mode.trans (congrArg MoveK.mode hjob.1), h.pos.trans hmot.2, h.waiting, (congrArg Trip.live h.trip).trans hlive, ?_⟩
    rw [h.job, hjob.1]
    split
    · rfl
    · rw [Option.map_some, hjob.1, hjob.2]
  · rw [c.startMove_seeks e w.move hb hi, if_neg (by simpa using hh)]
    refine ⟨rfl, rfl, Axis.b_setB_same _ _ true (by decide) (by decide) (by decide), ?_, hmot.2, rfl, hlive⟩
    exact (Axis.b_setB_apart _ true (by decide)).trans c.ready_park
  · rw [c.startMove_seeks e w.move hb hi, if_pos (by simpa using hh), Cell.caught_at_rest _ _ _ (decide_eq_true hv)]
    obtain ⟨hmode, hpos, hwait, htrip, hstart, hbrake, hsrc, hpark⟩ := (c.seeksRotor w.move true).restStart_begins e (j := c.ax.newJob c.ready.now w.move)
      ((c.seeksRotor_restSrc ..).trans hh) rfl (by rw [hjob.1]; exact hmot.2 ▸ hf) (congrArg MoveK.mode hjob.1).symm c.ready_park
    exact ⟨hstart, hbrake, hmode.trans (congrArg MoveK.mode hjob.1), hsrc, hpark, hpos.trans hmot.2, hwait, (congrArg Trip.live htrip).trans hlive⟩

/-! ### `MOVE_START` and `QUEUE_START` (06 R188, R189) -/

/-- Axes that read the same but for their event registers. -/
structure Axis.SameBut (a t : Axis) : Prop where
  motor : t.motor = a.motor
  mot : t.mot = a.mot
  trip : t.trip = a.trip
  bl : t.bl = a.bl
  plainRegs : t.plainRegs = a.plainRegs

theorem Axis.SameBut.b {a t : Axis} (h : a.SameBut t) (f : Fld) (hf : f.reg ∉ axEvRegs := by decide) : t.b f = a.b f := Axis.b_of_plainRegs h.plainRegs hf

theorem Axis.starts_sameBut {a t t' : Axis} {w : Waiting} (h : t.SameBut t') (hs : a.starts t w) : a.starts t' w := by
  unfold Axis.starts at hs ⊢
  rwa [h.mot, h.trip, h.bl, h.b AX.BL_STAT.CATCH, h.b AX.BL_STAT.PARK]

/-- What starts a move reads no event register. -/
theorem Axis.starts_of_sameBut {a a' t : Axis} {w : Waiting} (h : a.SameBut a') (hs : a'.starts t w) : a.starts t w := by
  have hr : ∀ f : Fld, f.reg ∉ axEvRegs → a'.r f = a.r f := fun f hf => Axis.r_of_plainRegs h.plainRegs hf
  have hsrc : a'.restSrc = a.restSrc := by
    unfold Axis.restSrc
    rw [h.bl, h.b AX.BL_STAT.HALL_FAIL]
  have hbl : a'.brushless = a.brushless := Axis.brushless_congr h.motor
  have hst : a'.stepper = a.stepper := by rw [Axis.stepper, h.motor]; rfl
  unfold Axis.starts at hs ⊢
  rwa [hst, hbl, hsrc, h.mot, h.bl, hr _ (by decide)] at hs

theorem Blk.raiseAx_sameBut (b : Blk) (n : Fin 48) (l : List Flag) : (b.axis n).SameBut ((b.raiseAx n l).axis n) :=
  ⟨b.raiseAx_axis_motor n n l, b.raiseAx_axis_mot n n l, b.raiseAx_axis_trip n n l, b.raiseAx_axis_bl n n l, Blk.raiseAx_axis_plainRegs ..⟩

theorem Blk.cell_sameBut (b : Blk) (n : Fin 48) (f : Cell → Cell) : (f (b.cellOf n)).ax.SameBut ((b.cell n f).axis n) :=
  ⟨b.cell_axis_motor n f, b.cell_axis_mot n f, b.cell_axis_trip n f, b.cell_axis_bl n f, b.cell_axis_plainRegs n f⟩

theorem Blk.groupStarted_keeps {α : Type} (g : Blk → α) (b : Blk) (m : Move) (h : ∀ x : List GrpRun, g { b with plan := { b.plan with groups := x } } = g b) :
    g (b.groupStarted m) = g b := by
  unfold Blk.groupStarted
  split
  · rfl
  · exact h _

/-- A move that starts leaves the other axes, and of the module what no start touches. -/
theorem Blk.startWaiting_apart (b : Blk) (n : Fin 48) (w : Waiting) : b.only (b.startWaiting n w) n ∧ (b.startWaiting n w).sm = b.sm
    ∧ (b.startWaiting n w).planes = b.planes ∧ (b.startWaiting n w).owning = b.owning ∧ (b.startWaiting n w).plan.cands = b.plan.cands
    ∧ (b.startWaiting n w).ledg = b.ledg := by
  have hf : (b.startWaiting n w).frame = (b.groupStarted w.move).frame := (Blk.staleRise_frame ..).trans (Blk.cell_frame ..)
  have hg := fun {α : Type} (g : Blk → α) h => (b.groupStarted_keeps g w.move h)
  refine ⟨fun m hm => ?_, ?_, ?_, ?_, ?_, ?_⟩
  · rw [Blk.startWaiting, Blk.staleRise_axis, Blk.cell_axis_ne _ _ hm]
    exact hg (fun c => c.axis m) fun _ => rfl
  · exact (congrArg (fun x => x.1.sm) hf).trans (hg Blk.sm fun _ => rfl)
  · exact (Blk.staleRise_planes ..).trans ((Blk.cell_planes ..).trans (hg Blk.planes fun _ => rfl))
  · exact (congrArg (fun x => x.2.1) hf).trans (hg Blk.owning fun _ => rfl)
  · exact (congrArg (fun x => x.1.plan.cands) hf).trans (hg (fun c => c.plan.cands) fun _ => rfl)
  · exact (congrArg (fun x => x.1.ledg) hf).trans (hg Blk.ledg fun _ => rfl)

/-- A move that starts leaves on its axis what `starts` says, and every flag that stands. -/
theorem Blk.startWaiting_starts (b : Blk) (n : Fin 48) (w : Waiting) :
    (b.axis n).starts ((b.startWaiting n w).axis n) w ∧ (b.axis n).FlagsStay ((b.startWaiting n w).axis n) := by
  have hcell : (b.groupStarted w.move).cellOf n = b.cellOf n := b.groupStarted_keeps (fun c => c.cellOf n) w.move fun _ => rfl
  have hs := (b.cellOf n).startMove_starts (b.startEnv n) w
  have hstay := (b.cellOf n).startMove_flagsStay (b.startEnv n) w.move
  rw [Blk.startWaiting, Blk.staleRise_axis]
  constructor
  · exact Axis.starts_sameBut ((b.groupStarted w.move).cell_sameBut n _) (by rwa [hcell])
  · have hb : (b.groupStarted w.move).FlagsStay ((b.groupStarted w.move).cell n fun c => c.startMove (b.startEnv n) w.move) :=
      Blk.cell_flagsStay _ _ (by rwa [hcell, show (b.groupStarted w.move).axis n = _ from congrArg Cell.ax hcell])
    exact ⟨fun f hev hbit hf => hb n f hev hbit (by rwa [show (b.groupStarted w.move).axis n = b.axis n from congrArg Cell.ax hcell])⟩

theorem moveStart_starts (s : State) (n : Fin 48) (w : Waiting) (hw : (s.blk.axis n).mot.waiting = some w) (hq : w.queued = false) (ht : s.blk.startsNow w) :
    Does (.moveStart n) s fun t => s.blk.only t n ∧ t.sm = s.blk.sm ∧ t.planes = s.blk.planes ∧ t.owning = s.blk.owning
      ∧ t.plan.cands = s.blk.plan.cands ∧ t.ledg = s.blk.ledg ∧ (s.blk.axis n).starts (t.axis n) w := by
  have he : exec (.moveStart n) s = onBlk (fun b => b.startWaiting n w) s := by
    show execMoveStart n s = _
    simp only [execMoveStart, onBlk, hw, hq, Bool.false_or, Nat.not_lt.2 ht, decide_false, Bool.false_eq_true, if_false]
  refine does_of_onBlk he ?_
  obtain ⟨h1, h2, h3, h4, h5, h6⟩ := s.blk.startWaiting_apart n w
  exact ⟨h1, h2, h3, h4, h5, h6, (s.blk.startWaiting_starts n w).1⟩

theorem queueStart_starts (s : State) (n : Fin 48) (w : Waiting) (hw : (s.blk.axis n).mot.waiting = some w) (hq : w.queued = true) (ht : s.blk.startsNow w) :
    Does (.queueStart n) s fun t => s.blk.only t n ∧ t.sm = s.blk.sm ∧ t.planes = s.blk.planes ∧ t.owning = s.blk.owning
      ∧ t.plan.cands = s.blk.plan.cands ∧ t.ledg = s.blk.ledg ∧ (t.axis n).flagged AX.MOT_EVT.QUEUE_START ∧ (s.blk.axis n).starts (t.axis n) w := by
  have he : exec (.queueStart n) s = onBlk (fun b => (b.raiseAx n [AX.MOT_EVT.QUEUE_START]).startWaiting n w) s := by
    show execQueueStart n s = _
    simp only [execQueueStart, onBlk, hw, hq, Bool.not_true, Bool.false_or, Nat.not_lt.2 ht, decide_false, Bool.false_eq_true, if_false]
  refine does_of_onBlk he ?_
  obtain ⟨h1, h2, h3, h4, h5, h6⟩ := (s.blk.raiseAx n [AX.MOT_EVT.QUEUE_START]).startWaiting_apart n w
  obtain ⟨hs, hstay⟩ := (s.blk.raiseAx n [AX.MOT_EVT.QUEUE_START]).startWaiting_starts n w
  have hf := s.blk.raiseAx_frame n [AX.MOT_EVT.QUEUE_START]
  have hflag := s.blk.flagged_raiseAx n (l := [AX.MOT_EVT.QUEUE_START]) (List.mem_singleton.2 rfl) (by decide) (by decide)
  exact ⟨fun m hm => (h1 m hm).trans (Blk.raiseAx_axis_ne _ _ hm), h2.trans (Blk.raiseAx_sm ..), h3.trans (Blk.raiseAx_planes ..),
    h4.trans (congrArg (fun x => x.2.1) hf), h5.trans (congrArg (fun x => x.1.plan.cands) hf), h6.trans (Blk.raiseAx_ledg ..),
    hstay.stays _ (by decide) (by decide) hflag, Axis.starts_of_sameBut (s.blk.raiseAx_sameBut n _) hs⟩

theorem moveStart_idle (s : State) (n : Fin 48) (h : ∀ w ∈ (s.blk.axis n).mot.waiting, w.queued = true ∨ ¬ s.blk.startsNow w) :
    Does (.moveStart n) s fun t => t = s.blk := by
  have he : exec (.moveStart n) s = onBlk (fun b => b) s := by
    show execMoveStart n s = _
    cases hw : (s.blk.axis n).mot.waiting with
    | none => simp only [execMoveStart, onBlk, hw]
    | some w =>
      have hd : (w.queued || decide (25 * s.blk.swath + (s.blk.tick - 1) < 25 * w.swath + w.tick)) = true := by
        simpa [Blk.startsNow] using h w hw
      simp only [execMoveStart, onBlk, hw, hd, if_true]
  exact does_of_onBlk he rfl

theorem queueStart_idle (s : State) (n : Fin 48) (h : ∀ w ∈ (s.blk.axis n).mot.waiting, w.queued = false ∨ ¬ s.blk.startsNow w) :
    Does (.queueStart n) s fun t => t = s.blk := by
  have he : exec (.queueStart n) s = onBlk (fun b => b) s := by
    show execQueueStart n s = _
    cases hw : (s.blk.axis n).mot.waiting with
    | none => simp only [execQueueStart, onBlk, hw]
    | some w =>
      have hd : (!w.queued || decide (25 * s.blk.swath + (s.blk.tick - 1) < 25 * w.swath + w.tick)) = true := by
        simpa [Blk.startsNow] using h w hw
      simp only [execQueueStart, onBlk, hw, hd, if_true]
  exact does_of_onBlk he rfl

/-- Settles O46: a start is a step on the cell of its axis, by the branch that its motor, its mode and its Halls take. -/
theorem movesStart : Obligations.MovesStart := ⟨moveStart_starts, queueStart_starts, moveStart_idle, queueStart_idle⟩

end Sys2Proof.Machine
end

section
/-!
Steps of the motion tick on the axes: what they leave of each axis, whatever its flags, and the steps of a tick that move no position.
-/

namespace Sys2Proof.Machine

/-! ### Relations that steps on the axes keep -/

/-- An axis after a change of its registers and stamps that leaves every flag that stands. -/
structure Axis.Raised (a t : Axis) : Prop where
  eq : t = { a with regs := t.regs, stamps := t.stamps }
  flags : a.FlagsStay t

/-- A relation between an axis before and after any number of steps, that holds of every change of registers. -/
structure Steps (R : Axis → Axis → Prop) : Prop where
  trans : ∀ {a t u}, R a t → R t u → R a u
  raised : ∀ {a t}, a.Raised t → R a t

theorem Steps.refl {R : Axis → Axis → Prop} (h : Steps R) (a : Axis) : R a a := h.raised ⟨rfl, .refl a⟩

/-- Every axis of two modules stands in a relation. -/
def Blk.Each (R : Axis → Axis → Prop) (b t : Blk) : Prop := ∀ n, R (b.axis n) (t.axis n)

section
variable {R : Axis → Axis → Prop}

theorem Blk.Each.trans {b c d : Blk} (hR : Steps R) (h : b.Each R c) (k : c.Each R d) : b.Each R d := fun n => hR.trans (h n) (k n)

theorem Blk.Each.of_ax {b c : Blk} (hR : Steps R) (h : c.ax = b.ax := by rfl) : b.Each R c := fun n => by
  rw [Blk.axis_of_ax h n]
  exact hR.refl _

theorem Blk.Each.foldl {α : Type} {op : Blk → α → Blk} (hR : Steps R) (h : ∀ (b : Blk) (x : α), b.Each R (op b x)) (l : List α) (b : Blk) :
    b.Each R (l.foldl op b) :=
  List.foldlRecOn l op (motive := fun c => b.Each R c) (.of_ax hR) fun c hc x _ => hc.trans hR (h c x)

theorem Blk.raiseAx_raised (b : Blk) (n : Fin 48) (l : List Flag) (m : Fin 48) : (b.axis m).Raised ((b.raiseAx n l).axis m) := by
  refine ⟨?_, ⟨b.raiseAx_flagsStay n l m⟩⟩
  have h := b.raiseAx_axis (z := (b.raiseAx n l).axis m) n m l
  exact h

theorem Blk.raiseAx_each (hR : Steps R) (b : Blk) (n : Fin 48) (l : List Flag) : b.Each R (b.raiseAx n l) := fun m => hR.raised (b.raiseAx_raised n l m)

/-- An axis after a step on its cell: what the step made of it, with its flags raised. -/
theorem Blk.cell_raised (b : Blk) (n : Fin 48) (f : Cell → Cell) : (f (b.cellOf n)).ax.Raised ((b.cell n f).axis n) := by
  have h := ({ b with ax := b.ax.set n (f (b.cellOf n)).ax } : Blk).raiseAx_raised n (f (b.cellOf n)).flags n
  rw [show ({ b with ax := b.ax.set n (f (b.cellOf n)).ax } : Blk).axis n = (f (b.cellOf n)).ax from get_set_same ..] at h
  rwa [Blk.cell_axis_eq]

theorem Blk.cell_each (hR : Steps R) (b : Blk) (n : Fin 48) {f : Cell → Cell} (h : R (b.axis n) (f (b.cellOf n)).ax) : b.Each R (b.cell n f) := fun m => by
  by_cases hm : m = n
  · subst hm
    exact hR.trans h (hR.raised (b.cell_raised m f))
  · rw [b.cell_axis_ne f hm]
    exact hR.refl _

theorem Blk.cells_each (hR : Steps R) (b : Blk) (l : List (Fin 48)) {f : Fin 48 → Cell → Cell} (h : ∀ n c, R c.ax (f n c).ax) : b.Each R (b.cells l f) :=
  .foldl hR (fun b n => b.cell_each hR n (h n (b.cellOf n))) l b

theorem Blk.mapAx_each (hR : Steps R) (b : Blk) (n : Fin 48) {g : Axis → Axis} (h : R (b.axis n) (g (b.axis n))) : b.Each R (b.mapAx n g) := fun m => by
  by_cases hm : m = n
  · rw [hm, Blk.axis_mapAx]
    exact h
  · rw [b.axis_mapAx_ne g hm]
    exact hR.refl _

end

/-! ### Flags raised at one instant (13 R440) -/

theorem getLsbD_oneSeq (old w : Word) {i : Nat} (hi : i < 24) : (oneSeq old w).getLsbD i = w.getLsbD i := by
  unfold oneSeq
  split
  · rfl
  · have hlt : w.toNat % 2 ^ 24 < 2 ^ 24 := Nat.mod_lt _ (by decide)
    rw [BitVec.getLsbD_ofNat, Nat.mul_comm, Nat.testBit_two_pow_mul_add _ hlt]
    simp only [hi, if_true, Nat.testBit_mod_two_pow, decide_true, Bool.true_and, BitVec.getLsbD]
    simp [show i < 32 by omega]

theorem Axis.atOnce_raised (a old : Axis) : a.Raised (a.atOnce old) := by
  refine ⟨rfl, ⟨fun f hev hbit hf => ?_⟩⟩
  unfold Axis.atOnce Axis.flagged
  refine List.foldlRecOn (motive := fun r : AxRegs => ((r[(axEvRegs[f.ev]?).getD 0]?).getD 0).getLsbD f.bit = true) _ _ hf fun r hr k _ => ?_
  rw [Vector.getElem?_setIfInBounds]
  split
  next hk =>
    split
    next => rwa [Option.getD_some, getLsbD_oneSeq _ _ hbit, hk]
    next hlt => rwa [← hk, Vector.getElem?_eq_none (Nat.le_of_not_lt hlt)] at hr
  next => exact hr

theorem Blk.atOnce_each {R : Axis → Axis → Prop} (hR : Steps R) (b old : Blk) : b.Each R (b.atOnce old) := fun n => by
  have h : (b.atOnce old).axis n = (b.axis n).atOnce (old.axis n) := Vector.getElem_ofFn ..
  rw [h]
  exact hR.raised (Axis.atOnce_raised ..)

/-! ### What the parts of a tick leave of an axis -/

/-- Where an axis is on its way. -/
def Motion.course (m : Motion) : Mode × Int × Prof × Option Job × Option Engage × Option (Nat × Bool) :=
  (m.mode, m.pCmd, m.prof, m.job, m.engage, m.group)

/-- An axis after a step that shows or measures, and moves nothing. -/
structure Axis.OnCourse (a t : Axis) : Prop extends Axis.Bears a t where
  course : t.mot.course = a.mot.course

/-- An axis after steps that may stop it, and move no position. -/
structure Axis.InPlace (a t : Axis) : Prop extends Axis.Bears a t where
  pos : t.mot.pCmd = a.mot.pCmd
  idle : a.mot.mode.running = false → a.mot.engage = none → t.mot.mode = a.mot.mode ∧ t.mot.engage = none

/-- An axis after a part of a tick that takes no profile on: a stepper in no group stays on its course. -/
structure Axis.Passes (a t : Axis) : Prop extends Axis.InPlace a t where
  steady : a.motor = .stepper → a.mot.group = none → t.mot.course = a.mot.course

/-- An axis after the part of a tick before its profile. -/
structure Axis.Early (a t : Axis) : Prop extends Axis.Passes a t where
  same : a.mot.group = none → a.mot.mode ≠ .localSpeed → t.mot = a.mot ∧ t.bl = a.bl

/-- An axis after any part of a tick. -/
structure Axis.Ticks (a t : Axis) : Prop where
  motor : t.motor = a.motor
  phase : t.legs.phase = a.legs.phase
  idle : a.mot.mode.running = false → a.mot.engage = none →
    t.mot.mode = a.mot.mode ∧ t.mot.pCmd = a.mot.pCmd ∧ t.mot.engage = none

theorem Axis.Raised.mot {a t : Axis} (h : a.Raised t) : t.mot = a.mot := (congrArg Axis.mot h.eq :)
theorem Axis.Raised.bl {a t : Axis} (h : a.Raised t) : t.bl = a.bl := (congrArg Axis.bl h.eq :)

theorem Axis.Raised.bears {a t : Axis} (h : a.Raised t) : a.Bears t :=
  ⟨(congrArg Axis.motor h.eq :), (congrArg (fun x : Axis => x.legs.phase) h.eq :), h.flags⟩

theorem Axis.OnCourse.of_mot {a t : Axis} (h : a.Bears t) (hm : t.mot = a.mot := by rfl) : a.OnCourse t := ⟨h, by rw [hm]⟩
theorem Axis.OnCourse.of_eq {a t : Axis} (hm : t.motor = a.motor := by rfl) (hl : t.legs = a.legs := by rfl) (hr : t.regs = a.regs := by rfl)
    (hc : t.mot.course = a.mot.course := by rfl) : a.OnCourse t := ⟨.of_eq hm hl hr, hc⟩

theorem Axis.OnCourse.steps : Steps Axis.OnCourse := ⟨fun h k => ⟨h.toBears.trans k.toBears, k.course.trans h.course⟩, fun h => .of_mot h.bears h.mot⟩
theorem Axis.OnCourse.trans {a t u : Axis} (h : a.OnCourse t) (k : t.OnCourse u) : a.OnCourse u := steps.trans h k
theorem Axis.OnCourse.refl (a : Axis) : a.OnCourse a := .of_eq

theorem Axis.OnCourse.ite {a : Axis} {d e : Cell} {p : Prop} [Decidable p] (hd : a.OnCourse d.ax) (he : a.OnCourse e.ax) :
    a.OnCourse (if p then d else e).ax := by
  split
  · exact hd
  · exact he

theorem Motion.course_parts {m k : Motion} (h : k.course = m.course) : k.mode = m.mode ∧ k.pCmd = m.pCmd ∧ k.prof = m.prof ∧ k.job = m.job
    ∧ k.engage = m.engage ∧ k.group = m.group := by simpa only [Motion.course, Prod.mk.injEq] using h

theorem Axis.OnCourse.passes {a t : Axis} (h : a.OnCourse t) : a.Passes t := by
  obtain ⟨hmode, hpos, -, -, hengage, -⟩ := Motion.course_parts h.course
  exact ⟨⟨h.toBears, hpos, fun _ he => ⟨hmode, hengage.trans he⟩⟩, fun _ _ => h.course⟩

theorem Axis.InPlace.trans {a t u : Axis} (h : a.InPlace t) (k : t.InPlace u) : a.InPlace u :=
  ⟨h.toBears.trans k.toBears, k.pos.trans h.pos, fun hr he => by
    obtain ⟨hm, hn⟩ := h.idle hr he
    obtain ⟨km, kn⟩ := k.idle (by rwa [hm]) hn
    exact ⟨km.trans hm, kn⟩⟩

theorem Axis.Passes.steps : Steps Axis.Passes := ⟨fun h k => ⟨h.toInPlace.trans k.toInPlace, fun hs hg => by
    have hc := h.steady hs hg
    exact (k.steady (h.motor.trans hs) ((Motion.course_parts hc).2.2.2.2.2.trans hg)).trans hc⟩, fun h => (OnCourse.steps.raised h).passes⟩

theorem Axis.InPlace.steps : Steps Axis.InPlace := ⟨Axis.InPlace.trans, fun h => (Axis.Passes.steps.raised h).toInPlace⟩

theorem Axis.Passes.trans {a t u : Axis} (h : a.Passes t) (k : t.Passes u) : a.Passes u := steps.trans h k

theorem Axis.Early.steps : Steps Axis.Early := ⟨fun h k => ⟨h.toPasses.trans k.toPasses, fun hg hm => by
    obtain ⟨hmot, hbl⟩ := h.same hg hm
    obtain ⟨kmot, kbl⟩ := k.same (by rwa [hmot]) (by rwa [hmot])
    exact ⟨kmot.trans hmot, kbl.trans hbl⟩⟩, fun h => ⟨Axis.Passes.steps.raised h, fun _ _ => ⟨h.mot, h.bl⟩⟩⟩

theorem Axis.Ticks.steps : Steps Axis.Ticks := ⟨fun h k => ⟨k.motor.trans h.motor, k.phase.trans h.phase, fun hr he => by
    obtain ⟨hm, hp, hn⟩ := h.idle hr he
    obtain ⟨km, kp, kn⟩ := k.idle (by rwa [hm]) hn
    exact ⟨km.trans hm, kp.trans hp, kn⟩⟩,
  fun h => ⟨h.bears.motor, h.bears.phase, fun _ he => ⟨by rw [h.mot], by rw [h.mot], by rw [h.mot, he]⟩⟩⟩

theorem Axis.InPlace.ticks {a t : Axis} (h : a.InPlace t) : a.Ticks t := ⟨h.motor, h.phase, fun hr he => by
  obtain ⟨hm, hn⟩ := h.idle hr he
  exact ⟨hm, h.pos, hn⟩⟩

/-- On an axis that runs or follows a master a step may change all but the motor and the legs. -/
theorem Axis.Ticks.of_moves {a t : Axis} (h : a.Bears t) (hm : a.mot.mode.running = true ∨ a.mot.engage ≠ none) : a.Ticks t :=
  ⟨h.motor, h.phase, fun hr he => hm.elim (fun h => absurd (hr.symm.trans h) (by decide)) (absurd he)⟩

theorem Blk.Each.imp {R S : Axis → Axis → Prop} {b t : Blk} (h : b.Each R t) (hi : ∀ {a t}, R a t → S a t) : b.Each S t := fun n => hi (h n)

/-! ### Stops -/

/-- A stop moves no position, and of an axis that does not run only discards what waits (06 R189). -/
theorem Cell.stop_inPlace (c : Cell) (k : StopKind) : c.ax.InPlace (c.stop k).ax :=
  ⟨c.stop_bears k, (c.stop_calm k).pos, fun hr he => by rw [c.stop_of_not_running k hr]; exact ⟨rfl, he⟩⟩

theorem Cell.orDefer_inPlace (c : Cell) (d : Deferred) {f : Cell → Cell} (h : c.ax.InPlace (f c).ax) : c.ax.InPlace (c.orDefer d f).ax := by
  cases hh : c.ax.handling
  · rwa [c.orDefer_of_not_handling d f hh]
  · rw [c.orDefer_of_handling d f hh]
    exact ⟨⟨rfl, rfl, .of_regs⟩, rfl, fun _ he => ⟨rfl, he⟩⟩

end Sys2Proof.Machine
end

section
/-!
The parts of a motion tick on one cell: what is shown, measured and tested on a tick moves nothing (06 R184, 04 R119 to R125, 05 R149 to R172).
-/

namespace Sys2Proof.Machine

/-! ### What is shown (04 R119, 10 R350) -/

theorem Axis.set_onCourse (a : Axis) (f : Fld) (v : Nat) (h : f.reg ∉ axEvRegs := by decide) : a.OnCourse (a.set f v) := .of_mot (a.set_bears f v h)
theorem Axis.setB_onCourse (a : Axis) (f : Fld) (v : Bool) (h : f.reg ∉ axEvRegs := by decide) : a.OnCourse (a.setB f v) := .of_mot (a.setB_bears f v h)
theorem Axis.setS_onCourse (a : Axis) (f : Fld) (v : Int) (h : f.reg ∉ axEvRegs := by decide) : a.OnCourse (a.setS f v) := a.set_onCourse f _ h
theorem Axis.count_onCourse (a : Axis) (f : Fld) (h : f.reg ∉ axEvRegs := by decide) : a.OnCourse (a.count f) := .of_mot (a.count_bears f h)

theorem Cell.showTick_onCourse (c : Cell) : c.ax.OnCourse c.showTick.ax := by
  unfold Cell.showTick
  extract_lets m w d e t
  have hd : c.ax.OnCourse d.ax := .of_eq
  have he : d.ax.OnCourse e.ax := (d.ax.setS_onCourse AX.MOT_VCMD.V_CMD _).trans (Axis.setS_onCourse _ AX.MOT_ACMD.A_CMD _)
  refine (hd.trans he).trans (.ite (.ite ?_ .of_eq) (.refl _))
  exact (e.ax.count_onCourse AX.LIFE_H.H).trans .of_eq

/-! ### The tests of a stepper (04 R119 to R125) -/

theorem Cell.setUnc_onCourse (c : Cell) : c.ax.OnCourse c.setUnc.ax := .of_mot (c.setUnc_endsAs.bears c.setUnc_legsKept.legs) c.setUnc_mot

theorem Cell.forceCounts_onCourse (c : Cell) (f s : Int) (en : Bool) (tq : Nat) (h : Bool) : c.ax.OnCourse (c.forceCounts f s en tq h).ax := .of_eq

theorem Cell.stepperEstimate_onCourse (c : Cell) : c.ax.OnCourse c.stepperEstimate.ax := by
  unfold Cell.stepperEstimate
  extract_lets a _ _ _
  split
  · exact c.ax.setB_onCourse _ _
  · refine .ite (c.ax.setB_onCourse _ _) ?_
    extract_lets _ _ _ _ _ _ _ e1 e2 e3
    have h1 : c.ax.OnCourse e1.ax := .of_eq
    have h2 : e1.ax.OnCourse e2.ax := ((e1.ax.setB_onCourse AX.ST_STAT.LA_VALID true).trans (Axis.setS_onCourse _ AX.ST_STAT.LA _)).trans
      (Axis.setS_onCourse _ AX.ST_FORCE.F_EST _)
    have h3 : e2.ax.OnCourse e3.ax := .ite e2.setUnc_onCourse (.refl _)
    exact ((h1.trans h2).trans h3).trans (e3.forceCounts_onCourse ..)

theorem Cell.adaptAmp_onCourse (c : Cell) (first : Bool) : c.ax.OnCourse (c.adaptAmp first).ax := by
  unfold Cell.adaptAmp
  extract_lets
  exact .trans .of_eq (Axis.set_onCourse _ AX.ST_STAT.I_AMP _)

theorem Cell.stallCount_onCourse (c : Cell) : c.ax.OnCourse c.stallCount.ax := .ite (.refl _) .of_eq

theorem Cell.newSums_onCourse (c : Cell) : c.ax.OnCourse c.newSums.ax := .of_eq

theorem Cell.stepperTick_onCourse (c : Cell) (w : Bool) : c.ax.OnCourse (c.stepperTick w).ax :=
  ((c.stepperEstimate_onCourse.trans (Cell.adaptAmp_onCourse _ _)).trans (Cell.stallCount_onCourse _)).trans (Cell.newSums_onCourse _)

/-! ### The loops and tests of a brushless axis (05 R143 to R172) -/

theorem Cell.estimate_onCourse (c : Cell) : c.ax.OnCourse c.estimate.ax := .of_eq

theorem Cell.blPosition_onCourse (c : Cell) : c.ax.OnCourse c.blPosition.ax := by
  unfold Cell.blPosition
  extract_lets a
  split
  · exact .of_eq
  · exact .ite .of_eq (.ite .of_eq (.refl _))
  · exact .of_eq
  · exact .refl _

theorem Cell.measure_onCourse (c : Cell) : c.ax.OnCourse c.measure.ax := .ite (c.estimate_onCourse.trans (Cell.blPosition_onCourse _)) (.refl _)

theorem Cell.posLoops_onCourse (c : Cell) : c.ax.OnCourse c.posLoops.ax := by
  unfold Cell.posLoops
  split
  · exact .refl _
  · exact .of_eq

theorem Cell.blForce_onCourse (c : Cell) : c.ax.OnCourse c.blForce.ax := by
  unfold Cell.blForce
  split
  · exact .refl _
  · extract_lets a s n f d valid
    have hd : c.ax.OnCourse d.ax := c.ax.setS_onCourse AX.BL_FORCE.F_EST _
    exact .ite (hd.trans (d.forceCounts_onCourse ..)) hd

theorem Cell.lockCount_onCourse (c : Cell) : c.ax.OnCourse c.lockCount.ax := .of_eq

theorem Cell.followError_inPlace (c : Cell) : c.ax.InPlace c.followError.ax := by
  unfold Cell.followError
  extract_lets a m loops
  split
  · exact (c.raise AX.BL_EVT.FERR).stop_inPlace .stop
  · exact (Axis.OnCourse.refl c.ax).passes.toInPlace

theorem Axis.Passes.of_brushless {a t : Axis} (h : a.InPlace t) (hb : a.brushless = true) : a.Passes t :=
  ⟨h, fun hs => absurd hb (by simp [Axis.brushless, hs])⟩

/-- Of a brushless tick only a following error moves anything: it stops (05 R150). -/
theorem Cell.blTick_passes (c : Cell) (h : c.ax.brushless = true) : c.ax.Passes c.blTick.ax := by
  unfold Cell.blTick
  extract_lets a idle d e f
  have hd : c.ax.OnCourse d.ax := .ite .of_eq (.ite .of_eq (.ite (.refl _) c.posLoops_onCourse))
  have he : d.ax.OnCourse e.ax := .of_eq
  have hf : e.ax.OnCourse f.ax := e.ax.set_onCourse AX.BL_DIAG.I_AMP _
  have hg := ((hd.trans he).trans hf).trans (f.blForce_onCourse.trans (Cell.lockCount_onCourse _))
  have hstop := hg.passes.toInPlace.trans (Cell.followError_inPlace _)
  exact .of_brushless (hstop.trans (Cell.newSums_onCourse _).passes.toInPlace) h

/-! ### The tick of the drive -/

theorem Cell.orphanRest_onCourse (c : Cell) : c.ax.OnCourse c.orphanRest.ax := .ite ((c.ax.setB_onCourse AX.RST_STAT.ORPHAN true).trans .of_eq) (.refl _)

theorem Cell.driveTick_passes (c : Cell) (w : Bool) : c.ax.Passes (c.driveTick w).ax := by
  unfold Cell.driveTick
  extract_lets d e
  have hd : c.ax.Passes d.ax := c.showTick_onCourse.passes
  have he : d.ax.Passes e.ax := by
    simp only [e]
    split
    next hb => exact d.blTick_passes hb
    next =>
      split
      · exact (d.stepperTick_onCourse w).passes
      · exact (Axis.OnCourse.refl _).passes
  exact (hd.trans he).trans (e.orphanRest_onCourse.trans .of_eq).passes

/-! ### Local speed (05 R173, R174) -/

theorem Cell.lsTick_early (c : Cell) (x : LsIn) : c.ax.Early (c.lsTick (some x)).ax := by
  unfold Cell.lsTick
  by_cases h : c.ax.mot.mode = .localSpeed
  · rw [if_neg (by simp [h])]
    have hc : c.ax.OnCourse (if c.ax.lsValid x then
        (c.bl fun b => { b with lsLost := false, lsBad := false }).mot fun m => { m with vTarget := c.ax.lsTarget x }
        else (c.bl fun b => { b with lsBad := true }).mot fun m => { m with vTarget := 0 }).ax := .ite .of_eq .of_eq
    exact ⟨hc.passes, fun _ hm => absurd h hm⟩
  · rw [if_pos (by simpa using h)]
    exact Axis.Early.steps.refl _

/-! ### The profile's tick, and a follower's (06 R184, R193, R203) -/

theorem Cell.travelLimit_bears (c : Cell) (old : Int) : c.ax.Bears (c.travelLimit old).ax := .ite ((c.raise _).stop_bears _) (.refl _)

theorem Cell.profileTick_bears (c : Cell) : c.ax.Bears c.profileTick.ax := by
  have htake : ∀ p : Prof, c.ax.Bears ((c.mot fun m => { m with prof := p }).putPos (roundAway p.p)).ax := fun _ => .of_eq
  unfold Cell.profileTick
  extract_lets old p1 q1 d1 cruise p2 d2 e2 f2 old3 p4 d4 e4
  refine .ite (.refl _) ?_
  split
  · exact .ite (.refl _) (.ite ((htake _).trans d1.moveDone_bears) (htake _))
  · have he : c.ax.Bears e2.ax := (htake _).trans (Cell.travelLimit_bears _ _)
    have hf : e2.ax.Bears f2.ax := .ite .of_eq (.refl _)
    exact (he.trans hf).trans (.ite f2.moveDone_bears (.refl _))
  · have he : c.ax.Bears e2.ax := (htake _).trans (Cell.travelLimit_bears _ _)
    have hf : e2.ax.Bears f2.ax := .ite .of_eq (.refl _)
    exact (he.trans hf).trans (.ite f2.moveDone_bears (.refl _))
  · exact .trans .of_eq (Cell.travelLimit_bears _ _)
  · have he : c.ax.Bears e4.ax := (htake _).trans (Cell.travelLimit_bears _ _)
    exact .ite (.refl _) (.ite (he.trans e4.stopDone_bears) he)
  · exact .refl _

theorem Cell.profileTick_of_not_running (c : Cell) (h : c.ax.mot.mode.running = false) : c.profileTick = c := by
  unfold Cell.profileTick
  extract_lets
  split
  · rfl
  · split
    case h_6 => rfl
    all_goals next hm => exact absurd h (by rw [hm]; decide)

theorem Cell.profileTick_ticks (c : Cell) : c.ax.Ticks c.profileTick.ax := by
  cases h : c.ax.mot.mode.running with
  | true => exact .of_moves c.profileTick_bears (.inl h)
  | false =>
    rw [c.profileTick_of_not_running h]
    exact Axis.Ticks.steps.refl _

theorem Cell.followTick_bears (c : Cell) (mp : MasterPos) (tab : Fin 64 → CamTable) : c.ax.Bears (c.followTick mp tab).ax := by
  unfold Cell.followTick
  split
  · exact .refl _
  next e _ =>
    extract_lets ref
    split
    · exact .refl _
    next m _ =>
      extract_lets
      split
      next p full ended _ =>
        extract_lets _ d1 d2 d3 _ d4 d5
        have h1 : c.ax.Bears d1.ax := .of_eq
        have h3 : d1.ax.Bears d3.ax := .ite .of_eq .of_eq
        have h4 : d3.ax.Bears d4.ax := .ite (d3.stop_bears _) (.refl _)
        have h5 : d4.ax.Bears d5.ax := .ite ((d4.raise _).stop_bears _) (.refl _)
        exact (((h1.trans h3).trans h4).trans h5).trans (d5.travelLimit_bears _)

theorem Cell.followTick_ticks (c : Cell) (mp : MasterPos) (tab : Fin 64 → CamTable) : c.ax.Ticks (c.followTick mp tab).ax := by
  by_cases h : c.ax.mot.engage = none
  · rw [show c.followTick mp tab = c by unfold Cell.followTick; simp only [h]]
    exact Axis.Ticks.steps.refl _
  · exact .of_moves (c.followTick_bears mp tab) (.inr h)

end Sys2Proof.Machine
end

section
/-!
The parts of a motion tick on the module (06 R184, R195, R196, R203): what each leaves of every axis, and of the module.
-/

namespace Sys2Proof.Machine

/-! ### Before the profiles -/

theorem Axis.Early.of_mot {a t : Axis} (h : a.Bears t) (hm : t.mot = a.mot) (hb : t.bl = a.bl) : a.Early t :=
  ⟨(Axis.OnCourse.of_mot h hm).passes, fun _ _ => ⟨hm, hb⟩⟩

/-- A member of a group may stop at any tick (06 R196). -/
theorem Axis.Early.of_grouped {a t : Axis} (h : a.InPlace t) (hg : a.mot.group ≠ none) : a.Early t :=
  ⟨⟨h, fun _ hn => absurd hn hg⟩, fun hn => absurd hn hg⟩

theorem Blk.yieldNow_ax (b : Blk) : b.yieldNow.ax = b.ax := by
  unfold Blk.yieldNow
  refine ite_keeps Blk.ax rfl (ite_keeps Blk.ax ((Blk.raise_ax ..).trans ?_) rfl)
  unfold Blk.grazeBack
  split <;> rfl

theorem Axis.Early.of_unlent {z a t : Axis} (h : Axis.unlent z t = Axis.unlent z a) (hf : a.FlagsStay t) : a.Early t := by
  have hmotor : t.motor = a.motor := congrArg (fun y : Axis × (Fin 131 → Word) => y.1.motor) h
  have hphase : t.legs.phase = a.legs.phase := congrArg (fun y : Axis × (Fin 131 → Word) => y.1.legs.phase) h
  exact .of_mot ⟨hmotor, hphase, hf⟩ (Axis.mot_of_unlent h) (Axis.bl_of_unlent h)

theorem Blk.sweepInterleaves_early (b : Blk) : b.Each Axis.Early b.sweepInterleaves := fun n =>
  .of_unlent (Blk.axis_unlent (b.sweepInterleaves_unlent (z := b.axis n)) n) ⟨b.sweepInterleaves_flagsStay n⟩

/-! ### Groups (06 R195, R196) -/

theorem Blk.groupStop_inPlace (b : Blk) (r : GrpRun) : b.Each Axis.InPlace (b.groupStop r) := by
  unfold Blk.groupStop
  split
  · exact b.cells_each Axis.InPlace.steps _ fun _ c => c.orDefer_inPlace _ (c.stop_inPlace _)
  · exact .of_ax Axis.InPlace.steps

/-- The stop of a group leaves an axis that belongs to none. -/
theorem Blk.groupStop_axis (b : Blk) (r : GrpRun) {n : Fin 48} (h : (b.axis n).mot.group = none) : (b.groupStop r).axis n = b.axis n := by
  unfold Blk.groupStop
  split
  · exact b.cells_axis_notMem _ (by simp [h])
  · rfl

theorem Blk.groupStops_early (b : Blk) (l : List GrpRun) : b.Each Axis.Early (l.foldl Blk.groupStop b) := fun n => by
  by_cases hg : (b.axis n).mot.group = none
  · have h : (l.foldl Blk.groupStop b).axis n = b.axis n :=
      List.foldlRecOn l Blk.groupStop (motive := fun c => c.axis n = b.axis n) rfl fun c hc r _ => (c.groupStop_axis r (by rwa [hc])).trans hc
    rw [h]
    exact Axis.Early.steps.refl _
  · exact .of_grouped (Blk.Each.foldl Axis.InPlace.steps Blk.groupStop_inPlace l b n) hg

theorem Blk.groupDone_each {R : Axis → Axis → Prop} (hR : Steps R) (b : Blk) (r : GrpRun) : b.Each R (b.groupDone r) := by
  unfold Blk.groupDone
  split
  · exact .of_ax hR
  · exact (Blk.Each.foldl hR (fun c n => c.raiseAx_each hR n _) r.members b).trans hR (.of_ax hR (Blk.event_ax ..))

theorem Blk.sweepGroups_early (b : Blk) : b.Each Axis.Early b.sweepGroups := by
  have hs := Axis.Early.steps
  exact ((b.groupStops_early b.plan.groups).trans hs (.of_ax hs)).trans hs (.foldl hs (Blk.groupDone_each hs) _ _)

/-- The AUXB reading of one axis. -/
def Blk.auxOne (b : Blk) (x : Fin 48 × LsIn) : Blk := b.cell x.1 fun c => c.lsTick (some x.2)

theorem Blk.auxOne_early (b : Blk) (x : Fin 48 × LsIn) : b.Each Axis.Early (b.auxOne x) := by
  unfold Blk.auxOne
  exact b.cell_each Axis.Early.steps x.1 ((b.cellOf x.1).lsTick_early x.2)

theorem Blk.auxTick_early (b : Blk) (l : List (Fin 48 × LsIn)) : b.Each Axis.Early (b.auxTick l) := .foldl Axis.Early.steps Blk.auxOne_early l b

/-- The module of a tick before its profiles. -/
def Blk.tickBegins (b : Blk) (x : TickIn) : Blk := (({ b.yieldNow with tick := min 25 (b.tick + 1) } : Blk).sweepInterleaves.sweepGroups).auxTick x.aux

theorem Blk.tickBegins_early (b : Blk) (x : TickIn) : b.Each Axis.Early (b.tickBegins x) := by
  have hs := Axis.Early.steps
  have h0 : b.Each Axis.Early { b.yieldNow with tick := min 25 (b.tick + 1) } := .of_ax hs b.yieldNow_ax
  exact ((h0.trans hs (Blk.sweepInterleaves_early _)).trans hs (Blk.sweepGroups_early _)).trans hs (Blk.auxTick_early _ _)

/-! ### The profiles, and the followers after them (06 R203) -/

/-- The axes that follow a master with their depth below it. -/
def Blk.withDepths (b : Blk) : Blk := { b with ax := Vector.ofFn fun n =>
  let a := b.axis n
  if a.mot.engage.isSome then { a with mot := { a.mot with depth := b.depthOf 4 n (all := false) } } else a }

/-- The profiles of the axes that follow no master. -/
def Blk.profileTicks (b : Blk) : Blk := b.cells (b.driven.filter fun n => !(b.axis n).mot.engage.isSome) fun _ c => c.profileTick.measure

/-- One follower. -/
def Blk.followOne (b : Blk) (n : Fin 48) : Blk :=
  let mp := b.masters
  let tab := b.cams.get
  b.cell n fun c => (c.followTick mp tab).measure

/-- The followers of one depth. -/
def Blk.followDepth (b : Blk) (d : Nat) : Blk :=
  (b.driven.filter fun n => (b.axis n).mot.engage.isSome && min 3 (max 1 (b.axis n).mot.depth) = d).foldl Blk.followOne b

theorem Blk.positionTick_eq (b : Blk) : b.positionTick = [1, 2, 3].foldl Blk.followDepth b.withDepths.profileTicks := by
  unfold Blk.positionTick Blk.followDepth Blk.followOne Blk.profileTicks Blk.withDepths
  rfl

theorem Blk.withDepths_axis (b : Blk) (n : Fin 48) : b.withDepths.axis n =
    if (b.axis n).mot.engage.isSome then { b.axis n with mot := { (b.axis n).mot with depth := b.depthOf 4 n (all := false) } } else b.axis n :=
  Vector.getElem_ofFn ..

theorem Blk.withDepths_ticks (b : Blk) : b.Each Axis.Ticks b.withDepths := fun n => by
  rw [b.withDepths_axis n]
  split
  next h => exact .of_moves .of_eq (.inr (Option.isSome_iff_ne_none.1 h))
  next => exact Axis.Ticks.steps.refl _

theorem Cell.measure_ticks (c : Cell) : c.ax.Ticks c.measure.ax := c.measure_onCourse.passes.toInPlace.ticks

theorem Blk.followOne_ticks (b : Blk) (n : Fin 48) : b.Each Axis.Ticks (b.followOne n) := by
  unfold Blk.followOne
  extract_lets mp tab
  exact b.cell_each Axis.Ticks.steps n (Axis.Ticks.steps.trans ((b.cellOf n).followTick_ticks mp tab) (Cell.measure_ticks _))

theorem Blk.followDepth_ticks (b : Blk) (d : Nat) : b.Each Axis.Ticks (b.followDepth d) := .foldl Axis.Ticks.steps Blk.followOne_ticks _ b

theorem Blk.positionTick_ticks (b : Blk) : b.Each Axis.Ticks b.positionTick := by
  have hs := Axis.Ticks.steps
  have hp : b.withDepths.Each Axis.Ticks b.withDepths.profileTicks :=
    Blk.cells_each hs _ _ fun _ c => hs.trans c.profileTick_ticks (Cell.measure_ticks _)
  rw [b.positionTick_eq]
  exact (b.withDepths_ticks.trans hs hp).trans hs (.foldl hs Blk.followDepth_ticks _ _)

theorem Blk.followOne_axis_ne (b : Blk) {m n : Fin 48} (h : n ≠ m) : (b.followOne m).axis n = b.axis n := by
  unfold Blk.followOne
  exact b.cell_axis_ne _ h

/-- The followers leave an axis that follows nothing. -/
theorem Blk.followDepth_axis (b : Blk) (d : Nat) {n : Fin 48} (h : (b.axis n).mot.engage = none) : (b.followDepth d).axis n = b.axis n := by
  have hn : n ∉ b.driven.filter fun n => (b.axis n).mot.engage.isSome && min 3 (max 1 (b.axis n).mot.depth) = d := by simp [h]
  unfold Blk.followDepth
  exact foldl_keeps_mem (fun c : Blk => c.axis n) Blk.followOne _ (fun c m hm => c.followOne_axis_ne fun e => hn (e ▸ hm)) b

theorem Blk.followDepths_axis (b : Blk) {n : Fin 48} (h : (b.axis n).mot.engage = none) (l : List Nat) : (l.foldl Blk.followDepth b).axis n = b.axis n :=
  List.foldlRecOn l Blk.followDepth (motive := fun d => d.axis n = b.axis n) rfl fun d hd k _ => (d.followDepth_axis k (by rwa [hd])).trans hd

theorem Blk.withDepths_same (b : Blk) {n : Fin 48} (h : (b.axis n).mot.engage = none) : b.withDepths.axis n = b.axis n := by
  rw [b.withDepths_axis n, if_neg (by simp [h])]

theorem Blk.withDepths_cellOf (b : Blk) {n : Fin 48} (h : (b.axis n).mot.engage = none) : b.withDepths.cellOf n = b.cellOf n := by
  have hs : b.withDepths.swath = b.swath := by simp only [Blk.withDepths]
  have ht : b.withDepths.tick = b.tick := by simp only [Blk.withDepths]
  simp only [Blk.cellOf, b.withDepths_same h, hs, ht]

/-- The profile of an axis that follows nothing is a step on its cell alone. -/
theorem Blk.profileTicks_axis (b : Blk) {n : Fin 48} (hm : (b.axis n).motor ≠ Motor.none) (he : (b.axis n).mot.engage = none) :
    ∃ c : Blk, c.cellOf n = b.cellOf n ∧ b.profileTicks.axis n = (c.cell n fun c => c.profileTick.measure).axis n := by
  have hmem : n ∈ b.driven.filter fun n => !(b.axis n).mot.engage.isSome := by simp [Blk.driven, mem_allAxes, hm, he]
  unfold Blk.profileTicks
  exact b.cells_axis_mem (fun _ c => c.profileTick.measure) ((allAxes_nodup.filter _).filter _) hmem

/-- So is the tick of its position, where its profile leaves it without a master. -/
theorem Blk.positionTick_axis (b : Blk) {n : Fin 48} (hm : (b.axis n).motor ≠ Motor.none) (he : (b.axis n).mot.engage = none)
    (h : (b.cellOf n).profileTick.ax.mot.engage = none) :
    ∃ c : Blk, c.cellOf n = b.cellOf n ∧ b.positionTick.axis n = (c.cell n fun c => c.profileTick.measure).axis n := by
  have hcell := b.withDepths_cellOf he
  have hax := b.withDepths_same he
  obtain ⟨c, hc, hcx⟩ := b.withDepths.profileTicks_axis (n := n) (by rw [hax]; exact hm) (by rw [hax]; exact he)
  have hnone : (b.withDepths.profileTicks.axis n).mot.engage = none := by
    rw [hcx, Blk.cell_axis_mot, hc, hcell]
    exact (Motion.course_parts (Cell.measure_onCourse _).course).2.2.2.2.1.trans h
  rw [b.positionTick_eq]
  exact ⟨c, hc.trans hcell, (Blk.followDepths_axis _ hnone _).trans hcx⟩

/-! ### After the profiles -/

theorem Blk.captureTick_ax (b : Blk) : b.captureTick.ax = b.ax := by
  unfold Blk.captureTick
  extract_lets
  refine ite_keeps Blk.ax rfl (ite_keeps Blk.ax rfl ?_)
  split
  · exact Blk.logEntry_ax ..
  · rfl

theorem Blk.sampleTick_ax (b : Blk) : b.sampleTick.ax = b.ax := by
  unfold Blk.sampleTick
  exact ite_keeps Blk.ax rfl rfl

theorem Blk.lifeTick_passes (b : Blk) (l : List (Fin 48)) : b.Each Axis.Passes (b.lifeTick l) := by
  have hs := Axis.Passes.steps
  have hcount : b.Each Axis.Passes (l.foldl (fun (b : Blk) n => b.mapAx n fun a => a.count AX.LIFE_TC.TC) b) :=
    .foldl hs (fun c n => c.mapAx_each hs n (Axis.count_onCourse _ _).passes) l b
  refine hcount.trans hs (.of_ax hs ?_)
  unfold Blk.lifeTick
  exact ite_keeps Blk.ax rfl rfl

/-- The module of a tick after its profiles. -/
def Blk.tickEnds (b : Blk) (x : TickIn) (moving : Vector Bool 48) : Blk :=
  ((((b.cells b.driven fun n c => c.driveTick (moving.get n)).sweepGroups.supplyTick x.supply).captureTick.sampleTick).lifeTick x.thermal).napTick

theorem Blk.motionTick_eq (b : Blk) (x : TickIn) : b.motionTick x = (b.tickBegins x).positionTick.tickEnds x ((b.tickBegins x).ax.map Axis.moving) := rfl

theorem Blk.tickEnds_passes (b : Blk) (x : TickIn) (v : Vector Bool 48) : b.Each Axis.Passes (b.tickEnds x v) := by
  have hs := Axis.Passes.steps
  have hdrive : b.Each Axis.Passes (b.cells b.driven fun n c => c.driveTick (v.get n)) := b.cells_each hs _ fun n c => c.driveTick_passes _
  have hgroups := hdrive.trans hs ((Blk.sweepGroups_early _).imp Axis.Early.toPasses)
  have hcap := hgroups.trans hs (.of_ax hs (c := ((Blk.supplyTick _ x.supply).captureTick.sampleTick))
    ((Blk.sampleTick_ax _).trans (Blk.captureTick_ax _)))
  exact (hcap.trans hs (Blk.lifeTick_passes _ x.thermal)).trans hs (.of_ax hs)

/-- The module of a tick as it stands at its instant. -/
def Blk.tickStep (b : Blk) (x : TickIn) : Blk := (b.motionTick x).atOnce b

theorem Blk.tickStep_after (b : Blk) (x : TickIn) : (b.tickBegins x).positionTick.Each Axis.Passes (b.tickStep x) := by
  unfold Blk.tickStep
  rw [b.motionTick_eq]
  exact (Blk.tickEnds_passes _ _ _).trans Axis.Passes.steps (Blk.atOnce_each Axis.Passes.steps _ b)

theorem Blk.tickStep_ticks (b : Blk) (x : TickIn) : b.Each Axis.Ticks (b.tickStep x) := by
  have hs := Axis.Ticks.steps
  have h0 : b.Each Axis.Ticks (b.tickBegins x) := (b.tickBegins_early x).imp fun h => h.toInPlace.ticks
  exact (h0.trans hs (Blk.positionTick_ticks _)).trans hs ((b.tickStep_after x).imp fun h => h.toInPlace.ticks)

end Sys2Proof.Machine
end

section
/-!
A motion tick of the module (06 R184, R186, R197): what it leaves of the module, and where it takes an axis that follows no master.
-/

namespace Sys2Proof.Machine

/-! ### The module, its axes and registers apart -/

/-- The core of the module, its sequence, and what it reports of its energy and its streams. -/
def Blk.base (b : Blk) : Core × Vector PlaneSt 3 × Ledger × Vector (Option Stream) 4 := (b.core, b.planes, b.ledg, b.streams)

theorem Blk.base_of_rest {b t : Blk} (hc : t.core = b.core) (hp : t.planes = b.planes) (hr : t.rest = b.rest) : t.base = b.base := by
  have hl : t.ledg = b.ledg := by have e := congrArg Blk.ledg hr; exact e
  have hs : t.streams = b.streams := by have e := congrArg Blk.streams hr; exact e
  simp only [Blk.base, hc, hp, hl, hs]

theorem Blk.base_of_frame {b t : Blk} (h : t.frame = b.frame) (hp : t.planes = b.planes) : t.base = b.base :=
  Blk.base_of_rest (Blk.core_of_frame h) hp (congrArg Prod.fst h)

theorem Blk.raise_base (b : Blk) (l : List Flag) : (b.raise l).base = b.base := Blk.base_of_frame (b.raise_frame l) (b.raise_planes l)

theorem Blk.cells_base (b : Blk) (l : List (Fin 48)) (f : Fin 48 → Cell → Cell) : (b.cells l f).base = b.base :=
  Blk.base_of_frame (b.cells_frame l f) (b.cells_planes l f)

theorem Blk.cell_base (b : Blk) (n : Fin 48) (f : Cell → Cell) : (b.cell n f).base = b.base := Blk.base_of_frame (b.cell_frame n f) (b.cell_planes n f)

theorem Blk.yieldNow_base (b : Blk) : b.yieldNow.base = b.base := by
  unfold Blk.yieldNow
  refine ite_keeps Blk.base rfl (ite_keeps Blk.base ((Blk.raise_base ..).trans ?_) rfl)
  unfold Blk.grazeBack
  split <;> rfl

theorem Blk.base_of_unlent {z : Axis} {b t : Blk} (h : t.unlent z = b.unlent z) : t.base = b.base := by
  have hr : { t with meas := Blk.reset.meas }.rest = { b with meas := Blk.reset.meas }.rest := congrArg Prod.fst h
  have ho : t.owning = b.owning := congrArg (·.2.1) h
  have hp : t.planes = b.planes := congrArg (·.2.2.1) h
  have hsm : t.sm = b.sm := (congrArg Blk.sm hr :)
  have hpw : t.pw = b.pw := (congrArg Blk.pw hr :)
  have hsides : t.sides = b.sides := (congrArg Blk.sides hr :)
  have hnap : t.nap = b.nap := (congrArg Blk.nap hr :)
  have hact : t.act = b.act := (congrArg Blk.act hr :)
  have hswath : t.swath = b.swath := (congrArg Blk.swath hr :)
  have htick : t.tick = b.tick := (congrArg Blk.tick hr :)
  have hplan : t.plan = b.plan := (congrArg Blk.plan hr :)
  have hledg : t.ledg = b.ledg := (congrArg Blk.ledg hr :)
  have hstreams : t.streams = b.streams := (congrArg Blk.streams hr :)
  simp only [Blk.base, Blk.core, ho, hsm, hpw, hsides, hnap, hact, hswath, htick, hplan, hp, hledg, hstreams]

theorem Blk.groupStop_base (b : Blk) (r : GrpRun) : (b.groupStop r).base = b.base := by
  unfold Blk.groupStop
  exact ite_keeps Blk.base (b.cells_base _ _) rfl

theorem Blk.groupDone_base (b : Blk) (r : GrpRun) : (b.groupDone r).base = b.base := by
  unfold Blk.groupDone
  refine ite_keeps Blk.base rfl ((Blk.base_of_frame (Blk.event_frame ..) (Blk.event_planes ..)).trans ?_)
  exact foldl_keeps Blk.base _ (fun c n => Blk.base_of_frame (c.raiseAx_frame n _) (c.raiseAx_planes n _)) _ b

theorem Blk.sweepGroups_base (b : Blk) : b.sweepGroups.base = b.base := by
  unfold Blk.sweepGroups
  refine (foldl_keeps Blk.base _ Blk.groupDone_base _ _).trans ?_
  exact Eq.trans rfl (foldl_keeps Blk.base _ Blk.groupStop_base b.plan.groups b)

theorem Blk.auxOne_base (b : Blk) (x : Fin 48 × LsIn) : (b.auxOne x).base = b.base := by
  unfold Blk.auxOne
  exact b.cell_base x.1 _

theorem Blk.auxTick_base (b : Blk) (l : List (Fin 48 × LsIn)) : (b.auxTick l).base = b.base := foldl_keeps Blk.base Blk.auxOne Blk.auxOne_base l b

/-- The ticks of the swath count up to 25, and nothing else of the module moves before the profiles. -/
theorem Blk.tickBegins_base (b : Blk) (x : TickIn) : (b.tickBegins x).base = ({ b.core with tick := min 25 (b.tick + 1) }, b.base.2) := by
  unfold Blk.tickBegins
  rw [Blk.auxTick_base, Blk.sweepGroups_base, Blk.base_of_unlent (Blk.sweepInterleaves_unlent (z := b.axis 0) _)]
  have h := b.yieldNow_base
  exact congrArg (fun y : Core × Vector PlaneSt 3 × Ledger × Vector (Option Stream) 4 => ({ y.1 with tick := min 25 (b.tick + 1) }, y.2)) h

theorem Blk.followOne_base (b : Blk) (n : Fin 48) : (b.followOne n).base = b.base := by
  unfold Blk.followOne
  exact b.cell_base n _

theorem Blk.followDepth_base (b : Blk) (d : Nat) : (b.followDepth d).base = b.base := by
  unfold Blk.followDepth
  exact foldl_keeps Blk.base Blk.followOne Blk.followOne_base _ b

theorem Blk.withAx_base (b : Blk) (v : Vector Axis 48) : ({ b with ax := v } : Blk).base = b.base := rfl
theorem Blk.withCapTicks_base (b : Blk) (k : Nat) : ({ b with capTicks := k } : Blk).base = b.base := rfl

theorem Blk.withCasc_base (b : Blk) : ∀ c, ({ b with casc := c } : Blk).base = b.base := fun _ => rfl

theorem Blk.withDepths_base (b : Blk) : b.withDepths.base = b.base := b.withAx_base _

theorem Blk.profileTicks_base (b : Blk) : b.profileTicks.base = b.base := by
  unfold Blk.profileTicks
  exact b.cells_base _ _

theorem Blk.positionTick_base (b : Blk) : b.positionTick.base = b.base := by
  rw [b.positionTick_eq, foldl_keeps Blk.base Blk.followDepth Blk.followDepth_base, Blk.profileTicks_base, Blk.withDepths_base]

theorem Blk.logEntry_base (b : Blk) (c k a p : Nat) (d : List Byte) : (b.logEntry c k a p d).base = b.base :=
  Blk.base_of_frame (b.logEntry_frame ..) (b.logEntry_planes ..)

theorem Blk.captureTick_base (b : Blk) : b.captureTick.base = b.base := by
  unfold Blk.captureTick
  extract_lets
  refine ite_keeps Blk.base (b.withCapTicks_base _) (ite_keeps Blk.base (b.withCapTicks_base _) ?_)
  split
  · rw [Blk.logEntry_base, Blk.withCapTicks_base]
  · exact b.withCapTicks_base _

theorem Blk.sampleTick_base (b : Blk) : b.sampleTick.base = b.base := by
  unfold Blk.sampleTick
  exact ite_keeps Blk.base rfl (b.withCasc_base _)

theorem Blk.lifeTick_base (b : Blk) (l : List (Fin 48)) : (b.lifeTick l).base = b.base := by
  have h : (l.foldl (fun (b : Blk) n => b.mapAx n fun a => a.count AX.LIFE_TC.TC) b).base = b.base :=
    foldl_keeps Blk.base _ (fun c n => Blk.base_of_frame (c.mapAx_frame n _) (c.mapAx_planes n _)) _ b
  unfold Blk.lifeTick
  exact ite_keeps Blk.base h h

/-- The stores take the supply's excess of the tick (07 R245). -/
theorem Blk.tickEnds_base (b : Blk) (x : TickIn) (v : Vector Bool 48) :
    (b.tickEnds x v).base = ({ b.core with supply := b.plan.supply + x.supply }, b.base.2) := by
  unfold Blk.tickEnds
  refine Eq.trans (b := ((((b.cells b.driven fun n c => c.driveTick (v.get n)).sweepGroups.supplyTick x.supply).captureTick.sampleTick).lifeTick x.thermal).base)
    rfl ?_
  rw [Blk.lifeTick_base, Blk.sampleTick_base, Blk.captureTick_base]
  have h := (Blk.sweepGroups_base _).trans (b.cells_base b.driven fun n c => c.driveTick (v.get n))
  exact congrArg (fun y : Core × Vector PlaneSt 3 × Ledger × Vector (Option Stream) 4 => ({ y.1 with supply := y.1.supply + x.supply }, y.2)) h

theorem Blk.atOnce_base (b old : Blk) : (b.atOnce old).base = b.base := by
  have ho := b.atOnce_outer old
  have hl : (b.atOnce old).ledg = b.ledg := by simp only [Blk.atOnce]
  have hs : (b.atOnce old).streams = b.streams := by simp only [Blk.atOnce]
  simp only [Blk.base, Blk.core_of_outer ho, Blk.planes_of_outer ho, hl, hs]

theorem Blk.tickStep_base (b : Blk) (x : TickIn) :
    (b.tickStep x).base = ({ b.core with tick := min 25 (b.tick + 1), supply := b.plan.supply + x.supply }, b.base.2) := by
  have h := (Blk.positionTick_base _).trans (b.tickBegins_base x)
  rw [Blk.tickStep, Blk.atOnce_base, b.motionTick_eq, Blk.tickEnds_base]
  generalize (b.tickBegins x).positionTick = p at h
  exact congrArg (fun y : Core × Vector PlaneSt 3 × Ledger × Vector (Option Stream) 4 => ({ y.1 with supply := y.1.supply + x.supply }, y.2)) h

end Sys2Proof.Machine
end

section
/-!
A motion tick of one axis (06 R184, R186, R197): a position move and a stop ramp are at the exact position of their pieces.
-/

namespace Sys2Proof.Machine

open Sys2Proof.Safety

/-! ### What ends a profile moves no position, and engages nothing -/

/-- A cell whose position stays, and which follows a master only if it did. -/
structure Cell.Free (c d : Cell) : Prop where
  pos : d.ax.mot.pCmd = c.ax.mot.pCmd
  engage : c.ax.mot.engage = none → d.ax.mot.engage = none

theorem Cell.Free.refl (c : Cell) : c.Free c := ⟨rfl, id⟩
theorem Cell.Free.trans {c d e : Cell} (h : c.Free d) (k : d.Free e) : c.Free e := ⟨k.pos.trans h.pos, k.engage ∘ h.engage⟩

theorem Cell.Free.ite {c d e : Cell} {p : Prop} [Decidable p] (hd : c.Free d) (he : c.Free e) : c.Free (if p then d else e) := by
  split
  · exact hd
  · exact he

theorem Cell.endJob_free (c : Cell) (done : Bool) : c.Free (c.endJob done) := ⟨(c.endJob_calm done).pos, fun h => by
  rw [c.endJob_mot]
  split <;> exact h⟩

theorem Cell.lifeCycle_free (c : Cell) : c.Free c.lifeCycle := ⟨c.lifeCycle_calm.pos, fun h => by rwa [c.lifeCycle_mot]⟩
theorem Cell.toHold_free (c : Cell) : c.Free c.toHold := ⟨c.toHold_calm.pos, fun _ => c.toHold_rests.engage⟩
theorem Cell.stopDone_free (c : Cell) : c.Free c.stopDone := ⟨c.stopDone_calm.pos, fun _ => c.stopDone_rests.engage⟩

theorem Cell.moveDone_free (c : Cell) : c.Free c.moveDone := by
  have hreport : ∀ l, c.Free (c.reportsDone l) := fun _ => ⟨rfl, id⟩
  unfold Cell.moveDone
  extract_lets seq q fallow d e
  clear_value q
  split
  · have he : c.Free e := (((hreport seq).trans (Cell.lifeCycle_free _)).trans (Cell.endJob_free _ _)).trans (Cell.toHold_free _)
    exact .ite (he.trans ⟨e.goFallow_calm.pos, fun _ => e.goFallow_rests.engage⟩) he
  · extract_lets direct d e g t
    have hd : c.Free d := .ite (.refl c) (hreport seq)
    have he : d.Free e := .trans (.ite (.refl d) d.lifeCycle_free) (Cell.endJob_free _ _)
    have hg : e.Free g := .ite ⟨rfl, id⟩ e.toHold_free
    exact ((hd.trans he).trans hg).trans ⟨rfl, id⟩

theorem Cell.stopAlong_engage (c : Cell) (k : StopKind) (p : Prof) : (c.stopAlong k p).ax.mot.engage = none := by
  unfold Cell.stopAlong
  extract_lets d
  split
  · exact d.stopDone_rests.engage
  · rfl

theorem Cell.stopAlong_free (c : Cell) (k : StopKind) (p : Prof) : c.Free (c.stopAlong k p) := ⟨(c.stopAlong_calm k p).pos, fun _ => c.stopAlong_engage k p⟩

theorem Cell.stopAgain_free (c : Cell) (k : StopKind) : c.Free (c.stopAgain k) := by
  have hmark : ∀ p, c.Free (c.mot fun x => { x with stopFrom := some (c.tickNo, p) }) := fun _ => ⟨rfl, id⟩
  unfold Cell.stopAgain
  extract_lets m
  split
  · exact .ite (.ite (c.stopAlong_free _ _) (.refl c)) (.ite ((hmark _).trans (Cell.stopAlong_free _ _ _)) (.refl c))
  · exact .refl c

theorem Cell.stop_free (c : Cell) (k : StopKind) : c.Free (c.stop k) := by
  refine ⟨(c.stop_calm k).pos, fun h => ?_⟩
  have hd : c.discard.ax.mot.engage = none := h
  have hhome : ∀ x : Cell, x.ax.mot.engage = none → x.homeFail.ax.mot.engage = none := fun x hx => by rwa [x.homeFail_mot]
  have hk : ∀ {p : Prop} [Decidable p] {x y : Cell}, x.ax.mot.engage = none → y.ax.mot.engage = none → (if p then x else y).ax.mot.engage = none :=
    fun hx hy => ite_keeps (fun c : Cell => c.ax.mot.engage) hx hy
  have hbrake : ∀ (x : Cell) w, (x.startBrake w).ax.mot.engage = none := fun x w => by rw [x.startBrake_mot]
  unfold Cell.stop
  extract_lets a m d1 d e f g from_
  refine hk hd (hk ?_ (hk (hk (hbrake ..) (hbrake ..)) (hk ((d.stopAgain_free k).engage hd) (hk hd (hk hd (Cell.stopAlong_engage ..))))))
  have h1 : d1.ax.mot.engage = none := hhome _ hd
  split <;> exact h1

theorem Cell.travelLimit_free (c : Cell) (old : Int) : c.Free (c.travelLimit old) := by
  have hraise : c.Free (c.raise AX.MOT_EVT.LIMIT) := ⟨rfl, id⟩
  exact .ite (hraise.trans (Cell.stop_free _ _)) (.refl c)

/-! ### The end of a move without a queue (06 R186, R180) -/

/-- A move whose end leaves nothing queued: its axis rests, without a job. -/
theorem Cell.moveDone_rests (c : Cell) (h : c.ax.mot.queued = none) :
    c.Rests c.moveDone ∧ c.moveDone.ax.mot.job = none ∧ AX.MOT_EVT.MOVE_DONE ∈ c.moveDone.flags := by
  have hl : ∀ l, ((c.reportsDone l).lifeCycle.endJob true).ax.mot.left = c.ax.mot.left := fun l => by rw [Cell.endJob_left, Cell.lifeCycle_mot]; rfl
  have hg : ∀ l, c.ax.mot.group = none → ((c.reportsDone l).lifeCycle.endJob true).ax.mot.group = none := fun l hg =>
    Cell.endJob_group _ _ (by rw [Cell.lifeCycle_mot]; exact hg)
  have hf : ∀ l, AX.MOT_EVT.MOVE_DONE ∈ (c.reportsDone l).flags := fun l => List.mem_append_right _ (List.mem_singleton.2 rfl)
  unfold Cell.moveDone
  extract_lets seq q fallow d e
  have hq : q = none := h
  clear_value q
  subst hq
  have he : c.Rests e := .after (hl seq) (hg seq) (Cell.toHold_rests _)
  have hj : e.ax.mot.job = none := (Cell.toHold_job _).trans (Cell.endJob_job _ true)
  have hfe : AX.MOT_EVT.MOVE_DONE ∈ e.flags :=
    (Cell.toHold_legsKept _).flags ((Cell.endJob_legsKept _ true).flags ((Cell.lifeCycle_legsKept _).flags (hf seq)))
  dsimp only
  split
  · exact ⟨.after he.left he.group e.goFallow_rests, e.goFallow_job.trans hj, e.goFallow_legsKept.flags hfe⟩
  · exact ⟨he, hj, hfe⟩

/-! ### The tick of a profile (06 R184, R197) -/

/-- A cell whose profile has gone on to a state. -/
def Cell.goesOn (c : Cell) (p : Prof) : Cell := (c.mot fun m => { m with prof := p }).putPos (roundAway p.p)

theorem Cell.profileTick_position (c : Cell) (hs : c.ax.starting = false) (hm : c.ax.mot.mode = .position) (hp : c.ax.mot.prof.segs ≠ []) :
    c.profileTick = if c.ax.mot.prof.tick.segs = [] then (c.goesOn c.ax.mot.prof.tick).moveDone else c.goesOn c.ax.mot.prof.tick := by
  unfold Cell.profileTick
  simp only [hs, hm, hp, Bool.false_and, Bool.false_eq_true, if_false]
  rfl

/-- A stop ramp's tick, with the travel limit that it may pass (06 R193). -/
def Cell.stopsOn (c : Cell) : Cell := (c.goesOn c.ax.mot.prof.stopTick).travelLimit c.ax.mot.pCmd

theorem Cell.profileTick_stopping (c : Cell) (hm : c.ax.mot.mode = .stopping) (hs : c.ax.bl.start = .none) (hb : c.ax.bl.brake = .none) :
    c.profileTick = if c.stopsOn.ax.mot.mode = .stopping && c.stopsOn.ax.mot.prof.atRest then c.stopsOn.stopDone else c.stopsOn := by
  unfold Cell.profileTick
  simp only [hm, hs, hb, bne_self_eq_false, Bool.and_false, Bool.or_false, Bool.false_eq_true, if_false]
  rfl

/-- A stop ramp is at the exact position of its pieces, and engages nothing. -/
theorem Cell.profileTick_of_stopping (c : Cell) (hm : c.ax.mot.mode = .stopping) (hs : c.ax.bl.start = .none) (hb : c.ax.bl.brake = .none) :
    (c.goesOn c.ax.mot.prof.stopTick).Free c.profileTick := by
  have h := (c.goesOn c.ax.mot.prof.stopTick).travelLimit_free c.ax.mot.pCmd
  rw [c.profileTick_stopping hm hs hb]
  exact .ite (.trans h c.stopsOn.stopDone_free) h

theorem Cell.measure_flags (c : Cell) : c.measure.flags = c.flags := by
  have h : ∀ d : Cell, d.blPosition.flags = d.flags := fun d => by
    unfold Cell.blPosition
    extract_lets a
    split
    · rfl
    · exact ite_keeps Cell.flags rfl (ite_keeps Cell.flags rfl rfl)
    · rfl
    · rfl
  exact ite_keeps Cell.flags ((h _).trans rfl) rfl

/-! ### A tick of the module, as an axis without a master or a group sees it -/

/-- The tick of an axis that neither follows a master nor belongs to a group takes its profile on, and passes the rest of the tick. -/
theorem Blk.tickStep_axis (b : Blk) (x : TickIn) {n : Fin 48} (hm : (b.axis n).motor ≠ Motor.none) (he : (b.axis n).mot.engage = none)
    (hg : (b.axis n).mot.group = none) (hl : (b.axis n).mot.mode ≠ .localSpeed) :
    ∃ c : Cell, c.ax.mot = (b.axis n).mot ∧ c.ax.bl = (b.axis n).bl ∧ c.ax.motor = (b.axis n).motor ∧ (c.profileTick.ax.mot.engage = none →
      c.profileTick.ax.Passes ((b.tickStep x).axis n) ∧ ∀ f ∈ c.profileTick.flags, f.ev < 6 → f.bit < 24 → ((b.tickStep x).axis n).flagged f) := by
  have h := b.tickBegins_early x n
  have hafter := b.tickStep_after x n
  obtain ⟨hmot, hbl⟩ := h.same hg hl
  generalize b.tickBegins x = d at *
  refine ⟨d.cellOf n, hmot, hbl, h.motor, fun hn => ?_⟩
  obtain ⟨c, hc, hcx⟩ := d.positionTick_axis (n := n) (by rw [h.motor]; exact hm) (by rw [hmot]; exact he) hn
  have hraised := c.cell_raised n fun c => c.profileTick.measure
  rw [hc, ← hcx] at hraised
  refine ⟨((Cell.measure_onCourse _).trans (Axis.OnCourse.steps.raised hraised)).passes.trans hafter, fun f hf hev hbit => hafter.flags.stays f hev hbit ?_⟩
  rw [hcx]
  exact c.cell_axis_flagged n _ (by rw [hc]; exact (Cell.measure_flags _).symm ▸ hf) hev hbit

theorem exec_motionTick {s : State} (x : TickIn) (h : s.blk.running = true) : exec (.motionTick x) s = onBlk (fun b => b.tickStep x) s := by
  show execMotionTick x s = _
  simp only [execMotionTick, onBlk, h, Bool.not_true, Bool.false_eq_true, if_false]
  rfl

/-! ### The clauses -/

theorem motionTick_leaves (s : State) (x : TickIn) : Does (.motionTick x) s fun t => if s.blk.running = false then t = s.blk else
      t.tick = min 25 (s.blk.tick + 1) ∧ t.swath = s.blk.swath ∧ t.sm = s.blk.sm ∧ t.planes = s.blk.planes ∧ t.owning = s.blk.owning
      ∧ t.plan.cands = s.blk.plan.cands ∧ t.plan.supply = s.blk.plan.supply + x.supply ∧ t.ledg = s.blk.ledg ∧ t.streams = s.blk.streams
      ∧ t.sides = s.blk.sides ∧ t.pw = s.blk.pw
      ∧ (∀ n, (t.axis n).motor = (s.blk.axis n).motor ∧ (t.axis n).legs.phase = (s.blk.axis n).legs.phase
      ∧ ((s.blk.axis n).mot.mode.running = false → (s.blk.axis n).mot.engage = none →
      (t.axis n).mot.mode = (s.blk.axis n).mot.mode ∧ (t.axis n).mot.pCmd = (s.blk.axis n).mot.pCmd)) := by
  cases hr : s.blk.running with
  | false =>
    refine does_of_onBlk (f := fun b => if !b.running then b else b.tickStep x) rfl ?_
    simp only [hr, Bool.not_false, if_true]
  | true =>
    refine does_of_onBlk (exec_motionTick x hr) ?_
    rw [if_neg (by decide)]
    obtain ⟨hcore, hrest⟩ := Prod.mk.inj (s.blk.tickStep_base x)
    obtain ⟨hplanes, hrest⟩ := Prod.mk.inj hrest
    obtain ⟨hledg, hstreams⟩ := Prod.mk.inj hrest
    refine ⟨congrArg Core.tick hcore, congrArg Core.swath hcore, Blk.sm_of_core hcore, hplanes, Blk.owning_of_core hcore, congrArg Core.cands hcore,
      congrArg Core.supply hcore, hledg, hstreams, congrArg Core.sides hcore, Blk.pw_of_core hcore, fun n => ?_⟩
    have h := s.blk.tickStep_ticks x n
    refine ⟨h.motor, h.phase, fun hrun he => ?_⟩
    obtain ⟨hmode, hpos, -⟩ := h.idle hrun he
    exact ⟨hmode, hpos⟩

theorem motionTick_position (s : State) (x : TickIn) (n : Fin 48) (hr : s.blk.running = true) (hm : (s.blk.axis n).motor ≠ Motor.none)
    (he : (s.blk.axis n).mot.engage = none) (hg : (s.blk.axis n).mot.group = none) (hs : (s.blk.axis n).starting = false)
    (hp : (s.blk.axis n).mot.mode = .position) (hsegs : (s.blk.axis n).mot.prof.segs ≠ []) :
    Does (.motionTick x) s fun t => (t.axis n).mot.pCmd = roundAway (s.blk.axis n).mot.prof.tick.p
      ∧ ((s.blk.axis n).stepper = true → (s.blk.axis n).mot.prof.tick.segs ≠ [] →
      (t.axis n).mot.mode = .position ∧ (t.axis n).mot.prof = (s.blk.axis n).mot.prof.tick)
      ∧ ((s.blk.axis n).stepper = true → (s.blk.axis n).mot.prof.tick.segs = [] → (s.blk.axis n).mot.queued = none →
      (t.axis n).mot.mode.running = false ∧ (t.axis n).mot.job = none ∧ (t.axis n).flagged AX.MOT_EVT.MOVE_DONE) := by
  refine does_of_onBlk (exec_motionTick x hr) ?_
  obtain ⟨c, hmot, hbl, hmotor, hafter⟩ := s.blk.tickStep_axis x hm he hg (by rw [hp]; decide)
  have hst : c.ax.starting = false := by rwa [Axis.starting, hbl]
  have htick := c.profileTick_position hst (by rwa [hmot]) (by rwa [hmot])
  rw [← hmot] at he hg hp ⊢
  have hfree : (c.goesOn c.ax.mot.prof.tick).Free c.profileTick := by
    rw [htick]
    exact .ite (Cell.moveDone_free _) (.refl _)
  obtain ⟨hpass, hflags⟩ := hafter (hfree.engage he)
  have hcourse : (s.blk.axis n).stepper = true → c.profileTick.ax.mot.group = none →
      ((s.blk.tickStep x).axis n).mot.course = c.profileTick.ax.mot.course := fun hs hn =>
    hpass.steady (c.profileTick_bears.motor.trans (hmotor.trans (by simpa [Axis.stepper] using hs))) hn
  refine ⟨hpass.pos.trans hfree.pos, fun hs hne => ?_, fun hs hnil hq => ?_⟩
  · rw [htick, if_neg hne] at hcourse
    obtain ⟨hmode, -, hprof, -⟩ := Motion.course_parts (hcourse hs hg)
    exact ⟨hmode.trans hp, hprof⟩
  · rw [htick, if_pos hnil] at hcourse hflags
    obtain ⟨hrests, hjob, hdone⟩ := (c.goesOn c.ax.mot.prof.tick).moveDone_rests (h := hq)
    obtain ⟨hmode, -, -, hj, -⟩ := Motion.course_parts (hcourse hs (hrests.group hg))
    exact ⟨by rw [hmode, hrests.running], hj.trans hjob, hflags _ hdone (by decide) (by decide)⟩

theorem motionTick_stopping (s : State) (x : TickIn) (n : Fin 48) (hr : s.blk.running = true) (hm : (s.blk.axis n).motor ≠ Motor.none)
    (he : (s.blk.axis n).mot.engage = none) (hp : (s.blk.axis n).mot.mode = .stopping) (hs : (s.blk.axis n).bl.start = .none)
    (hb : (s.blk.axis n).bl.brake = .none) (hg : (s.blk.axis n).mot.group = none) :
    Does (.motionTick x) s fun t => (t.axis n).mot.pCmd = roundAway (s.blk.axis n).mot.prof.stopTick.p := by
  refine does_of_onBlk (exec_motionTick x hr) ?_
  obtain ⟨c, hmot, hbl, -, hafter⟩ := s.blk.tickStep_axis x hm he hg (by rw [hp]; decide)
  rw [← hmot] at he hp ⊢
  have hfree := c.profileTick_of_stopping hp (by rwa [hbl]) (by rwa [hbl])
  obtain ⟨hpass, -⟩ := hafter (hfree.engage he)
  exact hpass.pos.trans hfree.pos

/-- Settles O45: an axis sees of a tick its own profile's step, since the steps before and after that take no profile on. -/
theorem motionTickMoves : Obligations.MotionTickMoves := ⟨motionTick_leaves, motionTick_position, motionTick_stopping⟩

end Sys2Proof.Machine
end
